-- ==== Sys2Proof/Word.lean ====
section
/-! DEFINITION. The words of the device, and the plain data that comes from outside it as operands of
commands: ports, pins and frames. -/

namespace Sys2Proof

/-- One byte. -/
abbrev Byte := BitVec 8

/-- One register word or command parameter (spec/00_scope.md). -/
abbrev Word := BitVec 32

/-- A stamp: cycle count in [47:20], angle within the cycle in [19:0] (spec/02_angle_and_clocks.md). -/
abbrev Stamp := BitVec 48

/-- The two command ports, p = 0 and p = 1 (spec/14_command_engine.md). -/
inductive Port where
  /-- Port 0, the SPI host port. -/
  | host
  /-- Port 1, the ring port. -/
  | ring
  deriving DecidableEq, Repr

/-- How a transaction of a regulator port ends on the bus (spec/09_regulator_ports.md R233). -/
inductive SmbResult where
  | ok
  /-- An address or data byte is not acknowledged. -/
  | nack
  /-- A read PEC does not match. -/
  | pec
  /-- Arbitration is lost. -/
  | arbLost
  /-- SCL stayed low for 30 ms (R222). -/
  | timeout
  deriving DecidableEq, Repr

/-- A ring port (spec/16_hexip_ring.md R408). -/
inductive RingPort where
  | east
  | west
  | spare
  deriving DecidableEq, Repr

/-- A cell of spec/16_hexip_ring.md R413, without its framing and CRC. -/
structure RingCell where
  dest    : BitVec 16
  src     : BitVec 16
  /-- The type of R414. -/
  kind    : BitVec 4
  /-- Set by the master on what it forwards (R415). -/
  m       : Bool
  cls     : BitVec 3
  hop     : BitVec 8
  seq     : BitVec 16
  /-- 56 bytes. -/
  payload : List Byte
  deriving DecidableEq, Repr

/-- What a dynamic image carries of a Quire (spec/12_twins_spares.md R295): `QUIREq_STATUS`, `QUIREq_DONE`,
`QUIREq_WAITING`, and what its step does: 0 nothing, 1 waits for its gate, 2 its action is due, 3 waits for its
conditions, 4 at its barrier, 5 waits out RETRY_OFF. -/
structure QuireMirror where
  status  : Word
  done    : Word
  waiting : Word
  doing   : BitVec 3
  deriving DecidableEq, Repr, Inhabited

/-- What a dynamic image carries of a rail: its rail-volt reading with its validity, `CAL_STATE`, RUSED, and whether
a retry cycle runs. -/
structure RailMirror where
  valid : Bool
  volts : Word
  cal   : BitVec 2
  rused : BitVec 3
  cycle : Bool
  deriving DecidableEq, Repr, Inhabited

/-- A dynamic image (R295, R297). `partners`: `PMPk_STATUS` and `PMPk_READ`. `returns`: partners with a pending margin
return, with their rail and the OPERATION value read at preflight. `crc`: the CRC-32 of the active's configuration image. -/
structure DynImage where
  latches  : BitVec 64
  quires   : Vector QuireMirror 16
  rails    : Vector RailMirror 64
  partners : Vector (Word × Word) 128
  returns  : List (Fin 128 × Fin 64 × Byte)
  crc      : Word
  deriving DecidableEq, Repr

/-- A configuration image (R295): registers by address, and the active's divider ratios. -/
structure CfgImage where
  entries : List (Nat × Word)
  ratios  : List Word
  deriving DecidableEq, Repr

end Sys2Proof
end

