-- ==== Sys2Proof/Machine/Numeric.lean ====
section
/-! DEFINITION. Arithmetic that several blocks use: square roots, roots of powers, angles, logarithms in base 2, and
the CRCs of frames and records. Fractions are held in fixed point (log entry 8). -/

namespace Sys2Proof.Machine

/-! ### Roots -/

/-- The largest `r` found by setting bits `b - 1` to 0 while `ok` holds. -/
def searchBits (ok : Nat → Bool) : Nat → Nat → Nat
  | 0, r => r
  | b + 1, r => searchBits ok b (if ok (r + 2 ^ b) then r + 2 ^ b else r)

/-- The square root, rounded down. -/
def isqrt (n : Nat) : Nat := searchBits (fun r => decide (r * r ≤ n)) (n.log2 / 2 + 1) 0

/-- The `m`-th root of `num / den`, rounded to the nearest; below 2^40. -/
def rootNear (m num den : Nat) : Nat :=
  searchBits (fun r => decide ((2 * r - 1) ^ m * den ≤ 2 ^ m * num)) 40 0

/-! ### Angles, in units of 2^-20 of 0.01 degree -/

/-- atan(2^-i). -/
def atanTable : List Int :=
  [4718592000, 2785547510, 1471806803, 747112114, 375005839, 187685731, 93865767, 46935748, 23468232, 11734161,
   5867086, 2933544, 1466772, 733386, 366693, 183346, 91673, 45837, 22918, 11459, 5730, 2865, 1432, 716, 358, 179, 90,
   45, 22, 11, 6, 3, 1, 1]

/-- Turns (x, y), x not negative, onto the axis. -/
def turnToAxis : List Int → Nat → Int → Int → Int → Int
  | [], _, _, _, a => a
  | t :: rest, i, x, y, a =>
    if 0 ≤ y then turnToAxis rest (i + 1) (x + y / 2 ^ i) (y - x / 2 ^ i) (a + t)
    else turnToAxis rest (i + 1) (x - y / 2 ^ i) (y + x / 2 ^ i) (a - t)

def halfTurn : Int := 18000 * 1048576

/-- The angle of (x, y), above -180 degrees and up to 180. -/
def angleXY (x y : Int) : Int :=
  if y = 0 then (if x < 0 then halfTurn else 0)
  else if 0 ≤ x then turnToAxis atanTable 0 (x * 2 ^ 44) (y * 2 ^ 44) 0
  else
    let a := turnToAxis atanTable 0 (-x * 2 ^ 44) (-y * 2 ^ 44) 0
    if 0 < y then a + halfTurn else a - halfTurn

/-- Turns (x, y) by an angle from -90 to 90 degrees, and lengthens it. -/
def turnBy : List Int → Nat → Int → Int → Int → Int × Int
  | [], _, x, y, _ => (x, y)
  | t :: rest, i, x, y, a =>
    if 0 ≤ a then turnBy rest (i + 1) (x - y / 2 ^ i) (y + x / 2 ^ i) (a - t)
    else turnBy rest (i + 1) (x + y / 2 ^ i) (y - x / 2 ^ i) (a + t)

/-- Sine and cosine, in units of 2^-30, of a phase in units of 2^-32 of a turn. -/
def sinCos (phase : Nat) : Int × Int :=
  let p := phase % 2 ^ 32
  let (x, y) := turnBy atanTable 0 10682906608694 0 ((p % 2 ^ 30 * 36000 : Nat) / 4096)
  let c := (x + 8192) / 16384
  let s := (y + 8192) / 16384
  match p / 2 ^ 30 with
  | 0 => (s, c)
  | 1 => (c, -s)
  | 2 => (-s, -c)
  | _ => (-c, s)

/-! ### Logarithms in base 2, in units of 2^-32 -/

/-- The fraction bits of the logarithm of `m / 2^63`, for `m` from 2^63 to 2^64. -/
def logBits : Nat → Nat → Nat → Nat
  | 0, _, acc => acc
  | k + 1, m, acc =>
    let q := m * m / 2 ^ 63
    if 2 ^ 64 ≤ q then logBits k (q / 2) (2 * acc + 1) else logBits k q (2 * acc)

/-- log2 of `num / den`; both positive. -/
def log2Fix (num den : Nat) : Int :=
  let r : Nat := num * 2 ^ 192 / den
  let e : Nat := r.log2
  let m : Nat := if 63 ≤ e then r / 2 ^ (e - 63) else r * 2 ^ (63 - e)
  ((e : Int) - 192) * 4294967296 + (logBits 32 m 0 : Nat)

/-- 2^f in units of 2^-64, for the `k` bits of `f` below the point from the highest on; `r` is 2^(2^-i). -/
def expBits : Nat → Nat → Nat → Nat → Nat
  | 0, _, _, acc => acc
  | k + 1, f, r, acc =>
    expBits k f (isqrt (r * 2 ^ 64)) (if f / 2 ^ k % 2 = 1 then acc * r / 2 ^ 64 else acc)

/-- 2 to a power that is not negative, in units of 2^-16. -/
def exp2Fix (e : Nat) : Nat :=
  2 ^ (e / 2 ^ 32) * expBits 32 (e % 2 ^ 32) (isqrt (2 ^ 129)) (2 ^ 64) / 2 ^ 48

/-! ### CRCs -/

/-- One byte of a CRC whose bits enter most significant first. -/
def crcByte (width poly : Nat) (crc byte : Nat) : Nat :=
  (List.range 8).foldl (fun c i =>
    let top := c / 2 ^ (width - 1) % 2
    let b := byte / 2 ^ (7 - i) % 2
    let c := c * 2 % 2 ^ width
    if top = b then c else Nat.xor c poly) crc

/-- One byte of the reflected CRC-32. -/
def crc32Byte (crc byte : Nat) : Nat :=
  (List.range 8).foldl (fun c _ => if c % 2 = 1 then Nat.xor (c / 2) 0xEDB88320 else c / 2) (Nat.xor crc byte)

/-- CRC-32 of IEEE 802.3. -/
def crc32 (bytes : List Nat) : Nat := Nat.xor (bytes.foldl crc32Byte 0xFFFFFFFF) 0xFFFFFFFF

/-- The bytes of a number, most significant first. -/
def beBytes (n v : Nat) : List Nat := (List.range n).map fun i => v / 256 ^ (n - 1 - i) % 256

/-- The number that bytes spell, most significant first. -/
def ofBytes (l : List Nat) : Nat := l.foldl (fun a b => a * 256 + b) 0

/-- Bytes as 32-bit words, most significant byte first. -/
def wordsOf : Nat → List Nat → List (BitVec 32)
  | 0, _ => []
  | k + 1, l => BitVec.ofNat 32 (ofBytes (l.take 4)) :: wordsOf k (l.drop 4)

end Sys2Proof.Machine
end

