-- ==== Sys2Proof/Machine/Crypto.lean ====
section
/-! DEFINITION. The ciphers the manual names by their standards: AES-128 (FIPS 197), its CMAC (NIST SP 800-38B),
SHA-256 (FIPS 180-4), and ECDSA over P-256 (FIPS 186-4). Bytes are numbers below 256. -/

namespace Sys2Proof.Machine

/-! ### AES-128 -/

/-- A byte times x in GF(2^8). -/
def xtime (a : Nat) : Nat := if a < 128 then 2 * a else Nat.xor (2 * a - 256) 0x1B

/-- The product of two bytes in GF(2^8), by the lowest `k` bits of the second. -/
def gfMul : Nat → Nat → Nat → Nat
  | 0, _, _ => 0
  | k + 1, a, b => Nat.xor (if b % 2 = 1 then a else 0) (gfMul k (xtime a) (b / 2))

def gfSq (a : Nat) : Nat := gfMul 8 a a

/-- The inverse of a byte in GF(2^8), a^254; 0 for 0. -/
def gfInv (a : Nat) : Nat :=
  let a2 := gfSq a
  let a3 := gfMul 8 a2 a
  let a12 := gfSq (gfSq a3)
  let a15 := gfMul 8 a12 a3
  let a240 := gfSq (gfSq (gfSq (gfSq a15)))
  gfMul 8 (gfMul 8 a240 a12) a2

/-- A byte rotated left. -/
def rotByte (a n : Nat) : Nat := (a * 2 ^ n + a / 2 ^ (8 - n)) % 256

/-- The S-box of AES. -/
def aesSub (a : Nat) : Nat :=
  let i := gfInv a
  Nat.xor 0x63 (Nat.xor i (Nat.xor (rotByte i 1) (Nat.xor (rotByte i 2) (Nat.xor (rotByte i 3) (rotByte i 4)))))

def xorBytes (a b : List Nat) : List Nat := List.zipWith Nat.xor a b

/-- The round keys after a round key of 16 bytes, `n` of them. -/
def aesKeys : Nat → List Nat → Nat → List (List Nat)
  | 0, _, _ => []
  | n + 1, k, rcon =>
    let w (i : Nat) : List Nat := (k.drop (4 * i)).take 4
    let t := (w 3).map aesSub
    let t := t.drop 1 ++ t.take 1
    let t := match t with | x :: r => Nat.xor x rcon :: r | [] => []
    let w0 := xorBytes (w 0) t
    let w1 := xorBytes (w 1) w0
    let w2 := xorBytes (w 2) w1
    let k := w0 ++ w1 ++ w2 ++ xorBytes (w 3) w2
    k :: aesKeys n k (xtime rcon)

/-- Row r of the state, which is held column by column, moves left by r columns. -/
def shiftRows (b : List Nat) : List Nat := (List.range 16).map fun i => b.getD ((i + 4 * (i % 4)) % 16) 0

def mixColumn (c : List Nat) : List Nat :=
  (List.range 4).map fun i =>
    let g (j : Nat) : Nat := c.getD ((i + j) % 4) 0
    Nat.xor (xtime (g 0)) (Nat.xor (Nat.xor (xtime (g 1)) (g 1)) (Nat.xor (g 2) (g 3)))

def mixColumns (b : List Nat) : List Nat := (List.range 4).flatMap fun i => mixColumn ((b.drop (4 * i)).take 4)

/-- The rounds after the first key addition; the last one mixes no columns. -/
def aesRounds : List (List Nat) → List Nat → List Nat
  | [], b => b
  | [k], b => xorBytes (shiftRows (b.map aesSub)) k
  | k :: rest, b => aesRounds rest (xorBytes (mixColumns (shiftRows (b.map aesSub))) k)

/-- AES-128 of one block of 16 bytes. -/
def aesBlock (key b : List Nat) : List Nat := aesRounds (aesKeys 10 key 1) (xorBytes b key)

/-! ### CMAC -/

/-- A block doubled in GF(2^128). -/
def cmacDouble (b : List Nat) : List Nat :=
  let v := ofBytes b
  beBytes 16 (if v < 2 ^ 127 then 2 * v else Nat.xor (2 * v - 2 ^ 128) 0x87)

def zeros (n : Nat) : List Nat := List.replicate n 0

/-- The chaining over the message, `n` blocks at most. -/
def cmacChain : Nat → List Nat → List Nat → List Nat → List Nat → List Nat → List Nat
  | 0, _, _, _, c, _ => c
  | n + 1, key, k1, k2, c, m =>
    if 16 < m.length then cmacChain n key k1 k2 (aesBlock key (xorBytes c (m.take 16))) (m.drop 16)
    else if m.length = 16 then aesBlock key (xorBytes c (xorBytes m k1))
    else aesBlock key (xorBytes c (xorBytes (m ++ [0x80] ++ zeros (15 - m.length)) k2))

/-- The AES-128 CMAC of a message. -/
def cmac (key m : List Nat) : List Nat :=
  let k1 := cmacDouble (aesBlock key (zeros 16))
  cmacChain (m.length / 16 + 1) key k1 (cmacDouble k1) (zeros 16) m

/-! ### SHA-256 -/

def shaK : List Nat :=
  [0x428a2f98, 0x71374491, 0xb5c0fbcf, 0xe9b5dba5, 0x3956c25b, 0x59f111f1, 0x923f82a4, 0xab1c5ed5] ++
  [0xd807aa98, 0x12835b01, 0x243185be, 0x550c7dc3, 0x72be5d74, 0x80deb1fe, 0x9bdc06a7, 0xc19bf174] ++
  [0xe49b69c1, 0xefbe4786, 0x0fc19dc6, 0x240ca1cc, 0x2de92c6f, 0x4a7484aa, 0x5cb0a9dc, 0x76f988da] ++
  [0x983e5152, 0xa831c66d, 0xb00327c8, 0xbf597fc7, 0xc6e00bf3, 0xd5a79147, 0x06ca6351, 0x14292967] ++
  [0x27b70a85, 0x2e1b2138, 0x4d2c6dfc, 0x53380d13, 0x650a7354, 0x766a0abb, 0x81c2c92e, 0x92722c85] ++
  [0xa2bfe8a1, 0xa81a664b, 0xc24b8b70, 0xc76c51a3, 0xd192e819, 0xd6990624, 0xf40e3585, 0x106aa070] ++
  [0x19a4c116, 0x1e376c08, 0x2748774c, 0x34b0bcb5, 0x391c0cb3, 0x4ed8aa4a, 0x5b9cca4f, 0x682e6ff3] ++
  [0x748f82ee, 0x78a5636f, 0x84c87814, 0x8cc70208, 0x90befffa, 0xa4506ceb, 0xbef9a3f7, 0xc67178f2]

def shaInit : List Nat :=
  [0x6a09e667, 0xbb67ae85, 0x3c6ef372, 0xa54ff53a, 0x510e527f, 0x9b05688c, 0x1f83d9ab, 0x5be0cd19]

def rotR (a n : Nat) : Nat := (a / 2 ^ n + a * 2 ^ (32 - n)) % 2 ^ 32

/-- The message schedule, newest first, extended by `n` words. -/
def shaSchedule : Nat → List Nat → List Nat
  | 0, w => w
  | n + 1, w =>
    let g (i : Nat) : Nat := w.getD (i - 1) 0
    let s0 := Nat.xor (rotR (g 15) 7) (Nat.xor (rotR (g 15) 18) (g 15 / 8))
    let s1 := Nat.xor (rotR (g 2) 17) (Nat.xor (rotR (g 2) 19) (g 2 / 1024))
    shaSchedule n (((g 16 + s0 + g 7 + s1) % 2 ^ 32) :: w)

def shaRound (h : List Nat) (kw : Nat × Nat) : List Nat :=
  match h with
  | [a, b, c, d, e, f, g, x] =>
    let s1 := Nat.xor (rotR e 6) (Nat.xor (rotR e 11) (rotR e 25))
    let ch := Nat.xor (Nat.land e f) (Nat.land (0xFFFFFFFF - e) g)
    let t1 := x + s1 + ch + kw.1 + kw.2
    let s0 := Nat.xor (rotR a 2) (Nat.xor (rotR a 13) (rotR a 22))
    let maj := Nat.xor (Nat.land a b) (Nat.xor (Nat.land a c) (Nat.land b c))
    [(t1 + s0 + maj) % 2 ^ 32, a, b, c, (d + t1) % 2 ^ 32, e, f, g]
  | _ => h

/-- One block of 64 bytes. -/
def shaBlock (h b : List Nat) : List Nat :=
  let w := (List.range 16).map fun i => ofBytes ((b.drop (4 * i)).take 4)
  let w := (shaSchedule 48 w.reverse).reverse
  List.zipWith (fun x y => (x + y) % 2 ^ 32) h ((shaK.zip w).foldl shaRound h)

def shaChain : Nat → List Nat → List Nat → List Nat
  | 0, h, _ => h
  | n + 1, h, m => shaChain n (shaBlock h (m.take 64)) (m.drop 64)

/-- SHA-256 of a message: 32 bytes. -/
def sha256 (m : List Nat) : List Nat :=
  let pad := (119 - m.length % 64) % 64
  let m' := m ++ [0x80] ++ zeros pad ++ beBytes 8 (8 * m.length)
  (shaChain (m'.length / 64) shaInit m').flatMap (beBytes 4)

/-! ### ECDSA over P-256 -/

def p256P : Nat := 2 ^ 256 - 2 ^ 224 + 2 ^ 192 + 2 ^ 96 - 1
def p256N : Nat := 0xFFFFFFFF00000000FFFFFFFFFFFFFFFFBCE6FAADA7179E84F3B9CAC2FC632551
def p256B : Nat := 0x5AC635D8AA3A93E7B3EBBD55769886BC651D06B0CC53B0F63BCE3C3E27D2604B
def p256G : Nat × Nat :=
  (0x6B17D1F2E12C4247F8BCE6E563A440F277037D812DEB33A0F4A13945D898C296,
   0x4FE342E2FE1A7F9B8EE7EB4A7C0F9E162BCE33576B315ECECBB6406837BF51F5)

/-- A power modulo m, by the lowest `k` bits of the exponent. -/
def powMod : Nat → Nat → Nat → Nat → Nat
  | 0, _, _, _ => 1
  | k + 1, m, a, e => (if e % 2 = 1 then a else 1) * powMod k m (a * a % m) (e / 2) % m

/-- The inverse modulo a prime below 2^256. -/
def invMod (m a : Nat) : Nat := powMod 256 m (a % m) (m - 2)

/-- The sum of two points of the curve y² = x³ - 3x + b; none is the point at infinity. -/
def pointAdd : Option (Nat × Nat) → Option (Nat × Nat) → Option (Nat × Nat)
  | none, q => q
  | q, none => q
  | some (x1, y1), some (x2, y2) =>
    let p := p256P
    if x1 = x2 ∧ (y1 + y2) % p = 0 then none
    else
      let l := if x1 = x2 then (3 * x1 * x1 + (p - 3)) * invMod p (2 * y1) % p else (y2 + p - y1) * invMod p (x2 + p - x1) % p
      let x := (l * l + 2 * p - x1 - x2) % p
      some (x, (l * (x1 + p - x) + p - y1) % p)

/-- A multiple of a point, by the lowest `k` bits of the factor. -/
def pointMul : Nat → Nat → Option (Nat × Nat) → Option (Nat × Nat)
  | 0, _, _ => none
  | k + 1, e, q => pointAdd (if e % 2 = 1 then q else none) (pointMul k (e / 2) (pointAdd q q))

/-- Whether the signature (r, s) of a digest verifies under the public key Q, each as 64, 32 and 64 bytes. -/
def ecdsaVerify (key digest sig : List Nat) : Bool :=
  let (x, y) := (ofBytes (key.take 32), ofBytes (key.drop 32))
  let (r, s) := (ofBytes (sig.take 32), ofBytes (sig.drop 32))
  if p256P ≤ x ∨ p256P ≤ y ∨ y * y % p256P ≠ (x * x * x + (p256P - 3) * x + p256B) % p256P then false
  else if r = 0 ∨ p256N ≤ r ∨ s = 0 ∨ p256N ≤ s then false
  else
    let w := invMod p256N s
    match pointAdd (pointMul 256 (ofBytes digest * w % p256N) (some p256G)) (pointMul 256 (r * w % p256N) (some (x, y))) with
    | some (px, _) => px % p256N == r
    | none => false

end Sys2Proof.Machine
end

