-- ==== Sys2Proof/Config.lean ====
section
/-! DEFINITION. What an implementation fixes and what the manual leaves open: the free values. None has a
body, so no proof can see which value it is (log entry 3). Each is applied to the counter
`State.freeCount`, or to the operands it depends on. -/

namespace Sys2Proof.Config

/-- A fresh random byte of the random source (spec/17_modes_security_debug.md R456): the manual names no
value. -/
opaque randomByte : Nat → BitVec 8

/-- The result of a calculation whose exact value lies half-way between two codes where the manual says
"rounded" and no more, or between two codes where it names no rounding: `true` takes the upper (log entry 5). -/
opaque tieUp : Nat → Bool

/-- The frequency of the fallback oscillator before it is measured, taken within 180 MHz ±8 % (spec/02_angle_and_clocks.md
R43): the manual names no value. -/
opaque fallbackFreq : BitVec 16

/-- A value the manual leaves unstated, named by the operand it would depend on. -/
opaque unstated : Nat → BitVec 32

/-- The factory coefficients of an internal pool input at a gain stage, offset and gain as the pool pairs hold them
(spec/05_converter_benches.md R123 names them and gives no values). -/
opaque factoryCoeff : Nat → Nat → BitVec 24 × BitVec 24

/-- The feedback taps of the maximum-length sequence of an order, and the register's state at chip 0
(spec/08_margin_sounding.md R213 names neither). Taps that give no maximum length are not taken. -/
opaque mlsTaps : Nat → BitVec 16
opaque mlsSeed : Nat → BitVec 16

/-- The ordering code that the Colophon shows: `true` for SV6472-FH (spec/18_startup_reset.md R485). -/
opaque orderingFH : Bool

/-- The ROM version (R485, spec/14_command_engine.md R384). -/
opaque romVersion : BitVec 16

/-- The unique die identity (R485). -/
opaque dieIdentity : BitVec 64

/-- The master identity, as `RING_MID` (R485). -/
opaque masterIdentity : BitVec 32

/-- Year and week of manufacture (R485). -/
opaque manufactured : BitVec 24

/-- The JTAG port (spec/17_modes_security_debug.md R470, spec/20_electrical.md R520): the length of the instruction register,
the instruction that a code other than all ones selects (0 BYPASS, 1 IDCODE, 2 SAMPLE/PRELOAD, 3 EXTEST, 4 CLAMP, 5 HIGHZ, from
6 on the private ones), the identity word, and the lengths of the boundary register and of a private instruction's: the manual
names none of them. -/
opaque irLength : Nat
opaque irCode : List Bool → Nat
opaque idcode : BitVec 32
opaque boundaryLength : Nat
opaque privateLength : Nat → Nat

end Sys2Proof.Config
end

