-- ==== Sys2Proof/Machine/RegMap.lean ====
section
/-! DEFINITION. The register map: the byte address of every register of spec/21_register_index.md, and the
place of every field the register tables of spec/02 to spec/18 give it. A register array takes its index (or
its two indexes) as arguments. The names are the manual's own. -/

namespace Sys2Proof.Machine

/-- A field of a register: the register's byte address, the field's lowest bit and its width. -/
structure Field where
  addr  : Nat
  lo    : Nat
  width : Nat
  deriving DecidableEq, Repr

namespace R

/-! ### Colophon and global (R193, R261, R487; spec/21_register_index.md R525 to R528) -/

def COL_Wk (i : Nat) : Nat := 0x0000 + 0x4 * i
def RST_CAUSE : Nat := 0x0100
def RST_CNT : Nat := 0x0104
def RST_WDN : Nat := 0x0108
def RST_STATUS : Nat := 0x010C
def SEQ_RAILk (i : Nat) : Nat := 0x0200 + 0x4 * i
def SEQ_CTRL : Nat := 0x0240
def SEQ_STATUS : Nat := 0x0244
def SEQ_FAIL : Nat := 0x0248
def SEQ_FAIL_LO : Nat := 0x024C
def SEQ_FAIL_HI : Nat := 0x0250
def TALLY_OUTk (i : Nat) : Nat := 0x0260 + 0x4 * i
/-! ### Clocks and angle -/

def CLK_CFG : Nat := 0x0400
def CLK_CTRL : Nat := 0x0404
def CLK_STATUS : Nat := 0x0408
def CLK_FB_MEAS : Nat := 0x040C
def CLK_LOL_CNT : Nat := 0x0410
def ANG_CFG : Nat := 0x0420
def ANG_CTRL : Nat := 0x0424
def ANG_STATUS : Nat := 0x0428
def ANG_STAMP_HI : Nat := 0x042C
def ANG_STAMP_LO : Nat := 0x0430
def ANG_INC : Nat := 0x0434
def ANG_PERIOD : Nat := 0x0438
def ANG_PHASE : Nat := 0x043C
def ANG_HOLD_MAX : Nat := 0x0440
def ANG_STRAY_CNT : Nat := 0x0444
def ANG_FREE_INC : Nat := 0x0448
def ANG_HOPk_PERIOD (i : Nat) : Nat := 0x0480 + 0x8 * i
def ANG_HOPk_CTRL (i : Nat) : Nat := 0x0484 + 0x8 * i
/-! ### Fault collector (R288) -/

def FLT_SRCs_CFG (i : Nat) : Nat := 0x0800 + 0x4 * i
def FLT_SRCs_STAT (i : Nat) : Nat := 0x0980 + 0x4 * i
def FLT_STICKY0 : Nat := 0x0B00
def FLT_STICKY1 : Nat := 0x0B04
def FLT_STICKY2 : Nat := 0x0B08
def FLT_FATAL_CFG : Nat := 0x0B0C
def FLT_STATUS : Nat := 0x0B10
def FLT_CLEAR : Nat := 0x0B14
def FLT_INJ : Nat := 0x0B18
def FLT_CNT_x (i : Nat) : Nat := 0x0B20 + 0x4 * i
def FLT_QSTAT : Nat := 0x0B40
def FLT_SHl_MASK0 (i : Nat) : Nat := 0x0B80 + 0x10 * i
def FLT_SHl_MASK1 (i : Nat) : Nat := 0x0B84 + 0x10 * i
def FLT_SHl_MASK2 (i : Nat) : Nat := 0x0B88 + 0x10 * i
def FLT_SHl_CFG (i : Nat) : Nat := 0x0B8C + 0x10 * i
/-! ### Event controller (R289) -/

def EVT_Gg_STATUS (i : Nat) : Nat := 0x0C00 + 0x20 * i
def EVT_Gg_EN (i : Nat) : Nat := 0x0C04 + 0x20 * i
def EVT_Gg_ROUTE_IRQ (i : Nat) : Nat := 0x0C08 + 0x20 * i
def EVT_Gg_ROUTE_HOST (i : Nat) : Nat := 0x0C0C + 0x20 * i
def EVT_Gg_ROUTE_RING (i : Nat) : Nat := 0x0C10 + 0x20 * i
def EVT_SUMMARY : Nat := 0x0D00
/-! ### Tally (R260) -/

def Tn_CFG (i : Nat) : Nat := 0x1000 + 0x20 * i
def Tn_COUNT (i : Nat) : Nat := 0x1004 + 0x20 * i
def Tn_CMP (i : Nat) : Nat := 0x1008 + 0x20 * i
def Tn_INTV (i : Nat) : Nat := 0x100C + 0x20 * i
def Tn_CAP (i : Nat) : Nat := 0x1010 + 0x20 * i
def Tn_STATUS (i : Nat) : Nat := 0x1014 + 0x20 * i
def Tn_MATCHED (i : Nat) : Nat := 0x1018 + 0x20 * i
/-! ### Folio (R353) -/

def FOLIO_CFG : Nat := 0x1400
def FOLIO_CTRL : Nat := 0x1404
def FOLIO_STATUS : Nat := 0x1408
def FOLIO_AT_HI : Nat := 0x140C
def FOLIO_AT_LO : Nat := 0x1410
def FOLIO_AT_ID : Nat := 0x1414
def FOLIO_IDX : Nat := 0x1418
def FOLIO_DATA : Nat := 0x141C
def FOLIO_EVT : Nat := 0x1420
/-! ### Pool converters -/

def PCn_CFG (i : Nat) : Nat := 0x1800 + 0x40 * i
def PCn_STATUS (i : Nat) : Nat := 0x1804 + 0x40 * i
def PCn_CNT (i : Nat) : Nat := 0x1808 + 0x40 * i
def PCn_FACx_OFFSET (i j : Nat) : Nat := 0x180C + 0x40 * i + 0x8 * j
def PCn_FACx_GAIN (i j : Nat) : Nat := 0x1810 + 0x40 * i + 0x8 * j
def POOL_HU_CFG : Nat := 0x1A80
def POOL_HU_RES : Nat := 0x1A84
def POOL_CAL_IDX : Nat := 0x1A88
def POOL_CAL_OFFSET : Nat := 0x1A8C
def POOL_CAL_GAIN : Nat := 0x1A90
def POOL_CAL_TARGET : Nat := 0x1A94
def POOL_CAL_STATUS : Nat := 0x1A98
/-! ### Benches -/

def BENCH_LAYOUT : Nat := 0x1C00
def BENCH_MAP : Nat := 0x1C04
def BENCHb_CFG (i : Nat) : Nat := 0x1C20 + 0x20 * i
def BENCHb_CTRL (i : Nat) : Nat := 0x1C24 + 0x20 * i
def BENCHb_STATUS (i : Nat) : Nat := 0x1C28 + 0x20 * i
def BENCHb_TRIG (i : Nat) : Nat := 0x1C2C + 0x20 * i
def BENCHb_ITRIG (i : Nat) : Nat := 0x1C30 + 0x20 * i
def BENCHb_RTAG (i : Nat) : Nat := 0x1C34 + 0x20 * i
def BENCHb_RSTAMP_HI (i : Nat) : Nat := 0x1C38 + 0x20 * i
def BENCHb_RSTAMP_LO (i : Nat) : Nat := 0x1C3C + 0x20 * i
def BENCH_REGk_CFG (i : Nat) : Nat := 0x1D20 + 0x4 * i
def BENCH_REGk_RES (i : Nat) : Nat := 0x1DE0 + 0x4 * i
def BENCHb_INJj_CFG (i j : Nat) : Nat := 0x1EA0 + 0x10 * i + 0x4 * j
def BENCHb_INJj_RES (i j : Nat) : Nat := 0x1F20 + 0x10 * i + 0x4 * j
/-! ### Assay (R161) -/

def ASSAY_CFG : Nat := 0x2000
def ASSAY_CONV_TOL : Nat := 0x2004
def ASSAY_RAIL_TOL : Nat := 0x2008
def ASSAY_REF_TOL : Nat := 0x200C
def ASSAY_STATUS : Nat := 0x2010
def ASSAY_VERDICT : Nat := 0x2014
def ASSAY_CONV_MISS : Nat := 0x2018
def ASSAY_REF_DIFF : Nat := 0x201C
def ASSAY_REF_RATIO : Nat := 0x2020
def ASSAY_SF_IDX : Nat := 0x2024
def ASSAY_SF_GAIN : Nat := 0x2028
def ASSAY_SF_OFFSET : Nat := 0x202C
def ASSAY_CNT : Nat := 0x2030
/-! ### Quires -/

def QUIREq_CFG (i : Nat) : Nat := 0x2400 + 0x40 * i
def QUIREq_CTRL (i : Nat) : Nat := 0x2404 + 0x40 * i
def QUIREq_STATUS (i : Nat) : Nat := 0x2408 + 0x40 * i
def QUIREq_MEMBERS_LO (i : Nat) : Nat := 0x240C + 0x40 * i
def QUIREq_MEMBERS_HI (i : Nat) : Nat := 0x2410 + 0x40 * i
def QUIREq_STEP_IDX (i : Nat) : Nat := 0x2414 + 0x40 * i
def QUIREq_STEP0 (i : Nat) : Nat := 0x2418 + 0x40 * i
def QUIREq_STEP1 (i : Nat) : Nat := 0x241C + 0x40 * i
def QUIREq_STEP2 (i : Nat) : Nat := 0x2420 + 0x40 * i
def QUIREq_STEP3 (i : Nat) : Nat := 0x2424 + 0x40 * i
def QUIREq_STEP4 (i : Nat) : Nat := 0x2428 + 0x40 * i
def QUIREq_STEP5 (i : Nat) : Nat := 0x242C + 0x40 * i
def QUIREq_DONE (i : Nat) : Nat := 0x2430 + 0x40 * i
def QUIREq_WAITING (i : Nat) : Nat := 0x2434 + 0x40 * i
def QUIREq_EVT (i : Nat) : Nat := 0x2438 + 0x40 * i
def QUIREq_CNT (i : Nat) : Nat := 0x243C + 0x40 * i
/-! ### Margin and Sounding -/

def MARGn_LEVEL (i : Nat) : Nat := 0x2800 + 0x10 * i
def MARGn_EXPECT (i : Nat) : Nat := 0x2804 + 0x10 * i
def MARGn_CFG (i : Nat) : Nat := 0x2808 + 0x10 * i
def MARGn_STATUS (i : Nat) : Nat := 0x280C + 0x10 * i
def MARG_CTRL : Nat := 0x2C00
def MARG_CAP_IDX : Nat := 0x2C04
def MARG_CAP : Nat := 0x2C08
def MARG_EVT : Nat := 0x2C0C
def SND_CFG : Nat := 0x2C10
def SND_FREQ : Nat := 0x2C14
def SND_AMP : Nat := 0x2C18
def SND_RAILS_LO : Nat := 0x2C1C
def SND_RAILS_HI : Nat := 0x2C20
def SND_QUIET_OPEN : Nat := 0x2C24
def SND_QUIET_CLOSE : Nat := 0x2C28
def SND_AT_HI : Nat := 0x2C2C
def SND_AT_LO : Nat := 0x2C30
def SND_TAG : Nat := 0x2C34
def SND_CTRL : Nat := 0x2C38
def SND_STATUS : Nat := 0x2C3C
def SND_RES_IDX : Nat := 0x2C40
def SND_RES_FREQ : Nat := 0x2C44
def SND_RES_MAG : Nat := 0x2C48
def SND_RES_PHASE : Nat := 0x2C4C
def SND_SUM_H0 : Nat := 0x2C50
def SND_SUM_XOVER : Nat := 0x2C54
def SND_SUM_PM : Nat := 0x2C58
def SND_SUM_FLAGS : Nat := 0x2C5C
def SND_ARC_CNT : Nat := 0x2C60
def SND_EVT : Nat := 0x2C64
/-! ### Regulator ports (R241) -/

def PMp_CFG (i : Nat) : Nat := 0x3000 + 0x40 * i
def PMp_STATUS (i : Nat) : Nat := 0x3004 + 0x40 * i
def PMp_EVT (i : Nat) : Nat := 0x3008 + 0x40 * i
def PMp_CNT (i : Nat) : Nat := 0x300C + 0x40 * i
def PMp_ALERT (i : Nat) : Nat := 0x3010 + 0x40 * i
def PM_XFER_CTRL : Nat := 0x3100
def PM_XFER_DATA : Nat := 0x3104
def PM_XFER_STATUS : Nat := 0x3108
def PMPk_CFG (i : Nat) : Nat := 0x3800 + 0x10 * i
def PMPk_MASK (i : Nat) : Nat := 0x3804 + 0x10 * i
def PMPk_STATUS (i : Nat) : Nat := 0x3808 + 0x10 * i
def PMPk_READ (i : Nat) : Nat := 0x380C + 0x10 * i
/-! ### Rail channels (R111) -/

def RAILn_GUARD_CFG (i : Nat) : Nat := 0x4000 + 0x80 * i
def RAILn_GUARD_OV (i : Nat) : Nat := 0x4004 + 0x80 * i
def RAILn_GUARD_UV (i : Nat) : Nat := 0x4008 + 0x80 * i
def RAILn_GUARD_FILT (i : Nat) : Nat := 0x400C + 0x80 * i
def RAILn_DIV (i : Nat) : Nat := 0x4010 + 0x80 * i
def RAILn_GUARD_STATUS (i : Nat) : Nat := 0x4014 + 0x80 * i
def RAILn_GUARD_EVT (i : Nat) : Nat := 0x4018 + 0x80 * i
def RAILn_EN_CTRL (i : Nat) : Nat := 0x401C + 0x80 * i
def RAILn_GUARD_CNT (i : Nat) : Nat := 0x4020 + 0x80 * i
def RAILn_PROOF (i : Nat) : Nat := 0x4024 + 0x80 * i
def RAILn_FINE_CFG (i : Nat) : Nat := 0x4040 + 0x80 * i
def RAILn_FINE_RESULT (i : Nat) : Nat := 0x4044 + 0x80 * i
def RAILn_FINE_TAG (i : Nat) : Nat := 0x4048 + 0x80 * i
def RAILn_FINE_RAILV (i : Nat) : Nat := 0x404C + 0x80 * i
def RAILn_FINE_WIN_HI (i : Nat) : Nat := 0x4050 + 0x80 * i
def RAILn_FINE_WIN_LO (i : Nat) : Nat := 0x4054 + 0x80 * i
def RAILn_FINE_SLOPE (i : Nat) : Nat := 0x4058 + 0x80 * i
def RAILn_FINE_RIPPLE (i : Nat) : Nat := 0x405C + 0x80 * i
def RAILn_FINE_MON (i : Nat) : Nat := 0x4060 + 0x80 * i
def RAILn_FINE_STAMP_HI (i : Nat) : Nat := 0x4064 + 0x80 * i
def RAILn_FINE_STAMP_LO (i : Nat) : Nat := 0x4068 + 0x80 * i
def RAILn_CAL_OFFSET (i : Nat) : Nat := 0x406C + 0x80 * i
def RAILn_CAL_GAIN (i : Nat) : Nat := 0x4070 + 0x80 * i
def RAILn_CAL_TARGET (i : Nat) : Nat := 0x4074 + 0x80 * i
def RAILn_CAL_STATUS (i : Nat) : Nat := 0x4078 + 0x80 * i
def RAILn_FINE_STATE (i : Nat) : Nat := 0x407C + 0x80 * i
/-! ### Spare slices (R324) -/

def SPAREk_STATUS (i : Nat) : Nat := 0x6000 + 0x80 * i
def SPAREk_CNT (i : Nat) : Nat := 0x6004 + 0x80 * i
/-! ### Ring (R443) -/

def RING_CFG : Nat := 0x6800
def RING_FUSE : Nat := 0x6804
def RING_STATUS : Nat := 0x6808
def RING_LINK_E : Nat := 0x680C
def RING_LINK_W : Nat := 0x6810
def RING_ASYM : Nat := 0x6814
def RING_ANG_ERR : Nat := 0x6818
def RING_PUB_CFG : Nat := 0x681C
def RING_PUB_ADDRk (i : Nat) : Nat := 0x6820 + 0x4 * i
def RING_GRANT : Nat := 0x6850
def RING_ERR_E : Nat := 0x6854
def RING_ERR_W : Nat := 0x6858
def RING_ERR_S : Nat := 0x685C
def RING_EVQ : Nat := 0x6860
def RING_EVT : Nat := 0x6864
def RING_MCFG : Nat := 0x6900
def RING_MSTATUS : Nat := 0x6904
def RING_MID : Nat := 0x6908
def RING_LOOP_E : Nat := 0x690C
def RING_LOOP_W : Nat := 0x6910
def RING_BUDGET_E : Nat := 0x6914
def RING_BUDGET_W : Nat := 0x6918
def RING_MRX_CNT : Nat := 0x691C
def RING_BARk_CFG (i : Nat) : Nat := 0x6940 + 0x20 * i
def RING_BARk_EXPECT (i : Nat) : Nat := 0x6944 + 0x20 * i
def RING_BARk_STATUS (i : Nat) : Nat := 0x6948 + 0x20 * i
def RING_BARk_CTRL (i : Nat) : Nat := 0x694C + 0x20 * i
def RING_BARk_REL_HI (i : Nat) : Nat := 0x6950 + 0x20 * i
def RING_BARk_REL_LO (i : Nat) : Nat := 0x6954 + 0x20 * i
def RING_RF_STATUS : Nat := 0x69C0
def RING_RF_CNT : Nat := 0x69C4
def RING_RF_LATE : Nat := 0x69C8
/-! ### Twin and Warden (R323) -/

def TWIN_CFG : Nat := 0x7000
def TWIN_PAIR : Nat := 0x7004
def TWIN_WARDEN : Nat := 0x7008
def TWIN_DIV : Nat := 0x700C
def TWIN_STATUS : Nat := 0x7010
def TWIN_TOKEN : Nat := 0x7014
def TWIN_EVT : Nat := 0x7018
def TWIN_CNT : Nat := 0x701C
def WDN_CFG : Nat := 0x7100
def WDN_PAIRk_CFG (i : Nat) : Nat := 0x7140 + 0x10 * i
def WDN_PAIRk_NODES (i : Nat) : Nat := 0x7144 + 0x10 * i
def WDN_PAIRk_STATUS (i : Nat) : Nat := 0x7148 + 0x10 * i
def WDN_PAIRk_SEQ (i : Nat) : Nat := 0x714C + 0x10 * i
def SPR_STATUS : Nat := 0x7200
/-! ### NVM and Ledger -/

def NVM_STATUS : Nat := 0x7400
def NVM_STORE : Nat := 0x7404
def LDG_STATUS : Nat := 0x7408
def LDG_SEQ : Nat := 0x740C
def LDG_SEC : Nat := 0x7410
def LDG_USEC : Nat := 0x7414
def LDG_RD_IDX : Nat := 0x7418
def LDG_RD_DATA : Nat := 0x741C
def NVM_EVT : Nat := 0x7420
def NVM_CNT : Nat := 0x7424
/-! ### Security and debug -/

def SEC_STATE : Nat := 0x7800
def SEC_ESC_CFG : Nat := 0x7804
def SEC_ESC_STATUS : Nat := 0x7808
def SEC_EVT : Nat := 0x780C
def SEC_NONCEi (i : Nat) : Nat := 0x7810 + 0x4 * i
def HM_STATUS : Nat := 0x7820
def HM_ORDER_IDX : Nat := 0x7824
def HM_ORDER_LO : Nat := 0x7828
def HM_ORDER_HI : Nat := 0x782C
def HM_ORDER_CFG : Nat := 0x7830
def HM_FATAL_OV_LO : Nat := 0x7840
def HM_FATAL_OV_HI : Nat := 0x7844
def HM_FATAL_UV_LO : Nat := 0x7848
def HM_FATAL_UV_HI : Nat := 0x784C
def HM_FATAL_PG_LO : Nat := 0x7850
def HM_FATAL_PG_HI : Nat := 0x7854
def HM_RESET : Nat := 0x7858
def HM_DBG_DIGESTk (i : Nat) : Nat := 0x7860 + 0x4 * i
def HM_PATCH_DIGESTk (i : Nat) : Nat := 0x7880 + 0x4 * i
/-! ### Command engine -/

def CMD_FUSE : Nat := 0x7C00
def CMD_STATUS : Nat := 0x7C04
def CMD_EPOCH_CFG : Nat := 0x7C08
def CMD_EPOCH : Nat := 0x7C0C
def CMD_EVT : Nat := 0x7C10
def CMD_CNT : Nat := 0x7C14
def CMD_PATCH : Nat := 0x7C18
def CMD_Pp_CFG (i : Nat) : Nat := 0x7C40 + 0x20 * i
def CMD_Pp_STATUS (i : Nat) : Nat := 0x7C44 + 0x20 * i
def CMD_Pp_ACC (i : Nat) : Nat := 0x7C48 + 0x20 * i
def CMD_Pp_ERR (i : Nat) : Nat := 0x7C4C + 0x20 * i
def CMD_Pp_TAGk (i j : Nat) : Nat := 0x7C50 + 0x20 * i + 0x4 * j
def CMD_Pp_AUTHSEQ (i : Nat) : Nat := 0x7CA0 + 0x4 * i

end R

namespace F

/-! `COL_Wk`, 18_startup_reset.md -/
def COL_Wk_WORD (i : Nat) : Field := ⟨(R.COL_Wk i), 0, 32⟩
/-! `RST_CAUSE`, 18_startup_reset.md -/
def RST_CAUSE_DURING_STARTUP : Field := ⟨R.RST_CAUSE, 4, 1⟩
def RST_CAUSE_HELD : Field := ⟨R.RST_CAUSE, 3, 1⟩
def RST_CAUSE_CAUSE : Field := ⟨R.RST_CAUSE, 0, 3⟩
/-! `RST_CNT`, 18_startup_reset.md -/
def RST_CNT_RSTN : Field := ⟨R.RST_CNT, 16, 16⟩
def RST_CNT_CMD : Field := ⟨R.RST_CNT, 8, 8⟩
def RST_CNT_WDN : Field := ⟨R.RST_CNT, 0, 8⟩
/-! `RST_WDN`, 18_startup_reset.md -/
def RST_WDN_GO : Field := ⟨R.RST_WDN, 31, 1⟩
def RST_WDN_SIDE : Field := ⟨R.RST_WDN, 8, 1⟩
def RST_WDN_PAIR : Field := ⟨R.RST_WDN, 0, 3⟩
/-! `RST_STATUS`, 18_startup_reset.md -/
def RST_STATUS_STARTED : Field := ⟨R.RST_STATUS, 31, 1⟩
def RST_STATUS_AUTO_PEND : Field := ⟨R.RST_STATUS, 30, 1⟩
def RST_STATUS_AUTO_RESULT : Field := ⟨R.RST_STATUS, 28, 2⟩
def RST_STATUS_HOLD_RSTN : Field := ⟨R.RST_STATUS, 27, 1⟩
def RST_STATUS_HOLD_CMD : Field := ⟨R.RST_STATUS, 26, 1⟩
def RST_STATUS_HOLD_WDN : Field := ⟨R.RST_STATUS, 25, 1⟩
def RST_STATUS_AUTO_EN : Field := ⟨R.RST_STATUS, 24, 1⟩
def RST_STATUS_AUTO_ANGLE : Field := ⟨R.RST_STATUS, 23, 1⟩
def RST_STATUS_AUTO_DELAY : Field := ⟨R.RST_STATUS, 0, 16⟩
/-! `SEQ_RAILk`, 07_quires.md -/
def SEQ_RAIL_RUSED (n : Nat) : Field := ⟨R.SEQ_RAILk (n / 4), 8 * (n % 4) + 4, 3⟩
def SEQ_RAIL_RXN (n : Nat) : Field := ⟨R.SEQ_RAILk (n / 4), 8 * (n % 4), 3⟩
/-! `SEQ_CTRL`, 07_quires.md -/
def SEQ_CTRL_DOWN : Field := ⟨R.SEQ_CTRL, 16, 16⟩
def SEQ_CTRL_UP : Field := ⟨R.SEQ_CTRL, 0, 16⟩
/-! `SEQ_STATUS`, 07_quires.md -/
def SEQ_STATUS_HM_RUN : Field := ⟨R.SEQ_STATUS, 31, 1⟩
def SEQ_STATUS_HM_STAGE : Field := ⟨R.SEQ_STATUS, 27, 4⟩
def SEQ_STATUS_FATAL_BLOCK : Field := ⟨R.SEQ_STATUS, 26, 1⟩
def SEQ_STATUS_HALT_SUSP : Field := ⟨R.SEQ_STATUS, 25, 1⟩
def SEQ_STATUS_ACTIVE : Field := ⟨R.SEQ_STATUS, 0, 16⟩
/-! `SEQ_FAIL`, 07_quires.md -/
def SEQ_FAIL_QUIRE : Field := ⟨R.SEQ_FAIL, 12, 4⟩
def SEQ_FAIL_DIR : Field := ⟨R.SEQ_FAIL, 11, 1⟩
def SEQ_FAIL_STEP : Field := ⟨R.SEQ_FAIL, 7, 4⟩
def SEQ_FAIL_CAUSE : Field := ⟨R.SEQ_FAIL, 0, 4⟩
/-! `SEQ_FAIL_LO`, 07_quires.md -/
def SEQ_FAIL_LO_RAILS : Field := ⟨R.SEQ_FAIL_LO, 0, 32⟩
/-! `SEQ_FAIL_HI`, 07_quires.md -/
def SEQ_FAIL_HI_RAILS : Field := ⟨R.SEQ_FAIL_HI, 0, 32⟩
/-! `TALLY_OUTk`, 10_tally.md -/
def TALLY_OUTk_MODE (i : Nat) : Field := ⟨(R.TALLY_OUTk i), 30, 2⟩
def TALLY_OUTk_POL (i : Nat) : Field := ⟨(R.TALLY_OUTk i), 29, 1⟩
def TALLY_OUTk_PW (i : Nat) : Field := ⟨(R.TALLY_OUTk i), 8, 8⟩
def TALLY_OUTk_SEL (i : Nat) : Field := ⟨(R.TALLY_OUTk i), 0, 5⟩
/-! `CLK_CFG`, 02_angle_and_clocks.md -/
def CLK_CFG_RING_REF_EN : Field := ⟨R.CLK_CFG, 1, 1⟩
def CLK_CFG_XOUT_OFF : Field := ⟨R.CLK_CFG, 0, 1⟩
/-! `CLK_CTRL`, 02_angle_and_clocks.md -/
def CLK_CTRL_REF_RETURN : Field := ⟨R.CLK_CTRL, 1, 1⟩
def CLK_CTRL_RELOCK : Field := ⟨R.CLK_CTRL, 0, 1⟩
/-! `CLK_STATUS`, 02_angle_and_clocks.md -/
def CLK_STATUS_TCLK_GAP : Field := ⟨R.CLK_STATUS, 11, 1⟩
def CLK_STATUS_PLL_REF : Field := ⟨R.CLK_STATUS, 8, 3⟩
def CLK_STATUS_OVERSPEED : Field := ⟨R.CLK_STATUS, 7, 1⟩
def CLK_STATUS_LOL_SEEN : Field := ⟨R.CLK_STATUS, 6, 1⟩
def CLK_STATUS_TCLK_ON_RC : Field := ⟨R.CLK_STATUS, 5, 1⟩
def CLK_STATUS_XIN_OK : Field := ⟨R.CLK_STATUS, 4, 1⟩
def CLK_STATUS_SERDES_LOCK : Field := ⟨R.CLK_STATUS, 3, 1⟩
def CLK_STATUS_RETURN_WAIT : Field := ⟨R.CLK_STATUS, 2, 1⟩
def CLK_STATUS_FALLBACK : Field := ⟨R.CLK_STATUS, 1, 1⟩
def CLK_STATUS_SYS_LOCK : Field := ⟨R.CLK_STATUS, 0, 1⟩
/-! `CLK_FB_MEAS`, 02_angle_and_clocks.md -/
def CLK_FB_MEAS_FREQ : Field := ⟨R.CLK_FB_MEAS, 0, 16⟩
/-! `CLK_LOL_CNT`, 02_angle_and_clocks.md -/
def CLK_LOL_CNT_COUNT : Field := ⟨R.CLK_LOL_CNT, 0, 16⟩
/-! `ANG_CFG`, 02_angle_and_clocks.md -/
def ANG_CFG_TOL : Field := ⟨R.ANG_CFG, 8, 2⟩
def ANG_CFG_BW : Field := ⟨R.ANG_CFG, 6, 2⟩
def ANG_CFG_SLEW : Field := ⟨R.ANG_CFG, 4, 2⟩
def ANG_CFG_EDGE : Field := ⟨R.ANG_CFG, 3, 1⟩
def ANG_CFG_ALT_FAILOVER : Field := ⟨R.ANG_CFG, 2, 1⟩
def ANG_CFG_SRC : Field := ⟨R.ANG_CFG, 0, 2⟩
/-! `ANG_CTRL`, 02_angle_and_clocks.md -/
def ANG_CTRL_HOP_IDX : Field := ⟨R.ANG_CTRL, 4, 3⟩
def ANG_CTRL_RESEL : Field := ⟨R.ANG_CTRL, 1, 1⟩
def ANG_CTRL_HOP_STORE : Field := ⟨R.ANG_CTRL, 0, 1⟩
/-! `ANG_STATUS`, 02_angle_and_clocks.md -/
def ANG_STATUS_RUN : Field := ⟨R.ANG_STATUS, 16, 1⟩
def ANG_STATUS_BAND : Field := ⟨R.ANG_STATUS, 12, 4⟩
def ANG_STATUS_HOLD_EXP : Field := ⟨R.ANG_STATUS, 11, 1⟩
def ANG_STATUS_ALIGNED : Field := ⟨R.ANG_STATUS, 10, 1⟩
def ANG_STATUS_PHASE_OK : Field := ⟨R.ANG_STATUS, 9, 1⟩
def ANG_STATUS_LOCKED : Field := ⟨R.ANG_STATUS, 8, 1⟩
def ANG_STATUS_HOLDOVER : Field := ⟨R.ANG_STATUS, 7, 1⟩
def ANG_STATUS_ACQUIRE : Field := ⟨R.ANG_STATUS, 6, 1⟩
def ANG_STATUS_ACTIVE_SRC : Field := ⟨R.ANG_STATUS, 4, 2⟩
def ANG_STATUS_HOP_HIT : Field := ⟨R.ANG_STATUS, 3, 1⟩
def ANG_STATUS_HOP_LAST : Field := ⟨R.ANG_STATUS, 0, 3⟩
/-! `ANG_STAMP_HI`, 02_angle_and_clocks.md -/
def ANG_STAMP_HI_HOLDOVER : Field := ⟨R.ANG_STAMP_HI, 31, 1⟩
def ANG_STAMP_HI_LOCKED : Field := ⟨R.ANG_STAMP_HI, 30, 1⟩
def ANG_STAMP_HI_RUN : Field := ⟨R.ANG_STAMP_HI, 29, 1⟩
def ANG_STAMP_HI_STAMP_HI : Field := ⟨R.ANG_STAMP_HI, 0, 16⟩
/-! `ANG_STAMP_LO`, 02_angle_and_clocks.md -/
def ANG_STAMP_LO_STAMP_LO : Field := ⟨R.ANG_STAMP_LO, 0, 32⟩
/-! `ANG_INC`, 02_angle_and_clocks.md -/
def ANG_INC_INC : Field := ⟨R.ANG_INC, 0, 32⟩
/-! `ANG_PERIOD`, 02_angle_and_clocks.md -/
def ANG_PERIOD_PERIOD : Field := ⟨R.ANG_PERIOD, 0, 32⟩
/-! `ANG_PHASE`, 02_angle_and_clocks.md -/
def ANG_PHASE_OFFSET : Field := ⟨R.ANG_PHASE, 0, 20⟩
/-! `ANG_HOLD_MAX`, 02_angle_and_clocks.md -/
def ANG_HOLD_MAX_CYCLES : Field := ⟨R.ANG_HOLD_MAX, 0, 28⟩
/-! `ANG_STRAY_CNT`, 02_angle_and_clocks.md -/
def ANG_STRAY_CNT_COUNT : Field := ⟨R.ANG_STRAY_CNT, 0, 16⟩
/-! `ANG_FREE_INC`, 02_angle_and_clocks.md -/
def ANG_FREE_INC_INC : Field := ⟨R.ANG_FREE_INC, 0, 32⟩
/-! `ANG_HOPk_PERIOD`, 02_angle_and_clocks.md -/
def ANG_HOPk_PERIOD_PERIOD (i : Nat) : Field := ⟨(R.ANG_HOPk_PERIOD i), 0, 32⟩
/-! `ANG_HOPk_CTRL`, 02_angle_and_clocks.md -/
def ANG_HOPk_CTRL_VALID (i : Nat) : Field := ⟨(R.ANG_HOPk_CTRL i), 4, 1⟩
def ANG_HOPk_CTRL_BAND (i : Nat) : Field := ⟨(R.ANG_HOPk_CTRL i), 0, 4⟩
/-! `FLT_SRCs_CFG`, 11_fault_collection.md -/
def FLT_SRCs_CFG_ESC_LIMIT (i : Nat) : Field := ⟨(R.FLT_SRCs_CFG i), 20, 4⟩
def FLT_SRCs_CFG_ESC_WIN (i : Nat) : Field := ⟨(R.FLT_SRCs_CFG i), 17, 3⟩
def FLT_SRCs_CFG_QUIET (i : Nat) : Field := ⟨(R.FLT_SRCs_CFG i), 12, 4⟩
def FLT_SRCs_CFG_SHADOW_SEL (i : Nat) : Field := ⟨(R.FLT_SRCs_CFG i), 9, 3⟩
def FLT_SRCs_CFG_SHADOW_EN (i : Nat) : Field := ⟨(R.FLT_SRCs_CFG i), 8, 1⟩
def FLT_SRCs_CFG_FOLIO (i : Nat) : Field := ⟨(R.FLT_SRCs_CFG i), 4, 1⟩
def FLT_SRCs_CFG_ACT (i : Nat) : Field := ⟨(R.FLT_SRCs_CFG i), 0, 4⟩
/-! `FLT_SRCs_STAT`, 11_fault_collection.md -/
def FLT_SRCs_STAT_RECOV (i : Nat) : Field := ⟨(R.FLT_SRCs_STAT i), 16, 16⟩
def FLT_SRCs_STAT_WCNT (i : Nat) : Field := ⟨(R.FLT_SRCs_STAT i), 11, 5⟩
def FLT_SRCs_STAT_CLASS (i : Nat) : Field := ⟨(R.FLT_SRCs_STAT i), 6, 2⟩
def FLT_SRCs_STAT_QUEUED (i : Nat) : Field := ⟨(R.FLT_SRCs_STAT i), 5, 1⟩
def FLT_SRCs_STAT_COND (i : Nat) : Field := ⟨(R.FLT_SRCs_STAT i), 4, 1⟩
def FLT_SRCs_STAT_STATE (i : Nat) : Field := ⟨(R.FLT_SRCs_STAT i), 0, 2⟩
/-! `FLT_STICKY0`, 11_fault_collection.md -/
def FLT_STICKY0_SRC : Field := ⟨R.FLT_STICKY0, 0, 32⟩
/-! `FLT_STICKY1`, 11_fault_collection.md -/
def FLT_STICKY1_SRC : Field := ⟨R.FLT_STICKY1, 0, 32⟩
/-! `FLT_STICKY2`, 11_fault_collection.md -/
def FLT_STICKY2_SRC : Field := ⟨R.FLT_STICKY2, 0, 32⟩
/-! `FLT_FATAL_CFG`, 11_fault_collection.md -/
def FLT_FATAL_CFG_FN_MASK : Field := ⟨R.FLT_FATAL_CFG, 2, 3⟩
def FLT_FATAL_CFG_FATAL_ACT : Field := ⟨R.FLT_FATAL_CFG, 0, 2⟩
/-! `FLT_STATUS`, 11_fault_collection.md -/
def FLT_STATUS_FAULT_N : Field := ⟨R.FLT_STATUS, 31, 1⟩
def FLT_STATUS_IN_FAULT : Field := ⟨R.FLT_STATUS, 30, 1⟩
def FLT_STATUS_ANY_FATAL : Field := ⟨R.FLT_STATUS, 29, 1⟩
def FLT_STATUS_QLEVEL : Field := ⟨R.FLT_STATUS, 24, 5⟩
def FLT_STATUS_DISPATCH : Field := ⟨R.FLT_STATUS, 23, 1⟩
def FLT_STATUS_DSRC : Field := ⟨R.FLT_STATUS, 16, 7⟩
def FLT_STATUS_SH_OPEN : Field := ⟨R.FLT_STATUS, 0, 8⟩
/-! `FLT_CLEAR`, 11_fault_collection.md -/
def FLT_CLEAR_ALL : Field := ⟨R.FLT_CLEAR, 31, 1⟩
def FLT_CLEAR_RECOV : Field := ⟨R.FLT_CLEAR, 10, 1⟩
def FLT_CLEAR_COUNTERS : Field := ⟨R.FLT_CLEAR, 9, 1⟩
def FLT_CLEAR_STICKY : Field := ⟨R.FLT_CLEAR, 8, 1⟩
def FLT_CLEAR_STATE : Field := ⟨R.FLT_CLEAR, 7, 1⟩
def FLT_CLEAR_SRC : Field := ⟨R.FLT_CLEAR, 0, 7⟩
/-! `FLT_INJ`, 11_fault_collection.md -/
def FLT_INJ_SRC : Field := ⟨R.FLT_INJ, 25, 7⟩
def FLT_INJ_KIND : Field := ⟨R.FLT_INJ, 20, 5⟩
def FLT_INJ_CLASS : Field := ⟨R.FLT_INJ, 18, 2⟩
def FLT_INJ_DETAIL : Field := ⟨R.FLT_INJ, 2, 16⟩
def FLT_INJ_GO : Field := ⟨R.FLT_INJ, 0, 1⟩
/-! `FLT_CNT_x`, 11_fault_collection.md -/
def FLT_CNT_x_COUNT (i : Nat) : Field := ⟨(R.FLT_CNT_x i), 0, 32⟩
/-! `FLT_QSTAT`, 11_fault_collection.md -/
def FLT_QSTAT_MERGED : Field := ⟨R.FLT_QSTAT, 16, 16⟩
def FLT_QSTAT_DROPPED : Field := ⟨R.FLT_QSTAT, 8, 8⟩
def FLT_QSTAT_HIGH : Field := ⟨R.FLT_QSTAT, 0, 5⟩
/-! `FLT_SHl_MASK0`, 11_fault_collection.md -/
def FLT_SHl_MASK0_SRC (i : Nat) : Field := ⟨(R.FLT_SHl_MASK0 i), 0, 32⟩
/-! `FLT_SHl_MASK1`, 11_fault_collection.md -/
def FLT_SHl_MASK1_SRC (i : Nat) : Field := ⟨(R.FLT_SHl_MASK1 i), 0, 32⟩
/-! `FLT_SHl_MASK2`, 11_fault_collection.md -/
def FLT_SHl_MASK2_SRC (i : Nat) : Field := ⟨(R.FLT_SHl_MASK2 i), 0, 32⟩
/-! `FLT_SHl_CFG`, 11_fault_collection.md -/
def FLT_SHl_CFG_TIME (i : Nat) : Field := ⟨(R.FLT_SHl_CFG i), 0, 16⟩
/-! `EVT_Gg_STATUS`, 11_fault_collection.md -/
def EVT_Gg_STATUS_ST (i : Nat) : Field := ⟨(R.EVT_Gg_STATUS i), 0, 32⟩
/-! `EVT_Gg_EN`, 11_fault_collection.md -/
def EVT_Gg_EN_EN (i : Nat) : Field := ⟨(R.EVT_Gg_EN i), 0, 32⟩
/-! `EVT_Gg_ROUTE_IRQ`, 11_fault_collection.md -/
def EVT_Gg_ROUTE_IRQ_IRQ (i : Nat) : Field := ⟨(R.EVT_Gg_ROUTE_IRQ i), 0, 32⟩
/-! `EVT_Gg_ROUTE_HOST`, 11_fault_collection.md -/
def EVT_Gg_ROUTE_HOST_HOST (i : Nat) : Field := ⟨(R.EVT_Gg_ROUTE_HOST i), 0, 32⟩
/-! `EVT_Gg_ROUTE_RING`, 11_fault_collection.md -/
def EVT_Gg_ROUTE_RING_RING (i : Nat) : Field := ⟨(R.EVT_Gg_ROUTE_RING i), 0, 32⟩
/-! `EVT_SUMMARY`, 11_fault_collection.md -/
def EVT_SUMMARY_HOST_IRQ : Field := ⟨R.EVT_SUMMARY, 25, 1⟩
def EVT_SUMMARY_IRQ : Field := ⟨R.EVT_SUMMARY, 24, 1⟩
def EVT_SUMMARY_RING_PEND : Field := ⟨R.EVT_SUMMARY, 16, 8⟩
def EVT_SUMMARY_HOST_PEND : Field := ⟨R.EVT_SUMMARY, 8, 8⟩
def EVT_SUMMARY_IRQ_PEND : Field := ⟨R.EVT_SUMMARY, 0, 8⟩
/-! `Tn_CFG`, 10_tally.md -/
def Tn_CFG_AUTO (i : Nat) : Field := ⟨(R.Tn_CFG i), 31, 1⟩
def Tn_CFG_SRC (i : Nat) : Field := ⟨(R.Tn_CFG i), 24, 3⟩
def Tn_CFG_SRC_EDGE (i : Nat) : Field := ⟨(R.Tn_CFG i), 20, 2⟩
def Tn_CFG_SRC_CAP (i : Nat) : Field := ⟨(R.Tn_CFG i), 16, 3⟩
def Tn_CFG_CAP_EDGE (i : Nat) : Field := ⟨(R.Tn_CFG i), 4, 2⟩
def Tn_CFG_CAP_SEL (i : Nat) : Field := ⟨(R.Tn_CFG i), 0, 3⟩
/-! `Tn_COUNT`, 10_tally.md -/
def Tn_COUNT_COUNT (i : Nat) : Field := ⟨(R.Tn_COUNT i), 0, 32⟩
/-! `Tn_CMP`, 10_tally.md -/
def Tn_CMP_CMP (i : Nat) : Field := ⟨(R.Tn_CMP i), 0, 32⟩
/-! `Tn_INTV`, 10_tally.md -/
def Tn_INTV_INTV (i : Nat) : Field := ⟨(R.Tn_INTV i), 0, 32⟩
/-! `Tn_CAP`, 10_tally.md -/
def Tn_CAP_VALUE (i : Nat) : Field := ⟨(R.Tn_CAP i), 0, 32⟩
/-! `Tn_STATUS`, 10_tally.md -/
def Tn_STATUS_MCOUNT (i : Nat) : Field := ⟨(R.Tn_STATUS i), 24, 8⟩
def Tn_STATUS_LEVEL (i : Nat) : Field := ⟨(R.Tn_STATUS i), 16, 3⟩
def Tn_STATUS_CMP_PAST (i : Nat) : Field := ⟨(R.Tn_STATUS i), 3, 1⟩
def Tn_STATUS_CAP_OVF (i : Nat) : Field := ⟨(R.Tn_STATUS i), 2, 1⟩
def Tn_STATUS_CAP_SEEN (i : Nat) : Field := ⟨(R.Tn_STATUS i), 1, 1⟩
def Tn_STATUS_MATCH (i : Nat) : Field := ⟨(R.Tn_STATUS i), 0, 1⟩
/-! `Tn_MATCHED`, 10_tally.md -/
def Tn_MATCHED_VALUE (i : Nat) : Field := ⟨(R.Tn_MATCHED i), 0, 32⟩
/-! `FOLIO_CFG`, 13_folio_ledger_nvm.md -/
def FOLIO_CFG_SNAP_EDGE : Field := ⟨R.FOLIO_CFG, 30, 2⟩
def FOLIO_CFG_TALLY_EN : Field := ⟨R.FOLIO_CFG, 29, 1⟩
def FOLIO_CFG_TALLY_SEL : Field := ⟨R.FOLIO_CFG, 0, 5⟩
/-! `FOLIO_CTRL`, 13_folio_ledger_nvm.md -/
def FOLIO_CTRL_TRIG : Field := ⟨R.FOLIO_CTRL, 31, 1⟩
def FOLIO_CTRL_ARM : Field := ⟨R.FOLIO_CTRL, 30, 1⟩
def FOLIO_CTRL_DISARM : Field := ⟨R.FOLIO_CTRL, 29, 1⟩
def FOLIO_CTRL_RELEASE : Field := ⟨R.FOLIO_CTRL, 0, 4⟩
/-! `FOLIO_STATUS`, 13_folio_ledger_nvm.md -/
def FOLIO_STATUS_LAST_DROP_ID : Field := ⟨R.FOLIO_STATUS, 16, 16⟩
def FOLIO_STATUS_DROPPED : Field := ⟨R.FOLIO_STATUS, 12, 4⟩
def FOLIO_STATUS_NEWEST : Field := ⟨R.FOLIO_STATUS, 10, 2⟩
def FOLIO_STATUS_ARMED : Field := ⟨R.FOLIO_STATUS, 9, 1⟩
def FOLIO_STATUS_RING : Field := ⟨R.FOLIO_STATUS, 8, 1⟩
def FOLIO_STATUS_BUF (k : Nat) : Field := ⟨R.FOLIO_STATUS, 2 * k, 2⟩
/-! `FOLIO_AT_HI`, 13_folio_ledger_nvm.md -/
def FOLIO_AT_HI_STAMP_HI : Field := ⟨R.FOLIO_AT_HI, 0, 16⟩
/-! `FOLIO_AT_LO`, 13_folio_ledger_nvm.md -/
def FOLIO_AT_LO_STAMP_LO : Field := ⟨R.FOLIO_AT_LO, 0, 32⟩
/-! `FOLIO_AT_ID`, 13_folio_ledger_nvm.md -/
def FOLIO_AT_ID_ID : Field := ⟨R.FOLIO_AT_ID, 0, 16⟩
/-! `FOLIO_IDX`, 13_folio_ledger_nvm.md -/
def FOLIO_IDX_BUF : Field := ⟨R.FOLIO_IDX, 16, 2⟩
def FOLIO_IDX_WORD : Field := ⟨R.FOLIO_IDX, 0, 9⟩
/-! `FOLIO_DATA`, 13_folio_ledger_nvm.md -/
def FOLIO_DATA_DATA : Field := ⟨R.FOLIO_DATA, 0, 32⟩
/-! `FOLIO_EVT`, 13_folio_ledger_nvm.md -/
def FOLIO_EVT_AT_REFUSED : Field := ⟨R.FOLIO_EVT, 4, 1⟩
def FOLIO_EVT_AT_LATE : Field := ⟨R.FOLIO_EVT, 3, 1⟩
def FOLIO_EVT_OVERWRITTEN : Field := ⟨R.FOLIO_EVT, 2, 1⟩
def FOLIO_EVT_DROPPED : Field := ⟨R.FOLIO_EVT, 1, 1⟩
def FOLIO_EVT_TAKEN : Field := ⟨R.FOLIO_EVT, 0, 1⟩
/-! `PCn_CFG`, 05_converter_benches.md -/
def PCn_CFG_KEEP_ON (i : Nat) : Field := ⟨(R.PCn_CFG i), 0, 1⟩
/-! `PCn_STATUS`, 05_converter_benches.md -/
def PCn_STATUS_ROLE (i : Nat) : Field := ⟨(R.PCn_STATUS i), 28, 2⟩
def PCn_STATUS_POS (i : Nat) : Field := ⟨(R.PCn_STATUS i), 24, 4⟩
def PCn_STATUS_BENCH (i : Nat) : Field := ⟨(R.PCn_STATUS i), 20, 4⟩
def PCn_STATUS_INPUT (i : Nat) : Field := ⟨(R.PCn_STATUS i), 14, 6⟩
def PCn_STATUS_ENTRY (i : Nat) : Field := ⟨(R.PCn_STATUS i), 8, 6⟩
def PCn_STATUS_IN_INJ (i : Nat) : Field := ⟨(R.PCn_STATUS i), 2, 1⟩
def PCn_STATUS_CONVERTING (i : Nat) : Field := ⟨(R.PCn_STATUS i), 1, 1⟩
def PCn_STATUS_POWERED (i : Nat) : Field := ⟨(R.PCn_STATUS i), 0, 1⟩
/-! `PCn_CNT`, 05_converter_benches.md -/
def PCn_CNT_ABORTS (i : Nat) : Field := ⟨(R.PCn_CNT i), 16, 16⟩
def PCn_CNT_DONE (i : Nat) : Field := ⟨(R.PCn_CNT i), 0, 16⟩
/-! `PCn_FACx_OFFSET`, 05_converter_benches.md -/
def PCn_FACx_OFFSET_OFFSET (i j : Nat) : Field := ⟨(R.PCn_FACx_OFFSET i j), 0, 24⟩
/-! `PCn_FACx_GAIN`, 05_converter_benches.md -/
def PCn_FACx_GAIN_GAIN (i j : Nat) : Field := ⟨(R.PCn_FACx_GAIN i j), 0, 24⟩
/-! `POOL_HU_CFG`, 05_converter_benches.md -/
def POOL_HU_CFG_EN : Field := ⟨R.POOL_HU_CFG, 31, 1⟩
def POOL_HU_CFG_INTERVAL : Field := ⟨R.POOL_HU_CFG, 16, 8⟩
def POOL_HU_CFG_OSR : Field := ⟨R.POOL_HU_CFG, 12, 3⟩
def POOL_HU_CFG_GAIN : Field := ⟨R.POOL_HU_CFG, 8, 2⟩
def POOL_HU_CFG_AUX : Field := ⟨R.POOL_HU_CFG, 0, 5⟩
/-! `POOL_HU_RES`, 05_converter_benches.md -/
def POOL_HU_RES_RESULT : Field := ⟨R.POOL_HU_RES, 0, 32⟩
/-! `POOL_CAL_IDX`, 05_converter_benches.md -/
def POOL_CAL_IDX_CAL_AVG : Field := ⟨R.POOL_CAL_IDX, 16, 2⟩
def POOL_CAL_IDX_OSR : Field := ⟨R.POOL_CAL_IDX, 12, 3⟩
def POOL_CAL_IDX_GAIN : Field := ⟨R.POOL_CAL_IDX, 8, 2⟩
def POOL_CAL_IDX_AUX : Field := ⟨R.POOL_CAL_IDX, 0, 5⟩
/-! `POOL_CAL_OFFSET`, 05_converter_benches.md -/
def POOL_CAL_OFFSET_OFFSET : Field := ⟨R.POOL_CAL_OFFSET, 0, 24⟩
/-! `POOL_CAL_GAIN`, 05_converter_benches.md -/
def POOL_CAL_GAIN_GAIN : Field := ⟨R.POOL_CAL_GAIN, 0, 24⟩
/-! `POOL_CAL_TARGET`, 05_converter_benches.md -/
def POOL_CAL_TARGET_VOLTS : Field := ⟨R.POOL_CAL_TARGET, 0, 32⟩
/-! `POOL_CAL_STATUS`, 05_converter_benches.md -/
def POOL_CAL_STATUS_SPREAD : Field := ⟨R.POOL_CAL_STATUS, 16, 16⟩
def POOL_CAL_STATUS_LAST : Field := ⟨R.POOL_CAL_STATUS, 6, 2⟩
def POOL_CAL_STATUS_STATE : Field := ⟨R.POOL_CAL_STATUS, 4, 2⟩
def POOL_CAL_STATUS_BUSY : Field := ⟨R.POOL_CAL_STATUS, 1, 1⟩
/-! `BENCH_LAYOUT`, 05_converter_benches.md -/
def BENCH_LAYOUT_ALL8 : Field := ⟨R.BENCH_LAYOUT, 16, 1⟩
def BENCH_LAYOUT_SIZE (k : Nat) : Field := ⟨R.BENCH_LAYOUT, 2 * k, 2⟩
/-! `BENCH_MAP`, 05_converter_benches.md -/
def BENCH_MAP_POS (k : Nat) : Field := ⟨R.BENCH_MAP, 4 * k, 4⟩
/-! `BENCHb_CFG`, 05_converter_benches.md -/
def BENCHb_CFG_EVT_ENTRY (i : Nat) : Field := ⟨(R.BENCHb_CFG i), 30, 1⟩
def BENCHb_CFG_EVT_PASS (i : Nat) : Field := ⟨(R.BENCHb_CFG i), 29, 1⟩
def BENCHb_CFG_QUIET_RUN (i : Nat) : Field := ⟨(R.BENCHb_CFG i), 28, 1⟩
def BENCHb_CFG_INJ_LEN (i : Nat) : Field := ⟨(R.BENCHb_CFG i), 24, 2⟩
def BENCHb_CFG_LEN (i : Nat) : Field := ⟨(R.BENCHb_CFG i), 16, 5⟩
def BENCHb_CFG_FIRST (i : Nat) : Field := ⟨(R.BENCHb_CFG i), 8, 6⟩
def BENCHb_CFG_MODE (i : Nat) : Field := ⟨(R.BENCHb_CFG i), 0, 2⟩
/-! `BENCHb_CTRL`, 05_converter_benches.md -/
def BENCHb_CTRL_ITRIG (i : Nat) : Field := ⟨(R.BENCHb_CTRL i), 3, 1⟩
def BENCHb_CTRL_TRIG (i : Nat) : Field := ⟨(R.BENCHb_CTRL i), 2, 1⟩
def BENCHb_CTRL_STOP (i : Nat) : Field := ⟨(R.BENCHb_CTRL i), 1, 1⟩
def BENCHb_CTRL_START (i : Nat) : Field := ⟨(R.BENCHb_CTRL i), 0, 1⟩
/-! `BENCHb_STATUS`, 05_converter_benches.md -/
def BENCHb_STATUS_NCONV (i : Nat) : Field := ⟨(R.BENCHb_STATUS i), 28, 4⟩
def BENCHb_STATUS_CUR (i : Nat) : Field := ⟨(R.BENCHb_STATUS i), 22, 6⟩
def BENCHb_STATUS_IOVR (i : Nat) : Field := ⟨(R.BENCHb_STATUS i), 12, 4⟩
def BENCHb_STATUS_ROVR (i : Nat) : Field := ⟨(R.BENCHb_STATUS i), 8, 4⟩
def BENCHb_STATUS_CFG_ERR (i : Nat) : Field := ⟨(R.BENCHb_STATUS i), 7, 1⟩
def BENCHb_STATUS_ABORT_SEEN (i : Nat) : Field := ⟨(R.BENCHb_STATUS i), 6, 1⟩
def BENCHb_STATUS_PASS_DONE (i : Nat) : Field := ⟨(R.BENCHb_STATUS i), 5, 1⟩
def BENCHb_STATUS_INJ_DONE (i : Nat) : Field := ⟨(R.BENCHb_STATUS i), 4, 1⟩
def BENCHb_STATUS_REG_PEND (i : Nat) : Field := ⟨(R.BENCHb_STATUS i), 3, 1⟩
def BENCHb_STATUS_DELAYING (i : Nat) : Field := ⟨(R.BENCHb_STATUS i), 2, 1⟩
def BENCHb_STATUS_STATE (i : Nat) : Field := ⟨(R.BENCHb_STATUS i), 0, 2⟩
/-! `BENCHb_TRIG`, 05_converter_benches.md -/
def BENCHb_TRIG_URGENT (i : Nat) : Field := ⟨(R.BENCHb_TRIG i), 31, 1⟩
def BENCHb_TRIG_DLY_ANG (i : Nat) : Field := ⟨(R.BENCHb_TRIG i), 30, 1⟩
def BENCHb_TRIG_EDGE (i : Nat) : Field := ⟨(R.BENCHb_TRIG i), 28, 2⟩
def BENCHb_TRIG_SRC (i : Nat) : Field := ⟨(R.BENCHb_TRIG i), 24, 4⟩
def BENCHb_TRIG_SEL (i : Nat) : Field := ⟨(R.BENCHb_TRIG i), 16, 8⟩
def BENCHb_TRIG_DELAY (i : Nat) : Field := ⟨(R.BENCHb_TRIG i), 0, 16⟩
def BENCHb_TRIG_TARGET (i : Nat) : Field := ⟨(R.BENCHb_TRIG i), 0, 20⟩
/-! `BENCHb_ITRIG`, 05_converter_benches.md -/
def BENCHb_ITRIG_URGENT (i : Nat) : Field := ⟨(R.BENCHb_ITRIG i), 31, 1⟩
def BENCHb_ITRIG_DLY_ANG (i : Nat) : Field := ⟨(R.BENCHb_ITRIG i), 30, 1⟩
def BENCHb_ITRIG_EDGE (i : Nat) : Field := ⟨(R.BENCHb_ITRIG i), 28, 2⟩
def BENCHb_ITRIG_SRC (i : Nat) : Field := ⟨(R.BENCHb_ITRIG i), 24, 4⟩
def BENCHb_ITRIG_SEL (i : Nat) : Field := ⟨(R.BENCHb_ITRIG i), 16, 8⟩
def BENCHb_ITRIG_DELAY (i : Nat) : Field := ⟨(R.BENCHb_ITRIG i), 0, 16⟩
def BENCHb_ITRIG_TARGET (i : Nat) : Field := ⟨(R.BENCHb_ITRIG i), 0, 20⟩
/-! `BENCHb_RTAG`, 05_converter_benches.md -/
def BENCHb_RTAG_PC (i : Nat) : Field := ⟨(R.BENCHb_RTAG i), 28, 4⟩
def BENCHb_RTAG_INPUT (i : Nat) : Field := ⟨(R.BENCHb_RTAG i), 22, 6⟩
def BENCHb_RTAG_RAIL (i : Nat) : Field := ⟨(R.BENCHb_RTAG i), 16, 6⟩
def BENCHb_RTAG_INJ (i : Nat) : Field := ⟨(R.BENCHb_RTAG i), 15, 1⟩
def BENCHb_RTAG_ENTRY (i : Nat) : Field := ⟨(R.BENCHb_RTAG i), 9, 6⟩
def BENCHb_RTAG_PASS (i : Nat) : Field := ⟨(R.BENCHb_RTAG i), 0, 9⟩
/-! `BENCHb_RSTAMP_HI`, 05_converter_benches.md -/
def BENCHb_RSTAMP_HI_STAMP_HI (i : Nat) : Field := ⟨(R.BENCHb_RSTAMP_HI i), 0, 16⟩
/-! `BENCHb_RSTAMP_LO`, 05_converter_benches.md -/
def BENCHb_RSTAMP_LO_STAMP_LO (i : Nat) : Field := ⟨(R.BENCHb_RSTAMP_LO i), 0, 32⟩
/-! `BENCH_REGk_CFG`, 05_converter_benches.md -/
def BENCH_REGk_CFG_INPUT (i : Nat) : Field := ⟨(R.BENCH_REGk_CFG i), 26, 6⟩
def BENCH_REGk_CFG_RAIL (i : Nat) : Field := ⟨(R.BENCH_REGk_CFG i), 20, 6⟩
def BENCH_REGk_CFG_GAIN (i : Nat) : Field := ⟨(R.BENCH_REGk_CFG i), 18, 2⟩
def BENCH_REGk_CFG_OSR (i : Nat) : Field := ⟨(R.BENCH_REGk_CFG i), 15, 3⟩
def BENCH_REGk_CFG_FIR (i : Nat) : Field := ⟨(R.BENCH_REGk_CFG i), 14, 1⟩
def BENCH_REGk_CFG_AVG (i : Nat) : Field := ⟨(R.BENCH_REGk_CFG i), 13, 1⟩
def BENCH_REGk_CFG_SHOW (i : Nat) : Field := ⟨(R.BENCH_REGk_CFG i), 12, 1⟩
def BENCH_REGk_CFG_SAMPLES (i : Nat) : Field := ⟨(R.BENCH_REGk_CFG i), 8, 4⟩
/-! `BENCH_REGk_RES`, 05_converter_benches.md -/
def BENCH_REGk_RES_RESULT (i : Nat) : Field := ⟨(R.BENCH_REGk_RES i), 0, 32⟩
/-! `BENCHb_INJj_CFG`, 05_converter_benches.md -/
def BENCHb_INJj_CFG_INPUT (i j : Nat) : Field := ⟨(R.BENCHb_INJj_CFG i j), 26, 6⟩
def BENCHb_INJj_CFG_RAIL (i j : Nat) : Field := ⟨(R.BENCHb_INJj_CFG i j), 20, 6⟩
def BENCHb_INJj_CFG_GAIN (i j : Nat) : Field := ⟨(R.BENCHb_INJj_CFG i j), 18, 2⟩
def BENCHb_INJj_CFG_OSR (i j : Nat) : Field := ⟨(R.BENCHb_INJj_CFG i j), 15, 3⟩
def BENCHb_INJj_CFG_FIR (i j : Nat) : Field := ⟨(R.BENCHb_INJj_CFG i j), 14, 1⟩
def BENCHb_INJj_CFG_AVG (i j : Nat) : Field := ⟨(R.BENCHb_INJj_CFG i j), 13, 1⟩
def BENCHb_INJj_CFG_SHOW (i j : Nat) : Field := ⟨(R.BENCHb_INJj_CFG i j), 12, 1⟩
def BENCHb_INJj_CFG_SAMPLES (i j : Nat) : Field := ⟨(R.BENCHb_INJj_CFG i j), 8, 4⟩
/-! `BENCHb_INJj_RES`, 05_converter_benches.md -/
def BENCHb_INJj_RES_RESULT (i j : Nat) : Field := ⟨(R.BENCHb_INJj_RES i j), 0, 32⟩
/-! `ASSAY_CFG`, 06_assay.md -/
def ASSAY_CFG_FAC_STEP : Field := ⟨R.ASSAY_CFG, 24, 4⟩
def ASSAY_CFG_SPARE_PER : Field := ⟨R.ASSAY_CFG, 16, 8⟩
def ASSAY_CFG_ROUND_PER : Field := ⟨R.ASSAY_CFG, 8, 8⟩
def ASSAY_CFG_OSR : Field := ⟨R.ASSAY_CFG, 4, 3⟩
def ASSAY_CFG_SPARE_EN : Field := ⟨R.ASSAY_CFG, 3, 1⟩
def ASSAY_CFG_RAIL_EN : Field := ⟨R.ASSAY_CFG, 2, 1⟩
def ASSAY_CFG_CONV_EN : Field := ⟨R.ASSAY_CFG, 1, 1⟩
def ASSAY_CFG_REF_EN : Field := ⟨R.ASSAY_CFG, 0, 1⟩
/-! `ASSAY_CONV_TOL`, 06_assay.md -/
def ASSAY_CONV_TOL_MISS : Field := ⟨R.ASSAY_CONV_TOL, 28, 4⟩
def ASSAY_CONV_TOL_SPREAD : Field := ⟨R.ASSAY_CONV_TOL, 16, 12⟩
def ASSAY_CONV_TOL_TOL : Field := ⟨R.ASSAY_CONV_TOL, 0, 16⟩
/-! `ASSAY_RAIL_TOL`, 06_assay.md -/
def ASSAY_RAIL_TOL_MISS : Field := ⟨R.ASSAY_RAIL_TOL, 28, 4⟩
def ASSAY_RAIL_TOL_SPREAD : Field := ⟨R.ASSAY_RAIL_TOL, 16, 12⟩
def ASSAY_RAIL_TOL_TOL : Field := ⟨R.ASSAY_RAIL_TOL, 0, 16⟩
/-! `ASSAY_REF_TOL`, 06_assay.md -/
def ASSAY_REF_TOL_MISS : Field := ⟨R.ASSAY_REF_TOL, 28, 4⟩
def ASSAY_REF_TOL_SPREAD : Field := ⟨R.ASSAY_REF_TOL, 16, 12⟩
def ASSAY_REF_TOL_TOL : Field := ⟨R.ASSAY_REF_TOL, 0, 16⟩
/-! `ASSAY_STATUS`, 06_assay.md -/
def ASSAY_STATUS_VREF_C_ON : Field := ⟨R.ASSAY_STATUS, 28, 1⟩
def ASSAY_STATUS_TRIAGE : Field := ⟨R.ASSAY_STATUS, 26, 2⟩
def ASSAY_STATUS_PART : Field := ⟨R.ASSAY_STATUS, 18, 8⟩
def ASSAY_STATUS_ROUND : Field := ⟨R.ASSAY_STATUS, 15, 3⟩
def ASSAY_STATUS_NEXT_RAIL : Field := ⟨R.ASSAY_STATUS, 9, 6⟩
def ASSAY_STATUS_FROZEN : Field := ⟨R.ASSAY_STATUS, 2, 1⟩
def ASSAY_STATUS_REF_MISS : Field := ⟨R.ASSAY_STATUS, 1, 1⟩
def ASSAY_STATUS_RUN : Field := ⟨R.ASSAY_STATUS, 0, 1⟩
/-! `ASSAY_VERDICT`, 06_assay.md -/
def ASSAY_VERDICT_KIND : Field := ⟨R.ASSAY_VERDICT, 30, 2⟩
def ASSAY_VERDICT_OUTCOME : Field := ⟨R.ASSAY_VERDICT, 28, 2⟩
def ASSAY_VERDICT_PART : Field := ⟨R.ASSAY_VERDICT, 20, 8⟩
def ASSAY_VERDICT_WIT1 : Field := ⟨R.ASSAY_VERDICT, 16, 4⟩
def ASSAY_VERDICT_WIT2 : Field := ⟨R.ASSAY_VERDICT, 12, 4⟩
/-! `ASSAY_CONV_MISS`, 06_assay.md -/
def ASSAY_CONV_MISS_POS (k : Nat) : Field := ⟨R.ASSAY_CONV_MISS, 4 * k, 4⟩
/-! `ASSAY_REF_DIFF`, 06_assay.md -/
def ASSAY_REF_DIFF_DIFF : Field := ⟨R.ASSAY_REF_DIFF, 0, 16⟩
/-! `ASSAY_REF_RATIO`, 06_assay.md -/
def ASSAY_REF_RATIO_C0 : Field := ⟨R.ASSAY_REF_RATIO, 16, 16⟩
def ASSAY_REF_RATIO_B0 : Field := ⟨R.ASSAY_REF_RATIO, 0, 16⟩
/-! `ASSAY_SF_IDX`, 06_assay.md -/
def ASSAY_SF_IDX_SLICE : Field := ⟨R.ASSAY_SF_IDX, 0, 7⟩
/-! `ASSAY_SF_GAIN`, 06_assay.md -/
def ASSAY_SF_GAIN_SFG : Field := ⟨R.ASSAY_SF_GAIN, 0, 24⟩
/-! `ASSAY_SF_OFFSET`, 06_assay.md -/
def ASSAY_SF_OFFSET_SFO : Field := ⟨R.ASSAY_SF_OFFSET, 0, 24⟩
/-! `ASSAY_CNT`, 06_assay.md -/
def ASSAY_CNT_TRIAGES : Field := ⟨R.ASSAY_CNT, 16, 16⟩
def ASSAY_CNT_ROUNDS : Field := ⟨R.ASSAY_CNT, 0, 16⟩
/-! `QUIREq_CFG`, 07_quires.md -/
def QUIREq_CFG_AUTO (i : Nat) : Field := ⟨(R.QUIREq_CFG i), 31, 1⟩
def QUIREq_CFG_GATE_TO (i : Nat) : Field := ⟨(R.QUIREq_CFG i), 20, 8⟩
def QUIREq_CFG_RETRY_OFF (i : Nat) : Field := ⟨(R.QUIREq_CFG i), 12, 8⟩
def QUIREq_CFG_OFF_LVL (i : Nat) : Field := ⟨(R.QUIREq_CFG i), 4, 8⟩
def QUIREq_CFG_RETRY_HOLD (i : Nat) : Field := ⟨(R.QUIREq_CFG i), 0, 4⟩
/-! `QUIREq_CTRL`, 07_quires.md -/
def QUIREq_CTRL_RESUME (i : Nat) : Field := ⟨(R.QUIREq_CTRL i), 2, 1⟩
def QUIREq_CTRL_DOWN (i : Nat) : Field := ⟨(R.QUIREq_CTRL i), 1, 1⟩
def QUIREq_CTRL_UP (i : Nat) : Field := ⟨(R.QUIREq_CTRL i), 0, 1⟩
/-! `QUIREq_STATUS`, 07_quires.md -/
def QUIREq_STATUS_STATE (i : Nat) : Field := ⟨(R.QUIREq_STATUS i), 28, 4⟩
def QUIREq_STATUS_DIR (i : Nat) : Field := ⟨(R.QUIREq_STATUS i), 27, 1⟩
def QUIREq_STATUS_STEP (i : Nat) : Field := ⟨(R.QUIREq_STATUS i), 23, 4⟩
def QUIREq_STATUS_ATTEMPT (i : Nat) : Field := ⟨(R.QUIREq_STATUS i), 20, 3⟩
def QUIREq_STATUS_CAUSE (i : Nat) : Field := ⟨(R.QUIREq_STATUS i), 16, 4⟩
def QUIREq_STATUS_SUSPENDED (i : Nat) : Field := ⟨(R.QUIREq_STATUS i), 15, 1⟩
def QUIREq_STATUS_GATE_WAIT (i : Nat) : Field := ⟨(R.QUIREq_STATUS i), 14, 1⟩
def QUIREq_STATUS_BAR_WAIT (i : Nat) : Field := ⟨(R.QUIREq_STATUS i), 13, 1⟩
def QUIREq_STATUS_RETRY_WAIT (i : Nat) : Field := ⟨(R.QUIREq_STATUS i), 12, 1⟩
/-! `QUIREq_MEMBERS_LO`, 07_quires.md -/
def QUIREq_MEMBERS_LO_RAILS (i : Nat) : Field := ⟨(R.QUIREq_MEMBERS_LO i), 0, 32⟩
/-! `QUIREq_MEMBERS_HI`, 07_quires.md -/
def QUIREq_MEMBERS_HI_RAILS (i : Nat) : Field := ⟨(R.QUIREq_MEMBERS_HI i), 0, 32⟩
/-! `QUIREq_STEP_IDX`, 07_quires.md -/
def QUIREq_STEP_IDX_DIR (i : Nat) : Field := ⟨(R.QUIREq_STEP_IDX i), 4, 1⟩
def QUIREq_STEP_IDX_STEP (i : Nat) : Field := ⟨(R.QUIREq_STEP_IDX i), 0, 4⟩
/-! `QUIREq_STEP0`, 07_quires.md -/
def QUIREq_STEP0_RAILS (i : Nat) : Field := ⟨(R.QUIREq_STEP0 i), 0, 32⟩
/-! `QUIREq_STEP1`, 07_quires.md -/
def QUIREq_STEP1_RAILS (i : Nat) : Field := ⟨(R.QUIREq_STEP1 i), 0, 32⟩
/-! `QUIREq_STEP2`, 07_quires.md -/
def QUIREq_STEP2_VALID (i : Nat) : Field := ⟨(R.QUIREq_STEP2 i), 31, 1⟩
def QUIREq_STEP2_ANG_GATE (i : Nat) : Field := ⟨(R.QUIREq_STEP2 i), 30, 1⟩
def QUIREq_STEP2_BAR (i : Nat) : Field := ⟨(R.QUIREq_STEP2 i), 29, 1⟩
def QUIREq_STEP2_DEP (i : Nat) : Field := ⟨(R.QUIREq_STEP2 i), 28, 1⟩
def QUIREq_STEP2_SETTLE_W (i : Nat) : Field := ⟨(R.QUIREq_STEP2 i), 27, 1⟩
def QUIREq_STEP2_SLOPE (i : Nat) : Field := ⟨(R.QUIREq_STEP2 i), 26, 1⟩
def QUIREq_STEP2_WIN (i : Nat) : Field := ⟨(R.QUIREq_STEP2 i), 25, 1⟩
def QUIREq_STEP2_PG (i : Nat) : Field := ⟨(R.QUIREq_STEP2 i), 24, 1⟩
def QUIREq_STEP2_RETRY (i : Nat) : Field := ⟨(R.QUIREq_STEP2 i), 20, 3⟩
def QUIREq_STEP2_DEP_Q (i : Nat) : Field := ⟨(R.QUIREq_STEP2 i), 16, 4⟩
def QUIREq_STEP2_DEP_DIR (i : Nat) : Field := ⟨(R.QUIREq_STEP2 i), 15, 1⟩
def QUIREq_STEP2_DEP_STEP (i : Nat) : Field := ⟨(R.QUIREq_STEP2 i), 11, 4⟩
def QUIREq_STEP2_BAR_ID (i : Nat) : Field := ⟨(R.QUIREq_STEP2 i), 0, 8⟩
/-! `QUIREq_STEP3`, 07_quires.md -/
def QUIREq_STEP3_TIMEOUT (i : Nat) : Field := ⟨(R.QUIREq_STEP3 i), 16, 16⟩
def QUIREq_STEP3_SETTLE (i : Nat) : Field := ⟨(R.QUIREq_STEP3 i), 0, 16⟩
/-! `QUIREq_STEP4`, 07_quires.md -/
def QUIREq_STEP4_ANG_OPEN (i : Nat) : Field := ⟨(R.QUIREq_STEP4 i), 0, 20⟩
/-! `QUIREq_STEP5`, 07_quires.md -/
def QUIREq_STEP5_ANG_CLOSE (i : Nat) : Field := ⟨(R.QUIREq_STEP5 i), 0, 20⟩
/-! `QUIREq_DONE`, 07_quires.md -/
def QUIREq_DONE_DOWN_DONE (i : Nat) : Field := ⟨(R.QUIREq_DONE i), 16, 16⟩
def QUIREq_DONE_UP_DONE (i : Nat) : Field := ⟨(R.QUIREq_DONE i), 0, 16⟩
/-! `QUIREq_WAITING`, 07_quires.md -/
def QUIREq_WAITING_ELAPSED (i : Nat) : Field := ⟨(R.QUIREq_WAITING i), 16, 16⟩
def QUIREq_WAITING_OPEN (i : Nat) : Field := ⟨(R.QUIREq_WAITING i), 0, 6⟩
/-! `QUIREq_EVT`, 07_quires.md -/
def QUIREq_EVT_GATE_LATE (i : Nat) : Field := ⟨(R.QUIREq_EVT i), 7, 1⟩
def QUIREq_EVT_HELD (i : Nat) : Field := ⟨(R.QUIREq_EVT i), 6, 1⟩
def QUIREq_EVT_BAR_ARRIVE (i : Nat) : Field := ⟨(R.QUIREq_EVT i), 5, 1⟩
def QUIREq_EVT_RETRY (i : Nat) : Field := ⟨(R.QUIREq_EVT i), 4, 1⟩
def QUIREq_EVT_STEP_FAIL (i : Nat) : Field := ⟨(R.QUIREq_EVT i), 3, 1⟩
def QUIREq_EVT_UP_DONE (i : Nat) : Field := ⟨(R.QUIREq_EVT i), 2, 1⟩
def QUIREq_EVT_DOWN_DONE (i : Nat) : Field := ⟨(R.QUIREq_EVT i), 1, 1⟩
def QUIREq_EVT_STEP_DONE (i : Nat) : Field := ⟨(R.QUIREq_EVT i), 0, 1⟩
/-! `QUIREq_CNT`, 07_quires.md -/
def QUIREq_CNT_RETRIES (i : Nat) : Field := ⟨(R.QUIREq_CNT i), 16, 16⟩
def QUIREq_CNT_TIMEOUTS (i : Nat) : Field := ⟨(R.QUIREq_CNT i), 0, 16⟩
/-! `MARGn_LEVEL`, 08_margin_sounding.md -/
def MARGn_LEVEL_HI_CODE (i : Nat) : Field := ⟨(R.MARGn_LEVEL i), 16, 12⟩
def MARGn_LEVEL_LO_CODE (i : Nat) : Field := ⟨(R.MARGn_LEVEL i), 0, 12⟩
/-! `MARGn_EXPECT`, 08_margin_sounding.md -/
def MARGn_EXPECT_MAX_DEV (i : Nat) : Field := ⟨(R.MARGn_EXPECT i), 16, 16⟩
def MARGn_EXPECT_MIN_DEV (i : Nat) : Field := ⟨(R.MARGn_EXPECT i), 0, 16⟩
/-! `MARGn_CFG`, 08_margin_sounding.md -/
def MARGn_CFG_SRC (i : Nat) : Field := ⟨(R.MARGn_CFG i), 30, 2⟩
def MARGn_CFG_SLEW (i : Nat) : Field := ⟨(R.MARGn_CFG i), 28, 2⟩
def MARGn_CFG_PARTNER (i : Nat) : Field := ⟨(R.MARGn_CFG i), 20, 7⟩
def MARGn_CFG_DWELL (i : Nat) : Field := ⟨(R.MARGn_CFG i), 8, 8⟩
def MARGn_CFG_AVG (i : Nat) : Field := ⟨(R.MARGn_CFG i), 6, 2⟩
def MARGn_CFG_RET_TO (i : Nat) : Field := ⟨(R.MARGn_CFG i), 0, 6⟩
/-! `MARGn_STATUS`, 08_margin_sounding.md -/
def MARGn_STATUS_CODE (i : Nat) : Field := ⟨(R.MARGn_STATUS i), 20, 12⟩
def MARGn_STATUS_STATE (i : Nat) : Field := ⟨(R.MARGn_STATUS i), 18, 2⟩
def MARGn_STATUS_OUTCOME (i : Nat) : Field := ⟨(R.MARGn_STATUS i), 16, 2⟩
def MARGn_STATUS_DEV (i : Nat) : Field := ⟨(R.MARGn_STATUS i), 0, 16⟩
/-! `MARG_CTRL`, 08_margin_sounding.md -/
def MARG_CTRL_ABORT : Field := ⟨R.MARG_CTRL, 31, 1⟩
def MARG_CTRL_START : Field := ⟨R.MARG_CTRL, 30, 1⟩
def MARG_CTRL_DIR : Field := ⟨R.MARG_CTRL, 28, 2⟩
def MARG_CTRL_RAIL : Field := ⟨R.MARG_CTRL, 0, 6⟩
/-! `MARG_CAP_IDX`, 08_margin_sounding.md -/
def MARG_CAP_IDX_RAIL : Field := ⟨R.MARG_CAP_IDX, 0, 6⟩
/-! `MARG_CAP`, 08_margin_sounding.md -/
def MARG_CAP_MCAP : Field := ⟨R.MARG_CAP, 24, 8⟩
def MARG_CAP_MDEV : Field := ⟨R.MARG_CAP, 16, 8⟩
def MARG_CAP_SCAP : Field := ⟨R.MARG_CAP, 8, 8⟩
def MARG_CAP_SDEV : Field := ⟨R.MARG_CAP, 0, 6⟩
/-! `MARG_EVT`, 08_margin_sounding.md -/
def MARG_EVT_REASON : Field := ⟨R.MARG_EVT, 16, 4⟩
def MARG_EVT_RAIL : Field := ⟨R.MARG_EVT, 8, 6⟩
def MARG_EVT_COMPLIANCE : Field := ⟨R.MARG_EVT, 3, 1⟩
def MARG_EVT_CAP_TRIP : Field := ⟨R.MARG_EVT, 2, 1⟩
def MARG_EVT_FAIL : Field := ⟨R.MARG_EVT, 1, 1⟩
def MARG_EVT_DONE : Field := ⟨R.MARG_EVT, 0, 1⟩
/-! `SND_CFG`, 08_margin_sounding.md -/
def SND_CFG_ARCHIVE : Field := ⟨R.SND_CFG, 31, 1⟩
def SND_CFG_QUIET_EN : Field := ⟨R.SND_CFG, 30, 1⟩
def SND_CFG_AT_EN : Field := ⟨R.SND_CFG, 29, 1⟩
def SND_CFG_STIM : Field := ⟨R.SND_CFG, 28, 1⟩
def SND_CFG_NPTS : Field := ⟨R.SND_CFG, 16, 5⟩
def SND_CFG_CYC : Field := ⟨R.SND_CFG, 14, 2⟩
def SND_CFG_TMIN : Field := ⟨R.SND_CFG, 12, 2⟩
def SND_CFG_PM_MIN : Field := ⟨R.SND_CFG, 0, 12⟩
/-! `SND_FREQ`, 08_margin_sounding.md -/
def SND_FREQ_F_STOP : Field := ⟨R.SND_FREQ, 16, 16⟩
def SND_FREQ_F_START : Field := ⟨R.SND_FREQ, 0, 16⟩
/-! `SND_AMP`, 08_margin_sounding.md -/
def SND_AMP_REPS : Field := ⟨R.SND_AMP, 16, 4⟩
def SND_AMP_CHIP : Field := ⟨R.SND_AMP, 12, 2⟩
def SND_AMP_ORDER : Field := ⟨R.SND_AMP, 8, 4⟩
def SND_AMP_AMP : Field := ⟨R.SND_AMP, 0, 8⟩
/-! `SND_RAILS_LO`, 08_margin_sounding.md -/
def SND_RAILS_LO_RAILS : Field := ⟨R.SND_RAILS_LO, 0, 32⟩
/-! `SND_RAILS_HI`, 08_margin_sounding.md -/
def SND_RAILS_HI_RAILS : Field := ⟨R.SND_RAILS_HI, 0, 32⟩
/-! `SND_QUIET_OPEN`, 08_margin_sounding.md -/
def SND_QUIET_OPEN_ANGLE : Field := ⟨R.SND_QUIET_OPEN, 0, 20⟩
/-! `SND_QUIET_CLOSE`, 08_margin_sounding.md -/
def SND_QUIET_CLOSE_ANGLE : Field := ⟨R.SND_QUIET_CLOSE, 0, 20⟩
/-! `SND_AT_HI`, 08_margin_sounding.md -/
def SND_AT_HI_STAMP_HI : Field := ⟨R.SND_AT_HI, 0, 16⟩
/-! `SND_AT_LO`, 08_margin_sounding.md -/
def SND_AT_LO_STAMP_LO : Field := ⟨R.SND_AT_LO, 0, 32⟩
/-! `SND_TAG`, 08_margin_sounding.md -/
def SND_TAG_TAG : Field := ⟨R.SND_TAG, 0, 32⟩
/-! `SND_CTRL`, 08_margin_sounding.md -/
def SND_CTRL_STOP : Field := ⟨R.SND_CTRL, 1, 1⟩
def SND_CTRL_START : Field := ⟨R.SND_CTRL, 0, 1⟩
/-! `SND_STATUS`, 08_margin_sounding.md -/
def SND_STATUS_STATE : Field := ⟨R.SND_STATUS, 30, 2⟩
def SND_STATUS_LAST : Field := ⟨R.SND_STATUS, 28, 2⟩
def SND_STATUS_POINT : Field := ⟨R.SND_STATUS, 23, 5⟩
def SND_STATUS_ARC_BUSY : Field := ⟨R.SND_STATUS, 22, 1⟩
def SND_STATUS_SEQ : Field := ⟨R.SND_STATUS, 0, 16⟩
/-! `SND_RES_IDX`, 08_margin_sounding.md -/
def SND_RES_IDX_POINT : Field := ⟨R.SND_RES_IDX, 8, 5⟩
def SND_RES_IDX_RAIL : Field := ⟨R.SND_RES_IDX, 0, 6⟩
/-! `SND_RES_FREQ`, 08_margin_sounding.md -/
def SND_RES_FREQ_FREQ : Field := ⟨R.SND_RES_FREQ, 0, 32⟩
/-! `SND_RES_MAG`, 08_margin_sounding.md -/
def SND_RES_MAG_MAG : Field := ⟨R.SND_RES_MAG, 0, 32⟩
/-! `SND_RES_PHASE`, 08_margin_sounding.md -/
def SND_RES_PHASE_PHASE : Field := ⟨R.SND_RES_PHASE, 16, 16⟩
def SND_RES_PHASE_SNR : Field := ⟨R.SND_RES_PHASE, 8, 8⟩
def SND_RES_PHASE_VALID : Field := ⟨R.SND_RES_PHASE, 7, 1⟩
def SND_RES_PHASE_HALVINGS : Field := ⟨R.SND_RES_PHASE, 5, 2⟩
def SND_RES_PHASE_CAPPED : Field := ⟨R.SND_RES_PHASE, 4, 1⟩
def SND_RES_PHASE_LOW_SNR : Field := ⟨R.SND_RES_PHASE, 3, 1⟩
def SND_RES_PHASE_NEAR_CARRIER : Field := ⟨R.SND_RES_PHASE, 2, 1⟩
def SND_RES_PHASE_HOLDOVER : Field := ⟨R.SND_RES_PHASE, 1, 1⟩
def SND_RES_PHASE_QUIET_SHORT : Field := ⟨R.SND_RES_PHASE, 0, 1⟩
/-! `SND_SUM_H0`, 08_margin_sounding.md -/
def SND_SUM_H0_H0 : Field := ⟨R.SND_SUM_H0, 0, 32⟩
/-! `SND_SUM_XOVER`, 08_margin_sounding.md -/
def SND_SUM_XOVER_XOVER : Field := ⟨R.SND_SUM_XOVER, 0, 32⟩
/-! `SND_SUM_PM`, 08_margin_sounding.md -/
def SND_SUM_PM_PM : Field := ⟨R.SND_SUM_PM, 16, 16⟩
def SND_SUM_PM_PEAK : Field := ⟨R.SND_SUM_PM, 0, 16⟩
/-! `SND_SUM_FLAGS`, 08_margin_sounding.md -/
def SND_SUM_FLAGS_PAUSED : Field := ⟨R.SND_SUM_FLAGS, 11, 1⟩
def SND_SUM_FLAGS_ARCHIVED : Field := ⟨R.SND_SUM_FLAGS, 10, 1⟩
def SND_SUM_FLAGS_PM_LOW : Field := ⟨R.SND_SUM_FLAGS, 9, 1⟩
def SND_SUM_FLAGS_ABORTED : Field := ⟨R.SND_SUM_FLAGS, 8, 1⟩
def SND_SUM_FLAGS_HOLDOVER : Field := ⟨R.SND_SUM_FLAGS, 7, 1⟩
def SND_SUM_FLAGS_NEAR_CARRIER : Field := ⟨R.SND_SUM_FLAGS, 6, 1⟩
def SND_SUM_FLAGS_LOW_SNR : Field := ⟨R.SND_SUM_FLAGS, 5, 1⟩
def SND_SUM_FLAGS_CAPPED : Field := ⟨R.SND_SUM_FLAGS, 4, 1⟩
def SND_SUM_FLAGS_REDUCED : Field := ⟨R.SND_SUM_FLAGS, 3, 1⟩
def SND_SUM_FLAGS_MULTI_XOVER : Field := ⟨R.SND_SUM_FLAGS, 2, 1⟩
def SND_SUM_FLAGS_NO_XOVER : Field := ⟨R.SND_SUM_FLAGS, 1, 1⟩
def SND_SUM_FLAGS_DONE : Field := ⟨R.SND_SUM_FLAGS, 0, 1⟩
/-! `SND_ARC_CNT`, 08_margin_sounding.md -/
def SND_ARC_CNT_FULL : Field := ⟨R.SND_ARC_CNT, 16, 16⟩
def SND_ARC_CNT_TREND : Field := ⟨R.SND_ARC_CNT, 0, 16⟩
/-! `SND_EVT`, 08_margin_sounding.md -/
def SND_EVT_ARCHIVED : Field := ⟨R.SND_EVT, 3, 1⟩
def SND_EVT_PM_LOW : Field := ⟨R.SND_EVT, 2, 1⟩
def SND_EVT_ABORTED : Field := ⟨R.SND_EVT, 1, 1⟩
def SND_EVT_DONE : Field := ⟨R.SND_EVT, 0, 1⟩
/-! `PMp_CFG`, 09_regulator_ports.md -/
def PMp_CFG_EN (i : Nat) : Field := ⟨(R.PMp_CFG i), 31, 1⟩
def PMp_CFG_SPEED (i : Nat) : Field := ⟨(R.PMp_CFG i), 28, 2⟩
def PMp_CFG_ALERT_MODE (i : Nat) : Field := ⟨(R.PMp_CFG i), 26, 2⟩
def PMp_CFG_RETRY (i : Nat) : Field := ⟨(R.PMp_CFG i), 24, 2⟩
def PMp_CFG_LOSS (i : Nat) : Field := ⟨(R.PMp_CFG i), 16, 4⟩
def PMp_CFG_PER (i : Nat) : Field := ⟨(R.PMp_CFG i), 0, 10⟩
/-! `PMp_STATUS`, 09_regulator_ports.md -/
def PMp_STATUS_BUSY (i : Nat) : Field := ⟨(R.PMp_STATUS i), 31, 1⟩
def PMp_STATUS_KIND (i : Nat) : Field := ⟨(R.PMp_STATUS i), 28, 3⟩
def PMp_STATUS_STUCK (i : Nat) : Field := ⟨(R.PMp_STATUS i), 27, 1⟩
def PMp_STATUS_ALERT_LOW (i : Nat) : Field := ⟨(R.PMp_STATUS i), 26, 1⟩
def PMp_STATUS_ALERT_STUCK (i : Nat) : Field := ⟨(R.PMp_STATUS i), 25, 1⟩
def PMp_STATUS_SUSPENDED (i : Nat) : Field := ⟨(R.PMp_STATUS i), 24, 1⟩
def PMp_STATUS_LATE_CNT (i : Nat) : Field := ⟨(R.PMp_STATUS i), 16, 8⟩
def PMp_STATUS_LOAD (i : Nat) : Field := ⟨(R.PMp_STATUS i), 0, 8⟩
/-! `PMp_EVT`, 09_regulator_ports.md -/
def PMp_EVT_UNKNOWN_ALERT (i : Nat) : Field := ⟨(R.PMp_EVT i), 5, 1⟩
def PMp_EVT_LATE (i : Nat) : Field := ⟨(R.PMp_EVT i), 4, 1⟩
def PMp_EVT_BUS_ERR (i : Nat) : Field := ⟨(R.PMp_EVT i), 3, 1⟩
def PMp_EVT_RESTORED (i : Nat) : Field := ⟨(R.PMp_EVT i), 2, 1⟩
def PMp_EVT_LOST (i : Nat) : Field := ⟨(R.PMp_EVT i), 1, 1⟩
def PMp_EVT_STATUS_CHG (i : Nat) : Field := ⟨(R.PMp_EVT i), 0, 1⟩
/-! `PMp_CNT`, 09_regulator_ports.md -/
def PMp_CNT_FAILS (i : Nat) : Field := ⟨(R.PMp_CNT i), 16, 16⟩
def PMp_CNT_DONE (i : Nat) : Field := ⟨(R.PMp_CNT i), 0, 16⟩
/-! `PMp_ALERT`, 09_regulator_ports.md -/
def PMp_ALERT_COUNT (i : Nat) : Field := ⟨(R.PMp_ALERT i), 8, 8⟩
def PMp_ALERT_LAST_ADDR (i : Nat) : Field := ⟨(R.PMp_ALERT i), 0, 7⟩
/-! `PM_XFER_CTRL`, 09_regulator_ports.md -/
def PM_XFER_CTRL_START : Field := ⟨R.PM_XFER_CTRL, 31, 1⟩
def PM_XFER_CTRL_ENTRY : Field := ⟨R.PM_XFER_CTRL, 20, 7⟩
def PM_XFER_CTRL_KIND : Field := ⟨R.PM_XFER_CTRL, 17, 3⟩
def PM_XFER_CTRL_CODE : Field := ⟨R.PM_XFER_CTRL, 8, 8⟩
/-! `PM_XFER_DATA`, 09_regulator_ports.md -/
def PM_XFER_DATA_DATA : Field := ⟨R.PM_XFER_DATA, 0, 16⟩
/-! `PM_XFER_STATUS`, 09_regulator_ports.md -/
def PM_XFER_STATUS_BUSY : Field := ⟨R.PM_XFER_STATUS, 31, 1⟩
def PM_XFER_STATUS_OUTCOME : Field := ⟨R.PM_XFER_STATUS, 0, 3⟩
/-! `PMPk_CFG`, 09_regulator_ports.md -/
def PMPk_CFG_VALID (i : Nat) : Field := ⟨(R.PMPk_CFG i), 31, 1⟩
def PMPk_CFG_PEC (i : Nat) : Field := ⟨(R.PMPk_CFG i), 30, 1⟩
def PMPk_CFG_PAGE_EN (i : Nat) : Field := ⟨(R.PMPk_CFG i), 29, 1⟩
def PMPk_CFG_LINK (i : Nat) : Field := ⟨(R.PMPk_CFG i), 28, 1⟩
def PMPk_CFG_SKIP_OFF (i : Nat) : Field := ⟨(R.PMPk_CFG i), 27, 1⟩
def PMPk_CFG_POLL_VOUT (i : Nat) : Field := ⟨(R.PMPk_CFG i), 26, 1⟩
def PMPk_CFG_POLL_AUX (i : Nat) : Field := ⟨(R.PMPk_CFG i), 24, 2⟩
def PMPk_CFG_RAIL (i : Nat) : Field := ⟨(R.PMPk_CFG i), 16, 6⟩
def PMPk_CFG_PAGE (i : Nat) : Field := ⟨(R.PMPk_CFG i), 8, 8⟩
def PMPk_CFG_ADDR (i : Nat) : Field := ⟨(R.PMPk_CFG i), 0, 7⟩
/-! `PMPk_MASK`, 09_regulator_ports.md -/
def PMPk_MASK_FAULT_MASK (i : Nat) : Field := ⟨(R.PMPk_MASK i), 16, 16⟩
def PMPk_MASK_EVT_MASK (i : Nat) : Field := ⟨(R.PMPk_MASK i), 0, 16⟩
/-! `PMPk_STATUS`, 09_regulator_ports.md -/
def PMPk_STATUS_STATUS_WORD (i : Nat) : Field := ⟨(R.PMPk_STATUS i), 16, 16⟩
def PMPk_STATUS_LOST (i : Nat) : Field := ⟨(R.PMPk_STATUS i), 15, 1⟩
def PMPk_STATUS_STALE (i : Nat) : Field := ⟨(R.PMPk_STATUS i), 14, 1⟩
def PMPk_STATUS_FAULT (i : Nat) : Field := ⟨(R.PMPk_STATUS i), 13, 1⟩
def PMPk_STATUS_MARGIN (i : Nat) : Field := ⟨(R.PMPk_STATUS i), 12, 1⟩
def PMPk_STATUS_FAILS (i : Nat) : Field := ⟨(R.PMPk_STATUS i), 8, 4⟩
def PMPk_STATUS_VMODE (i : Nat) : Field := ⟨(R.PMPk_STATUS i), 5, 3⟩
def PMPk_STATUS_VEXP (i : Nat) : Field := ⟨(R.PMPk_STATUS i), 0, 5⟩
/-! `PMPk_READ`, 09_regulator_ports.md -/
def PMPk_READ_VOUT (i : Nat) : Field := ⟨(R.PMPk_READ i), 16, 16⟩
def PMPk_READ_AUX (i : Nat) : Field := ⟨(R.PMPk_READ i), 0, 16⟩
/-! `RAILn_GUARD_CFG`, 03_rail_guard.md -/
def RAILn_GUARD_CFG_USE (i : Nat) : Field := ⟨(R.RAILn_GUARD_CFG i), 31, 1⟩
def RAILn_GUARD_CFG_HYST (i : Nat) : Field := ⟨(R.RAILn_GUARD_CFG i), 20, 4⟩
def RAILn_GUARD_CFG_PROOF_PER (i : Nat) : Field := ⟨(R.RAILn_GUARD_CFG i), 18, 2⟩
def RAILn_GUARD_CFG_PG_FILT (i : Nat) : Field := ⟨(R.RAILn_GUARD_CFG i), 16, 2⟩
def RAILn_GUARD_CFG_PG_PULLUP (i : Nat) : Field := ⟨(R.RAILn_GUARD_CFG i), 15, 1⟩
def RAILn_GUARD_CFG_PG_POL (i : Nat) : Field := ⟨(R.RAILn_GUARD_CFG i), 14, 1⟩
def RAILn_GUARD_CFG_PG_USE (i : Nat) : Field := ⟨(R.RAILn_GUARD_CFG i), 13, 1⟩
def RAILn_GUARD_CFG_EN_POL (i : Nat) : Field := ⟨(R.RAILn_GUARD_CFG i), 11, 1⟩
def RAILn_GUARD_CFG_EN_OD (i : Nat) : Field := ⟨(R.RAILn_GUARD_CFG i), 10, 1⟩
/-! `RAILn_GUARD_OV`, 03_rail_guard.md -/
def RAILn_GUARD_OV_CEIL (i : Nat) : Field := ⟨(R.RAILn_GUARD_OV i), 16, 12⟩
def RAILn_GUARD_OV_THRESH (i : Nat) : Field := ⟨(R.RAILn_GUARD_OV i), 0, 12⟩
/-! `RAILn_GUARD_UV`, 03_rail_guard.md -/
def RAILn_GUARD_UV_THRESH (i : Nat) : Field := ⟨(R.RAILn_GUARD_UV i), 0, 12⟩
/-! `RAILn_GUARD_FILT`, 03_rail_guard.md -/
def RAILn_GUARD_FILT_OV_FILT (i : Nat) : Field := ⟨(R.RAILn_GUARD_FILT i), 8, 8⟩
def RAILn_GUARD_FILT_UV_FILT (i : Nat) : Field := ⟨(R.RAILn_GUARD_FILT i), 0, 8⟩
/-! `RAILn_DIV`, 03_rail_guard.md -/
def RAILn_DIV_RATIO (i : Nat) : Field := ⟨(R.RAILn_DIV i), 0, 32⟩
/-! `RAILn_GUARD_STATUS`, 03_rail_guard.md -/
def RAILn_GUARD_STATUS_SLICE (i : Nat) : Field := ⟨(R.RAILn_GUARD_STATUS i), 28, 4⟩
def RAILn_GUARD_STATUS_SUBST (i : Nat) : Field := ⟨(R.RAILn_GUARD_STATUS i), 27, 1⟩
def RAILn_GUARD_STATUS_UV_FAILED (i : Nat) : Field := ⟨(R.RAILn_GUARD_STATUS i), 26, 1⟩
def RAILn_GUARD_STATUS_OV_FAILED (i : Nat) : Field := ⟨(R.RAILn_GUARD_STATUS i), 25, 1⟩
def RAILn_GUARD_STATUS_ORDER_ERR (i : Nat) : Field := ⟨(R.RAILn_GUARD_STATUS i), 24, 1⟩
def RAILn_GUARD_STATUS_CLAMPED (i : Nat) : Field := ⟨(R.RAILn_GUARD_STATUS i), 23, 1⟩
def RAILn_GUARD_STATUS_CM_ERR (i : Nat) : Field := ⟨(R.RAILn_GUARD_STATUS i), 22, 1⟩
def RAILn_GUARD_STATUS_EN_MISMATCH (i : Nat) : Field := ⟨(R.RAILn_GUARD_STATUS i), 21, 1⟩
def RAILn_GUARD_STATUS_EN_PIN (i : Nat) : Field := ⟨(R.RAILn_GUARD_STATUS i), 20, 1⟩
def RAILn_GUARD_STATUS_EN_LATCH (i : Nat) : Field := ⟨(R.RAILn_GUARD_STATUS i), 19, 1⟩
def RAILn_GUARD_STATUS_EN_DRIVE (i : Nat) : Field := ⟨(R.RAILn_GUARD_STATUS i), 18, 1⟩
def RAILn_GUARD_STATUS_PG_GOOD (i : Nat) : Field := ⟨(R.RAILn_GUARD_STATUS i), 17, 1⟩
def RAILn_GUARD_STATUS_PG_RAW (i : Nat) : Field := ⟨(R.RAILn_GUARD_STATUS i), 16, 1⟩
def RAILn_GUARD_STATUS_UV_ARMED (i : Nat) : Field := ⟨(R.RAILn_GUARD_STATUS i), 15, 1⟩
def RAILn_GUARD_STATUS_UV_OUT (i : Nat) : Field := ⟨(R.RAILn_GUARD_STATUS i), 9, 1⟩
def RAILn_GUARD_STATUS_OV_OUT (i : Nat) : Field := ⟨(R.RAILn_GUARD_STATUS i), 8, 1⟩
def RAILn_GUARD_STATUS_UV_RAW (i : Nat) : Field := ⟨(R.RAILn_GUARD_STATUS i), 1, 1⟩
def RAILn_GUARD_STATUS_OV_RAW (i : Nat) : Field := ⟨(R.RAILn_GUARD_STATUS i), 0, 1⟩
/-! `RAILn_GUARD_EVT`, 03_rail_guard.md -/
def RAILn_GUARD_EVT_PG_NO_EN (i : Nat) : Field := ⟨(R.RAILn_GUARD_EVT i), 6, 1⟩
def RAILn_GUARD_EVT_PROOF_FAIL (i : Nat) : Field := ⟨(R.RAILn_GUARD_EVT i), 5, 1⟩
def RAILn_GUARD_EVT_CM_SEEN (i : Nat) : Field := ⟨(R.RAILn_GUARD_EVT i), 4, 1⟩
def RAILn_GUARD_EVT_EN_MISMATCH_SEEN (i : Nat) : Field := ⟨(R.RAILn_GUARD_EVT i), 3, 1⟩
def RAILn_GUARD_EVT_PG_LOST (i : Nat) : Field := ⟨(R.RAILn_GUARD_EVT i), 2, 1⟩
def RAILn_GUARD_EVT_UV_SEEN (i : Nat) : Field := ⟨(R.RAILn_GUARD_EVT i), 1, 1⟩
def RAILn_GUARD_EVT_OV_SEEN (i : Nat) : Field := ⟨(R.RAILn_GUARD_EVT i), 0, 1⟩
/-! `RAILn_EN_CTRL`, 03_rail_guard.md -/
def RAILn_EN_CTRL_EN_CLR (i : Nat) : Field := ⟨(R.RAILn_EN_CTRL i), 1, 1⟩
def RAILn_EN_CTRL_EN_SET (i : Nat) : Field := ⟨(R.RAILn_EN_CTRL i), 0, 1⟩
/-! `RAILn_GUARD_CNT`, 03_rail_guard.md -/
def RAILn_GUARD_CNT_UV_CNT (i : Nat) : Field := ⟨(R.RAILn_GUARD_CNT i), 16, 16⟩
def RAILn_GUARD_CNT_OV_CNT (i : Nat) : Field := ⟨(R.RAILn_GUARD_CNT i), 0, 16⟩
/-! `RAILn_PROOF`, 03_rail_guard.md -/
def RAILn_PROOF_SKIP_CNT (i : Nat) : Field := ⟨(R.RAILn_PROOF i), 24, 8⟩
def RAILn_PROOF_UV_MISS (i : Nat) : Field := ⟨(R.RAILn_PROOF i), 10, 2⟩
def RAILn_PROOF_OV_MISS (i : Nat) : Field := ⟨(R.RAILn_PROOF i), 8, 2⟩
def RAILn_PROOF_LAST_OK (i : Nat) : Field := ⟨(R.RAILn_PROOF i), 0, 1⟩
/-! `RAILn_FINE_CFG`, 04_rail_fine_path.md -/
def RAILn_FINE_CFG_RATE (i : Nat) : Field := ⟨(R.RAILn_FINE_CFG i), 26, 2⟩
def RAILn_FINE_CFG_FIR_EN (i : Nat) : Field := ⟨(R.RAILn_FINE_CFG i), 25, 1⟩
def RAILn_FINE_CFG_SLOPE_EN (i : Nat) : Field := ⟨(R.RAILn_FINE_CFG i), 24, 1⟩
def RAILn_FINE_CFG_RIPPLE_EN (i : Nat) : Field := ⟨(R.RAILn_FINE_CFG i), 23, 1⟩
def RAILn_FINE_CFG_WIN_FAULT (i : Nat) : Field := ⟨(R.RAILn_FINE_CFG i), 22, 1⟩
def RAILn_FINE_CFG_RIPPLE_FAULT (i : Nat) : Field := ⟨(R.RAILn_FINE_CFG i), 21, 1⟩
def RAILn_FINE_CFG_CAL_AVG (i : Nat) : Field := ⟨(R.RAILn_FINE_CFG i), 16, 2⟩
def RAILn_FINE_CFG_SLOPE_CNT (i : Nat) : Field := ⟨(R.RAILn_FINE_CFG i), 8, 4⟩
def RAILn_FINE_CFG_SLOPE_SPAN (i : Nat) : Field := ⟨(R.RAILn_FINE_CFG i), 0, 4⟩
/-! `RAILn_FINE_RESULT`, 04_rail_fine_path.md -/
def RAILn_FINE_RESULT_VALUE (i : Nat) : Field := ⟨(R.RAILn_FINE_RESULT i), 0, 32⟩
/-! `RAILn_FINE_TAG`, 04_rail_fine_path.md -/
def RAILn_FINE_TAG_TAG (i : Nat) : Field := ⟨(R.RAILn_FINE_TAG i), 0, 32⟩
/-! `RAILn_FINE_RAILV`, 04_rail_fine_path.md -/
def RAILn_FINE_RAILV_VOLTS (i : Nat) : Field := ⟨(R.RAILn_FINE_RAILV i), 0, 32⟩
/-! `RAILn_FINE_WIN_HI`, 04_rail_fine_path.md -/
def RAILn_FINE_WIN_HI_CNT (i : Nat) : Field := ⟨(R.RAILn_FINE_WIN_HI i), 24, 8⟩
def RAILn_FINE_WIN_HI_HI (i : Nat) : Field := ⟨(R.RAILn_FINE_WIN_HI i), 0, 24⟩
/-! `RAILn_FINE_WIN_LO`, 04_rail_fine_path.md -/
def RAILn_FINE_WIN_LO_LO (i : Nat) : Field := ⟨(R.RAILn_FINE_WIN_LO i), 0, 24⟩
/-! `RAILn_FINE_SLOPE`, 04_rail_fine_path.md -/
def RAILn_FINE_SLOPE_MAX (i : Nat) : Field := ⟨(R.RAILn_FINE_SLOPE i), 16, 16⟩
def RAILn_FINE_SLOPE_MIN (i : Nat) : Field := ⟨(R.RAILn_FINE_SLOPE i), 0, 16⟩
/-! `RAILn_FINE_RIPPLE`, 04_rail_fine_path.md -/
def RAILn_FINE_RIPPLE_BLOCK (i : Nat) : Field := ⟨(R.RAILn_FINE_RIPPLE i), 28, 4⟩
def RAILn_FINE_RIPPLE_LIMIT (i : Nat) : Field := ⟨(R.RAILn_FINE_RIPPLE i), 0, 16⟩
/-! `RAILn_FINE_MON`, 04_rail_fine_path.md -/
def RAILn_FINE_MON_SLOPE (i : Nat) : Field := ⟨(R.RAILn_FINE_MON i), 16, 16⟩
def RAILn_FINE_MON_RIPPLE (i : Nat) : Field := ⟨(R.RAILn_FINE_MON i), 0, 16⟩
/-! `RAILn_FINE_STAMP_HI`, 04_rail_fine_path.md -/
def RAILn_FINE_STAMP_HI_STAMP_HI (i : Nat) : Field := ⟨(R.RAILn_FINE_STAMP_HI i), 0, 16⟩
/-! `RAILn_FINE_STAMP_LO`, 04_rail_fine_path.md -/
def RAILn_FINE_STAMP_LO_STAMP_LO (i : Nat) : Field := ⟨(R.RAILn_FINE_STAMP_LO i), 0, 32⟩
/-! `RAILn_CAL_OFFSET`, 04_rail_fine_path.md -/
def RAILn_CAL_OFFSET_OFFSET (i : Nat) : Field := ⟨(R.RAILn_CAL_OFFSET i), 0, 24⟩
/-! `RAILn_CAL_GAIN`, 04_rail_fine_path.md -/
def RAILn_CAL_GAIN_GAIN (i : Nat) : Field := ⟨(R.RAILn_CAL_GAIN i), 0, 24⟩
/-! `RAILn_CAL_TARGET`, 04_rail_fine_path.md -/
def RAILn_CAL_TARGET_VOLTS (i : Nat) : Field := ⟨(R.RAILn_CAL_TARGET i), 0, 32⟩
/-! `RAILn_CAL_STATUS`, 04_rail_fine_path.md -/
def RAILn_CAL_STATUS_SPREAD (i : Nat) : Field := ⟨(R.RAILn_CAL_STATUS i), 16, 16⟩
def RAILn_CAL_STATUS_LAST (i : Nat) : Field := ⟨(R.RAILn_CAL_STATUS i), 6, 2⟩
def RAILn_CAL_STATUS_STATE (i : Nat) : Field := ⟨(R.RAILn_CAL_STATUS i), 4, 2⟩
def RAILn_CAL_STATUS_FULL_DONE (i : Nat) : Field := ⟨(R.RAILn_CAL_STATUS i), 3, 1⟩
def RAILn_CAL_STATUS_ZERO_DONE (i : Nat) : Field := ⟨(R.RAILn_CAL_STATUS i), 2, 1⟩
def RAILn_CAL_STATUS_BUSY (i : Nat) : Field := ⟨(R.RAILn_CAL_STATUS i), 1, 1⟩
/-! `RAILn_FINE_STATE`, 04_rail_fine_path.md -/
def RAILn_FINE_STATE_RUN (i : Nat) : Field := ⟨(R.RAILn_FINE_STATE i), 15, 1⟩
def RAILn_FINE_STATE_OOS (i : Nat) : Field := ⟨(R.RAILn_FINE_STATE i), 14, 1⟩
def RAILn_FINE_STATE_WIN (i : Nat) : Field := ⟨(R.RAILn_FINE_STATE i), 12, 2⟩
def RAILn_FINE_STATE_SLOPE_ACTIVE (i : Nat) : Field := ⟨(R.RAILn_FINE_STATE i), 11, 1⟩
def RAILn_FINE_STATE_CAL_DONE (i : Nat) : Field := ⟨(R.RAILn_FINE_STATE i), 5, 1⟩
def RAILn_FINE_STATE_OVERLOAD_SEEN (i : Nat) : Field := ⟨(R.RAILn_FINE_STATE i), 4, 1⟩
def RAILn_FINE_STATE_RIPPLE_SEEN (i : Nat) : Field := ⟨(R.RAILn_FINE_STATE i), 3, 1⟩
def RAILn_FINE_STATE_SLOPE_SEEN (i : Nat) : Field := ⟨(R.RAILn_FINE_STATE i), 2, 1⟩
def RAILn_FINE_STATE_WIN_LEFT (i : Nat) : Field := ⟨(R.RAILn_FINE_STATE i), 1, 1⟩
def RAILn_FINE_STATE_WIN_ENTERED (i : Nat) : Field := ⟨(R.RAILn_FINE_STATE i), 0, 1⟩
/-! `SPAREk_STATUS`, 12_twins_spares.md -/
def SPAREk_STATUS_STATE (i : Nat) : Field := ⟨(R.SPAREk_STATUS i), 30, 2⟩
def SPAREk_STATUS_RAIL (i : Nat) : Field := ⟨(R.SPAREk_STATUS i), 24, 6⟩
def SPAREk_STATUS_OV_FAILED (i : Nat) : Field := ⟨(R.SPAREk_STATUS i), 23, 1⟩
def SPAREk_STATUS_UV_FAILED (i : Nat) : Field := ⟨(R.SPAREk_STATUS i), 22, 1⟩
def SPAREk_STATUS_CHECK_OK (i : Nat) : Field := ⟨(R.SPAREk_STATUS i), 21, 1⟩
/-! `SPAREk_CNT`, 12_twins_spares.md -/
def SPAREk_CNT_CHECKS (i : Nat) : Field := ⟨(R.SPAREk_CNT i), 16, 16⟩
def SPAREk_CNT_MISSES (i : Nat) : Field := ⟨(R.SPAREk_CNT i), 0, 16⟩
/-! `RING_CFG`, 16_hexip_ring.md -/
def RING_CFG_MASTER : Field := ⟨R.RING_CFG, 31, 1⟩
def RING_CFG_SPARE_SIDE : Field := ⟨R.RING_CFG, 29, 2⟩
def RING_CFG_WEAR_LIM : Field := ⟨R.RING_CFG, 16, 8⟩
def RING_CFG_EXP_ADDR : Field := ⟨R.RING_CFG, 0, 16⟩
/-! `RING_FUSE`, 16_hexip_ring.md -/
def RING_FUSE_MASTER_PERM : Field := ⟨R.RING_FUSE, 0, 1⟩
/-! `RING_STATUS`, 16_hexip_ring.md -/
def RING_STATUS_ADDR : Field := ⟨R.RING_STATUS, 16, 16⟩
def RING_STATUS_MASTER : Field := ⟨R.RING_STATUS, 15, 1⟩
def RING_STATUS_HOME : Field := ⟨R.RING_STATUS, 14, 1⟩
def RING_STATUS_MARK_OTHER : Field := ⟨R.RING_STATUS, 13, 1⟩
def RING_STATUS_WRAP_E : Field := ⟨R.RING_STATUS, 12, 1⟩
def RING_STATUS_WRAP_W : Field := ⟨R.RING_STATUS, 11, 1⟩
def RING_STATUS_E_UP : Field := ⟨R.RING_STATUS, 10, 1⟩
def RING_STATUS_W_UP : Field := ⟨R.RING_STATUS, 9, 1⟩
def RING_STATUS_S_UP : Field := ⟨R.RING_STATUS, 8, 1⟩
def RING_STATUS_S_STATE : Field := ⟨R.RING_STATUS, 6, 2⟩
def RING_STATUS_E_WORN : Field := ⟨R.RING_STATUS, 5, 1⟩
def RING_STATUS_W_WORN : Field := ⟨R.RING_STATUS, 4, 1⟩
def RING_STATUS_MASTER_SEEN : Field := ⟨R.RING_STATUS, 3, 1⟩
def RING_STATUS_MASTER_HOLD : Field := ⟨R.RING_STATUS, 2, 1⟩
def RING_STATUS_HU_SINGLE : Field := ⟨R.RING_STATUS, 1, 1⟩
/-! `RING_LINK_E`, 16_hexip_ring.md -/
def RING_LINK_E_DELAY : Field := ⟨R.RING_LINK_E, 0, 32⟩
/-! `RING_LINK_W`, 16_hexip_ring.md -/
def RING_LINK_W_DELAY : Field := ⟨R.RING_LINK_W, 0, 32⟩
/-! `RING_ASYM`, 16_hexip_ring.md -/
def RING_ASYM_E : Field := ⟨R.RING_ASYM, 16, 16⟩
def RING_ASYM_W : Field := ⟨R.RING_ASYM, 0, 16⟩
/-! `RING_ANG_ERR`, 16_hexip_ring.md -/
def RING_ANG_ERR_ERR : Field := ⟨R.RING_ANG_ERR, 0, 20⟩
/-! `RING_PUB_CFG`, 16_hexip_ring.md -/
def RING_PUB_CFG_EN : Field := ⟨R.RING_PUB_CFG, 31, 1⟩
def RING_PUB_CFG_PER : Field := ⟨R.RING_PUB_CFG, 0, 10⟩
/-! `RING_PUB_ADDRk`, 16_hexip_ring.md -/
def RING_PUB_ADDRk_VALID (i : Nat) : Field := ⟨(R.RING_PUB_ADDRk i), 31, 1⟩
def RING_PUB_ADDRk_ADDR (i : Nat) : Field := ⟨(R.RING_PUB_ADDRk i), 0, 15⟩
/-! `RING_GRANT`, 16_hexip_ring.md -/
def RING_GRANT_HB_OK : Field := ⟨R.RING_GRANT, 31, 1⟩
def RING_GRANT_PUB_OK : Field := ⟨R.RING_GRANT, 30, 1⟩
def RING_GRANT_HB_REF : Field := ⟨R.RING_GRANT, 29, 1⟩
def RING_GRANT_PUB_REF : Field := ⟨R.RING_GRANT, 28, 1⟩
def RING_GRANT_CELLS : Field := ⟨R.RING_GRANT, 0, 22⟩
/-! `RING_ERR_E`, 16_hexip_ring.md -/
def RING_ERR_E_CRC : Field := ⟨R.RING_ERR_E, 16, 16⟩
def RING_ERR_E_CODE : Field := ⟨R.RING_ERR_E, 0, 16⟩
/-! `RING_ERR_W`, 16_hexip_ring.md -/
def RING_ERR_W_CRC : Field := ⟨R.RING_ERR_W, 16, 16⟩
def RING_ERR_W_CODE : Field := ⟨R.RING_ERR_W, 0, 16⟩
/-! `RING_ERR_S`, 16_hexip_ring.md -/
def RING_ERR_S_CRC : Field := ⟨R.RING_ERR_S, 16, 16⟩
def RING_ERR_S_CODE : Field := ⟨R.RING_ERR_S, 0, 16⟩
/-! `RING_EVQ`, 16_hexip_ring.md -/
def RING_EVQ_DROPPED : Field := ⟨R.RING_EVQ, 16, 16⟩
def RING_EVQ_LEVEL : Field := ⟨R.RING_EVQ, 0, 6⟩
/-! `RING_EVT`, 16_hexip_ring.md -/
def RING_EVT_TWO_MASTERS : Field := ⟨R.RING_EVT, 17, 1⟩
def RING_EVT_RF_DONE : Field := ⟨R.RING_EVT, 16, 1⟩
def RING_EVT_BAR_UNKNOWN : Field := ⟨R.RING_EVT, 15, 1⟩
def RING_EVT_BAR_RELEASE : Field := ⟨R.RING_EVT, 14, 1⟩
def RING_EVT_DISC_DONE : Field := ⟨R.RING_EVT, 13, 1⟩
def RING_EVT_MASTER_BACK : Field := ⟨R.RING_EVT, 12, 1⟩
def RING_EVT_MASTER_LOST : Field := ⟨R.RING_EVT, 11, 1⟩
def RING_EVT_BAR_LATE : Field := ⟨R.RING_EVT, 10, 1⟩
def RING_EVT_ALIGN : Field := ⟨R.RING_EVT, 9, 1⟩
def RING_EVT_MARK_PATH : Field := ⟨R.RING_EVT, 8, 1⟩
def RING_EVT_EVQ_DROP : Field := ⟨R.RING_EVT, 7, 1⟩
def RING_EVT_GRANT : Field := ⟨R.RING_EVT, 6, 1⟩
def RING_EVT_ADDR_SET : Field := ⟨R.RING_EVT, 5, 1⟩
def RING_EVT_SPARE_IN : Field := ⟨R.RING_EVT, 4, 1⟩
def RING_EVT_UNWRAP : Field := ⟨R.RING_EVT, 3, 1⟩
def RING_EVT_WRAP : Field := ⟨R.RING_EVT, 2, 1⟩
def RING_EVT_LINK_DOWN : Field := ⟨R.RING_EVT, 1, 1⟩
def RING_EVT_LINK_UP : Field := ⟨R.RING_EVT, 0, 1⟩
/-! `RING_MCFG`, 16_hexip_ring.md -/
def RING_MCFG_AUTO_DISC : Field := ⟨R.RING_MCFG, 31, 1⟩
def RING_MCFG_RTT_MAX : Field := ⟨R.RING_MCFG, 0, 12⟩
/-! `RING_MSTATUS`, 16_hexip_ring.md -/
def RING_MSTATUS_WRAPPED : Field := ⟨R.RING_MSTATUS, 31, 1⟩
def RING_MSTATUS_DISC_BUSY : Field := ⟨R.RING_MSTATUS, 30, 1⟩
def RING_MSTATUS_TWO_MASTERS : Field := ⟨R.RING_MSTATUS, 29, 1⟩
def RING_MSTATUS_NODES : Field := ⟨R.RING_MSTATUS, 0, 16⟩
/-! `RING_MID`, 16_hexip_ring.md -/
def RING_MID_ID : Field := ⟨R.RING_MID, 0, 32⟩
/-! `RING_LOOP_E`, 16_hexip_ring.md -/
def RING_LOOP_E_LOOP : Field := ⟨R.RING_LOOP_E, 0, 32⟩
/-! `RING_LOOP_W`, 16_hexip_ring.md -/
def RING_LOOP_W_LOOP : Field := ⟨R.RING_LOOP_W, 0, 32⟩
/-! `RING_BUDGET_E`, 16_hexip_ring.md -/
def RING_BUDGET_E_CELLS : Field := ⟨R.RING_BUDGET_E, 0, 22⟩
/-! `RING_BUDGET_W`, 16_hexip_ring.md -/
def RING_BUDGET_W_CELLS : Field := ⟨R.RING_BUDGET_W, 0, 22⟩
/-! `RING_MRX_CNT`, 16_hexip_ring.md -/
def RING_MRX_CNT_TELEMETRY : Field := ⟨R.RING_MRX_CNT, 16, 16⟩
def RING_MRX_CNT_EVENT : Field := ⟨R.RING_MRX_CNT, 0, 16⟩
/-! `RING_BARk_CFG`, 16_hexip_ring.md -/
def RING_BARk_CFG_VALID (i : Nat) : Field := ⟨(R.RING_BARk_CFG i), 31, 1⟩
def RING_BARk_CFG_HOLD_OK (i : Nat) : Field := ⟨(R.RING_BARk_CFG i), 30, 1⟩
def RING_BARk_CFG_AUTO_CLR (i : Nat) : Field := ⟨(R.RING_BARk_CFG i), 29, 1⟩
def RING_BARk_CFG_BAR_ID (i : Nat) : Field := ⟨(R.RING_BARk_CFG i), 16, 8⟩
def RING_BARk_CFG_LEAD (i : Nat) : Field := ⟨(R.RING_BARk_CFG i), 0, 16⟩
/-! `RING_BARk_EXPECT`, 16_hexip_ring.md -/
def RING_BARk_EXPECT_COUNT (i : Nat) : Field := ⟨(R.RING_BARk_EXPECT i), 0, 16⟩
/-! `RING_BARk_STATUS`, 16_hexip_ring.md -/
def RING_BARk_STATUS_STATE (i : Nat) : Field := ⟨(R.RING_BARk_STATUS i), 30, 2⟩
def RING_BARk_STATUS_HOLD_SEEN (i : Nat) : Field := ⟨(R.RING_BARk_STATUS i), 29, 1⟩
def RING_BARk_STATUS_FORCED (i : Nat) : Field := ⟨(R.RING_BARk_STATUS i), 28, 1⟩
def RING_BARk_STATUS_COUNT (i : Nat) : Field := ⟨(R.RING_BARk_STATUS i), 0, 16⟩
/-! `RING_BARk_CTRL`, 16_hexip_ring.md -/
def RING_BARk_CTRL_FORCE (i : Nat) : Field := ⟨(R.RING_BARk_CTRL i), 1, 1⟩
def RING_BARk_CTRL_CLEAR (i : Nat) : Field := ⟨(R.RING_BARk_CTRL i), 0, 1⟩
/-! `RING_BARk_REL_HI`, 16_hexip_ring.md -/
def RING_BARk_REL_HI_STAMP_HI (i : Nat) : Field := ⟨(R.RING_BARk_REL_HI i), 0, 16⟩
/-! `RING_BARk_REL_LO`, 16_hexip_ring.md -/
def RING_BARk_REL_LO_STAMP_LO (i : Nat) : Field := ⟨(R.RING_BARk_REL_LO i), 0, 32⟩
/-! `RING_RF_STATUS`, 16_hexip_ring.md -/
def RING_RF_STATUS_ID : Field := ⟨R.RING_RF_STATUS, 16, 16⟩
def RING_RF_STATUS_ACTIVE : Field := ⟨R.RING_RF_STATUS, 15, 1⟩
/-! `RING_RF_CNT`, 16_hexip_ring.md -/
def RING_RF_CNT_ARMED : Field := ⟨R.RING_RF_CNT, 16, 16⟩
def RING_RF_CNT_REFUSED : Field := ⟨R.RING_RF_CNT, 0, 16⟩
/-! `RING_RF_LATE`, 16_hexip_ring.md -/
def RING_RF_LATE_LATE : Field := ⟨R.RING_RF_LATE, 0, 16⟩
/-! `TWIN_CFG`, 12_twins_spares.md -/
def TWIN_CFG_SIDE : Field := ⟨R.TWIN_CFG, 30, 2⟩
def TWIN_CFG_PERM : Field := ⟨R.TWIN_CFG, 28, 2⟩
def TWIN_CFG_WDN_PERM : Field := ⟨R.TWIN_CFG, 27, 1⟩
def TWIN_CFG_HB_PER : Field := ⟨R.TWIN_CFG, 16, 8⟩
def TWIN_CFG_HO_TO : Field := ⟨R.TWIN_CFG, 8, 8⟩
/-! `TWIN_PAIR`, 12_twins_spares.md -/
def TWIN_PAIR_PEER : Field := ⟨R.TWIN_PAIR, 16, 16⟩
def TWIN_PAIR_ID : Field := ⟨R.TWIN_PAIR, 0, 16⟩
/-! `TWIN_WARDEN`, 12_twins_spares.md -/
def TWIN_WARDEN_ADDR : Field := ⟨R.TWIN_WARDEN, 16, 16⟩
def TWIN_WARDEN_TIMEOUT : Field := ⟨R.TWIN_WARDEN, 8, 8⟩
/-! `TWIN_DIV`, 12_twins_spares.md -/
def TWIN_DIV_MISS : Field := ⟨R.TWIN_DIV, 24, 8⟩
def TWIN_DIV_TOL : Field := ⟨R.TWIN_DIV, 0, 16⟩
/-! `TWIN_STATUS`, 12_twins_spares.md -/
def TWIN_STATUS_ROLE : Field := ⟨R.TWIN_STATUS, 30, 2⟩
def TWIN_STATUS_LINK_UP : Field := ⟨R.TWIN_STATUS, 29, 1⟩
def TWIN_STATUS_MIRROR_FRESH : Field := ⟨R.TWIN_STATUS, 28, 1⟩
def TWIN_STATUS_WARDEN_OK : Field := ⟨R.TWIN_STATUS, 27, 1⟩
def TWIN_STATUS_FROZEN : Field := ⟨R.TWIN_STATUS, 26, 1⟩
def TWIN_STATUS_READY : Field := ⟨R.TWIN_STATUS, 25, 1⟩
def TWIN_STATUS_CHANGING : Field := ⟨R.TWIN_STATUS, 24, 1⟩
def TWIN_STATUS_HO_PEND : Field := ⟨R.TWIN_STATUS, 23, 1⟩
def TWIN_STATUS_PEER_ROLE : Field := ⟨R.TWIN_STATUS, 21, 2⟩
def TWIN_STATUS_PEER_READY : Field := ⟨R.TWIN_STATUS, 20, 1⟩
def TWIN_STATUS_TWROLE_PIN : Field := ⟨R.TWIN_STATUS, 19, 1⟩
def TWIN_STATUS_LINK_AGE : Field := ⟨R.TWIN_STATUS, 0, 16⟩
/-! `TWIN_TOKEN`, 12_twins_spares.md -/
def TWIN_TOKEN_SEQ : Field := ⟨R.TWIN_TOKEN, 0, 32⟩
/-! `TWIN_EVT`, 12_twins_spares.md -/
def TWIN_EVT_WDN_DIVERGE : Field := ⟨R.TWIN_EVT, 20, 1⟩
def TWIN_EVT_WDN_ISOLATED : Field := ⟨R.TWIN_EVT, 19, 1⟩
def TWIN_EVT_WDN_SILENT : Field := ⟨R.TWIN_EVT, 18, 1⟩
def TWIN_EVT_WDN_TOKEN : Field := ⟨R.TWIN_EVT, 17, 1⟩
def TWIN_EVT_MAP_WRITTEN : Field := ⟨R.TWIN_EVT, 16, 1⟩
def TWIN_EVT_DEGRADED : Field := ⟨R.TWIN_EVT, 15, 1⟩
def TWIN_EVT_SUB_FAIL : Field := ⟨R.TWIN_EVT, 14, 1⟩
def TWIN_EVT_SUB_DONE : Field := ⟨R.TWIN_EVT, 13, 1⟩
def TWIN_EVT_SUB_START : Field := ⟨R.TWIN_EVT, 12, 1⟩
def TWIN_EVT_WDN_BACK : Field := ⟨R.TWIN_EVT, 11, 1⟩
def TWIN_EVT_WDN_LOST : Field := ⟨R.TWIN_EVT, 10, 1⟩
def TWIN_EVT_STALE : Field := ⟨R.TWIN_EVT, 9, 1⟩
def TWIN_EVT_FRESH : Field := ⟨R.TWIN_EVT, 8, 1⟩
def TWIN_EVT_LINK_DOWN : Field := ⟨R.TWIN_EVT, 7, 1⟩
def TWIN_EVT_LINK_UP : Field := ⟨R.TWIN_EVT, 6, 1⟩
def TWIN_EVT_HO_RECV : Field := ⟨R.TWIN_EVT, 5, 1⟩
def TWIN_EVT_HO_SENT : Field := ⟨R.TWIN_EVT, 4, 1⟩
def TWIN_EVT_TOKEN_REJ : Field := ⟨R.TWIN_EVT, 3, 1⟩
def TWIN_EVT_TOKEN_OK : Field := ⟨R.TWIN_EVT, 2, 1⟩
def TWIN_EVT_TO_STANDBY : Field := ⟨R.TWIN_EVT, 1, 1⟩
def TWIN_EVT_TO_ACTIVE : Field := ⟨R.TWIN_EVT, 0, 1⟩
/-! `TWIN_CNT`, 12_twins_spares.md -/
def TWIN_CNT_CHANGES : Field := ⟨R.TWIN_CNT, 16, 16⟩
def TWIN_CNT_LINK_DROPS : Field := ⟨R.TWIN_CNT, 0, 16⟩
/-! `WDN_CFG`, 12_twins_spares.md -/
def WDN_CFG_HB_PER : Field := ⟨R.WDN_CFG, 8, 8⟩
def WDN_CFG_EN : Field := ⟨R.WDN_CFG, 0, 1⟩
/-! `WDN_PAIRk_CFG`, 12_twins_spares.md -/
def WDN_PAIRk_CFG_VALID (i : Nat) : Field := ⟨(R.WDN_PAIRk_CFG i), 31, 1⟩
def WDN_PAIRk_CFG_PREF (i : Nat) : Field := ⟨(R.WDN_PAIRk_CFG i), 30, 1⟩
def WDN_PAIRk_CFG_STALE_TAKE (i : Nat) : Field := ⟨(R.WDN_PAIRk_CFG i), 29, 1⟩
def WDN_PAIRk_CFG_HB_MISS (i : Nat) : Field := ⟨(R.WDN_PAIRk_CFG i), 24, 4⟩
def WDN_PAIRk_CFG_START_TO (i : Nat) : Field := ⟨(R.WDN_PAIRk_CFG i), 16, 8⟩
def WDN_PAIRk_CFG_ID (i : Nat) : Field := ⟨(R.WDN_PAIRk_CFG i), 0, 16⟩
/-! `WDN_PAIRk_NODES`, 12_twins_spares.md -/
def WDN_PAIRk_NODES_A (i : Nat) : Field := ⟨(R.WDN_PAIRk_NODES i), 16, 16⟩
def WDN_PAIRk_NODES_B (i : Nat) : Field := ⟨(R.WDN_PAIRk_NODES i), 0, 16⟩
/-! `WDN_PAIRk_STATUS`, 12_twins_spares.md -/
def WDN_PAIRk_STATUS_ACTIVE (i : Nat) : Field := ⟨(R.WDN_PAIRk_STATUS i), 30, 2⟩
def WDN_PAIRk_STATUS_A_SILENT (i : Nat) : Field := ⟨(R.WDN_PAIRk_STATUS i), 29, 1⟩
def WDN_PAIRk_STATUS_B_SILENT (i : Nat) : Field := ⟨(R.WDN_PAIRk_STATUS i), 28, 1⟩
def WDN_PAIRk_STATUS_A_READY (i : Nat) : Field := ⟨(R.WDN_PAIRk_STATUS i), 27, 1⟩
def WDN_PAIRk_STATUS_B_READY (i : Nat) : Field := ⟨(R.WDN_PAIRk_STATUS i), 26, 1⟩
/-! `WDN_PAIRk_SEQ`, 12_twins_spares.md -/
def WDN_PAIRk_SEQ_SEQ (i : Nat) : Field := ⟨(R.WDN_PAIRk_SEQ i), 0, 32⟩
/-! `SPR_STATUS`, 12_twins_spares.md -/
def SPR_STATUS_FREE_SLICES : Field := ⟨R.SPR_STATUS, 28, 4⟩
def SPR_STATUS_FREE_CONV : Field := ⟨R.SPR_STATUS, 26, 2⟩
def SPR_STATUS_VREF_C_FREE : Field := ⟨R.SPR_STATUS, 25, 1⟩
def SPR_STATUS_BUSY : Field := ⟨R.SPR_STATUS, 24, 1⟩
def SPR_STATUS_QUEUED : Field := ⟨R.SPR_STATUS, 16, 8⟩
def SPR_STATUS_SRAM_USED : Field := ⟨R.SPR_STATUS, 8, 8⟩
def SPR_STATUS_NVM_USED : Field := ⟨R.SPR_STATUS, 0, 8⟩
/-! `NVM_STATUS`, 13_folio_ledger_nvm.md -/
def NVM_STATUS_BUSY : Field := ⟨R.NVM_STATUS, 31, 1⟩
def NVM_STATUS_OP : Field := ⟨R.NVM_STATUS, 28, 3⟩
def NVM_STATUS_CFG_SRC : Field := ⟨R.NVM_STATUS, 27, 1⟩
def NVM_STATUS_CFG_A_OK : Field := ⟨R.NVM_STATUS, 26, 1⟩
def NVM_STATUS_CFG_B_OK : Field := ⟨R.NVM_STATUS, 25, 1⟩
def NVM_STATUS_CAL_SRC : Field := ⟨R.NVM_STATUS, 24, 1⟩
def NVM_STATUS_CAL_A_OK : Field := ⟨R.NVM_STATUS, 23, 1⟩
def NVM_STATUS_CAL_B_OK : Field := ⟨R.NVM_STATUS, 22, 1⟩
def NVM_STATUS_NO_CONFIG : Field := ⟨R.NVM_STATUS, 21, 1⟩
def NVM_STATUS_SPARES_USED : Field := ⟨R.NVM_STATUS, 0, 7⟩
/-! `NVM_STORE`, 13_folio_ledger_nvm.md -/
def NVM_STORE_BUSY : Field := ⟨R.NVM_STORE, 31, 1⟩
def NVM_STORE_LAST : Field := ⟨R.NVM_STORE, 2, 2⟩
def NVM_STORE_CAL : Field := ⟨R.NVM_STORE, 1, 1⟩
def NVM_STORE_CONFIG : Field := ⟨R.NVM_STORE, 0, 1⟩
/-! `LDG_STATUS`, 13_folio_ledger_nvm.md -/
def LDG_STATUS_WRITING : Field := ⟨R.LDG_STATUS, 31, 1⟩
def LDG_STATUS_STAGED : Field := ⟨R.LDG_STATUS, 29, 2⟩
def LDG_STATUS_LAST_SLOT : Field := ⟨R.LDG_STATUS, 16, 10⟩
def LDG_STATUS_HELD : Field := ⟨R.LDG_STATUS, 0, 11⟩
/-! `LDG_SEQ`, 13_folio_ledger_nvm.md -/
def LDG_SEQ_NEXT : Field := ⟨R.LDG_SEQ, 0, 32⟩
/-! `LDG_SEC`, 13_folio_ledger_nvm.md -/
def LDG_SEC_SECONDS : Field := ⟨R.LDG_SEC, 0, 32⟩
/-! `LDG_USEC`, 13_folio_ledger_nvm.md -/
def LDG_USEC_MICRO : Field := ⟨R.LDG_USEC, 0, 20⟩
/-! `LDG_RD_IDX`, 13_folio_ledger_nvm.md -/
def LDG_RD_IDX_EMPTY : Field := ⟨R.LDG_RD_IDX, 31, 1⟩
def LDG_RD_IDX_WORD : Field := ⟨R.LDG_RD_IDX, 16, 7⟩
def LDG_RD_IDX_SLOT : Field := ⟨R.LDG_RD_IDX, 0, 10⟩
/-! `LDG_RD_DATA`, 13_folio_ledger_nvm.md -/
def LDG_RD_DATA_DATA : Field := ⟨R.LDG_RD_DATA, 0, 32⟩
/-! `NVM_EVT`, 13_folio_ledger_nvm.md -/
def NVM_EVT_UNCORR : Field := ⟨R.NVM_EVT, 7, 1⟩
def NVM_EVT_REDUCED : Field := ⟨R.NVM_EVT, 6, 1⟩
def NVM_EVT_REMAP : Field := ⟨R.NVM_EVT, 5, 1⟩
def NVM_EVT_LOG_WRITTEN : Field := ⟨R.NVM_EVT, 4, 1⟩
def NVM_EVT_STORE_FAIL : Field := ⟨R.NVM_EVT, 3, 1⟩
def NVM_EVT_STORE_DONE : Field := ⟨R.NVM_EVT, 2, 1⟩
def NVM_EVT_RECORD_LOST : Field := ⟨R.NVM_EVT, 1, 1⟩
def NVM_EVT_RECORD : Field := ⟨R.NVM_EVT, 0, 1⟩
/-! `NVM_CNT`, 13_folio_ledger_nvm.md -/
def NVM_CNT_LOST : Field := ⟨R.NVM_CNT, 16, 16⟩
def NVM_CNT_PFAIL : Field := ⟨R.NVM_CNT, 0, 16⟩
/-! `SEC_STATE`, 17_modes_security_debug.md -/
def SEC_STATE_MODE : Field := ⟨R.SEC_STATE, 29, 3⟩
def SEC_STATE_SECURITY : Field := ⟨R.SEC_STATE, 27, 2⟩
def SEC_STATE_DEBUG : Field := ⟨R.SEC_STATE, 25, 2⟩
def SEC_STATE_FACTORY : Field := ⟨R.SEC_STATE, 24, 1⟩
def SEC_STATE_ESC_PORT : Field := ⟨R.SEC_STATE, 23, 1⟩
def SEC_STATE_CHALLENGE : Field := ⟨R.SEC_STATE, 22, 1⟩
def SEC_STATE_HU_PRESENT : Field := ⟨R.SEC_STATE, 21, 1⟩
/-! `SEC_ESC_CFG`, 17_modes_security_debug.md -/
def SEC_ESC_CFG_TIMEOUT : Field := ⟨R.SEC_ESC_CFG, 0, 16⟩
/-! `SEC_ESC_STATUS`, 17_modes_security_debug.md -/
def SEC_ESC_STATUS_REMAIN : Field := ⟨R.SEC_ESC_STATUS, 16, 16⟩
def SEC_ESC_STATUS_FAILS : Field := ⟨R.SEC_ESC_STATUS, 11, 5⟩
def SEC_ESC_STATUS_LOCKOUT : Field := ⟨R.SEC_ESC_STATUS, 0, 11⟩
/-! `SEC_EVT`, 17_modes_security_debug.md -/
def SEC_EVT_FUSES_PROGRAMMED : Field := ⟨R.SEC_EVT, 11, 1⟩
def SEC_EVT_DEBUG_FORCED : Field := ⟨R.SEC_EVT, 10, 1⟩
def SEC_EVT_DEBUG_CHANGED : Field := ⟨R.SEC_EVT, 9, 1⟩
def SEC_EVT_ESC_FAIL : Field := ⟨R.SEC_EVT, 8, 1⟩
def SEC_EVT_ESC_TIMEOUT : Field := ⟨R.SEC_EVT, 7, 1⟩
def SEC_EVT_ESC_END : Field := ⟨R.SEC_EVT, 6, 1⟩
def SEC_EVT_ESC_OPEN : Field := ⟨R.SEC_EVT, 5, 1⟩
def SEC_EVT_RETIRED : Field := ⟨R.SEC_EVT, 4, 1⟩
def SEC_EVT_SEALED : Field := ⟨R.SEC_EVT, 3, 1⟩
def SEC_EVT_HOLDUP_OUT : Field := ⟨R.SEC_EVT, 2, 1⟩
def SEC_EVT_HOLDUP_IN : Field := ⟨R.SEC_EVT, 1, 1⟩
def SEC_EVT_MODE_CHANGED : Field := ⟨R.SEC_EVT, 0, 1⟩
/-! `SEC_NONCEi`, 17_modes_security_debug.md -/
def SEC_NONCEi_NB (i : Nat) : Field := ⟨(R.SEC_NONCEi i), 0, 32⟩
/-! `HM_STATUS`, 17_modes_security_debug.md -/
def HM_STATUS_VALID : Field := ⟨R.HM_STATUS, 31, 1⟩
def HM_STATUS_FAIL : Field := ⟨R.HM_STATUS, 30, 1⟩
def HM_STATUS_PENDING : Field := ⟨R.HM_STATUS, 29, 1⟩
def HM_STATUS_SEAL : Field := ⟨R.HM_STATUS, 28, 1⟩
def HM_STATUS_RETIRE : Field := ⟨R.HM_STATUS, 27, 1⟩
def HM_STATUS_FACTORY_OPEN : Field := ⟨R.HM_STATUS, 26, 1⟩
def HM_STATUS_KEY_SET : Field := ⟨R.HM_STATUS, 25, 1⟩
def HM_STATUS_WEAK : Field := ⟨R.HM_STATUS, 0, 16⟩
/-! `HM_ORDER_IDX`, 17_modes_security_debug.md -/
def HM_ORDER_IDX_STAGE : Field := ⟨R.HM_ORDER_IDX, 0, 4⟩
/-! `HM_ORDER_LO`, 17_modes_security_debug.md -/
def HM_ORDER_LO_RAILS : Field := ⟨R.HM_ORDER_LO, 0, 32⟩
/-! `HM_ORDER_HI`, 17_modes_security_debug.md -/
def HM_ORDER_HI_RAILS : Field := ⟨R.HM_ORDER_HI, 0, 32⟩
/-! `HM_ORDER_CFG`, 17_modes_security_debug.md -/
def HM_ORDER_CFG_VALID : Field := ⟨R.HM_ORDER_CFG, 7, 1⟩
def HM_ORDER_CFG_PG_EARLY : Field := ⟨R.HM_ORDER_CFG, 6, 1⟩
def HM_ORDER_CFG_DWELL : Field := ⟨R.HM_ORDER_CFG, 0, 6⟩
/-! `HM_FATAL_OV_LO`, 17_modes_security_debug.md -/
def HM_FATAL_OV_LO_RAILS : Field := ⟨R.HM_FATAL_OV_LO, 0, 32⟩
/-! `HM_FATAL_OV_HI`, 17_modes_security_debug.md -/
def HM_FATAL_OV_HI_RAILS : Field := ⟨R.HM_FATAL_OV_HI, 0, 32⟩
/-! `HM_FATAL_UV_LO`, 17_modes_security_debug.md -/
def HM_FATAL_UV_LO_RAILS : Field := ⟨R.HM_FATAL_UV_LO, 0, 32⟩
/-! `HM_FATAL_UV_HI`, 17_modes_security_debug.md -/
def HM_FATAL_UV_HI_RAILS : Field := ⟨R.HM_FATAL_UV_HI, 0, 32⟩
/-! `HM_FATAL_PG_LO`, 17_modes_security_debug.md -/
def HM_FATAL_PG_LO_RAILS : Field := ⟨R.HM_FATAL_PG_LO, 0, 32⟩
/-! `HM_FATAL_PG_HI`, 17_modes_security_debug.md -/
def HM_FATAL_PG_HI_RAILS : Field := ⟨R.HM_FATAL_PG_HI, 0, 32⟩
/-! `HM_RESET`, 17_modes_security_debug.md -/
def HM_RESET_BEHAVIOUR : Field := ⟨R.HM_RESET, 0, 32⟩
/-! `HM_DBG_DIGESTk`, 17_modes_security_debug.md -/
def HM_DBG_DIGESTk_DIGEST (i : Nat) : Field := ⟨(R.HM_DBG_DIGESTk i), 0, 32⟩
/-! `HM_PATCH_DIGESTk`, 17_modes_security_debug.md -/
def HM_PATCH_DIGESTk_DIGEST (i : Nat) : Field := ⟨(R.HM_PATCH_DIGESTk i), 0, 32⟩
/-! `CMD_FUSE`, 14_command_engine.md -/
def CMD_FUSE_LOCK1 : Field := ⟨R.CMD_FUSE, 3, 1⟩
def CMD_FUSE_LOCK0 : Field := ⟨R.CMD_FUSE, 2, 1⟩
def CMD_FUSE_DEF1 : Field := ⟨R.CMD_FUSE, 1, 1⟩
def CMD_FUSE_DEF0 : Field := ⟨R.CMD_FUSE, 0, 1⟩
/-! `CMD_STATUS`, 14_command_engine.md -/
def CMD_STATUS_ENGINE_UP : Field := ⟨R.CMD_STATUS, 31, 1⟩
def CMD_STATUS_RESTARTING : Field := ⟨R.CMD_STATUS, 30, 1⟩
def CMD_STATUS_HALTED : Field := ⟨R.CMD_STATUS, 29, 1⟩
def CMD_STATUS_SUSP : Field := ⟨R.CMD_STATUS, 28, 1⟩
def CMD_STATUS_SUSP_FB : Field := ⟨R.CMD_STATUS, 27, 1⟩
def CMD_STATUS_SUSP_HALT : Field := ⟨R.CMD_STATUS, 26, 1⟩
def CMD_STATUS_SLOTS : Field := ⟨R.CMD_STATUS, 16, 7⟩
def CMD_STATUS_WAITING : Field := ⟨R.CMD_STATUS, 8, 8⟩
def CMD_STATUS_C_RUN : Field := ⟨R.CMD_STATUS, 0, 4⟩
/-! `CMD_EPOCH_CFG`, 14_command_engine.md -/
def CMD_EPOCH_CFG_SRC : Field := ⟨R.CMD_EPOCH_CFG, 31, 1⟩
def CMD_EPOCH_CFG_WAIT_MAX : Field := ⟨R.CMD_EPOCH_CFG, 0, 16⟩
/-! `CMD_EPOCH`, 14_command_engine.md -/
def CMD_EPOCH_NUMBER : Field := ⟨R.CMD_EPOCH, 0, 32⟩
/-! `CMD_EVT`, 14_command_engine.md -/
def CMD_EVT_NOTICE_OVF : Field := ⟨R.CMD_EVT, 10, 1⟩
def CMD_EVT_FOREIGN : Field := ⟨R.CMD_EVT, 9, 1⟩
def CMD_EVT_PATCH_REJ : Field := ⟨R.CMD_EVT, 8, 1⟩
def CMD_EVT_MODE_CHANGED : Field := ⟨R.CMD_EVT, 7, 1⟩
def CMD_EVT_BUSY : Field := ⟨R.CMD_EVT, 6, 1⟩
def CMD_EVT_FRAME_ERR : Field := ⟨R.CMD_EVT, 5, 1⟩
def CMD_EVT_AUTH_ERR : Field := ⟨R.CMD_EVT, 4, 1⟩
def CMD_EVT_LATE : Field := ⟨R.CMD_EVT, 3, 1⟩
def CMD_EVT_SUSP_END : Field := ⟨R.CMD_EVT, 2, 1⟩
def CMD_EVT_SUSP_START : Field := ⟨R.CMD_EVT, 1, 1⟩
def CMD_EVT_RESTART : Field := ⟨R.CMD_EVT, 0, 1⟩
/-! `CMD_CNT`, 14_command_engine.md -/
def CMD_CNT_RESTARTS : Field := ⟨R.CMD_CNT, 16, 16⟩
def CMD_CNT_LOCKSTEP : Field := ⟨R.CMD_CNT, 0, 16⟩
/-! `CMD_PATCH`, 14_command_engine.md -/
def CMD_PATCH_VERSION : Field := ⟨R.CMD_PATCH, 16, 16⟩
def CMD_PATCH_STATE : Field := ⟨R.CMD_PATCH, 0, 3⟩
/-! `CMD_Pp_CFG`, 14_command_engine.md -/
def CMD_Pp_CFG_MODE (i : Nat) : Field := ⟨(R.CMD_Pp_CFG i), 31, 1⟩
def CMD_Pp_CFG_IRQ_REPLY (i : Nat) : Field := ⟨(R.CMD_Pp_CFG i), 30, 1⟩
/-! `CMD_Pp_STATUS`, 14_command_engine.md -/
def CMD_Pp_STATUS_MODE_ACTIVE (i : Nat) : Field := ⟨(R.CMD_Pp_STATUS i), 31, 1⟩
def CMD_Pp_STATUS_CHANGING (i : Nat) : Field := ⟨(R.CMD_Pp_STATUS i), 30, 1⟩
def CMD_Pp_STATUS_NOTICE_OVF (i : Nat) : Field := ⟨(R.CMD_Pp_STATUS i), 29, 1⟩
def CMD_Pp_STATUS_NOTICES (i : Nat) : Field := ⟨(R.CMD_Pp_STATUS i), 24, 5⟩
def CMD_Pp_STATUS_REPLIES (i : Nat) : Field := ⟨(R.CMD_Pp_STATUS i), 16, 8⟩
def CMD_Pp_STATUS_TAGS (i : Nat) : Field := ⟨(R.CMD_Pp_STATUS i), 8, 8⟩
/-! `CMD_Pp_ACC`, 14_command_engine.md -/
def CMD_Pp_ACC_REFUSED (i : Nat) : Field := ⟨(R.CMD_Pp_ACC i), 16, 16⟩
def CMD_Pp_ACC_ACCEPTED (i : Nat) : Field := ⟨(R.CMD_Pp_ACC i), 0, 16⟩
/-! `CMD_Pp_ERR`, 14_command_engine.md -/
def CMD_Pp_ERR_BAD_CRC (i : Nat) : Field := ⟨(R.CMD_Pp_ERR i), 24, 8⟩
def CMD_Pp_ERR_BAD_FORMAT (i : Nat) : Field := ⟨(R.CMD_Pp_ERR i), 16, 8⟩
def CMD_Pp_ERR_AUTH (i : Nat) : Field := ⟨(R.CMD_Pp_ERR i), 8, 8⟩
def CMD_Pp_ERR_LATE (i : Nat) : Field := ⟨(R.CMD_Pp_ERR i), 0, 8⟩
/-! `CMD_Pp_TAGk`, 14_command_engine.md -/
def CMD_Pp_TAGk_INUSE (i j : Nat) : Field := ⟨(R.CMD_Pp_TAGk i j), 0, 32⟩
/-! `CMD_Pp_AUTHSEQ`, 14_command_engine.md -/
def CMD_Pp_AUTHSEQ_SEQ (i : Nat) : Field := ⟨(R.CMD_Pp_AUTHSEQ i), 0, 32⟩

end F

/-- How a register's bits take a write (spec/00_scope.md R2) and where their reset value comes from: one mask
per kind, over one register or over an array of up to two dimensions. `rw` holds the RW and RWH bits, `rwh`
the RWH bits among them, `w1c` the W1C bits, `act` the SC and WO bits, and `cfg` and `cal` the bits whose
reset value is Config or Cal. -/
structure RegDef where
  base : Nat
  n1   : Nat
  s1   : Nat
  n2   : Nat
  s2   : Nat
  rw   : Nat
  rwh  : Nat
  w1c  : Nat
  act  : Nat
  cfg  : Nat
  cal  : Nat
  deriving DecidableEq, Repr

def regDefs1 : List RegDef := [
  -- COL_Wk
  ⟨0x0000, 32, 0x4, 1, 0x0, 0, 0, 0, 0, 0, 0⟩,
  -- RST_CAUSE
  ⟨0x0100, 1, 0x0, 1, 0x0, 0, 0, 0, 0, 0, 0⟩,
  -- RST_CNT
  ⟨0x0104, 1, 0x0, 1, 0x0, 0, 0, 0, 0, 0, 0⟩,
  -- RST_WDN
  ⟨0x0108, 1, 0x0, 1, 0x0, 0x107, 0, 0, 0x80000000, 0, 0⟩,
  -- RST_STATUS
  ⟨0x010C, 1, 0x0, 1, 0x0, 0, 0, 0, 0, 0, 0⟩,
  -- SEQ_RAILk
  ⟨0x0200, 16, 0x4, 1, 0x0, 0x7070707, 0, 0, 0, 0x7070707, 0⟩,
  -- SEQ_CTRL
  ⟨0x0240, 1, 0x0, 1, 0x0, 0, 0, 0, 0xFFFFFFFF, 0, 0⟩,
  -- SEQ_STATUS
  ⟨0x0244, 1, 0x0, 1, 0x0, 0, 0, 0, 0, 0, 0⟩,
  -- SEQ_FAIL
  ⟨0x0248, 1, 0x0, 1, 0x0, 0, 0, 0, 0, 0, 0⟩,
  -- SEQ_FAIL_LO
  ⟨0x024C, 1, 0x0, 1, 0x0, 0, 0, 0, 0, 0, 0⟩,
  -- SEQ_FAIL_HI
  ⟨0x0250, 1, 0x0, 1, 0x0, 0, 0, 0, 0, 0, 0⟩,
  -- TALLY_OUTk
  ⟨0x0260, 4, 0x4, 1, 0x0, 0xE000FF1F, 0, 0, 0, 0xE000FF1F, 0⟩,
  -- CLK_CFG
  ⟨0x0400, 1, 0x0, 1, 0x0, 0x3, 0, 0, 0, 0x3, 0⟩,
  -- CLK_CTRL
  ⟨0x0404, 1, 0x0, 1, 0x0, 0, 0, 0, 0x3, 0, 0⟩,
  -- CLK_STATUS
  ⟨0x0408, 1, 0x0, 1, 0x0, 0, 0, 0x8C0, 0, 0, 0⟩,
  -- CLK_FB_MEAS
  ⟨0x040C, 1, 0x0, 1, 0x0, 0, 0, 0, 0, 0, 0⟩,
  -- CLK_LOL_CNT
  ⟨0x0410, 1, 0x0, 1, 0x0, 0, 0, 0, 0, 0, 0⟩,
  -- ANG_CFG
  ⟨0x0420, 1, 0x0, 1, 0x0, 0x3FF, 0, 0, 0, 0x3FF, 0⟩,
  -- ANG_CTRL
  ⟨0x0424, 1, 0x0, 1, 0x0, 0x70, 0, 0, 0x3, 0, 0⟩,
  -- ANG_STATUS
  ⟨0x0428, 1, 0x0, 1, 0x0, 0, 0, 0, 0, 0, 0⟩,
  -- ANG_STAMP_HI
  ⟨0x042C, 1, 0x0, 1, 0x0, 0, 0, 0, 0, 0, 0⟩,
  -- ANG_STAMP_LO
  ⟨0x0430, 1, 0x0, 1, 0x0, 0, 0, 0, 0, 0, 0⟩,
  -- ANG_INC
  ⟨0x0434, 1, 0x0, 1, 0x0, 0xFFFFFFFF, 0, 0, 0, 0, 0⟩,
  -- ANG_PERIOD
  ⟨0x0438, 1, 0x0, 1, 0x0, 0, 0, 0, 0, 0, 0⟩,
  -- ANG_PHASE
  ⟨0x043C, 1, 0x0, 1, 0x0, 0xFFFFF, 0, 0, 0, 0xFFFFF, 0⟩,
  -- ANG_HOLD_MAX
  ⟨0x0440, 1, 0x0, 1, 0x0, 0xFFFFFFF, 0, 0, 0, 0xFFFFFFF, 0⟩,
  -- ANG_STRAY_CNT
  ⟨0x0444, 1, 0x0, 1, 0x0, 0xFFFF, 0, 0, 0, 0, 0⟩,
  -- ANG_FREE_INC
  ⟨0x0448, 1, 0x0, 1, 0x0, 0xFFFFFFFF, 0, 0, 0, 0xFFFFFFFF, 0⟩]

def regDefs2 : List RegDef := [
  -- ANG_HOPk_PERIOD
  ⟨0x0480, 8, 0x8, 1, 0x0, 0xFFFFFFFF, 0, 0, 0, 0xFFFFFFFF, 0⟩,
  -- ANG_HOPk_CTRL
  ⟨0x0484, 8, 0x8, 1, 0x0, 0x1F, 0, 0, 0, 0x1F, 0⟩,
  -- FLT_SRCs_CFG
  ⟨0x0800, 96, 0x4, 1, 0x0, 0xFEFF1F, 0xFE0F0F, 0, 0, 0xFEFF1F, 0⟩,
  -- FLT_SRCs_STAT
  ⟨0x0980, 96, 0x4, 1, 0x0, 0, 0, 0, 0, 0, 0⟩,
  -- FLT_STICKY0
  ⟨0x0B00, 1, 0x0, 1, 0x0, 0, 0, 0, 0, 0, 0⟩,
  -- FLT_STICKY1
  ⟨0x0B04, 1, 0x0, 1, 0x0, 0, 0, 0, 0, 0, 0⟩,
  -- FLT_STICKY2
  ⟨0x0B08, 1, 0x0, 1, 0x0, 0, 0, 0, 0, 0, 0⟩,
  -- FLT_FATAL_CFG
  ⟨0x0B0C, 1, 0x0, 1, 0x0, 0, 0, 0, 0, 0, 0⟩,
  -- FLT_STATUS
  ⟨0x0B10, 1, 0x0, 1, 0x0, 0, 0, 0, 0, 0, 0⟩,
  -- FLT_CLEAR
  ⟨0x0B14, 1, 0x0, 1, 0x0, 0, 0, 0, 0x800007FF, 0, 0⟩,
  -- FLT_INJ
  ⟨0x0B18, 1, 0x0, 1, 0x0, 0, 0, 0, 0xFFFFFFFD, 0, 0⟩,
  -- FLT_CNT_x
  ⟨0x0B20, 8, 0x4, 1, 0x0, 0, 0, 0, 0, 0, 0⟩,
  -- FLT_QSTAT
  ⟨0x0B40, 1, 0x0, 1, 0x0, 0, 0, 0, 0, 0, 0⟩,
  -- FLT_SHl_MASK0
  ⟨0x0B80, 8, 0x10, 1, 0x0, 0xFFFFFFFF, 0xFFFFFFFF, 0, 0, 0xFFFFFFFF, 0⟩,
  -- FLT_SHl_MASK1
  ⟨0x0B84, 8, 0x10, 1, 0x0, 0xFFFFFFFF, 0xFFFFFFFF, 0, 0, 0xFFFFFFFF, 0⟩,
  -- FLT_SHl_MASK2
  ⟨0x0B88, 8, 0x10, 1, 0x0, 0xFFFFFFFF, 0xFFFFFFFF, 0, 0, 0xFFFFFFFF, 0⟩,
  -- FLT_SHl_CFG
  ⟨0x0B8C, 8, 0x10, 1, 0x0, 0xFFFF, 0xFFFF, 0, 0, 0xFFFF, 0⟩,
  -- EVT_Gg_STATUS
  ⟨0x0C00, 8, 0x20, 1, 0x0, 0, 0, 0xFFFFFFFF, 0, 0, 0⟩,
  -- EVT_Gg_EN
  ⟨0x0C04, 8, 0x20, 1, 0x0, 0xFFFFFFFF, 0, 0, 0, 0xFFFFFFFF, 0⟩,
  -- EVT_Gg_ROUTE_IRQ
  ⟨0x0C08, 8, 0x20, 1, 0x0, 0xFFFFFFFF, 0, 0, 0, 0xFFFFFFFF, 0⟩,
  -- EVT_Gg_ROUTE_HOST
  ⟨0x0C0C, 8, 0x20, 1, 0x0, 0xFFFFFFFF, 0, 0, 0, 0xFFFFFFFF, 0⟩,
  -- EVT_Gg_ROUTE_RING
  ⟨0x0C10, 8, 0x20, 1, 0x0, 0xFFFFFFFF, 0, 0, 0, 0xFFFFFFFF, 0⟩,
  -- EVT_SUMMARY
  ⟨0x0D00, 1, 0x0, 1, 0x0, 0, 0, 0, 0, 0, 0⟩,
  -- Tn_CFG
  ⟨0x1000, 32, 0x20, 1, 0x0, 0x87370037, 0, 0, 0, 0x87370037, 0⟩,
  -- Tn_COUNT
  ⟨0x1004, 32, 0x20, 1, 0x0, 0, 0, 0, 0, 0, 0⟩,
  -- Tn_CMP
  ⟨0x1008, 32, 0x20, 1, 0x0, 0xFFFFFFFF, 0, 0, 0, 0, 0⟩,
  -- Tn_INTV
  ⟨0x100C, 32, 0x20, 1, 0x0, 0xFFFFFFFF, 0, 0, 0, 0xFFFFFFFF, 0⟩,
  -- Tn_CAP
  ⟨0x1010, 32, 0x20, 1, 0x0, 0, 0, 0, 0, 0, 0⟩]

def regDefs3 : List RegDef := [
  -- Tn_STATUS
  ⟨0x1014, 32, 0x20, 1, 0x0, 0, 0, 0xF, 0, 0, 0⟩,
  -- Tn_MATCHED
  ⟨0x1018, 32, 0x20, 1, 0x0, 0, 0, 0, 0, 0, 0⟩,
  -- FOLIO_CFG
  ⟨0x1400, 1, 0x0, 1, 0x0, 0xE000001F, 0, 0, 0, 0xE000001F, 0⟩,
  -- FOLIO_CTRL
  ⟨0x1404, 1, 0x0, 1, 0x0, 0, 0, 0, 0xE000000F, 0, 0⟩,
  -- FOLIO_STATUS
  ⟨0x1408, 1, 0x0, 1, 0x0, 0, 0, 0, 0, 0, 0⟩,
  -- FOLIO_AT_HI
  ⟨0x140C, 1, 0x0, 1, 0x0, 0xFFFF, 0, 0, 0, 0, 0⟩,
  -- FOLIO_AT_LO
  ⟨0x1410, 1, 0x0, 1, 0x0, 0xFFFFFFFF, 0, 0, 0, 0, 0⟩,
  -- FOLIO_AT_ID
  ⟨0x1414, 1, 0x0, 1, 0x0, 0, 0, 0, 0, 0, 0⟩,
  -- FOLIO_IDX
  ⟨0x1418, 1, 0x0, 1, 0x0, 0x301FF, 0, 0, 0, 0, 0⟩,
  -- FOLIO_DATA
  ⟨0x141C, 1, 0x0, 1, 0x0, 0, 0, 0, 0, 0, 0⟩,
  -- FOLIO_EVT
  ⟨0x1420, 1, 0x0, 1, 0x0, 0, 0, 0x1F, 0, 0, 0⟩,
  -- PCn_CFG
  ⟨0x1800, 10, 0x40, 1, 0x0, 0x1, 0, 0, 0, 0x1, 0⟩,
  -- PCn_STATUS
  ⟨0x1804, 10, 0x40, 1, 0x0, 0, 0, 0, 0, 0, 0⟩,
  -- PCn_CNT
  ⟨0x1808, 10, 0x40, 1, 0x0, 0, 0, 0, 0, 0, 0⟩,
  -- PCn_FACx_OFFSET
  ⟨0x180C, 10, 0x40, 3, 0x8, 0, 0, 0, 0, 0, 0xFFFFFF⟩,
  -- PCn_FACx_GAIN
  ⟨0x1810, 10, 0x40, 3, 0x8, 0, 0, 0, 0, 0, 0xFFFFFF⟩,
  -- POOL_HU_CFG
  ⟨0x1A80, 1, 0x0, 1, 0x0, 0x80FF731F, 0, 0, 0, 0x80FF731F, 0⟩,
  -- POOL_HU_RES
  ⟨0x1A84, 1, 0x0, 1, 0x0, 0, 0, 0, 0, 0, 0⟩,
  -- POOL_CAL_IDX
  ⟨0x1A88, 1, 0x0, 1, 0x0, 0x3731F, 0, 0, 0, 0, 0⟩,
  -- POOL_CAL_OFFSET
  ⟨0x1A8C, 1, 0x0, 1, 0x0, 0xFFFFFF, 0, 0, 0, 0, 0xFFFFFF⟩,
  -- POOL_CAL_GAIN
  ⟨0x1A90, 1, 0x0, 1, 0x0, 0xFFFFFF, 0, 0, 0, 0, 0xFFFFFF⟩,
  -- POOL_CAL_TARGET
  ⟨0x1A94, 1, 0x0, 1, 0x0, 0xFFFFFFFF, 0, 0, 0, 0, 0⟩,
  -- POOL_CAL_STATUS
  ⟨0x1A98, 1, 0x0, 1, 0x0, 0, 0, 0, 0, 0, 0x30⟩,
  -- BENCH_LAYOUT
  ⟨0x1C00, 1, 0x0, 1, 0x0, 0x1FFFF, 0, 0, 0, 0x1FFFF, 0⟩,
  -- BENCH_MAP
  ⟨0x1C04, 1, 0x0, 1, 0x0, 0, 0, 0, 0, 0, 0⟩,
  -- BENCHb_CFG
  ⟨0x1C20, 8, 0x20, 1, 0x0, 0x731F3F03, 0, 0, 0, 0x731F3F03, 0⟩,
  -- BENCHb_CTRL
  ⟨0x1C24, 8, 0x20, 1, 0x0, 0, 0, 0, 0xF, 0, 0⟩,
  -- BENCHb_STATUS
  ⟨0x1C28, 8, 0x20, 1, 0x0, 0, 0, 0xF0, 0, 0, 0⟩]

def regDefs4 : List RegDef := [
  -- BENCHb_TRIG
  ⟨0x1C2C, 8, 0x20, 1, 0x0, 0x7FFFFFFF, 0, 0, 0, 0x7FFFFFFF, 0⟩,
  -- BENCHb_ITRIG
  ⟨0x1C30, 8, 0x20, 1, 0x0, 0xFFFFFFFF, 0, 0, 0, 0xFFFFFFFF, 0⟩,
  -- BENCHb_RTAG
  ⟨0x1C34, 8, 0x20, 1, 0x0, 0, 0, 0, 0, 0, 0⟩,
  -- BENCHb_RSTAMP_HI
  ⟨0x1C38, 8, 0x20, 1, 0x0, 0, 0, 0, 0, 0, 0⟩,
  -- BENCHb_RSTAMP_LO
  ⟨0x1C3C, 8, 0x20, 1, 0x0, 0, 0, 0, 0, 0, 0⟩,
  -- BENCH_REGk_CFG
  ⟨0x1D20, 48, 0x4, 1, 0x0, 0xFFFFFF00, 0, 0, 0, 0xFFFFFF00, 0⟩,
  -- BENCH_REGk_RES
  ⟨0x1DE0, 48, 0x4, 1, 0x0, 0, 0, 0, 0, 0, 0⟩,
  -- BENCHb_INJj_CFG
  ⟨0x1EA0, 8, 0x10, 4, 0x4, 0xFFFFFF00, 0, 0, 0, 0xFFFFFF00, 0⟩,
  -- BENCHb_INJj_RES
  ⟨0x1F20, 8, 0x10, 4, 0x4, 0, 0, 0, 0, 0, 0⟩,
  -- ASSAY_CFG
  ⟨0x2000, 1, 0x0, 1, 0x0, 0xFFFFF7F, 0xF, 0, 0, 0xFFFFF7F, 0⟩,
  -- ASSAY_CONV_TOL
  ⟨0x2004, 1, 0x0, 1, 0x0, 0xF000FFFF, 0, 0, 0, 0xF000FFFF, 0⟩,
  -- ASSAY_RAIL_TOL
  ⟨0x2008, 1, 0x0, 1, 0x0, 0xFFFFFFFF, 0, 0, 0, 0xFFFFFFFF, 0⟩,
  -- ASSAY_REF_TOL
  ⟨0x200C, 1, 0x0, 1, 0x0, 0xF000FFFF, 0, 0, 0, 0xF000FFFF, 0⟩,
  -- ASSAY_STATUS
  ⟨0x2010, 1, 0x0, 1, 0x0, 0, 0, 0, 0, 0, 0⟩,
  -- ASSAY_VERDICT
  ⟨0x2014, 1, 0x0, 1, 0x0, 0, 0, 0, 0, 0, 0⟩,
  -- ASSAY_CONV_MISS
  ⟨0x2018, 1, 0x0, 1, 0x0, 0, 0, 0, 0, 0, 0⟩,
  -- ASSAY_REF_DIFF
  ⟨0x201C, 1, 0x0, 1, 0x0, 0, 0, 0, 0, 0, 0⟩,
  -- ASSAY_REF_RATIO
  ⟨0x2020, 1, 0x0, 1, 0x0, 0, 0, 0, 0, 0, 0xFFFFFFFF⟩,
  -- ASSAY_SF_IDX
  ⟨0x2024, 1, 0x0, 1, 0x0, 0x7F, 0, 0, 0, 0, 0⟩,
  -- ASSAY_SF_GAIN
  ⟨0x2028, 1, 0x0, 1, 0x0, 0, 0, 0, 0, 0, 0xFFFFFF⟩,
  -- ASSAY_SF_OFFSET
  ⟨0x202C, 1, 0x0, 1, 0x0, 0, 0, 0, 0, 0, 0xFFFFFF⟩,
  -- ASSAY_CNT
  ⟨0x2030, 1, 0x0, 1, 0x0, 0, 0, 0, 0, 0, 0⟩,
  -- QUIREq_CFG
  ⟨0x2400, 16, 0x40, 1, 0x0, 0x8FFFFFFF, 0, 0, 0, 0x8FFFFFFF, 0⟩,
  -- QUIREq_CTRL
  ⟨0x2404, 16, 0x40, 1, 0x0, 0, 0, 0, 0x7, 0, 0⟩,
  -- QUIREq_STATUS
  ⟨0x2408, 16, 0x40, 1, 0x0, 0, 0, 0, 0, 0, 0⟩,
  -- QUIREq_MEMBERS_LO
  ⟨0x240C, 16, 0x40, 1, 0x0, 0xFFFFFFFF, 0, 0, 0, 0xFFFFFFFF, 0⟩,
  -- QUIREq_MEMBERS_HI
  ⟨0x2410, 16, 0x40, 1, 0x0, 0xFFFFFFFF, 0, 0, 0, 0xFFFFFFFF, 0⟩,
  -- QUIREq_STEP_IDX
  ⟨0x2414, 16, 0x40, 1, 0x0, 0x1F, 0, 0, 0, 0, 0⟩]

def regDefs5 : List RegDef := [
  -- QUIREq_STEP0
  ⟨0x2418, 16, 0x40, 1, 0x0, 0xFFFFFFFF, 0, 0, 0, 0xFFFFFFFF, 0⟩,
  -- QUIREq_STEP1
  ⟨0x241C, 16, 0x40, 1, 0x0, 0xFFFFFFFF, 0, 0, 0, 0xFFFFFFFF, 0⟩,
  -- QUIREq_STEP2
  ⟨0x2420, 16, 0x40, 1, 0x0, 0xFF7FF8FF, 0, 0, 0, 0xFF7FF8FF, 0⟩,
  -- QUIREq_STEP3
  ⟨0x2424, 16, 0x40, 1, 0x0, 0xFFFFFFFF, 0, 0, 0, 0xFFFFFFFF, 0⟩,
  -- QUIREq_STEP4
  ⟨0x2428, 16, 0x40, 1, 0x0, 0xFFFFF, 0, 0, 0, 0xFFFFF, 0⟩,
  -- QUIREq_STEP5
  ⟨0x242C, 16, 0x40, 1, 0x0, 0xFFFFF, 0, 0, 0, 0xFFFFF, 0⟩,
  -- QUIREq_DONE
  ⟨0x2430, 16, 0x40, 1, 0x0, 0, 0, 0, 0, 0, 0⟩,
  -- QUIREq_WAITING
  ⟨0x2434, 16, 0x40, 1, 0x0, 0, 0, 0, 0, 0, 0⟩,
  -- QUIREq_EVT
  ⟨0x2438, 16, 0x40, 1, 0x0, 0, 0, 0xFF, 0, 0, 0⟩,
  -- QUIREq_CNT
  ⟨0x243C, 16, 0x40, 1, 0x0, 0, 0, 0, 0, 0, 0⟩,
  -- MARGn_LEVEL
  ⟨0x2800, 64, 0x10, 1, 0x0, 0xFFF0FFF, 0, 0, 0, 0xFFF0FFF, 0⟩,
  -- MARGn_EXPECT
  ⟨0x2804, 64, 0x10, 1, 0x0, 0xFFFFFFFF, 0, 0, 0, 0xFFFFFFFF, 0⟩,
  -- MARGn_CFG
  ⟨0x2808, 64, 0x10, 1, 0x0, 0xF7F0FFFF, 0, 0, 0, 0xF7F0FFFF, 0⟩,
  -- MARGn_STATUS
  ⟨0x280C, 64, 0x10, 1, 0x0, 0, 0, 0, 0, 0, 0⟩,
  -- MARG_CTRL
  ⟨0x2C00, 1, 0x0, 1, 0x0, 0, 0, 0, 0xF000003F, 0, 0⟩,
  -- MARG_CAP_IDX
  ⟨0x2C04, 1, 0x0, 1, 0x0, 0x3F, 0, 0, 0, 0, 0⟩,
  -- MARG_CAP
  ⟨0x2C08, 1, 0x0, 1, 0x0, 0, 0, 0, 0, 0, 0⟩,
  -- MARG_EVT
  ⟨0x2C0C, 1, 0x0, 1, 0x0, 0, 0, 0xF, 0, 0, 0⟩,
  -- SND_CFG
  ⟨0x2C10, 1, 0x0, 1, 0x0, 0xF01FFFFF, 0, 0, 0, 0xF01FFFFF, 0⟩,
  -- SND_FREQ
  ⟨0x2C14, 1, 0x0, 1, 0x0, 0xFFFFFFFF, 0, 0, 0, 0xFFFFFFFF, 0⟩,
  -- SND_AMP
  ⟨0x2C18, 1, 0x0, 1, 0x0, 0xF3FFF, 0, 0, 0, 0xF3FFF, 0⟩,
  -- SND_RAILS_LO
  ⟨0x2C1C, 1, 0x0, 1, 0x0, 0xFFFFFFFF, 0, 0, 0, 0, 0⟩,
  -- SND_RAILS_HI
  ⟨0x2C20, 1, 0x0, 1, 0x0, 0xFFFFFFFF, 0, 0, 0, 0, 0⟩,
  -- SND_QUIET_OPEN
  ⟨0x2C24, 1, 0x0, 1, 0x0, 0xFFFFF, 0, 0, 0, 0xFFFFF, 0⟩,
  -- SND_QUIET_CLOSE
  ⟨0x2C28, 1, 0x0, 1, 0x0, 0xFFFFF, 0, 0, 0, 0xFFFFF, 0⟩,
  -- SND_AT_HI
  ⟨0x2C2C, 1, 0x0, 1, 0x0, 0xFFFF, 0, 0, 0, 0, 0⟩,
  -- SND_AT_LO
  ⟨0x2C30, 1, 0x0, 1, 0x0, 0xFFFFFFFF, 0, 0, 0, 0, 0⟩,
  -- SND_TAG
  ⟨0x2C34, 1, 0x0, 1, 0x0, 0xFFFFFFFF, 0, 0, 0, 0, 0⟩]

def regDefs6 : List RegDef := [
  -- SND_CTRL
  ⟨0x2C38, 1, 0x0, 1, 0x0, 0, 0, 0, 0x3, 0, 0⟩,
  -- SND_STATUS
  ⟨0x2C3C, 1, 0x0, 1, 0x0, 0, 0, 0, 0, 0, 0⟩,
  -- SND_RES_IDX
  ⟨0x2C40, 1, 0x0, 1, 0x0, 0x1F3F, 0, 0, 0, 0, 0⟩,
  -- SND_RES_FREQ
  ⟨0x2C44, 1, 0x0, 1, 0x0, 0, 0, 0, 0, 0, 0⟩,
  -- SND_RES_MAG
  ⟨0x2C48, 1, 0x0, 1, 0x0, 0, 0, 0, 0, 0, 0⟩,
  -- SND_RES_PHASE
  ⟨0x2C4C, 1, 0x0, 1, 0x0, 0, 0, 0, 0, 0, 0⟩,
  -- SND_SUM_H0
  ⟨0x2C50, 1, 0x0, 1, 0x0, 0, 0, 0, 0, 0, 0⟩,
  -- SND_SUM_XOVER
  ⟨0x2C54, 1, 0x0, 1, 0x0, 0, 0, 0, 0, 0, 0⟩,
  -- SND_SUM_PM
  ⟨0x2C58, 1, 0x0, 1, 0x0, 0, 0, 0, 0, 0, 0⟩,
  -- SND_SUM_FLAGS
  ⟨0x2C5C, 1, 0x0, 1, 0x0, 0, 0, 0, 0, 0, 0⟩,
  -- SND_ARC_CNT
  ⟨0x2C60, 1, 0x0, 1, 0x0, 0, 0, 0, 0, 0, 0⟩,
  -- SND_EVT
  ⟨0x2C64, 1, 0x0, 1, 0x0, 0, 0, 0xF, 0, 0, 0⟩,
  -- PMp_CFG
  ⟨0x3000, 4, 0x40, 1, 0x0, 0xBF0F03FF, 0, 0, 0, 0xBF0F03FF, 0⟩,
  -- PMp_STATUS
  ⟨0x3004, 4, 0x40, 1, 0x0, 0, 0, 0, 0, 0, 0⟩,
  -- PMp_EVT
  ⟨0x3008, 4, 0x40, 1, 0x0, 0, 0, 0x3F, 0, 0, 0⟩,
  -- PMp_CNT
  ⟨0x300C, 4, 0x40, 1, 0x0, 0, 0, 0, 0, 0, 0⟩,
  -- PMp_ALERT
  ⟨0x3010, 4, 0x40, 1, 0x0, 0, 0, 0, 0, 0, 0⟩,
  -- PM_XFER_CTRL
  ⟨0x3100, 1, 0x0, 1, 0x0, 0x7FEFF00, 0, 0, 0x80000000, 0, 0⟩,
  -- PM_XFER_DATA
  ⟨0x3104, 1, 0x0, 1, 0x0, 0xFFFF, 0, 0, 0, 0, 0⟩,
  -- PM_XFER_STATUS
  ⟨0x3108, 1, 0x0, 1, 0x0, 0, 0, 0, 0, 0, 0⟩,
  -- PMPk_CFG
  ⟨0x3800, 128, 0x10, 1, 0x0, 0xFF3FFF7F, 0, 0, 0, 0xFF3FFF7F, 0⟩,
  -- PMPk_MASK
  ⟨0x3804, 128, 0x10, 1, 0x0, 0xFFFFFFFF, 0, 0, 0, 0xFFFFFFFF, 0⟩,
  -- PMPk_STATUS
  ⟨0x3808, 128, 0x10, 1, 0x0, 0, 0, 0, 0, 0, 0⟩,
  -- PMPk_READ
  ⟨0x380C, 128, 0x10, 1, 0x0, 0, 0, 0, 0, 0, 0⟩,
  -- RAILn_GUARD_CFG
  ⟨0x4000, 64, 0x80, 1, 0x0, 0x80FFEC00, 0x80000000, 0, 0, 0x80FFEC00, 0⟩,
  -- RAILn_GUARD_OV
  ⟨0x4004, 64, 0x80, 1, 0x0, 0xFFF, 0, 0, 0, 0xFFF, 0⟩,
  -- RAILn_GUARD_UV
  ⟨0x4008, 64, 0x80, 1, 0x0, 0xFFF, 0, 0, 0, 0xFFF, 0⟩,
  -- RAILn_GUARD_FILT
  ⟨0x400C, 64, 0x80, 1, 0x0, 0xFFFF, 0, 0, 0, 0xFFFF, 0⟩]

def regDefs7 : List RegDef := [
  -- RAILn_DIV
  ⟨0x4010, 64, 0x80, 1, 0x0, 0xFFFFFFFF, 0xFFFFFFFF, 0, 0, 0xFFFFFFFF, 0⟩,
  -- RAILn_GUARD_STATUS
  ⟨0x4014, 64, 0x80, 1, 0x0, 0, 0, 0, 0, 0, 0⟩,
  -- RAILn_GUARD_EVT
  ⟨0x4018, 64, 0x80, 1, 0x0, 0, 0, 0x7F, 0, 0, 0⟩,
  -- RAILn_EN_CTRL
  ⟨0x401C, 64, 0x80, 1, 0x0, 0, 0, 0, 0x3, 0, 0⟩,
  -- RAILn_GUARD_CNT
  ⟨0x4020, 64, 0x80, 1, 0x0, 0, 0, 0, 0, 0, 0⟩,
  -- RAILn_PROOF
  ⟨0x4024, 64, 0x80, 1, 0x0, 0, 0, 0, 0, 0, 0⟩,
  -- RAILn_FINE_CFG
  ⟨0x4040, 64, 0x80, 1, 0x0, 0xFE30F0F, 0, 0, 0, 0xFE30F0F, 0⟩,
  -- RAILn_FINE_RESULT
  ⟨0x4044, 64, 0x80, 1, 0x0, 0, 0, 0, 0, 0, 0⟩,
  -- RAILn_FINE_TAG
  ⟨0x4048, 64, 0x80, 1, 0x0, 0, 0, 0, 0, 0, 0⟩,
  -- RAILn_FINE_RAILV
  ⟨0x404C, 64, 0x80, 1, 0x0, 0, 0, 0, 0, 0, 0⟩,
  -- RAILn_FINE_WIN_HI
  ⟨0x4050, 64, 0x80, 1, 0x0, 0xFFFFFFFF, 0, 0, 0, 0xFFFFFFFF, 0⟩,
  -- RAILn_FINE_WIN_LO
  ⟨0x4054, 64, 0x80, 1, 0x0, 0xFFFFFF, 0, 0, 0, 0xFFFFFF, 0⟩,
  -- RAILn_FINE_SLOPE
  ⟨0x4058, 64, 0x80, 1, 0x0, 0xFFFFFFFF, 0, 0, 0, 0xFFFFFFFF, 0⟩,
  -- RAILn_FINE_RIPPLE
  ⟨0x405C, 64, 0x80, 1, 0x0, 0xF000FFFF, 0, 0, 0, 0xF000FFFF, 0⟩,
  -- RAILn_FINE_MON
  ⟨0x4060, 64, 0x80, 1, 0x0, 0, 0, 0, 0, 0, 0⟩,
  -- RAILn_FINE_STAMP_HI
  ⟨0x4064, 64, 0x80, 1, 0x0, 0, 0, 0, 0, 0, 0⟩,
  -- RAILn_FINE_STAMP_LO
  ⟨0x4068, 64, 0x80, 1, 0x0, 0, 0, 0, 0, 0, 0⟩,
  -- RAILn_CAL_OFFSET
  ⟨0x406C, 64, 0x80, 1, 0x0, 0xFFFFFF, 0, 0, 0, 0, 0xFFFFFF⟩,
  -- RAILn_CAL_GAIN
  ⟨0x4070, 64, 0x80, 1, 0x0, 0xFFFFFF, 0, 0, 0, 0, 0xFFFFFF⟩,
  -- RAILn_CAL_TARGET
  ⟨0x4074, 64, 0x80, 1, 0x0, 0xFFFFFFFF, 0, 0, 0, 0, 0⟩,
  -- RAILn_CAL_STATUS
  ⟨0x4078, 64, 0x80, 1, 0x0, 0, 0, 0, 0, 0, 0x30⟩,
  -- RAILn_FINE_STATE
  ⟨0x407C, 64, 0x80, 1, 0x0, 0, 0, 0x3F, 0, 0, 0⟩,
  -- SPAREk_STATUS
  ⟨0x6000, 8, 0x80, 1, 0x0, 0, 0, 0, 0, 0, 0⟩,
  -- SPAREk_CNT
  ⟨0x6004, 8, 0x80, 1, 0x0, 0, 0, 0, 0, 0, 0⟩,
  -- RING_CFG
  ⟨0x6800, 1, 0x0, 1, 0x0, 0xE0FFFFFF, 0x80000000, 0, 0, 0xE0FFFFFF, 0⟩,
  -- RING_FUSE
  ⟨0x6804, 1, 0x0, 1, 0x0, 0, 0, 0, 0, 0, 0⟩,
  -- RING_STATUS
  ⟨0x6808, 1, 0x0, 1, 0x0, 0, 0, 0, 0, 0, 0⟩,
  -- RING_LINK_E
  ⟨0x680C, 1, 0x0, 1, 0x0, 0, 0, 0, 0, 0, 0⟩]

def regDefs8 : List RegDef := [
  -- RING_LINK_W
  ⟨0x6810, 1, 0x0, 1, 0x0, 0, 0, 0, 0, 0, 0⟩,
  -- RING_ASYM
  ⟨0x6814, 1, 0x0, 1, 0x0, 0xFFFFFFFF, 0, 0, 0, 0xFFFFFFFF, 0⟩,
  -- RING_ANG_ERR
  ⟨0x6818, 1, 0x0, 1, 0x0, 0, 0, 0, 0, 0, 0⟩,
  -- RING_PUB_CFG
  ⟨0x681C, 1, 0x0, 1, 0x0, 0x800003FF, 0, 0, 0, 0x800003FF, 0⟩,
  -- RING_PUB_ADDRk
  ⟨0x6820, 12, 0x4, 1, 0x0, 0x80007FFF, 0, 0, 0, 0x80007FFF, 0⟩,
  -- RING_GRANT
  ⟨0x6850, 1, 0x0, 1, 0x0, 0, 0, 0, 0, 0, 0⟩,
  -- RING_ERR_E
  ⟨0x6854, 1, 0x0, 1, 0x0, 0, 0, 0, 0, 0, 0⟩,
  -- RING_ERR_W
  ⟨0x6858, 1, 0x0, 1, 0x0, 0, 0, 0, 0, 0, 0⟩,
  -- RING_ERR_S
  ⟨0x685C, 1, 0x0, 1, 0x0, 0, 0, 0, 0, 0, 0⟩,
  -- RING_EVQ
  ⟨0x6860, 1, 0x0, 1, 0x0, 0, 0, 0, 0, 0, 0⟩,
  -- RING_EVT
  ⟨0x6864, 1, 0x0, 1, 0x0, 0, 0, 0x3FFFF, 0, 0, 0⟩,
  -- RING_MCFG
  ⟨0x6900, 1, 0x0, 1, 0x0, 0x80000FFF, 0, 0, 0, 0x80000FFF, 0⟩,
  -- RING_MSTATUS
  ⟨0x6904, 1, 0x0, 1, 0x0, 0, 0, 0, 0, 0, 0⟩,
  -- RING_MID
  ⟨0x6908, 1, 0x0, 1, 0x0, 0, 0, 0, 0, 0, 0⟩,
  -- RING_LOOP_E
  ⟨0x690C, 1, 0x0, 1, 0x0, 0, 0, 0, 0, 0, 0⟩,
  -- RING_LOOP_W
  ⟨0x6910, 1, 0x0, 1, 0x0, 0, 0, 0, 0, 0, 0⟩,
  -- RING_BUDGET_E
  ⟨0x6914, 1, 0x0, 1, 0x0, 0, 0, 0, 0, 0, 0⟩,
  -- RING_BUDGET_W
  ⟨0x6918, 1, 0x0, 1, 0x0, 0, 0, 0, 0, 0, 0⟩,
  -- RING_MRX_CNT
  ⟨0x691C, 1, 0x0, 1, 0x0, 0, 0, 0, 0, 0, 0⟩,
  -- RING_BARk_CFG
  ⟨0x6940, 4, 0x20, 1, 0x0, 0xE0FFFFFF, 0, 0, 0, 0xE0FFFFFF, 0⟩,
  -- RING_BARk_EXPECT
  ⟨0x6944, 4, 0x20, 1, 0x0, 0xFFFF, 0, 0, 0, 0xFFFF, 0⟩,
  -- RING_BARk_STATUS
  ⟨0x6948, 4, 0x20, 1, 0x0, 0, 0, 0, 0, 0, 0⟩,
  -- RING_BARk_CTRL
  ⟨0x694C, 4, 0x20, 1, 0x0, 0, 0, 0, 0x3, 0, 0⟩,
  -- RING_BARk_REL_HI
  ⟨0x6950, 4, 0x20, 1, 0x0, 0, 0, 0, 0, 0, 0⟩,
  -- RING_BARk_REL_LO
  ⟨0x6954, 4, 0x20, 1, 0x0, 0, 0, 0, 0, 0, 0⟩,
  -- RING_RF_STATUS
  ⟨0x69C0, 1, 0x0, 1, 0x0, 0, 0, 0, 0, 0, 0⟩,
  -- RING_RF_CNT
  ⟨0x69C4, 1, 0x0, 1, 0x0, 0, 0, 0, 0, 0, 0⟩,
  -- RING_RF_LATE
  ⟨0x69C8, 1, 0x0, 1, 0x0, 0, 0, 0, 0, 0, 0⟩]

def regDefs9 : List RegDef := [
  -- TWIN_CFG
  ⟨0x7000, 1, 0x0, 1, 0x0, 0xC0FFFF00, 0xC0000000, 0, 0, 0xC0FFFF00, 0⟩,
  -- TWIN_PAIR
  ⟨0x7004, 1, 0x0, 1, 0x0, 0xFFFFFFFF, 0xFFFFFFFF, 0, 0, 0xFFFFFFFF, 0⟩,
  -- TWIN_WARDEN
  ⟨0x7008, 1, 0x0, 1, 0x0, 0xFFFFFF00, 0, 0, 0, 0xFFFFFF00, 0⟩,
  -- TWIN_DIV
  ⟨0x700C, 1, 0x0, 1, 0x0, 0xFF00FFFF, 0, 0, 0, 0xFF00FFFF, 0⟩,
  -- TWIN_STATUS
  ⟨0x7010, 1, 0x0, 1, 0x0, 0, 0, 0, 0, 0, 0⟩,
  -- TWIN_TOKEN
  ⟨0x7014, 1, 0x0, 1, 0x0, 0, 0, 0, 0, 0, 0⟩,
  -- TWIN_EVT
  ⟨0x7018, 1, 0x0, 1, 0x0, 0, 0, 0x1FFFFF, 0, 0, 0⟩,
  -- TWIN_CNT
  ⟨0x701C, 1, 0x0, 1, 0x0, 0, 0, 0, 0, 0, 0⟩,
  -- WDN_CFG
  ⟨0x7100, 1, 0x0, 1, 0x0, 0xFF01, 0, 0, 0, 0xFF01, 0⟩,
  -- WDN_PAIRk_CFG
  ⟨0x7140, 8, 0x10, 1, 0x0, 0xEFFFFFFF, 0, 0, 0, 0xEFFFFFFF, 0⟩,
  -- WDN_PAIRk_NODES
  ⟨0x7144, 8, 0x10, 1, 0x0, 0xFFFFFFFF, 0, 0, 0, 0xFFFFFFFF, 0⟩,
  -- WDN_PAIRk_STATUS
  ⟨0x7148, 8, 0x10, 1, 0x0, 0, 0, 0, 0, 0, 0⟩,
  -- WDN_PAIRk_SEQ
  ⟨0x714C, 8, 0x10, 1, 0x0, 0, 0, 0, 0, 0, 0⟩,
  -- SPR_STATUS
  ⟨0x7200, 1, 0x0, 1, 0x0, 0, 0, 0, 0, 0, 0⟩,
  -- NVM_STATUS
  ⟨0x7400, 1, 0x0, 1, 0x0, 0, 0, 0, 0, 0, 0⟩,
  -- NVM_STORE
  ⟨0x7404, 1, 0x0, 1, 0x0, 0, 0, 0, 0x3, 0, 0⟩,
  -- LDG_STATUS
  ⟨0x7408, 1, 0x0, 1, 0x0, 0, 0, 0, 0, 0, 0⟩,
  -- LDG_SEQ
  ⟨0x740C, 1, 0x0, 1, 0x0, 0, 0, 0, 0, 0, 0⟩,
  -- LDG_SEC
  ⟨0x7410, 1, 0x0, 1, 0x0, 0xFFFFFFFF, 0, 0, 0, 0, 0⟩,
  -- LDG_USEC
  ⟨0x7414, 1, 0x0, 1, 0x0, 0, 0, 0, 0, 0, 0⟩,
  -- LDG_RD_IDX
  ⟨0x7418, 1, 0x0, 1, 0x0, 0x7F03FF, 0, 0, 0, 0, 0⟩,
  -- LDG_RD_DATA
  ⟨0x741C, 1, 0x0, 1, 0x0, 0, 0, 0, 0, 0, 0⟩,
  -- NVM_EVT
  ⟨0x7420, 1, 0x0, 1, 0x0, 0, 0, 0xFF, 0, 0, 0⟩,
  -- NVM_CNT
  ⟨0x7424, 1, 0x0, 1, 0x0, 0, 0, 0, 0, 0, 0⟩,
  -- SEC_STATE
  ⟨0x7800, 1, 0x0, 1, 0x0, 0, 0, 0, 0, 0, 0⟩,
  -- SEC_ESC_CFG
  ⟨0x7804, 1, 0x0, 1, 0x0, 0xFFFF, 0xFFFF, 0, 0, 0xFFFF, 0⟩,
  -- SEC_ESC_STATUS
  ⟨0x7808, 1, 0x0, 1, 0x0, 0, 0, 0, 0, 0, 0⟩,
  -- SEC_EVT
  ⟨0x780C, 1, 0x0, 1, 0x0, 0, 0, 0xFFF, 0, 0, 0⟩]

def regDefs10 : List RegDef := [
  -- SEC_NONCEi
  ⟨0x7810, 4, 0x4, 1, 0x0, 0, 0, 0, 0, 0, 0⟩,
  -- HM_STATUS
  ⟨0x7820, 1, 0x0, 1, 0x0, 0, 0, 0, 0, 0, 0⟩,
  -- HM_ORDER_IDX
  ⟨0x7824, 1, 0x0, 1, 0x0, 0xF, 0, 0, 0, 0, 0⟩,
  -- HM_ORDER_LO
  ⟨0x7828, 1, 0x0, 1, 0x0, 0, 0, 0, 0, 0, 0⟩,
  -- HM_ORDER_HI
  ⟨0x782C, 1, 0x0, 1, 0x0, 0, 0, 0, 0, 0, 0⟩,
  -- HM_ORDER_CFG
  ⟨0x7830, 1, 0x0, 1, 0x0, 0, 0, 0, 0, 0, 0⟩,
  -- HM_FATAL_OV_LO
  ⟨0x7840, 1, 0x0, 1, 0x0, 0, 0, 0, 0, 0, 0⟩,
  -- HM_FATAL_OV_HI
  ⟨0x7844, 1, 0x0, 1, 0x0, 0, 0, 0, 0, 0, 0⟩,
  -- HM_FATAL_UV_LO
  ⟨0x7848, 1, 0x0, 1, 0x0, 0, 0, 0, 0, 0, 0⟩,
  -- HM_FATAL_UV_HI
  ⟨0x784C, 1, 0x0, 1, 0x0, 0, 0, 0, 0, 0, 0⟩,
  -- HM_FATAL_PG_LO
  ⟨0x7850, 1, 0x0, 1, 0x0, 0, 0, 0, 0, 0, 0⟩,
  -- HM_FATAL_PG_HI
  ⟨0x7854, 1, 0x0, 1, 0x0, 0, 0, 0, 0, 0, 0⟩,
  -- HM_RESET
  ⟨0x7858, 1, 0x0, 1, 0x0, 0, 0, 0, 0, 0, 0⟩,
  -- HM_DBG_DIGESTk
  ⟨0x7860, 8, 0x4, 1, 0x0, 0, 0, 0, 0, 0, 0⟩,
  -- HM_PATCH_DIGESTk
  ⟨0x7880, 8, 0x4, 1, 0x0, 0, 0, 0, 0, 0, 0⟩,
  -- CMD_FUSE
  ⟨0x7C00, 1, 0x0, 1, 0x0, 0, 0, 0, 0, 0, 0⟩,
  -- CMD_STATUS
  ⟨0x7C04, 1, 0x0, 1, 0x0, 0, 0, 0, 0, 0, 0⟩,
  -- CMD_EPOCH_CFG
  ⟨0x7C08, 1, 0x0, 1, 0x0, 0x8000FFFF, 0, 0, 0, 0x8000FFFF, 0⟩,
  -- CMD_EPOCH
  ⟨0x7C0C, 1, 0x0, 1, 0x0, 0, 0, 0, 0, 0, 0⟩,
  -- CMD_EVT
  ⟨0x7C10, 1, 0x0, 1, 0x0, 0, 0, 0x7FF, 0, 0, 0⟩,
  -- CMD_CNT
  ⟨0x7C14, 1, 0x0, 1, 0x0, 0, 0, 0, 0, 0, 0⟩,
  -- CMD_PATCH
  ⟨0x7C18, 1, 0x0, 1, 0x0, 0, 0, 0, 0, 0, 0⟩,
  -- CMD_Pp_CFG
  ⟨0x7C40, 2, 0x20, 1, 0x0, 0xC0000000, 0, 0, 0, 0xC0000000, 0⟩,
  -- CMD_Pp_STATUS
  ⟨0x7C44, 2, 0x20, 1, 0x0, 0, 0, 0x20000000, 0, 0, 0⟩,
  -- CMD_Pp_ACC
  ⟨0x7C48, 2, 0x20, 1, 0x0, 0, 0, 0, 0, 0, 0⟩,
  -- CMD_Pp_ERR
  ⟨0x7C4C, 2, 0x20, 1, 0x0, 0, 0, 0, 0, 0, 0⟩,
  -- CMD_Pp_TAGk
  ⟨0x7C50, 2, 0x20, 4, 0x4, 0, 0, 0, 0, 0, 0⟩,
  -- CMD_Pp_AUTHSEQ
  ⟨0x7CA0, 2, 0x4, 1, 0x0, 0, 0, 0, 0, 0, 0⟩]

/-- Every register of the index, by array. -/
def regDefs : List RegDef :=
  regDefs1 ++ regDefs2 ++ regDefs3 ++ regDefs4 ++ regDefs5 ++ regDefs6 ++ regDefs7 ++ regDefs8 ++ regDefs9 ++ regDefs10

end Sys2Proof.Machine
end

