-- ==== Sys2Proof/Syntax.lean ====
section
/-! DEFINITION. The commands of the device: one constructor for every row of spec/opcode_table.json, in the
table's order. The block has no program: a command is an operation or an event of the table, with what the
world outside the block supplies as its operands (a written value, a level, a measurement, a frame). -/

namespace Sys2Proof

/-- One command of the table of operations and events. -/
inductive Instr where
  /-- REFERENCE_EDGE, R26: An edge on the active angle reference input is gated, accepted or counted as a stray, and an accepted edge updates the tracked period and phase error. -/
  | referenceEdge (spacing : Nat) (level : Bool) (held : Nat)
  /-- ACQUISITION_COMPLETE, R29: An acquisition completes, from a hop-table hit or a full band search, and the PLL locks. -/
  | acquisitionComplete (spacing : Nat)
  /-- HOLDOVER_ENTRY, R32: No accepted edge for 1.5 tracked periods puts the angle PLL in holdover, clearing LOCKED and PHASE_OK. -/
  | holdoverEntry
  /-- HOLDOVER_EXPIRED, R34: Holdover lasting ANG_HOLD_MAX cycles sets HOLD_EXP and raises the angle holdover expired fault. -/
  | holdoverExpired
  /-- ANG_CFG_WRITE, R30: A write of ANG_CFG takes effect at the next accepted edge, and a change of SRC starts an acquisition. -/
  | angCfgWrite (port : Port) (value : Word)
  /-- RESEL, R30: A write of 1 to ANG_CTRL.RESEL reselects the input named by SRC and starts an acquisition. -/
  | resel (port : Port)
  /-- HOP_STORE, R31: A write of 1 to ANG_CTRL.HOP_STORE copies the current band and period into hop entry HOP_IDX when locked. -/
  | hopStore (port : Port) (hopIdx : Fin 8)
  /-- ANG_INC_WRITE, R52: A write of ANG_INC while SRC is FREE sets the increment at once and stores it in ANG_FREE_INC. -/
  | angIncWrite (port : Port) (value : Word)
  /-- ANG_FREE_INC_WRITE, R23: A write of ANG_FREE_INC sets the free-running increment from the next ANG edge while SRC is FREE. -/
  | angFreeIncWrite (port : Port) (value : Word)
  /-- ANG_PHASE_WRITE, R35: A write of ANG_PHASE.OFFSET changes the assigned edge angle, and the difference is slewed out. -/
  | angPhaseWrite (port : Port) (value : Word)
  /-- ANG_STAMP_READ, R24: A read of ANG_STAMP_HI latches the whole stamp and flags for the issuing port. -/
  | angStampRead (port : Port)
  /-- RELOCK, R44: A write of 1 to CLK_CTRL.RELOCK moves the PLL domains to fallback and re-locks the system PLL. -/
  | relock (port : Port)
  /-- REF_RETURN, R42: A write of 1 to CLK_CTRL.REF_RETURN moves both PLLs back to XIN with a re-lock when XIN is good. -/
  | refReturn (port : Port)
  /-- PLL_LOSS_OF_LOCK, R45: Loss of system PLL lock is detected and the domains switch to the fallback oscillator. -/
  | pllLossOfLock
  /-- SYSTEM_CLOCK_OVERSPEED, R45: A SYS period shorter than 4.834 ns trips the period guard, switches to fallback and raises the overspeed fault. -/
  | systemClockOverspeed
  /-- SYSTEM_PLL_LOCK, R41: Two consecutive measurement windows find SYS within 0.1 %, the PLL is declared locked and RETURN_WAIT starts. -/
  | systemPllLock
  /-- FALLBACK_RETURN, R44: The 64 us return wait ends and every domain switches back to the PLL, ending the BOUNDED suspension. -/
  | fallbackReturn
  /-- BAND_SEARCH_RETRY, R44: A failed re-lock starts a new band search every 5 ms while staying on fallback. -/
  | bandSearchRetry
  /-- FALLBACK_MEASURE, R46: Every 100 us on fallback the fallback oscillator is measured against TCLK and the angle increment rescaled. -/
  | fallbackMeasure (freq : BitVec 16)
  /-- XIN_FAILURE, R49: XIN is declared failed, TCLK moves to the MON RC, and the PLLs re-reference to a ring port if enabled. -/
  | xinFailure (symbols : BitVec 3)
  /-- TCLK_RETURN, R50: XIN_OK holding for 1 ms returns TCLK to XIN without losing a tick. -/
  | tclkReturn (us : Nat)
  /-- SERDES_PLL_LOSS_OF_LOCK, R437: The SerDes PLL unlocks, TXDIS is asserted on every ring port and the node sends nothing. -/
  | serdesPllLossOfLock
  /-- GUARD_RAW_CHANGE, R59: A rail's raw OV or UV comparator output changes as the sense voltage crosses its trip or release level. -/
  | guardRawChange (rail : Fin 64) (sense : Int)
  /-- GUARD_FILTER_ASSERT, R63: A glitch filter count reaches N and the filtered OV or UV output asserts, raising the guard fault to the reaction logic. -/
  | guardFilterAssert (rail : Fin 64) (uv spare : Bool) (edges : Nat)
  /-- GUARD_FILTER_DEASSERT, R63: A glitch filter count of deasserted samples completes and the filtered output deasserts, ending the fault condition. -/
  | guardFilterDeassert (rail : Fin 64) (uv spare : Bool) (edges : Nat)
  /-- GUARD_THRESH_WRITE, R61: A new threshold, hysteresis or filter value reaches the comparator 3 TCLK periods after the write, judged by the more protective level. -/
  | guardThreshWrite (rail : Fin 64)
  /-- GUARD_CHANGEOVER_END, R61: 1 us after a threshold change reaches the comparator, only the new level is judged. -/
  | guardChangeoverEnd (rail : Fin 64)
  /-- SENSE_COMMON_MODE_ERROR, R56: SNSNn outside its band for 10 us sets CM_ERR and raises the sense common-mode fault. -/
  | senseCommonModeError (rail : Fin 64)
  /-- SENSE_COMMON_MODE_CLEAR, R56: SNSNn back inside its band for 10 us clears CM_ERR. -/
  | senseCommonModeClear (rail : Fin 64)
  /-- PG_FILTER_CHANGE, R72: The filtered PG state of a rail changes after its filter time, raising PG lost or the PG-without-enable event. -/
  | pgFilterChange (rail : Fin 64) (level : Bool) (edges : Nat)
  /-- EN_READBACK_MISMATCH, R76: The ENn ball disagrees with the latch for 20 consecutive TCLK edges and the EN readback mismatch fault is raised. -/
  | enReadbackMismatch (rail : Fin 64) (level : Bool) (edges : Nat)
  /-- EN_SET, R78: A write of 1 to RAILn_EN_CTRL.EN_SET turns the rail's EN latch on in COMMISSION. -/
  | enSet (port : Port) (rail : Fin 64) (off : Bool)
  /-- EN_CLR, R78: A write of 1 to RAILn_EN_CTRL.EN_CLR turns the rail's EN latch off in COMMISSION. -/
  | enClr (port : Port) (rail : Fin 64)
  /-- GUARD_PROOF_START, R79: A scheduled proof moves one comparator's threshold 32 codes past the fine result and freezes the filter, or is skipped. -/
  | guardProofStart (rail : Fin 64) (uv : Bool)
  /-- GUARD_PROOF_SAMPLE, R79: 1.5 us into a proof the raw output is sampled and the threshold restored, counting a pass or a failure. -/
  | guardProofSample (rail : Fin 64) (asserted : Bool)
  /-- GUARD_PROOF_END, R79: 1 us after the restore the filter is unfrozen. -/
  | guardProofEnd (rail : Fin 64)
  /-- SUBSTITUTION_START, R80: A queued slice substitution starts: the spare powers up, takes the guard settings and SUBST is set. -/
  | substitutionStart (checkOk : BitVec 8)
  /-- SUBSTITUTION_STEP, R80: A timed stage of the cross-point move joins or removes spare and worn slice inputs, drivers and outputs. -/
  | substitutionStep
  /-- FINE_SAMPLE, R87: A fine-path sample boundary delivers a result with its tag and stamp and runs the window, slope and ripple monitors. -/
  | fineSample (rail : Fin 64) (raw : Int) (back : Bool)
  /-- FINE_CFG_WRITE, R90: A write of RAILn_FINE_CFG schedules a restart of the fine path on the next grid boundary at least 1 us later. -/
  | fineCfgWrite (port : Port) (rail : Fin 64) (value : Word)
  /-- FINE_RESTART, R90: The fine path restarts on a sample boundary and marks following samples SETTLING. -/
  | fineRestart (rail : Fin 64)
  /-- FINE_MODULATOR_OVERLOAD, R92: The fine modulator leaves its stable range, the loop resets, samples are clipped and the overload fault is raised. -/
  | fineModulatorOverload (rail : Fin 64) (negative : Bool)
  /-- FINE_WINDOW_WRITE, R96: A write to the fine window HI, LO or CNT restarts the debounce count. -/
  | fineWindowWrite (port : Port) (rail : Fin 64) (hi : Bool) (value : Word)
  /-- FINE_RESULT_READ, R88: A read of RAILn_FINE_RESULT latches the tag, rail volts and stamp of that sample for the issuing port. -/
  | fineResultRead (port : Port) (rail : Fin 64)
  /-- CAL_ZERO, R103: The CAL_ZERO command averages raw samples of a rail or pool pair and takes the mean as the new offset. -/
  | calZero (port : Port) (tag : BitVec 7) (params : List Word)
  /-- CAL_FULL, R104: The CAL_FULL command averages raw samples against the target and computes the new gain. -/
  | calFull (port : Port) (tag : BitVec 7) (params : List Word)
  /-- CALIBRATION_AVERAGE_DONE, R102: A calibration's average completes or fails on spread or restarts, ending with a range check. -/
  | calibrationAverageDone (rail : Option (Fin 64))
  /-- CALIBRATION_COMMIT, R105: A completed calibration commits its coefficient on the next sample boundary, clears BUSY and raises calibration done. -/
  | calibrationCommit (rail : Option (Fin 64))
  /-- CAL_COEFF_WRITE, R105: A write of RAILn_CAL_OFFSET or RAILn_CAL_GAIN commits on the next sample boundary and marks samples. -/
  | calCoeffWrite (port : Port) (rail : Fin 64) (gain : Bool) (value : Word)
  /-- BENCH_START, R127: A write of 1 to BENCHb_CTRL.START arms the Bench or is refused with CFG_ERR. -/
  | benchStart (port : Port) (bench : Fin 8)
  /-- BENCH_STOP, R132: A write of 1 to BENCHb_CTRL.STOP aborts running entries, discards pending triggers and stops the Bench. -/
  | benchStop (port : Port) (bench : Fin 8)
  /-- BENCH_TRIG, R129: A write of 1 to BENCHb_CTRL.TRIG gives a regular trigger. -/
  | benchTrig (port : Port) (bench : Fin 8)
  /-- BENCH_ITRIG, R129: A write of 1 to BENCHb_CTRL.ITRIG gives an injected trigger. -/
  | benchItrig (port : Port) (bench : Fin 8)
  /-- PWM_SYNC_EDGE, R129: A PWM_SYNC input takes a new level and the Benches that select it detect a trigger. -/
  | pwmSyncEdge (sel : Fin 4) (level : Bool)
  /-- BENCH_ANGLE_TRIGGER, R129: A Bench's per-cycle angle target matches and gives a trigger. -/
  | benchAngleTrigger (bench : Fin 8) (injected : Bool)
  /-- TRIGGER_DELAY_END, R130: A trigger's delay runs out and the sequence starts its entry, aborting regular work for an urgent request. -/
  | triggerDelayEnd (bench : Fin 8) (injected : Bool)
  /-- POOL_SAMPLE, R120: A pool converter sample boundary delivers a marked or valid sample of the running entry. -/
  | poolSample (conv : Fin 10) (raw : BitVec 24) (overload cmOut : Bool)
  /-- ENTRY_COMPLETE, R120: An entry writes its last result and the Bench starts the next entry, injected sequence or pending trigger. -/
  | entryComplete (conv : Fin 10)
  /-- BENCH_LAYOUT_WRITE, R124: A write of BENCH_LAYOUT divides positions into Benches or is refused. -/
  | benchLayoutWrite (port : Port) (value : Word)
  /-- POOL_RESULT_READ, R122: A read of a pool result register latches the Bench's result tag and stamp for the issuing port. -/
  | poolResultRead (port : Port) (address : Nat)
  /-- POOL_CAL_WRITE, R142: A write of POOL_CAL_OFFSET or POOL_CAL_GAIN sets the indexed pair's coefficient unless a calibration runs on it. -/
  | poolCalWrite (port : Port) (gain : Bool) (value : Word)
  /-- HOLDUP_POOL_CONVERSION, R137: In HOLDUP every INTERVAL the remaining converter converts the hold-up input into POOL_HU_RES. -/
  | holdupPoolConversion (raw : BitVec 24) (overload cmOut : Bool)
  /-- CONVERTER_SUBSTITUTION, R138: A worn converter's work aborts and the spare takes its position with a start-up delay. -/
  | converterSubstitution
  /-- REFERENCE_WATCH, R144: Once per millisecond VREF_A minus VREF_B is measured and a lasting miss starts reference triage. -/
  | referenceWatch (diff : Int)
  /-- REFERENCE_RATIO_RECORD, R145: Every 24 h VREF_B and VREF_C are converted and recorded, judging VREF_C under R147. -/
  | referenceRatioRecord
  /-- REFERENCE_TRIAGE, R146: Fresh readings of VREF_B and VREF_C against the recorded ones name VREF_A or VREF_B worn, or end unresolved. -/
  | referenceTriage
  /-- ASSAY_ROUND_START, R148: A converter round starts every ROUND_PER x 10 ms with its fixed gain and node level. -/
  | assayRoundStart
  /-- ASSAY_CONVERSION_COMPLETE, R148: A converter completes its Assay conversion of the assay node or a crossing-bus rail check. -/
  | assayConversionComplete (conv : Fin 10)
  /-- ASSAY_ROUND_END, R149: At the end of a round each converter is judged against the others, counts move and factors are nudged. -/
  | assayRoundEnd
  /-- CONVERTER_TRIAGE, R150: The suspect and two witnesses convert the node together and a verdict is given. -/
  | converterTriage
  /-- RAIL_TRIAGE, R153: A second converter repeats the rail check and the three witnesses give a verdict. -/
  | railTriage
  /-- SPARE_SLICE_CHECK, R154: An idle spare slice converts the assay node and is compared with the pool median. -/
  | spareSliceCheck (spare : Fin 8) (raw0 raw1 : Int)
  /-- SRAM_CORRECTED_ERROR, R318: A corrected SRAM error is counted and a row with two in 24 h is declared worn and remapped. -/
  | sramCorrectedError (row : Nat)
  /-- QUIRE_UP, R166: A write of 1 to QUIREq_CTRL.UP starts the Quire's up-sequence or is refused. -/
  | quireUp (port : Port) (quire : Fin 16)
  /-- QUIRE_DOWN, R166: A write of 1 to QUIREq_CTRL.DOWN starts a commanded down-sequence or is refused. -/
  | quireDown (port : Port) (quire : Fin 16)
  /-- QUIRE_CTRL_RESUME, R182: A write of 1 to QUIREq_CTRL.RESUME completes a HELD step without the barrier. -/
  | quireCtrlResume (port : Port) (quire : Fin 16)
  /-- SEQ_CTRL_UP, R166: A nonzero SEQ_CTRL.UP mask starts the named Quires' up-sequences together or none. -/
  | seqCtrlUp (port : Port) (mask : BitVec 16)
  /-- SEQ_CTRL_DOWN, R166: A nonzero SEQ_CTRL.DOWN mask starts commanded down-sequences of the named Quires on one edge. -/
  | seqCtrlDown (port : Port) (mask : BitVec 16)
  /-- QUIRE_MEMBERS_WRITE, R162: A write of QUIREq_MEMBERS is accepted only while OFF and refused if a rail would join two Quires. -/
  | quireMembersWrite (port : Port) (quire : Fin 16) (hi : Bool) (value : Word)
  /-- STEP_ACTION, R167: A ready ungated step applies its action to the EN latches on the second TCLK edge. -/
  | stepAction (quire : Fin 16) (off : BitVec 64)
  /-- ANGLE_GATE_OPEN, R168: A gated step starts on the first ANG edge with its window open and applies its action. -/
  | angleGateOpen (quire : Fin 16) (off : BitVec 64)
  /-- GATE_TIMEOUT, R168: GATE_TO ms pass without the gate opening and the step starts ungated, raising gate late. -/
  | gateTimeout (quire : Fin 16) (off : BitVec 64)
  /-- SETTLE_END, R170: A step's SETTLE time passes and its SETTLE condition holds. -/
  | settleEnd (quire : Fin 16)
  /-- STEP_COMPLETE, R167: Every selected condition of a step holds, its DONE bit is set and the next step becomes ready. -/
  | stepComplete (quire : Fin 16)
  /-- STEP_TIMEOUT, R171: A step's TIMEOUT expires with a condition open, failing the attempt, skipping a down-step or entering HELD. -/
  | stepTimeout (quire : Fin 16)
  /-- RETRY_OFF_END, R172: RETRY_OFF ms pass after a failed attempt and the step applies its action again. -/
  | retryOffEnd (quire : Fin 16) (off : BitVec 64)
  /-- RAIL_RETRY_OFF_END, R175: A rail retry cycle's RETRY_OFF wait ends and the rail's EN latch turns on again. -/
  | railRetryOffEnd (rail : Fin 64) (off : Bool)
  /-- RAIL_RETRY_TIMEOUT, R175: A rail retry cycle's wait times out, the Quire is shut and rail retry exhausted is raised. -/
  | railRetryTimeout (rail : Fin 64)
  /-- RAIL_RETRY_DONE, R175: A rail retry cycle's PG and window conditions hold and the cycle ends. -/
  | railRetryDone (rail : Fin 64)
  /-- RETRY_BUDGET_REFILL, R176: A rail enabled without a fault for the RETRY_HOLD time returns RUSED to 0. -/
  | retryBudgetRefill (rail : Fin 64)
  /-- QUIRE_SHUT, R177: A shut reaction reaches the sequencer and the Quire starts a down-sequence as SHUTTING. -/
  | quireShut (quire : Fin 16)
  /-- SHUT_ALL, R178: A shut-all reaction shuts every Quire not OFF or HALLMARK on one edge. -/
  | shutAll
  /-- HALLMARK_DOWN_ORDER_START, R180: HOLDUP or a Fatal reaction starts the fused down-order, making every Quire HALLMARK and acting stage 0. -/
  | hallmarkDownOrderStart
  /-- HALLMARK_STAGE_END, R180: A down-order stage's dwell or PG early end passes and the next stage turns its rails off, or the order completes. -/
  | hallmarkStageEnd
  /-- BARRIER_RELEASE_MATCH, R181: The release stamp matches and the waiting step completes. -/
  | barrierReleaseMatch (quire : Fin 16)
  /-- MARG_START, R200: A write of 1 to MARG_CTRL.START starts a margin test on RAIL or is refused. -/
  | margStart (port : Port) (dir : BitVec 2) (rail : Fin 64)
  /-- MARG_ABORT, R216: A write of 1 to MARG_CTRL.ABORT aborts the margin test on RAIL with reason COMMAND. -/
  | margAbort (port : Port) (rail : Fin 64)
  /-- MARGIN_BASELINE_DONE, R201: The baseline average completes, the guard prediction is checked and the code starts to move. -/
  | marginBaselineDone (rail : Fin 64)
  /-- MARGIN_CODE_ARRIVED, R202: The slewing margin code reaches its target and DWELL starts. -/
  | marginCodeArrived (rail : Fin 64)
  /-- MARGIN_DWELL_END, R202: DWELL ms pass and the test starts averaging. -/
  | marginDwellEnd (rail : Fin 64)
  /-- MARGIN_MEASURE_DONE, R202: The margin average completes, DEV is computed and the code returns to 0. -/
  | marginMeasureDone (rail : Fin 64)
  /-- MARGIN_RETURN_DONE, R203: After the return the window is inside and the test runs its next direction or ends. -/
  | marginReturnDone (rail : Fin 64)
  /-- MARGIN_RETURN_TIMEOUT, R203: RET_TO passes without the window inside and the test fails with reason RETURN. -/
  | marginReturnTimeout (rail : Fin 64)
  /-- MRG_COMPLIANCE_LOSS, R195: The MRGn ball stays outside compliance for 10 us and the work on the rail ends. -/
  | mrgComplianceLoss (rail : Fin 64)
  /-- SND_START, R206: A write of 1 to SND_CTRL.START starts a Sounding sweep or is refused. -/
  | sndStart (port : Port)
  /-- SND_STOP, R216: A write of 1 to SND_CTRL.STOP aborts the Sounding. -/
  | sndStop (port : Port)
  /-- SOUNDING_TARGET_MATCH, R206: The absolute start target matches and the sweep begins. -/
  | soundingTargetMatch
  /-- SOUNDING_DC_STEP, R209: A timed part of the DC point ends, averaging baseline, plus or minus step and computing H0. -/
  | soundingDcStep
  /-- SOUNDING_TAP_SAMPLE, R207: A tap sample is delivered to the lock-in and checked against the 4 x SDEV trip. -/
  | soundingTapSample (rail : Fin 64) (raw : BitVec 24) (clip : Bool)
  /-- SOUNDING_SETTLE_END, R210: A point's settle time ends and integration starts. -/
  | soundingSettleEnd
  /-- SOUNDING_POINT_END, R212: A point's integration ends, the response is fitted and judged against SDEV. -/
  | soundingPointEnd (rail : Fin 64)
  /-- MLS_PERIOD_END, R213: An MLS period ends and is discarded, repeated or averaged. -/
  | mlsPeriodEnd (rail : Fin 64)
  /-- SOUNDING_COMPLETE, R215: The sweep completes, results are computed per rail and archiving starts. -/
  | soundingComplete
  /-- SOUNDING_PAUSE_TIMEOUT, R216: A sweep paused on fallback for more than 1 s is aborted. -/
  | soundingPauseTimeout
  /-- ARCHIVE_WRITE_DONE, R218: The trend and full records of a rail are written and ARCHIVED is set, compacting the trend store if full. -/
  | archiveWriteDone
  /-- POLL_ROUND_START, R228: Every PER ms a port starts a poll round of its valid entries, counting late rounds. -/
  | pollRoundStart (pm : Fin 4)
  /-- SMBUS_TRANSACTION_DONE, R227: A port's transaction completes or fails and the next one is taken by class. -/
  | smbusTransactionDone (pm : Fin 4) (result : SmbResult) (data : BitVec 16) (alertLow : Bool)
  /-- SMBUS_RETRY, R233: 50 us of bus idle after a failed transaction and it is repeated. -/
  | smbusRetry (pm : Fin 4)
  /-- SMBUS_TIMEOUT, R222: SCL held low for 30 ms ends the transaction as timed out. -/
  | smbusTimeout (pm : Fin 4) (alertLow : Bool)
  /-- BUS_RECOVERY, R234: A stuck bus is recovered with SCL pulses, and retried every 100 ms while stuck. -/
  | busRecovery (pm : Fin 4) (freed : Bool)
  /-- SMBALERT_ASSERT, R229: A filtered low SMBALERT_N queues an alert service or an extra poll round. -/
  | smbalertAssert (pm : Fin 4)
  /-- SMBALERT_STUCK_CLEAR, R230: SMBALERT_N high for 1 ms resumes alert service and ends the stuck fault. -/
  | smbalertStuckClear (pm : Fin 4)
  /-- LOST_ENTRY_POLL, R235: A lost entry is polled once per second for STATUS_WORD. -/
  | lostEntryPoll (entry : Fin 128)
  /-- PM_XFER_START, R237: A write of 1 to PM_XFER_CTRL.START queues a host transfer or refuses it. -/
  | pmXferStart (port : Port) (value : Word)
  /-- PARTNER_CFG_WRITE, R223: A write of PMPk_CFG is checked and, if accepted, clears LOST, FAILS and the cached VOUT_MODE. -/
  | partnerCfgWrite (port : Port) (entry : Fin 128) (value : Word)
  /-- TALLY_REG_WRITE, R246: A write of Tn_CMP, Tn_INTV or Tn_CFG reaches the Tally on edge A. -/
  | tallyRegWrite (port : Port) (counter : Fin 32) (reg : Fin 3) (value : Word)
  /-- TALLY_WRITE_EFFECT, R246: On edge A + 3 the written value takes effect, setting CMP_PAST when behind the count. -/
  | tallyWriteEffect
  /-- TALLY_MATCH, R247: A counter steps onto or past CMP, MATCH is set and the compare event is delivered. -/
  | tallyMatch (counter : Fin 32)
  /-- TALLY_WRAP, R255: A counter wraps and a linked neighbour receives its carry. -/
  | tallyWrap (counter : Fin 32)
  /-- CAP_EDGE, R252: A CAP input takes a new level and every counter selecting it counts or captures. -/
  | capEdge (cap : Fin 8) (level : Bool)
  /-- TALLY_CAP_READ, R254: A read of Tn_CAP pops the oldest captured value. -/
  | tallyCapRead (port : Port) (counter : Fin 32)
  /-- TALLY_COUNT_READ, R256: A read of Tn_COUNT returns the count after the edge on which the read reaches the Tally. -/
  | tallyCountRead (port : Port) (counter : Fin 32)
  /-- EVT_OUT_PULSE_END, R259: An EVT_OUT pulse of PW + 1 TCLK periods ends. -/
  | evtOutPulseEnd (output : Fin 4)
  /-- FAULT_MESSAGE, R267: The collector takes a fault message, sets sticky and counters, moves the source state and queues a reaction. -/
  | faultMessage (corrupt : Bool)
  /-- COND_CHANGE, R267: A source's condition level falls or rises, moving its state between ACTIVE and QUIET. -/
  | condChange (source : Fin 96)
  /-- QUIET_EXPIRY, R269: A source's quiet period expires and it exits automatically or escalates. -/
  | quietExpiry (source : Fin 96)
  /-- ESCALATION_WINDOW_END, R270: A source's escalation window ends and WCNT returns to 0. -/
  | escalationWindowEnd (source : Fin 96)
  /-- REACTION_DISPATCH, R275: The queued reaction at the head is dispatched in D1 Folio, D2 shadow and D3 action. -/
  | reactionDispatch (upTo : Fin 4)
  /-- SHADOW_EXPIRY, R279: A consequence list's shadow time ends and it closes. -/
  | shadowExpiry (list : Fin 8)
  /-- FLT_CLEAR_WRITE, R271: A write of FLT_CLEAR clears the named sources' states and optionally sticky bits and counters. -/
  | fltClearWrite (port : Port) (value : Word)
  /-- FLT_INJ_GO, R281: A write of FLT_INJ with GO = 1 sends an injected message in factory test mode, or is refused. -/
  | fltInjGo (port : Port) (value : Word)
  /-- RECOVERY_COUNTER_WRITE, R269: Every 24 h with a changed counter the recovery counters are written to the device log. -/
  | recoveryCounterWrite
  /-- TWIN_LINK_HEARTBEAT_SEND, R294: Every 100 us each twin sends a link heartbeat frame. -/
  | twinLinkHeartbeatSend
  /-- TWIN_LINK_DOWN, R294: 500 us without a good frame declares the twin link down and raises the fault. -/
  | twinLinkDown
  /-- TWIN_LINK_RETRAIN, R294: Every 10 ms a down link retrains, and 8 good frames set LINK_UP. -/
  | twinLinkRetrain (frames : Nat)
  /-- LATCH_MIRROR_FRAME, R295: A received EN latch frame is applied to the standby's latches. -/
  | latchMirrorFrame (latches : BitVec 64)
  /-- DYNAMIC_IMAGE, R297: A received dynamic image is applied, repaired if different, and its configuration CRC checked. -/
  | dynamicImage (image : DynImage)
  /-- DYNAMIC_IMAGE_SEND, R295: Every 1 ms the active twin sends its dynamic image. -/
  | dynamicImageSend
  /-- CONFIG_IMAGE, R296: A received configuration image is applied with ratio translation. -/
  | configImage (image : CfgImage)
  /-- CONFIG_IMAGE_SEND, R295: At link up, on change and every 100 ms the active sends its configuration image. -/
  | configImageSend
  /-- MIRROR_STALE, R297: No dynamic image applied for 3 ms clears MIRROR_FRESH. -/
  | mirrorStale
  /-- HANDOVER_FRAME, R304: A received handover frame makes the incoming twin apply the latch image and become ACTIVE. -/
  | handoverFrame (latches : BitVec 64)
  /-- TAKEOVER_FRAME, R304: A received TAKEOVER makes the outgoing twin freeze its latches and send its final image. -/
  | takeoverFrame
  /-- TAKEOVER_WAIT_END, R304: 20 us pass without the final image and the incoming twin continues with its own. -/
  | takeoverWaitEnd
  /-- DRIVING_FRAME, R304: A received DRIVING makes the outgoing twin release ENn and become STANDBY. -/
  | drivingFrame
  /-- DRIVING_TIMEOUT, R304: No DRIVING within 1 ms and the outgoing twin releases anyway. -/
  | drivingTimeout
  /-- HANDOVER_TIMEOUT, R306: No TAKE within HO_TO and the request is withdrawn, acting as shut the Quire. -/
  | handoverTimeout
  /-- TWIN_RING_HEARTBEAT_SEND, R300: Every HB_PER ms a twin sends a ring heartbeat to its Warden. -/
  | twinRingHeartbeatSend
  /-- WARDEN_ACK_TIMEOUT, R311: No acknowledgement for TIMEOUT clears WARDEN_OK and sets FROZEN. -/
  | wardenAckTimeout
  /-- HB_ACK, R311: A received Warden acknowledgement sets WARDEN_OK and clears FROZEN. -/
  | hbAck (port : RingPort) (cell : RingCell)
  /-- TOKEN, R303: A received token is checked and a TAKE or RELINQUISH accepted changes the role. -/
  | token (port : RingPort) (cell : RingCell)
  /-- HEARTBEAT, R301: The Warden receives a twin heartbeat and answers with an acknowledgement. -/
  | heartbeat (port : RingPort) (cell : RingCell)
  /-- WARDEN_JUDGMENT, R301: Every WDN_CFG.HB_PER ms the Warden judges each pair and issues TAKE or RELINQUISH tokens. -/
  | wardenJudgment
  /-- WDN_PAIR_NODES_WRITE, R300: A write of WDN_PAIRk_NODES naming the Warden's own node is refused. -/
  | wdnPairNodesWrite (port : Port) (pair : Fin 8) (value : Word)
  /-- WDN_CFG_WRITE, R300: A write of WDN_CFG.EN = 1 without permission is refused. -/
  | wdnCfgWrite (port : Port) (value : Word)
  /-- SNAP_EDGE, R325: A SNAP edge of the selected kind triggers a Folio. -/
  | snapEdge (level : Bool)
  /-- FOLIO_LATCH, R326: A trigger presented on edge L latches every block's state into a Folio and allocates a buffer. -/
  | folioLatch
  /-- FOLIO_TARGET_MATCH, R328: The armed local or ring-wide target matches, triggers a Folio and disarms. -/
  | folioTargetMatch
  /-- FOLIO_TRIG, R325: A write of 1 to FOLIO_CTRL.TRIG triggers a Folio. -/
  | folioTrig (port : Port)
  /-- FOLIO_CTRL_ARM, R328: A write of 1 to FOLIO_CTRL.ARM arms the absolute target or is refused. -/
  | folioCtrlArm (port : Port)
  /-- FOLIO_DISARM, R328: A write of 1 to FOLIO_CTRL.DISARM disarms the target without a Folio. -/
  | folioDisarm (port : Port)
  /-- FOLIO_CTRL_RELEASE, R330: A write of FOLIO_CTRL.RELEASE frees the named FILLED buffers. -/
  | folioCtrlRelease (port : Port) (buffers : BitVec 4)
  /-- FOLIO_DATA_READ, R332: A read of FOLIO_DATA returns the selected word and advances FOLIO_IDX. -/
  | folioDataRead (port : Port)
  /-- LEDGER_STAGE, R335: A LEDGER buffer is copied into staging or the record is lost, and the buffer becomes FREE. -/
  | ledgerStage
  /-- NVM_PROGRAM_UNIT_DONE, R338: A 64-byte program unit verifies or fails, and the next unit or operation is taken. -/
  | nvmProgramUnitDone (ok : Bool)
  /-- NVM_ERASE_DONE, R341: A page erase completes or fails verify. -/
  | nvmEraseDone (ok : Bool)
  /-- NVM_UNCORRECTABLE_READ, R344: An uncorrectable NVM read raises the fault and invalidates the item read. -/
  | nvmUncorrectableRead (address : BitVec 21)
  /-- DEVICE_LOG_WRITE, R345: A spare-use map or recovery counter entry is appended to the alternating device log. -/
  | deviceLogWrite
  /-- NVM_STORE_WRITE, R346: A write of NVM_STORE CONFIG or CAL starts a STORE or is refused. -/
  | nvmStoreWrite (port : Port) (config cal : Bool)
  /-- LDG_RD_DATA_READ, R354: A read of LDG_RD_DATA returns the selected record word and advances WORD. -/
  | ldgRdDataRead (port : Port)
  /-- LDG_SEC_WRITE, R354: A write of LDG_SEC sets the seconds, clears USEC and marks the clock as written. -/
  | ldgSecWrite (port : Port) (value : Word)
  /-- SPI_STATUS, R357: An SPI STATUS transaction shifts out the port status word. -/
  | spiStatus (mosi : List Byte) (extra : Fin 8)
  /-- SPI_WRITE, R357: An SPI WRITE transaction carries one command packet, presented for acceptance. -/
  | spiWrite (mosi : List Byte) (extra : Fin 8)
  /-- SPI_READ, R359: An SPI READ transaction returns the head item and removes it if read whole. -/
  | spiRead (mosi : List Byte) (extra : Fin 8)
  /-- COMMAND_EXECUTE, R369: A waiting command takes a slot and starts execution in admission order. -/
  | commandExecute
  /-- EPOCH_BOUNDARY, R375: An epoch boundary edge commits staged COHERENT writes, latches the read image and releases AT_EPOCH waits. -/
  | epochBoundary
  /-- DELIVERY_MODE_WRITE, R379: A write changing CMD_Pp_CFG.MODE makes the port refuse new packets until its tags drain. -/
  | deliveryModeWrite (port : Port) (target : Port) (value : Word)
  /-- DELIVERY_MODE_SWITCH, R379: The port's other tags have their final replies and the port switches delivery mode. -/
  | deliveryModeSwitch (port : Port)
  /-- LOCKSTEP_MISMATCH, R380: The cores disagree and the engine restarts, raising the Fatal lock-step fault. -/
  | lockstepMismatch
  /-- ENGINE_WATCHDOG, R380: No watchdog service for 10 ms restarts the engine. -/
  | engineWatchdog
  /-- ENGINE_RESTART_COMPLETE, R381: A restart completes, the patch is checked and each port queues a RESTART notice. -/
  | engineRestartComplete
  /-- STATUS, R392: The STATUS command returns mode, security, debug, role, fault and angle state. -/
  | status (port : Port) (tag : BitVec 7) (params : List Word)
  /-- ECHO, R392: The ECHO command returns its parameter words. -/
  | echo (port : Port) (tag : BitVec 7) (params : List Word)
  /-- COLOPHON_READ, R485: The COLOPHON_READ command returns the 32-word Colophon. -/
  | colophonRead (port : Port) (tag : BitVec 7) (params : List Word)
  /-- REG_READ, R392: The REG_READ command returns up to 64 register values. -/
  | regRead (port : Port) (tag : BitVec 7) (params : List Word)
  /-- REG_READ_BLOCK, R392: The REG_READ_BLOCK command returns N consecutive register values. -/
  | regReadBlock (port : Port) (tag : BitVec 7) (params : List Word)
  /-- REG_WRITE, R393: The REG_WRITE command writes up to 8 registers in parameter order. -/
  | regWrite (port : Port) (tag : BitVec 7) (params : List Word)
  /-- REG_WRITE_LIST, R393: The REG_WRITE_LIST command writes up to 126 registers in parameter order. -/
  | regWriteList (port : Port) (tag : BitVec 7) (params : List Word)
  /-- REG_MODIFY, R393: The REG_MODIFY command applies masked read-modify-writes and returns the results. -/
  | regModify (port : Port) (tag : BitVec 7) (params : List Word)
  /-- REGISTER_WRITE, R2: A write to a register with no behaviour of its own stores or ignores each field by its type. -/
  | registerWrite (port : Port) (address : Nat) (value : Word)
  /-- ENGINE_RESTART, R395: The ENGINE_RESTART command queues OK and restarts the engine 10 us later. -/
  | engineRestart (port : Port) (tag : BitVec 7) (params : List Word)
  /-- RESET, R395: The RESET command queues OK and starts a DEVICE reset 100 us later. -/
  | reset (port : Port) (tag : BitVec 7) (params : List Word)
  /-- MODE_SET, R397: The MODE_SET command performs a permitted commanded mode transition. -/
  | modeSet (port : Port) (tag : BitVec 7) (params : List Word)
  /-- SEQ_START, R398: The SEQ_START command starts the named Quires up or down together or refuses them all. -/
  | seqStart (port : Port) (tag : BitVec 7) (params : List Word)
  /-- QUIRE_RESUME, R396: The QUIRE_RESUME command completes a HELD step without its barrier. -/
  | quireResume (port : Port) (tag : BitVec 7) (params : List Word)
  /-- STORE, R346: The STORE command writes Config and or Calibration copies to NVM. -/
  | store (port : Port) (tag : BitVec 7) (params : List Word)
  /-- IMAGE_WRITE, R400: The IMAGE_WRITE command carries a chunk of a Config image and checks it on the last chunk. -/
  | imageWrite (port : Port) (tag : BitVec 7) (params : List Word)
  /-- PATCH_WRITE, R400: The PATCH_WRITE command carries a chunk of a firmware patch image. -/
  | patchWrite (port : Port) (tag : BitVec 7) (params : List Word)
  /-- FUSE_PROGRAM, R468: The FUSE_PROGRAM command carries a Hallmark image and blows its fuses on the last chunk. -/
  | fuseProgram (port : Port) (tag : BitVec 7) (params : List Word)
  /-- MARGIN_TEST, R200: The MARGIN_TEST command starts a margin test on one rail and replies with its outcome. -/
  | marginTest (port : Port) (tag : BitVec 7) (params : List Word)
  /-- MARGIN_ABORT, R401: The MARGIN_ABORT command aborts the margin test on a rail. -/
  | marginAbort (port : Port) (tag : BitVec 7) (params : List Word)
  /-- SOUNDING_START, R206: The SOUNDING_START command starts a sweep and replies when it ends. -/
  | soundingStart (port : Port) (tag : BitVec 7) (params : List Word)
  /-- SOUNDING_STOP, R401: The SOUNDING_STOP command aborts a running Sounding. -/
  | soundingStop (port : Port) (tag : BitVec 7) (params : List Word)
  /-- SOUNDING_READ, R401: The SOUNDING_READ command returns an archive record by rail, store and index. -/
  | soundingRead (port : Port) (tag : BitVec 7) (params : List Word)
  /-- FAULT_CLEAR, R402: The FAULT_CLEAR command clears fault states and optionally sticky bits and counters. -/
  | faultClear (port : Port) (tag : BitVec 7) (params : List Word)
  /-- FOLIO_TAKE, R402: The FOLIO_TAKE command triggers a Folio and reports its buffer and stamp. -/
  | folioTake (port : Port) (tag : BitVec 7) (params : List Word)
  /-- FOLIO_ARM, R402: The FOLIO_ARM command writes and arms an absolute Folio target. -/
  | folioArm (port : Port) (tag : BitVec 7) (params : List Word)
  /-- FOLIO_READ, R403: The FOLIO_READ command returns words of a Folio buffer from its own position. -/
  | folioRead (port : Port) (tag : BitVec 7) (params : List Word)
  /-- FOLIO_RELEASE, R402: The FOLIO_RELEASE command frees the named FILLED buffers. -/
  | folioRelease (port : Port) (tag : BitVec 7) (params : List Word)
  /-- LEDGER_READ, R402: The LEDGER_READ command returns a Ledger record from a slot or the newest. -/
  | ledgerRead (port : Port) (tag : BitVec 7) (params : List Word)
  /-- SWITCH_BACK, R309: The SWITCH_BACK command makes the Warden hand the pair over to its standby. -/
  | switchBack (port : Port) (tag : BitVec 7) (params : List Word)
  /-- RING_DISCOVER, R418: The RING_DISCOVER command runs discovery from the master. -/
  | ringDiscover (port : Port) (tag : BitVec 7) (params : List Word)
  /-- RING_FOLIO, R432: The RING_FOLIO command arms a ring-wide Folio and broadcasts it. -/
  | ringFolio (port : Port) (tag : BitVec 7) (params : List Word)
  /-- ESCORT_BEGIN, R456: The ESCORT_BEGIN command returns a fresh challenge bound to the port. -/
  | escortBegin (port : Port) (tag : BitVec 7) (params : List Word)
  /-- ESCORT_PROVE, R456: The ESCORT_PROVE command checks the response and opens an Escorted session. -/
  | escortProve (port : Port) (tag : BitVec 7) (params : List Word)
  /-- ESCORT_END, R457: The ESCORT_END command ends the Escorted session. -/
  | escortEnd (port : Port) (tag : BitVec 7) (params : List Word)
  /-- SEAL, R450: The SEAL command blows the seal fuses and makes the device Sealed. -/
  | sealDevice (port : Port) (tag : BitVec 7) (params : List Word)
  /-- RETIRE, R451: The RETIRE command blows the retire and key fuses and makes the device Retired. -/
  | retire (port : Port) (tag : BitVec 7) (params : List Word)
  /-- DEBUG_SET, R459: The DEBUG_SET command changes the debug level, halting or releasing the engine. -/
  | debugSet (port : Port) (tag : BitVec 7) (params : List Word)
  /-- FUSE_BLOW_DONE, R450: Fuse programming of SEAL, RETIRE or FUSE_PROGRAM completes its verification. -/
  | fuseBlowDone (majority : Bool) (weak : Nat)
  /-- SESSION_TIMEOUT, R457: The session timer expires and the Escorted session ends. -/
  | sessionTimeout
  /-- CHALLENGE_EXPIRY, R456: An outstanding challenge expires after 10 s. -/
  | challengeExpiry
  /-- ESCORT_LOCKOUT_END, R458: The lockout after failed proofs runs out and ESCORT_BEGIN is admitted again. -/
  | escortLockoutEnd
  /-- HOLDUP_ENTRY, R446: HU_SENSE detection enters HOLDUP, forcing debug Off, starting the down-order and the NVM hold-up work. -/
  | holdupEntry (blown : Nat)
  /-- HU_POWER_RETURN, R447: HU_SENSE above the return threshold for 10 ms sets HU_PRESENT. -/
  | huPowerReturn
  /-- HOLDUP_EXIT, R447: Down-order, NVM work and power are all complete and the device leaves HOLDUP for QUIESCENT. -/
  | holdupExit
  /-- POR_ASSERT, R475: A supply falls below its POR threshold and power-on reset asserts. -/
  | porAssert
  /-- POR_RELEASE, R477: All watched supplies are up for 2 ms and start-up begins. -/
  | porRelease
  /-- FUSE_READ, R448: The Hallmark fuses are read by majority, the security state derived and Nb drawn. -/
  | fuseRead (weak : BitVec 16) (test : Bool)
  /-- CONFIG_LOAD, R349: Config and Calibration copies are chosen and loaded, ENn starts driving and the first mode is entered. -/
  | configLoad (huLow : Bool)
  /-- RESET_N_ASSERT, R476: RESET_N held low is accepted and a DEVICE reset is taken, or latched in HOLDUP. -/
  | resetNAssert
  /-- DEVICE_RESET_NVM_DONE, R481: The NVM work of a DEVICE reset completes and start-up resumes from step 2. -/
  | deviceResetNvmDone
  /-- RST_WDN_GO, R482: A write of 1 to RST_WDN.GO sends a RESET token to a pair member or is refused. -/
  | rstWdnGo (port : Port) (sideB : Bool) (pair : Fin 8)
  /-- RESET_TOKEN, R482: A received RESET token is checked and starts a DEVICE reset of a standby member. -/
  | resetToken (port : RingPort) (cell : RingCell)
  /-- AUTO_START, R483: The fused auto-start conditions hold and the AUTO Quires start as one SEQ_START. -/
  | autoStart
  /-- RING_PORT_UP, R410: A ring port holds synchronisation for 1 ms and comes up. -/
  | ringPortUp (port : RingPort)
  /-- RING_PORT_DOWN, R410: A ring port goes down, runs its loopback and the node wraps. -/
  | ringPortDown (port : RingPort)
  /-- PORT_LOOPBACK_DONE, R410: A 1 ms loopback completes and a failing port is declared worn, bringing in SPARE. -/
  | portLoopbackDone (port : RingPort) (pass : Bool)
  /-- SPARE_PORT_DAILY_LOOPBACK, R410: Every 24 h an idle SPARE port runs its loopback test. -/
  | sparePortDailyLoopback
  /-- WRAP_END, R435: A port up for 10 ms ends its wrap, and a master with AUTO_DISC runs discovery. -/
  | wrapEnd (port : RingPort)
  /-- ECHO_REQUEST_SEND, R417: Every 100 ms a node sends /Q/ on each port that is up. -/
  | echoRequestSend
  /-- ECHO_REQUEST, R417: A received /Q/ is answered with /P/ giving the turnaround. -/
  | echoRequest (port : RingPort) (token : BitVec 24) (turn : Nat)
  /-- ECHO_REPLY, R417: A received /P/ updates the filtered one-way link delay. -/
  | echoReply (port : RingPort) (low : BitVec 8) (turn trip : Nat)
  /-- MARK_SEND, R420: At each stamp with bits [15:0] zero the master sends /M/ on both ports, and an ANGLE cell after index 0. -/
  | markSend (elapsed : Nat)
  /-- ANGLE_IDLE_SEND, R420: Every 10 ms while RUN is 0 the master sends an ANGLE cell with RUN = 0. -/
  | angleIdleSend
  /-- ANGLE_MARK, R421: A received /M/ is forwarded with added delay and taken as a reference edge by a ring-sourced node. -/
  | angleMark (port : RingPort) (index : Fin 16) (elapsed residence spacing : Nat) (turned : Bool)
  /-- MARK_PATH_SWITCH, R422: No home mark for 1.25 mark periods and the node follows its other RX. -/
  | markPathSwitch
  /-- ANGLE, R421: A received ANGLE cell may set the node's stamp and detects two masters. -/
  | angle (port : RingPort) (cell : RingCell) (age : Nat)
  /-- DISCOVER, R418: A received DISCOVER cell assigns the node's address or announces N, and the node requests admission. -/
  | discover (port : RingPort) (cell : RingCell) (loopPs : Nat)
  /-- DISCOVERY_TIMEOUT, R418: The phase 0 cell does not return within 2 x RING_RTT_MAX and discovery ends. -/
  | discoveryTimeout
  /-- COMMAND, R424: A received COMMAND fragment is reassembled and a complete packet presented for acceptance. -/
  | command (port : RingPort) (cell : RingCell)
  /-- REPLY, R424: A reply is sent in REPLY cells and its tag freed when the last cell is sent. -/
  | reply
  /-- EVENT, R425: An EVENT cell is sent at most every 100 us from a queue of 32. -/
  | event
  /-- TELEMETRY, R426: Every PER ms a granted node latches and publishes 12 registers in a TELEMETRY cell. -/
  | telemetry
  /-- ARRIVAL, R431: The master counts a barrier arrival by key and releases when COUNT reaches EXPECT. -/
  | arrival (port : RingPort) (cell : RingCell)
  /-- ARRIVAL_REPEAT, R430: Every 10 ms a standing arrival is repeated. -/
  | arrivalRepeat (quire : Fin 16)
  /-- RELEASE, R181: A received RELEASE arms the waiting step to complete on the release stamp. -/
  | release (port : RingPort) (cell : RingCell)
  /-- RING_BAR_FORCE, R431: A write of 1 to RING_BARk_CTRL.FORCE releases the barrier with the present count. -/
  | ringBarForce (port : Port) (bar : Fin 4)
  /-- RING_BAR_CLEAR, R431: A write of 1 to RING_BARk_CTRL.CLEAR returns the barrier entry to IDLE. -/
  | ringBarClear (port : Port) (bar : Fin 4)
  /-- RING_BAR_CFG_WRITE, R444: A write of RING_BARk_CFG sets the entry and returns it to IDLE. -/
  | ringBarCfgWrite (port : Port) (bar : Fin 4) (value : Word)
  /-- BARRIER_AUTO_CLEAR, R431: 1 s after the release stamp an AUTO_CLR entry returns to IDLE. -/
  | barrierAutoClear (bar : Fin 4)
  /-- FOLIO, R433: A received FOLIO cell arms a ring-wide target and is acknowledged once. -/
  | folio (port : RingPort) (cell : RingCell)
  /-- FOLIO_ACK, R432: The master counts a FOLIO_ACK outcome. -/
  | folioAck (port : RingPort) (cell : RingCell)
  /-- ADMIT, R429: An ADMIT request is granted by the master, or a grant received by the node. -/
  | admission (port : RingPort) (cell : RingCell)
  /-- MASTER_LOST, R441: 100 ms without a master cell or mark raises the ring master lost fault. -/
  | masterLost
  /-- RING_CELL_FORWARD, R415: A cell not for this node is forwarded cut-through, or stripped, with CRC errors marked /EOFX/. -/
  | ringCellForward (port : RingPort) (cell : RingCell) (good : Bool) (codes : Nat)
  /-- SERDES_PLL_LOCK, R51: The SerDes PLL locks, SERDES_LOCK returns to 1, its loss-of-lock condition ends and the ring ports are enabled. -/
  | serdesPllLock
  /-- LINK_HEARTBEAT_FRAME, R294: A twin receives a good-CRC link heartbeat frame from its peer, restarting the 500 us link-down timer and updating LINK_AGE, PEER_ROLE and PEER_READY. -/
  | linkHeartbeatFrame (role : Fin 4) (ready : Bool) (seq : Word)
  /-- ANGREF_ALT_EDGE, R28: With ALT_FAILOVER set, an edge on ANGREF_ALT is judged against its second gate and counted toward the 8 cycles that allow failover. -/
  | angrefAltEdge (spacing : Nat) (level : Bool) (held : Nat)
  /-- RESET_N_RELEASE, R476: RESET_N rises after an accepted low level and start-up resumes. -/
  | resetNRelease
  /-- ENGINE_START, R477: At step 5 of start-up the engine starts, checks the patch and ENGINE_UP rises. -/
  | engineStart
  /-- COMMANDED_RESET_START, R395: 100 us after the RESET reply is ready, the DEVICE reset is taken, held or dropped by HOLD_CMD. -/
  | commandedResetStart
  /-- COMMANDED_RESTART_START, R395: 10 us after the ENGINE_RESTART reply is ready, the engine restart with cause 0x03 begins. -/
  | commandedRestartStart
  /-- ASSAY_CONVERSION_DUE, R156: A converter that has not converted within half a round period is given its Assay conversion as a non-urgent injection, and its Bench starts no new regular entry. -/
  | assayConversionDue (conv : Fin 10)
  deriving DecidableEq, Repr

end Sys2Proof
end

