-- ==== Sys2Proof/Machine/State.lean ====
section
/-! DEFINITION. The state of the device as plain data. Every register of spec/21_register_index.md lives in
`State.regs`, and nowhere else; what the manual gives the device beyond its registers (queues, phases of
work, measurements kept between events, frames waiting) lives in the parts below, one per chapter. -/

namespace Sys2Proof.Machine

/-! ### Registers -/

/-- Registers by byte address: addresses strictly rising, no entry of value 0. An unlisted register holds 0. -/
abbrev RegStore := List (Nat × Word)

/-! ### Angle and clocks (spec/02_angle_and_clocks.md) -/

/-- An acquisition in progress under R29: whether its first edge has been taken, and the measurement
it works on, in ANG clocks. -/
structure Acq where
  edgeSeen : Bool
  meas     : Option Nat
  deriving DecidableEq, Repr

/-- The angle PLL beside its registers. -/
structure AngleState where
  /-- R21: the 48-bit stamp. -/
  stamp     : Stamp
  /-- R21: the 22-bit fractional accumulator. -/
  frac      : BitVec 22
  /-- The stamp before the last ANG edge (R38). -/
  prev      : Stamp
  /-- R531: the tracked increment, 10.22, without slew. -/
  base      : Nat
  /-- R35: the phase error still to be slewed out, in units of 2^-22 angle unit; positive when the stamp leads. -/
  phaseErr  : Int
  /-- R26: ANG clocks from the last accepted edge to the last taken edge; none before any. -/
  sinceAcc  : Option Nat
  /-- R26: spacing of the last stray, while strays follow one another. -/
  lastStray : Option Nat
  /-- R29: the acquisition in progress. -/
  acq       : Option Acq
  /-- The `ANG_CFG` value in effect; a write takes effect at the next accepted edge. -/
  cfgEff    : Word
  /-- R25: the level taken on the active input, none before any; ANG clocks from its last active edge to its last change. -/
  pin       : Option Bool
  gap       : Nat
  /-- The same of ANGREF_ALT while another input is active. -/
  altPin    : Option Bool
  altGap    : Nat
  /-- R28: consecutive cycles on which ANGREF_ALT delivered a gated edge, up to 8; tracked periods accepted on the active
  input since its last one, and the stamp at that edge. -/
  altGood   : Nat
  altIdle   : Nat
  altAt     : Stamp
  /-- R243: the last active edge of the active input has been accepted. -/
  took      : Bool
  /-- R421: angle units by which the stamp has run on since the edge being taken; 0 but for a mark of the ring. -/
  edgeBack  : Nat
  /-- R46: the fallback measurement that scales the increment; 0 for none. -/
  fbFreq    : Nat
  /-- R48: the sequence of R44 runs. Power-up, which starts on fallback, is none until the engine starts. -/
  relocking : Bool
  deriving DecidableEq, Repr

/-! ### Faults (spec/11_fault_collection.md) -/

/-- A fault message of R262. `cls` is 0 Corrected, 1 Contained, 2 Fatal, 3 Consequential. -/
structure FaultMsg where
  source : Nat
  kind   : Nat
  cls    : Nat
  detail : Nat
  inj    : Bool
  deriving DecidableEq, Repr

/-- A standing fault condition (COND of R262): the instance within its source, and the message the detector
sends again when a host clear finds the condition standing (R271). -/
structure Cond where
  inst : Nat
  msg  : FaultMsg
  deriving DecidableEq, Repr

/-- The actions of R274. -/
inductive FltAction where
  | none
  /-- 0x1, the reaction of R174 on a rail. -/
  | rail (n : Nat)
  /-- 0x2, shut the Quire holding the rail. -/
  | shutQuire (n : Nat)
  /-- 0x3. -/
  | shutAll
  /-- 0x4. -/
  | hallmark
  /-- 0x5; `fatal` for the fused action of a Fatal reaction. -/
  | warden (n : Nat) (fatal : Bool)
  /-- 0x6. -/
  | bench (b : Nat)
  deriving DecidableEq, Repr

/-- A reaction in the queue of R276. `stage` is 0 before D1, 1 after D1, 2 after D2. -/
structure Reaction where
  msg    : FaultMsg
  action : FltAction
  stage  : Nat
  deriving DecidableEq, Repr

/-- The fault collector beside its registers. -/
structure FaultState where
  /-- Messages sent and not yet taken, oldest first (R263). -/
  msgs     : List FaultMsg
  /-- Standing conditions (R262). -/
  conds    : List Cond
  /-- INJ of the message that opened each source's state (R270), by source number. -/
  openInj  : List Nat
  /-- R276: the queue, highest class first, oldest first within a class. -/
  queue    : List Reaction
  /-- R278: reactions of the overrun fault, ahead of the queue and outside its 16 entries. -/
  ahead    : List Reaction
  /-- R273: an episode is open. -/
  episode  : Bool
  deriving DecidableEq, Repr


/-- A ring event message waiting to be sent (R287, R425): the event's number and the stamp at which it arose,
with its LOCKED and HOLDOVER flags. -/
structure EventMsg where
  ev       : Nat
  stamp    : Stamp
  locked   : Bool
  holdover : Bool
  /-- R185: a step done event of a step with a rail under the guard path alone. The manual gives the flag no place in the
  event cell (log entry 96). -/
  guardOnly : Bool
  deriving DecidableEq, Repr

/-! ### Guard path (spec/03_rail_guard.md) -/

/-- Thresholds as the comparators and filters of one rail use them (R59, R61, R63). -/
structure GuardThr where
  ov     : Nat
  uv     : Nat
  hyst   : Nat
  ovFilt : Nat
  uvFilt : Nat
  deriving DecidableEq, Repr, Inhabited

/-- R79: a proof in progress. `stuck`: the raw output was asserted with the fine result 32 or more codes on the safe
side. `sampled`: the sample of step 3 has been taken. -/
structure Proof where
  uv      : Bool
  stuck   : Bool
  sampled : Bool
  deriving DecidableEq, Repr, Inhabited

/-- The guard path of one rail beside its registers. -/
structure GuardRail where
  /-- The differential sense voltage, in nV (a guard step is 390,625 nV). -/
  sense    : Int
  /-- The setting in use by the comparators and filters. -/
  eff      : GuardThr
  /-- R61: the settings whose change-over is running, oldest first. -/
  old      : List GuardThr
  /-- R61: written settings that wait to reach the comparator, oldest first. -/
  thrPend  : List GuardThr
  /-- Filtered outputs of the serving slice. -/
  ownOv    : Bool
  ownUv    : Bool
  /-- R80 steps 3 to 6: filtered outputs of the spare slice that joins. -/
  spOv     : Bool
  spUv     : Bool
  /-- R63, R66: the running counts of those four filters: consecutive edges at which the raw output differs. -/
  cntOv    : Nat
  cntUv    : Nat
  cntSpOv  : Nat
  cntSpUv  : Nat
  /-- R72: PG lost has been raised and its conditions have held since. -/
  pgRaised : Bool
  /-- R79: the proof in progress; the filter of the proved comparator is frozen while there is one. -/
  proof    : Option Proof
  /-- R236: the TCLK edge at which the EN latch last turned on. -/
  onAt     : Nat
  deriving DecidableEq, Repr, Inhabited

/-! ### Fine path (spec/04_rail_fine_path.md) -/

/-- A calibration of a rail or a pool pair (R102). -/
structure CalRun where
  full     : Bool
  /-- The samples to average, as CAL_AVG selected at the start. -/
  count    : Nat
  n        : Nat
  sum      : Int
  lo       : Int
  hi       : Int
  restarts : Nat
  /-- R104: the target code, as a fraction. -/
  targNum  : Nat
  targDen  : Nat
  /-- The averaging has ended: N samples taken, or more than 8 restarts. -/
  ended    : Bool
  /-- R105: the coefficient that waits to commit, after a good range check, with the mean. -/
  commit   : Option (Nat × Int)
  deriving DecidableEq, Repr, Inhabited

/-- A delivered sample (R87). -/
structure FineSample where
  code  : Int
  tag   : Word
  railv : Word
  stamp : Stamp
  deriving DecidableEq, Repr, Inhabited

/-- The fine path of one rail beside its registers. -/
structure FineRail where
  /-- RATE and FIR_EN in effect (R90). -/
  rate      : Nat
  fir       : Bool
  /-- R91: samples still to be marked. -/
  marks     : Nat
  /-- R91: the fine path has restarted and delivered no sample since, and the TCLK count of that boundary. -/
  fresh     : Bool
  freshAt   : Nat
  /-- R90: a restart is scheduled, with the number of samples it marks. -/
  pend      : Option Nat
  /-- R105: written coefficients that wait for the next sample boundary. -/
  offPend   : Option Nat
  gainPend  : Option Nat
  latest    : FineSample
  /-- R79, R89: the latest valid code. -/
  lastValid : Option Int
  seq       : Nat
  /-- R87: CM_ERR and fallback since the last boundary, and in the last output periods of the window, newest first. -/
  cmNow     : Bool
  fbNow     : Bool
  cmHist    : List Bool
  fbHist    : List Bool
  /-- R92: the modulator is overloaded; `true` for a negative input. -/
  ovl       : Option Bool
  /-- R95: consecutive valid samples inside and outside the window. -/
  inCount   : Nat
  outCount  : Nat
  /-- R97: the latch has turned on and no valid sample has followed yet. -/
  slopeArm  : Bool
  /-- R98: the stream of valid codes, newest first, and the consecutive judgments out of limits. -/
  stream    : List Int
  slopeBad  : Nat
  /-- R99: the running block. -/
  ripN      : Nat
  ripLo     : Int
  ripHi     : Int
  ripDirty  : Bool
  /-- R102: the calibration that runs. -/
  cal       : Option CalRun
  /-- R108: a substitution outage: 0 none, 1 until the spare slice serves (step 7), 2 until its first valid sample. -/
  outage    : Nat
  /-- R108: the worn slice's offset, gain and CAL_STATE, in use for its samples until step 7. -/
  worn      : Option (Int × Nat × Nat)
  deriving DecidableEq, Repr, Inhabited

/-! ### Pool converters and Benches (spec/05_converter_benches.md) -/

/-- What a converter works on. -/
inductive PcKind where
  /-- Entry `k` of a Bench's regular or injected sequence. -/
  | entry (bench : Nat) (inj : Bool) (k : Nat)
  /-- An Assay conversion of the assay node (R148). -/
  | node
  /-- An Assay check of a rail over the crossing bus (R152), and its repeat in a rail triage (R153). -/
  | railCheck (rail : Nat)
  | recheck (rail : Nat)
  /-- The assay node in a converter triage (R150). -/
  | triage
  /-- VREF_B or VREF_C in a reference record or triage (R145, R146). -/
  | ref (c : Bool)
  /-- The pool calibration (R140). -/
  | cal
  deriving DecidableEq, Repr

/-- A conversion at work. Its settings and coefficients are those of its start (R118). -/
structure PcWork where
  kind  : PcKind
  input : Nat
  rail  : Nat
  gain  : Nat
  fir   : Bool
  avg   : Bool
  show' : Bool
  /-- S of R119. -/
  total : Nat
  /-- Samples still to be marked, and valid samples still to come. -/
  marks : Nat
  left  : Nat
  /-- The converter factors in use, offset and gain, by converter. -/
  facs  : List (Int × Nat)
  offset : Int
  coef   : Nat
  /-- Sum of the valid codes, and of u in units of 2^-22 code. -/
  sum   : Int
  usum  : Int
  clip  : Bool
  cm    : Bool
  fb    : Bool
  hold  : Bool
  fbNow  : Bool
  fbHist : List Bool
  /-- R152: the TCLK counts at which the valid samples begin and end. -/
  t0     : Nat
  t1     : Nat
  deriving DecidableEq, Repr

/-- A pool converter beside its registers. -/
structure PoolConv where
  work : Option PcWork
  /-- R148: the converter has still to convert the assay node in this round. -/
  need : Bool
  /-- R156: its conversion is due as a non-urgent injection. -/
  due  : Bool
  /-- R149: its result of this round, u in units of 2^-22 code. -/
  u    : Option Int
  /-- R149: its miss count. -/
  miss : Nat
  deriving DecidableEq, Repr, Inhabited

/-- R130: a trigger delay that counts: to a count of TCLK edges, or to a stamp (R39). -/
inductive TrigDelay where
  | tclk (due : Nat)
  | angle (target : Stamp)
  deriving DecidableEq, Repr

/-- A Bench beside its registers. -/
structure BenchState where
  /-- R130: a regular, an injected delay that counts. -/
  regDelay : Option TrigDelay
  injDelay : Option TrigDelay
  /-- R37: the stamp at which the angle target of a trigger was armed, or matched last. -/
  regFrom  : Stamp
  injFrom  : Stamp
  /-- R128: a pass (in STEP, an entry) runs; its entries not yet started, and the next entry of STEP, from FIRST. -/
  passOn   : Bool
  todo     : List Nat
  stepNext : Nat
  /-- The injected sequence runs; its entries not yet started. -/
  injOn    : Bool
  injTodo  : List Nat
  /-- R143: the regular pass count. -/
  passCnt  : Nat
  deriving DecidableEq, Repr, Inhabited

/-- A pool calibration at work (R140); its run counts u in units of 2^-22 code. -/
structure PoolCal where
  bench : Nat
  conv  : Nat
  gain  : Nat
  aux   : Nat
  run   : CalRun
  /-- The marked samples of its start are over. -/
  live  : Bool
  deriving DecidableEq, Repr

/-- The pool beside its registers. -/
structure PoolState where
  conv    : Vector PoolConv 10
  bench   : Vector BenchState 8
  /-- R126: the entry of the interleaved Bench of 8. -/
  pipe    : Option PcWork
  cal     : Option PoolCal
  /-- R129: the levels taken on PWM_SYNC0 to PWM_SYNC3. -/
  pwm     : BitVec 4
  /-- R122: by result register, the tag (at its address), the Bench and the stamp of the write that made its value. -/
  latches : List (Nat × Nat × Word × Stamp)
  deriving DecidableEq, Repr

/-! ### Assay (spec/06_assay.md) -/

/-- A triage that waits or runs. Readings of a rail check: the converter's four codes summed, and the fine samples in
its window, as sum and number. -/
inductive Triage where
  | reference
  /-- A converter, with the round that completed the count. -/
  | converter (n round : Nat)
  | rail (n conv : Nat) (pool fineSum : Int) (fineCnt : Nat)
  | spare (k : Nat)
  deriving DecidableEq, Repr

/-- Assay conversions that wait for their converters, which start together. -/
structure AssayJob where
  convs : List Nat
  kind  : PcKind
  gain  : Nat
  deriving DecidableEq, Repr

/-- R152: a rail check at work: the rail's valid fine samples since its start, as input instant in 1/125 TCLK period, code
and raw code; then the TCLK counts of its valid-sample window and its four codes summed. -/
structure RailCheck where
  rail : Nat
  conv : Nat
  seen : List (Int × Int × Int)
  done : Option (Nat × Nat × Int)
  deriving DecidableEq, Repr

/-- R145, R146: a record or a triage of the references at work: VREF_C is powered; the conversions are asked for; the
readings of VREF_B and VREF_C. -/
structure RefRun where
  triage : Bool
  asked  : Bool
  b      : Option Nat
  c      : Option Nat
  deriving DecidableEq, Repr

/-- The Assay beside its registers. -/
structure AssayState where
  /-- R144: consecutive reference misses. -/
  refMiss   : Nat
  /-- R145, R147: a record has been taken; a record is due. -/
  recorded  : Bool
  recordDue : Bool
  /-- R145, R146: the record or triage of the references at work. -/
  ref       : Option RefRun
  /-- R148: a round is in progress. -/
  roundOn   : Bool
  /-- R156: conversions that wait for a converter, but for those of the round. -/
  jobs      : List AssayJob
  /-- R152: rail checks that are not yet judged. -/
  checks    : List RailCheck
  /-- R152: the position whose converter makes the next check. -/
  nextPos   : Nat
  /-- R152: miss counts of the rails, and the converter that made each rail's last check. -/
  railMiss  : Vector Nat 64
  railConv  : Vector Nat 64
  /-- R154: consecutive misses of the spare slices; rounds since their last checks; the checks due. -/
  spareMiss : Vector Nat 8
  sparePer  : Nat
  spareDue  : BitVec 8
  /-- R149: medians of u of the last rounds 1 and 2, twice the sum of four, in units of 2^-22 code. -/
  median0   : Option Int
  median1   : Option Int
  triage    : Option Triage
  waiting   : List Triage
  /-- R150, R153: the converters of the triage that runs, and the sums of four they have delivered. -/
  group     : List Nat
  got       : List (Nat × Int)
  deriving DecidableEq, Repr

/-! ### The Quire sequencer (spec/07_quires.md) -/

/-- What a Quire's running step is doing (R167, R172, R181). -/
inductive QPhase where
  /-- No step runs. -/
  | idle
  /-- Waiting for the angle gate. -/
  | gate
  /-- Ready: the action reaches the latches on the next edge. -/
  | action
  /-- The action is applied; the conditions are waited for. -/
  | wait
  /-- The arrival at the barrier stands, with the release stamp once it is received. -/
  | bar (release : Option Stamp)
  /-- RETRY_OFF counts. -/
  | retryOff
  deriving DecidableEq, Repr, Inhabited

/-- A Quire beside its registers. -/
structure QuireState where
  phase     : QPhase
  settled   : Bool
  /-- R171: TCLK periods since the action. -/
  elapsed   : Nat
  /-- R188: a slope error held during Halt, on these rails. -/
  slopeHeld : BitVec 64
  deriving DecidableEq, Repr, Inhabited

/-- R175: where a rail's retry cycle stands. -/
inductive RailCycle where
  | none
  | off
  | waiting
  deriving DecidableEq, Repr, Inhabited

/-- What the sequencer keeps of a rail. -/
structure RailSeq where
  /-- The Quire and up-step that enabled it. -/
  enabler : Option (Nat × Nat)
  /-- R169: valid samples since the action, and consecutive ones below the discharge level. -/
  valids  : Nat
  lows    : Nat
  pgHeld  : Bool
  winHeld : Bool
  cycle   : RailCycle
  /-- R175: the same of its retry cycle, which runs beside a step that may name the rail too: valid samples since the rail
  was turned on again, and whether PG and WIN have held since. -/
  cycleValids : Nat
  cyclePg     : Bool
  cycleWin    : Bool
  deriving DecidableEq, Repr, Inhabited

/-- An order of the fault reaction logic to the sequencer (R275). -/
inductive SeqOrder where
  | shut (q : Nat)
  | shutAll
  | hallmark
  deriving DecidableEq, Repr

/-- The sequencer beside its registers. -/
structure SeqState where
  quire    : Vector QuireState 16
  rail     : Vector RailSeq 64
  inbox    : List SeqOrder
  /-- R181: barrier arrivals to be sent to the ring master. -/
  arrivals : List Nat
  /-- R188: the shutdown order at Halt: the Quires concerned and the stage reached. -/
  haltOff  : Option (Nat × Nat)
  /-- R180 items 4 and 5: the last stage of the down-order has ended, and the next TCLK edge makes every Quire OFF. -/
  hmLast   : Bool
  /-- R18: a sequence ran to its end since the modes were last judged. -/
  ran      : Bool
  /-- R306: rails whose reaction waits for a handover. -/
  hoRails  : List Nat
  deriving DecidableEq, Repr

/-! ### Margining and Sounding (spec/08_margin_sounding.md) -/

/-- Where a margin test stands (R202, R205). -/
inductive MargPhase where
  /-- R205: the partner is read. -/
  | preflight
  | baseline
  /-- The code moves, or the partner's OPERATION is being written. -/
  | stepping
  | dwell
  | measuring
  /-- The code returns, or OPERATION is being written back. -/
  | returning
  /-- The window is waited for. -/
  | window
  deriving DecidableEq, Repr

/-- A margin test. -/
structure MargTest where
  pmbus   : Bool
  /-- R200, R197: the codes and the range of DEV as the test was accepted with them: `MARGn_LEVEL` and `MARGn_EXPECT`. -/
  hiCode  : Int
  loCode  : Int
  maxDev  : Nat
  minDev  : Nat
  /-- The directions still to run, `true` for high; the first one runs. -/
  dirs    : List Bool
  phase   : MargPhase
  n       : Nat
  sum     : Int
  base    : Int
  /-- R205: what the preflight has read: OPERATION, VOUT_COMMAND, VOUT_MARGIN_HIGH, VOUT_MARGIN_LOW. -/
  oper    : Nat
  vcmd    : Nat
  vhi     : Nat
  vlo     : Nat
  /-- R205: OPERATION has been written with a margin value. -/
  stepped : Bool
  devHi   : Int
  devLo   : Int
  /-- R203: a direction missed its range. -/
  missed  : Bool
  /-- The outcome is recorded; only the return is left. -/
  ended   : Bool
  /-- R196: the return moves at 16 codes per µs. -/
  forced  : Bool
  /-- R216: a return write is sent once, without retry. -/
  once    : Bool
  deriving DecidableEq, Repr

/-- The margin output of one rail beside its registers. `acc` is the part of a code already slewed, in 1/1024 code. `watch`:
R205: the baseline of a test whose return write failed; the deviation cap keeps watching until the window is inside. -/
structure MargRail where
  test  : Option MargTest
  acc   : Nat
  watch : Option Int
  deriving DecidableEq, Repr, Inhabited

/-- R210: the sums of the least-squares fit over the accepted tap samples: sine and cosine of the stimulus phase in units of
2^-30, tap codes as they are. -/
structure FitSums where
  n  : Nat
  s  : Int
  c  : Int
  ss : Int
  sc : Int
  cc : Int
  x  : Int
  xs : Int
  xc : Int
  xx : Int
  deriving DecidableEq, Repr, Inhabited

/-- A point of a sweep on one rail. -/
structure SndPoint where
  k      : Nat
  /-- The increment of the phase accumulator (R208). -/
  inc    : Nat
  a      : Int
  b      : Int
  sigma  : Nat
  amp    : Nat
  halv   : Nat
  valid  : Bool
  capped : Bool
  near   : Bool
  hold   : Bool
  short  : Bool
  deriving DecidableEq, Repr

/-- A rail in a sweep. Means are held as sum and number of codes. -/
structure SndRail where
  rail   : Nat
  /-- The rail has left the sweep as aborted. -/
  left   : Bool
  /-- The code toward which the stimulus moves the output (R196). -/
  code   : Int
  /-- The applied amplitude, and the halvings of this point. -/
  amp    : Nat
  halv   : Nat
  /-- The amplitude of the DC point. -/
  dcAmp  : Nat
  dcDone : Bool
  base   : Int × Nat
  plus   : Int × Nat
  minus  : Int × Nat
  /-- R207: tap samples still to be marked. -/
  marks  : Nat
  /-- The last 5 ms of tap samples, newest first; none for one that is not valid. -/
  taps   : List (Option Int)
  /-- R211: accepted and all samples of the integration. -/
  accN   : Nat
  totN   : Nat
  holdN  : Bool
  /-- R210: what the lock-in has summed of the integration. -/
  fit    : FitSums
  /-- R213: the period's tap samples, each with the chip at its input instant, and the response at each plan frequency that
  every averaged period gave. -/
  mlsX   : List (Nat × Int)
  mlsH   : List (List (Int × Int))
  /-- R213: the discarded period has shown a deviation above SDEV; the periods ended. -/
  devSeen : Bool
  period : Nat
  mlsCap : Bool
  /-- The rail has run this point, and whether it is finished with it. -/
  ran    : Bool
  done   : Bool
  /-- A point, or the DC point, was capped, or ran at a halved amplitude. -/
  capped : Bool
  reduced : Bool
  pts    : List SndPoint
  deriving DecidableEq, Repr, Inhabited

/-- The part of the sweep that runs. -/
inductive SndPart where
  | target
  | base
  | plus
  | minus
  | settle (k : Nat)
  | integ (k : Nat)
  | mls
  /-- Every point has run. -/
  | complete
  deriving DecidableEq, Repr

/-- A Sounding (R206). -/
structure Sounding where
  rails     : List SndRail
  part      : SndPart
  /-- R216: what pauses the sweep. -/
  pausedFb   : Bool
  pausedHalt : Bool
  /-- The flag PAUSED of R220. -/
  wasPaused : Bool
  start     : Stamp
  tag       : Nat
  /-- R197, R206: `SND_AMP` and `SND_FREQ` as the start was accepted with them. -/
  ampWord   : Nat
  freqWord  : Nat
  /-- R208: the 32-bit phase accumulator, and the TCLK periods since its last update. -/
  phase     : Nat
  div       : Nat
  /-- R213: the state of the sequence's register, the chip within the period, and the TCLK periods since the chip began. -/
  lfsr      : Nat
  chip      : Nat
  chipT     : Nat
  deriving DecidableEq, Repr

/-- The Sounding archive of a rail (R217): trend records in the order of their positions, full records newest first,
and the sweep sequence number. Records are their words. -/
structure SndArchive where
  trend : List (List Word)
  full  : List (List Word)
  seq   : Nat
  deriving DecidableEq, Repr, Inhabited

/-- Margining and Sounding beside their registers. -/
structure MargState where
  rail     : Vector MargRail 64
  snd      : Option Sounding
  archive  : Vector SndArchive 64
  /-- R218: records waiting to be written: rail, trend record, full record. -/
  arcQueue : List (Nat × List Word × List Word)
  /-- R18, R397: margin, Sounding or calibration work has started in this SERVICE period. -/
  svcWork  : Bool
  deriving DecidableEq, Repr

/-! ### Regulator ports (spec/09_regulator_ports.md) -/

/-- A transaction. `cls` is the class of R227: 0 margin return, 1 margin preflight and step, 2 alert, 3 host, 4 poll.
`kind` is KIND of `PM_XFER_CTRL`, or 5 for an alert response read. `once`: sent without retry (R233). -/
structure PmTrans where
  cls   : Nat
  entry : Nat
  kind  : Nat
  code  : Nat
  data  : Nat
  /-- The rail whose margin test it serves. -/
  rail  : Nat
  once  : Bool
  deriving DecidableEq, Repr, Inhabited

/-- R226: how a transaction stands on the bus: the address called, the PAGE written ahead of the access, whether PEC is carried,
and the SCL periods that the two take, start, stop and bus free time included. -/
structure BusAccess where
  addr    : Nat
  page    : Option Nat
  pec     : Bool
  periods : Nat
  deriving DecidableEq, Repr

/-- A port beside its registers. -/
structure PmPort where
  /-- The transaction that runs, its retries used, and whether it waits for its 50 µs of bus idle (R233). -/
  run        : Option PmTrans
  bus        : Option BusAccess
  tries      : Nat
  retryWait  : Bool
  /-- R234: the last recovery failed, and nothing starts. -/
  blocked    : Bool
  /-- Waiting margin transactions, and the host transfer. -/
  margin     : List PmTrans
  host       : Option PmTrans
  /-- R229: an alert service is queued; entries whose STATUS_WORD the running one still reads. -/
  alertPend  : Bool
  alertReads : List Nat
  /-- R229: the low level of SMBALERT_N has had its extra round. -/
  extraRan   : Bool
  /-- R230: alert reads in a row without acknowledgement, services in a row that left the line low. -/
  noAck      : Nat
  services   : Nat
  /-- R228: a round is in progress, the next is due; entries not yet polled of the round, of an extra round, and of the
  lost ones. -/
  roundOn    : Bool
  due        : Bool
  round      : List Nat
  extra      : List Nat
  lostQ      : List Nat
  /-- The poll in progress: entry, codes still to read. -/
  cur        : Option (Nat × List Nat)
  /-- R225: entries, by number within the port, whose VOUT_MODE the next poll reads first. -/
  needMode   : BitVec 32
  /-- The TCLK edge at which the round started. -/
  started    : Nat
  /-- R239: the entry whose partner fault a read has ended last, and the TCLK edge of that read. -/
  faultEnd   : Option (Nat × Nat)
  deriving DecidableEq, Repr, Inhabited

/-! ### Tally (spec/10_tally.md) -/

/-- A write on its way to the Tally (R246). -/
structure TallyWrite where
  n     : Nat
  /-- 0 `Tn_CMP`, 1 `Tn_INTV`, 2 `Tn_CFG`. -/
  which : Nat
  value : Word
  /-- TCLK edges to the effect edge. -/
  left  : Nat
  deriving DecidableEq, Repr

/-- The Tally beside its registers. -/
structure TallyState where
  /-- R255: counters that wrapped on the last TCLK edge. -/
  carry  : BitVec 32
  /-- R243: the CAP edge that the next TCLK edge shows, as input and level; an accepted reference edge since the last one. -/
  cap    : Option (Nat × Bool)
  refEdge : Bool
  writes : List TallyWrite
  /-- R254: the capture queues, oldest first. -/
  caps   : Vector (List Nat) 32
  /-- R252: the levels taken on CAP0 to CAP7. -/
  level  : BitVec 8
  /-- R244: angle units by which the stamp has advanced since the last TCLK edge. -/
  adv    : Nat
  /-- R259: EVT_OUTk is active; TCLK periods left of its pulse. -/
  out    : BitVec 4
  width  : Vector Nat 4
  deriving DecidableEq, Repr

/-! ### Spare capacity (spec/12_twins_spares.md R313 to R320, spec/03_rail_guard.md R80) -/

/-- A slice substitution in progress: the spare, its step of R80, and the coefficients it took at step 1 (R109). -/
structure Subst where
  rail   : Nat
  spare  : Nat
  step   : Nat
  deriving DecidableEq, Repr

/-- The spare control beside its registers. -/
structure SpareState where
  /-- R314: rails whose slice waits for a substitution; `some` comparator for one declared under R79. -/
  slices    : List (Nat × Option Bool)
  /-- R314: worn converters that wait. -/
  convs     : List Nat
  sub       : Option Subst
  /-- The spare-use map of R320: worn rail slices, guard-only rails, worn converters, role of VREF_C, worn references. -/
  wornRails : BitVec 64
  guardOnly : BitVec 64
  wornConvs : BitVec 10
  vrefRole  : Nat
  vrefWorn  : BitVec 3
  /-- R410: worn ring ports, EAST, WEST, SPARE. -/
  wornPorts : BitVec 3
  /-- R314: spare slices that missed their last check. -/
  lastBad   : BitVec 8
  /-- R318: rows with a corrected error, with the TCLK edge of the last; rows declared worn. -/
  sramErr   : List (Nat × Nat)
  sramWorn  : List Nat
  /-- R320: the map has changed since it was last written. -/
  mapPend   : Bool
  /-- R317: TCLK edges for which every guard filter is still frozen after a move of VREF_A's users to VREF_C. -/
  moved     : Nat
  deriving DecidableEq, Repr

/-! ### Twins and the Warden (spec/12_twins_spares.md R290 to R312) -/

/-- A frame of the twin link (R294). -/
inductive TwinFrame where
  | heartbeat (role : Nat) (ready engineDown : Bool) (seq : Nat)
  | latches (l : BitVec 64)
  | quire (q : Nat) (m : QuireMirror)
  | dynamic (d : DynImage)
  | config (c : CfgImage)
  | configRequest
  | handover (l : BitVec 64)
  | takeover
  | driving
  deriving DecidableEq, Repr

/-- Where a role change of R304 stands on this twin. -/
inductive RoleChange where
  | none
  /-- TAKEOVER has been sent; the final image is awaited. `reconcile`: R307. -/
  | incoming (reconcile : Bool)
  /-- The latches are frozen and the final image has been sent; DRIVING is awaited. -/
  | outgoing
  deriving DecidableEq, Repr

/-- The twin logic beside its registers. -/
structure TwinState where
  /-- Frames to be sent, oldest first, and the frame last put on TWTX. -/
  tx       : List TwinFrame
  line     : Option TwinFrame
  /-- R294: consecutive good frames since the link went down or last retrained. -/
  good     : Nat
  /-- TCLK edges since the last good frame. -/
  ageTicks : Nat
  /-- TWIN_TOKEN.SEQ of the peer, from the link. -/
  peerSeq  : Nat
  change   : RoleChange
  /-- R304 step 1: requests to turn a latch on are dropped. -/
  frozen   : Bool
  /-- R297: CRC-32 of the configuration image last applied, and the one that the dynamic image applied within the last 3 ms
  carried. -/
  cfgCrc   : Option Nat
  dynCrc   : Option Nat
  /-- R298: consecutive dynamic images out of tolerance, by rail. -/
  diverged : Vector Nat 64
  /-- R308: pending margin returns of the active twin: partner, rail, OPERATION. -/
  returns  : List (Nat × Nat × Nat)
  /-- R473 and R477: the configuration load has enabled TWROLE and ENn. -/
  loaded   : Bool
  deriving DecidableEq, Repr

/-- The latest heartbeat of a twin, as its Warden keeps it (R300). -/
structure WdnBeat where
  /-- R301: judgments in a row that have passed without a heartbeat; one has arrived since the last judgment. -/
  miss     : Nat
  came     : Bool
  seen     : Bool
  role     : Nat
  ready    : Bool
  linkUp   : Bool
  hoReq    : Bool
  peerRole : Nat
  linkAge  : Nat
  map      : BitVec 64
  deriving DecidableEq, Repr, Inhabited

/-- A served pair beside its registers. `last`: the side of the last TAKE, `true` for TWIN_B. -/
structure WdnPair where
  a        : WdnBeat
  b        : WdnBeat
  /-- R301: judgments in a row at which only the side that is not preferred was READY. -/
  wait     : Nat
  last     : Option Bool
  /-- The side to RELINQUISH once the other shows ACTIVE. -/
  owed     : Option Bool
  /-- R309: a `SWITCH_BACK` waits. -/
  back     : Bool
  /-- Consecutive heartbeats with differing rail maps. -/
  differ   : Nat
  deriving DecidableEq, Repr, Inhabited

/-! ### Folio, Ledger and NVM (spec/13_folio_ledger_nvm.md) -/

/-- A Folio whose episode or hold-up record is still to be copied into staging (R330, R335). -/
structure FolioCopy where
  buf   : Nat
  words : List Word
  msg   : Option FaultMsg
  stamp : Stamp
  deriving DecidableEq, Repr

/-- The Folio logic beside its registers. -/
structure FreshResult where
  /-- The TCLK edge of the delivery, and the result registers' words of a Folio, by word number, as they were before it. -/
  at'   : Nat
  words : List (Nat × Word)
  deriving DecidableEq, Repr

/-- The Folio logic beside its registers. -/
structure FolioState where
  /-- R325: triggers presented and not yet latched, as mask bits. -/
  trig    : Nat
  /-- R329: the ID of a ring-wide trigger among them. -/
  trigId  : Nat
  /-- R273: the message and stamp of an episode opening among them. -/
  trigMsg : Option (FaultMsg × Stamp)
  /-- The level taken on SNAP. -/
  snap    : Bool
  /-- R328: the armed target. -/
  target  : Stamp
  /-- R330: the words of the buffers, and when each latched. -/
  buf     : Vector (List Word) 4
  age     : Vector Nat 4
  latches : Nat
  copies  : List FolioCopy
  /-- R327: fine and pool results delivered within the last 2 TCLK periods. -/
  fresh   : List FreshResult
  deriving DecidableEq, Repr

/-- A Ledger record on its way to NVM: the Folio's words and what R336 takes from elsewhere. -/
structure LdgEntry where
  words  : List Word
  msg    : Option FaultMsg
  stamp  : Stamp
  secSet : Bool
  holdup : Bool
  /-- R338: written again after a program failure. -/
  again  : Bool
  /-- R335: a record was lost before this one was begun. -/
  lost   : Bool
  deriving DecidableEq, Repr

/-- A copy of R347: its sequence and its entries, as address word and value. -/
structure NvmCopy where
  valid   : Bool
  seq     : Nat
  entries : List (Word × Word)
  deriving DecidableEq, Repr, Inhabited

/-- What a job of the NVM controller writes. -/
inductive NvmJob where
  /-- The record at the head of staging. -/
  | record
  /-- A spare-use map, recovery counters: the bytes of their slots (R345). -/
  | logMap (bytes : List Nat)
  | logCnt (bytes : List Nat)
  /-- R346: the copies of a `STORE`: 0 Config A, 1 Config B, 2 Calibration A, 3 Calibration B. -/
  | store (parts : List (Nat × NvmCopy))
  /-- R400: a chunk of a Config image, the last one with the copy it completes; a chunk of a patch. -/
  | image (last : Option (Nat × NvmCopy))
  | patch
  /-- R337: a Ledger slot is erased. -/
  | erase (slot : Nat)
  deriving DecidableEq, Repr

/-- A job in progress: pages still to be erased, program units still to be made, and whether the present unit has
failed once (R338). -/
structure NvmOp where
  job    : NvmJob
  erases : Nat
  units  : Nat
  retry  : Bool
  deriving DecidableEq, Repr

/-- The NVM and its controller beside their registers. -/
structure NvmState where
  /-- The configuration load has made the NVM ready for records. -/
  ready    : Bool
  /-- R335: the staging area. -/
  stage    : List LdgEntry
  lostFlag : Bool
  ops      : List NvmOp
  /-- R337: slots that hold a record, rising, and slots whose page is neither erased nor a record. -/
  slots    : List (Nat × List Word)
  junk     : List Nat
  /-- R343: sectors remapped, sectors retired. -/
  remaps   : List Nat
  retired  : List Nat
  /-- R346: Config A, Config B, Calibration A, Calibration B. -/
  copies   : Vector NvmCopy 4
  /-- R345: device logs A and B: the entries with their places, in units of 128 bytes from page 16 of the region, oldest first;
  the write positions; log B is the next to be written. -/
  log      : Vector (List (Nat × List Nat)) 2
  logPos   : Vector Nat 2
  logB     : Bool
  /-- R269: a recovery counter has changed; its write is due. -/
  cntDirty : Bool
  cntPend  : Bool
  /-- Ticks of the second that LDG_SEC counts; LDG_SEC has been written since power-on. -/
  secTicks : Nat
  secSet   : Bool
  /-- R400: the transfer of a Config image and of a patch image: bytes so far, the next offset, the copy it writes. -/
  image    : Option (List Nat × Nat × Nat)
  patchIn  : Option (List Nat × Nat × Nat)
  /-- The firmware patch held: its bytes. -/
  patch    : List Nat
  /-- R338: the present program unit of the Sounding archive has failed once. -/
  arcRetry : Bool
  /-- R342: whose program unit is in progress, and completes before another operation is taken: the archive's, or a job's. -/
  unit     : Option (Option NvmJob)
  deriving DecidableEq, Repr

/-! ### The command engine (spec/14_command_engine.md) -/

/-- Where an admitted command stands (R368 to R375). -/
inductive CmdPhase where
  /-- In the wait line of a COHERENT port, without a slot. -/
  | waiting
  /-- In a slot, not yet executed. -/
  | slotted
  /-- Executed on a COHERENT port at TCLK edge `doneAt`; its writes and actions wait for the boundary. -/
  | staged (doneAt : Nat)
  /-- A class C command at work. -/
  | running
  /-- R382: abandoned by a restart in progress; its tag is held until the restart completes. -/
  | abandoned
  deriving DecidableEq, Repr

/-- An accepted command. -/
structure Cmd where
  port     : Port
  tag      : Nat
  opcode   : Nat
  params   : List Word
  /-- R362: the sequence number and the key of its authentication block. -/
  auth     : Option (Nat × List Byte)
  /-- R378: the epoch it names. -/
  atEpoch  : Option Nat
  /-- The TCLK edge of acceptance. -/
  accepted : Nat
  /-- R372: a suspension has overlapped it: 0 none, 1 fallback, 2 Halt. -/
  susp     : Nat
  /-- R370, R406: its bound, in TCLK periods. -/
  bound    : Nat
  phase    : CmdPhase
  deriving DecidableEq, Repr

/-- A reply or notice in an output queue, laid out under R363 and R364. -/
structure OutItem where
  notice    : Bool
  final     : Bool
  susp      : Bool
  late      : Bool
  holdover  : Bool
  epochTime : Bool
  tag       : Nat
  /-- The opcode, or the notice type. -/
  opcode    : Nat
  status    : Nat
  epoch     : Nat
  time      : Nat
  results   : List Word
  auth      : Option (Nat × List Byte)
  deriving DecidableEq, Repr

/-- A read image of R376: the boundary's number and every register as it stood. -/
structure Image where
  number : Nat
  regs   : RegStore
  deriving DecidableEq, Repr

/-- The engine beside its registers. -/
structure EngineState where
  /-- Admitted commands, in admission order. -/
  cmds        : List Cmd
  /-- R359: the output queues of port 0 and port 1. -/
  outHost     : List OutItem
  outRing     : List OutItem
  /-- R358: the previous SPI transaction was a framing error. -/
  frameErr    : Bool
  /-- R357: the bytes shifted out on SPI_MISO in the last transaction. -/
  miso        : List Byte
  /-- R376: the images held, newest first, at most two. -/
  images      : List Image
  /-- R380: the cause of the restart in progress. -/
  restart     : Option Nat
  /-- R395: an ENGINE_RESTART or a RESET has queued its reply and not yet acted. -/
  restartPend : Bool
  resetPend   : Bool
  /-- R373, R483: TCLK at the configuration load, from which time boundaries and AUTO_DELAY count, and the count at the last
  boundary. -/
  epochT0     : Nat
  epochs      : Nat
  /-- R374: bits [45:14] of the stamp at the last boundary. -/
  angLast     : Nat
  /-- R363: the last boundary was one of time. -/
  byTime      : Bool
  deriving DecidableEq, Repr

/-! ### The Hexip ring (spec/16_hexip_ring.md) -/

/-- What a ring port sends in a slot or a gap (R411). -/
inductive RingItem where
  /-- A cell, closed by /EOF/ or, where `good` is `false`, by /EOFX/. -/
  | cell (c : RingCell) (good : Bool)
  | mark (index elapsed : Nat)
  | echoReq (token : Nat)
  | echoRep (token turn : Nat)
  deriving DecidableEq, Repr

/-- A ring side beside its registers. -/
structure RingSide where
  /-- R412, R414: own items to be sent, by class. -/
  tx     : List RingItem
  /-- What TX carried last. -/
  line   : Option RingItem
  /-- R417: the token of the echo request under way; the last measurements, in 1/6,144 ps,
  newest first. -/
  token  : Option Nat
  delays : List Int
  deriving DecidableEq, Repr, Inhabited

/-- A node's request for admission, as the master keeps it (R429): heartbeat and publication cells per second, and what
is granted. -/
structure RingReq where
  addr  : Nat
  hb    : Nat
  pub   : Nat
  hbOk  : Bool
  pubOk : Bool
  deriving DecidableEq, Repr

/-- A barrier entry beside its registers: the keys counted, `true` for a pair ID. -/
structure RingBar where
  keys : List (Bool × Nat)
  hold : Bool
  deriving DecidableEq, Repr, Inhabited

/-- The ring block beside its registers. -/
structure RingState where
  /-- Index 0 EAST, 1 WEST. -/
  side    : Vector RingSide 2
  /-- R410: a loopback runs on EAST, WEST, SPARE. -/
  loop    : BitVec 3
  /-- R410: CRC and code errors in the running second, by port; a second has an error (source 83). -/
  errs    : Vector Nat 3
  /-- R437: SerDes locked and the ports enabled; TXDIS by port. -/
  txdis   : BitVec 3
  seq     : Nat
  /-- R416: broadcasts, RELEASE and TOKEN cells taken, as source and sequence, newest first, at most 16. -/
  taken   : List (Nat × Nat)
  /-- N of the last discovery. -/
  nodes   : Nat
  /-- R422: consecutive home marks while the other path is followed. -/
  homeRun : Nat
  /-- R421: the acquisition has locked, and no ANGLE cell with RUN = 1 has set the stamp since. -/
  needSet : Bool
  /-- R418: discovery: the phase under way, and the eastbound loop, in ps. -/
  disc    : Option (Nat × Nat)
  reqs    : List RingReq
  bar     : Vector RingBar 4
  /-- R432: the nodes asked, and the target. -/
  rfAsked  : Nat
  rfTarget : Stamp
  /-- R433: ID and target of the armed, and of the last latched ring-wide Folio. -/
  folioArmed : Option (Nat × Stamp)
  folioLast  : Option (Nat × Stamp)
  /-- R424: a packet being put together: the sequence and index due next, its length, the bytes so far. -/
  asm     : Option (Nat × Nat × Nat × List Byte)
  /-- R426: the publication count. -/
  pubs    : Nat
  /-- R423: this device yielded to another master. -/
  yielded : Bool
  deriving DecidableEq, Repr

/-! ### Modes, security and fuses (spec/17_modes_security_debug.md) -/

/-- What fuse programming is under way (R450, R451, R468). -/
inductive FuseJob where
  | seal
  | retire
  | program
  deriving DecidableEq, Repr

/-- The states of a column of the TAP controller of IEEE 1149.1 (R470, R520). -/
inductive TapStep where
  | select
  | capture
  | shift
  | exit1
  | pause
  | exit2
  | update
  deriving DecidableEq, Repr

/-- The TAP controller: Test-Logic-Reset, Run-Test/Idle, and the columns of the instruction register and of the data
registers. -/
inductive TapState where
  | reset
  | idle
  | ir (k : TapStep)
  | dr (k : TapStep)
  deriving DecidableEq, Repr

/-- The instructions of the JTAG port (R470). -/
inductive TapInstr where
  | bypass
  | idcode
  | sample
  | extest
  | clamp
  | highz
  /-- R460: a private instruction. -/
  | priv (k : Nat)
  deriving DecidableEq, Repr

/-- The JTAG port. Registers are lists of bits, the one nearest TDO first. -/
structure TapPort where
  /-- TRST_N is low. -/
  held  : Bool
  state : TapState
  instr : TapInstr
  ir    : List Bool
  /-- The shift stages of the data register that the instruction selects. -/
  dr    : List Bool
  /-- The update stages of the boundary register. -/
  latch : List Bool
  /-- TDO; none: high impedance. -/
  tdo   : Option Bool
  deriving DecidableEq, Repr

/-- The Hallmark fuses, by majority, and what is kept of the security state. -/
structure SecState where
  /-- The bytes of the programmed Hallmark image; empty while none is (R467). -/
  image    : List Nat
  hmValid  : Bool
  hmFail   : Bool
  sealed   : Bool
  retired  : Bool
  /-- FACTORY_OPEN is intact. -/
  open'    : Bool
  /-- R452: the key fuses are blown by RETIRE. -/
  keyBlown : Bool
  /-- R453: the command key in force, the boot key, the session key. -/
  key      : List Nat
  kb       : List Nat
  ks       : List Nat
  /-- R455: last accepted sequences: Kb by port, Ks. -/
  kbSeq    : Vector Nat 2
  ksSeq    : Nat
  /-- R456: the outstanding challenge and its port. -/
  chal     : Option (Port × List Nat)
  job      : Option FuseJob
  /-- R468: the transfer of a Hallmark image: bytes so far, the next offset. -/
  imageIn  : Option (List Nat × Nat × Nat)
  /-- TCLK edges of the running second of REMAIN and LOCKOUT. -/
  ticks    : Nat
  /-- R397: AUTO_RETURN of the last `MODE_SET` to SERVICE; a return to GUARD waits for the work to end. -/
  autoRet  : Bool
  toGuard  : Bool
  /-- R470, R520: the JTAG port. -/
  tap      : TapPort
  deriving DecidableEq, Repr

/-! ### Start-up and reset (spec/18_startup_reset.md) -/

/-- Where start-up stands (R477). -/
inductive StartPhase where
  /-- POR is asserted. -/
  | por
  /-- A DEVICE reset waits for its down-order and its NVM work (R479, R481). -/
  | work
  /-- The next is step 2, the fuse read. -/
  | fuses
  /-- The next are steps 3 and 4. -/
  | load
  /-- The next is step 5. -/
  | engine
  | up
  deriving DecidableEq, Repr

/-- The reset logic beside its registers. -/
structure ResetState where
  phase   : StartPhase
  /-- R474: the reset under way: held (R480), or a POWER reset. -/
  held    : Bool
  power   : Bool
  /-- R476: RESET_N has been accepted low and has not risen. -/
  low     : Bool
  /-- R476: a low level accepted in HOLDUP. -/
  latched : Bool
  /-- R532: a hold-up detection during start-up. -/
  holdDet : Bool
  deriving DecidableEq, Repr

/-- Why the machine stops with a fault. -/
inductive Fault where
  /-- No meaning of this model raises it: the manual stops the device for no command (log entry 4). -/
  | none
  deriving DecidableEq, Repr

/-- Why the model refuses a command. -/
inductive Refusal where
  /-- The command has no meaning yet. Safe: the model stops where the device goes on. -/
  | notModelled (mnemonic : String)
  deriving DecidableEq, Repr

/-- The registers whose power-on reset value is not 0 (R5): CLK_STATUS.FALLBACK 1; POOL_CAL_IDX.CAL_AVG 0b10 and
OSR 0b101; BENCH_MAP 0x7654_3210; RING_STATUS.ADDR 0xFFFF; TWIN_STATUS.ROLE and PEER_ROLE 0b11;
SEC_STATE.MODE 0b110. -/
def resetRegs : RegStore :=
  [(0x0408, 0x00000002#32), (0x1A88, 0x00025000#32), (0x1C04, 0x76543210#32), (0x6808, 0xFFFF0000#32),
   (0x7010, 0xC0600000#32), (0x7800, 0xC0000000#32)]

/-- The whole machine. -/
structure State where
  /-- The commands that are waiting, first in, first out. -/
  pending : List Instr
  /-- Every register (spec/21_register_index.md). -/
  regs : RegStore
  /-- Per command port, the read latches of R24, R88 and R122, by register address. -/
  portLatch : Vector RegStore 2
  /-- The model's own: the number of free values drawn so far (log entry 3). -/
  freeCount : Nat
  /-- TCLK edges counted since reset. -/
  tclk : Nat
  /-- The phase of TCLK: 2,048 for each ANG edge since the last TCLK edge, in units of 1/f of the ANG frequency f as
`angRate` counts it (log entry 6). -/
  angPhase : Nat
  /-- spec/02_angle_and_clocks.md. -/
  ang : AngleState
  /-- spec/11_fault_collection.md. -/
  flt : FaultState
  /-- R287, R425: ring event messages queued. -/
  evq : List EventMsg
  /-- spec/03_rail_guard.md, per rail. -/
  guard : Vector GuardRail 64
  /-- spec/14_command_engine.md. -/
  eng : EngineState
  /-- spec/04_rail_fine_path.md, per rail. -/
  fine : Vector FineRail 64
  /-- spec/05_converter_benches.md. -/
  pool : PoolState
  /-- spec/06_assay.md. -/
  assay : AssayState
  /-- spec/12_twins_spares.md, spare capacity. -/
  spare : SpareState
  /-- spec/07_quires.md. -/
  seq : SeqState
  /-- spec/09_regulator_ports.md, per port. -/
  pm : Vector PmPort 4
  /-- spec/08_margin_sounding.md. -/
  marg : MargState
  /-- spec/13_folio_ledger_nvm.md, Folio. -/
  folio : FolioState
  /-- spec/13_folio_ledger_nvm.md, NVM and Ledger. -/
  nvm : NvmState
  /-- spec/10_tally.md. -/
  tally : TallyState
  /-- The word that the last register read on each command port returned. -/
  readOut : Vector Word 2
  /-- spec/12_twins_spares.md, twins. -/
  twin : TwinState
  /-- spec/12_twins_spares.md, the pairs a Warden serves. -/
  wdn : Vector WdnPair 8
  /-- spec/16_hexip_ring.md. -/
  ring : RingState
  /-- spec/17_modes_security_debug.md. -/
  sec : SecState
  /-- spec/18_startup_reset.md. -/
  rst : ResetState
  deriving DecidableEq, Repr

/-- The machine right after power-on reset: every register at the value the manual gives, memory and queues
empty, nothing loaded. -/
def State.reset : State where
  pending := []
  regs := resetRegs
  portLatch := Vector.replicate 2 []
  freeCount := 0
  tclk := 0
  angPhase := 0
  ang := ⟨0, 0, 0, 0, 0, none, none, none, 0, none, 0, none, 0, 0, 0, 0, false, 0, 0, false⟩
  flt := ⟨[], [], [], [], [], false⟩
  evq := []
  guard := Vector.replicate 64 default
  eng := ⟨[], [], [], false, [], [], none, false, false, 0, 0, 0, true⟩
  fine := Vector.replicate 64 default
  pool := ⟨Vector.replicate 10 default, Vector.replicate 8 default, none, none, 0, []⟩
  assay := ⟨0, false, false, none, false, [], [], 0, Vector.replicate 64 0, Vector.replicate 64 15, Vector.replicate 8 0, 0, 0,
    none, none, none, [], [], []⟩
  spare := ⟨[], [], none, 0, 0, 0, 0, 0, 0, 0, [], [], false, 0⟩
  seq := ⟨Vector.replicate 16 default, Vector.replicate 64 default, [], [], none, false, false, []⟩
  pm := Vector.replicate 4 default
  marg := ⟨Vector.replicate 64 default, none, Vector.replicate 64 default, [], false⟩
  folio := ⟨0, 0, none, false, 0, Vector.replicate 4 [], Vector.replicate 4 0, 0, [], []⟩
  nvm := ⟨false, [], false, [], [], [], [], [], Vector.replicate 4 default, Vector.replicate 2 [], Vector.replicate 2 0, false,
    false, false, 0, false, none, none, [], false, none⟩
  tally := ⟨0, none, false, [], Vector.replicate 32 [], 0, 0, 0, Vector.replicate 4 0⟩
  readOut := Vector.replicate 2 0
  twin := ⟨[], none, 0, 0, 0, .none, false, none, none, Vector.replicate 64 0, [], false⟩
  wdn := Vector.replicate 8 default
  ring := ⟨Vector.replicate 2 default, 0, Vector.replicate 3 0, 7, 0, [], 0, 0, false, none, [], Vector.replicate 4 default, 0, 0, none, none, none, 0, false⟩
  sec := ⟨[], false, false, false, false, true, false, [], [], [], Vector.replicate 2 0, 0, none, none, none, 0, false, false,
    ⟨false, .reset, .idcode, [], [], [], none⟩⟩
  rst := ⟨.por, false, true, false, false, false⟩

end Sys2Proof.Machine
end

