-- ==== Sys2Proof/Machine/Ops.lean ====
section
/-! DEFINITION. The named operations over registers, events, fault messages and stamps that every meaning uses. -/

namespace Sys2Proof.Machine

/-! ### The register store -/

/-- The word at an address; an unlisted address holds 0. -/
def storeGet : RegStore → Nat → Nat
  | [], _ => 0
  | (a, w) :: rest, x => if a = x then w.toNat else storeGet rest x

/-- Enters a word that is not 0, keeping the addresses rising. -/
def storeInsert : RegStore → Nat → Word → RegStore
  | [], x, v => [(x, v)]
  | (a, w) :: rest, x, v =>
    if x < a then (x, v) :: (a, w) :: rest
    else if a = x then (x, v) :: rest
    else (a, w) :: storeInsert rest x v

/-- Writes the word at an address, keeping the addresses rising and listing no entry of value 0. -/
def storeSet (st : RegStore) (x v : Nat) : RegStore :=
  if v % 4294967296 = 0 then st.filter (fun e => e.1 != x) else storeInsert st x (BitVec.ofNat 32 v)

/-- The canonical form of a register store: addresses strictly rising, no entry of value 0. -/
def storeWf : RegStore → Bool
  | [] => true
  | [(_, w)] => w != 0
  | (a, w) :: (b, v) :: rest => w != 0 && decide (a < b) && storeWf ((b, v) :: rest)

/-- The value a field has inside a register word. -/
def Field.extract (f : Field) (w : Nat) : Nat := w / 2 ^ f.lo % 2 ^ f.width

/-- A register word with a field replaced; the value is taken modulo the field's width. -/
def Field.insert (f : Field) (w v : Nat) : Nat :=
  w / 2 ^ (f.lo + f.width) * 2 ^ (f.lo + f.width) + v % 2 ^ f.width * 2 ^ f.lo + w % 2 ^ f.lo

/-- The largest value of a field. -/
def Field.max (f : Field) : Nat := 2 ^ f.width - 1

def State.reg (s : State) (a : Nat) : Nat := storeGet s.regs a

def State.setReg (s : State) (a v : Nat) : State := { s with regs := storeSet s.regs a v }

/-- A field's stored value. -/
def State.get (s : State) (f : Field) : Nat := f.extract (s.reg f.addr)

/-- Whether a field is not 0. -/
def State.flag (s : State) (f : Field) : Bool := s.get f != 0

def State.put (s : State) (f : Field) (v : Nat) : State := s.setReg f.addr (f.insert (s.reg f.addr) v)

def State.putB (s : State) (f : Field) (b : Bool) : State := s.put f (if b then 1 else 0)

/-- Adds to a counter field that saturates at its largest value. -/
def State.addSat (s : State) (f : Field) (n : Nat := 1) : State := s.put f (min (s.get f + n) f.max)

/-- Adds to a counter field that wraps. -/
def State.addWrap (s : State) (f : Field) (n : Nat := 1) : State := s.put f (s.get f + n)

/-- Runs a change of state only when a condition holds. -/
def State.when (s : State) (c : Bool) (f : State → State) : State := if c then f s else s

/-- R6: a two's complement field as an integer. -/
def toSigned (width v : Nat) : Int := if v < 2 ^ (width - 1) then (v : Int) else (v : Int) - 2 ^ width

/-- An integer as a two's complement field. -/
def ofSigned (width : Nat) (i : Int) : Nat := (i % (2 : Int) ^ width).toNat

/-- A signed field's stored value. -/
def State.getS (s : State) (f : Field) : Int := toSigned f.width (s.get f)

def State.putS (s : State) (f : Field) (i : Int) : State := s.put f (ofSigned f.width i)

/-- Limits an integer to a range. -/
def clampInt (lo hi i : Int) : Int := max lo (min hi i)

/-- Division rounded to the nearest, a tie upward; denominator positive. -/
def divNear (a : Int) (b : Nat) : Int := (2 * a + b) / (2 * (b : Int))

/-- Whether bit `b` of a number is 1. -/
def bitOf (v b : Nat) : Bool := v / 2 ^ b % 2 == 1

/-! ### Vectors and lists by number -/

/-- The entry at `i`, or the default when there is none. -/
def vget {α : Type} {n : Nat} [Inhabited α] (v : Vector α n) (i : Nat) : α := v.toList.getD i default

/-- The vector with the entry at `i` changed; unchanged when there is none. -/
def vmod {α : Type} {n : Nat} (v : Vector α n) (i : Nat) (f : α → α) : Vector α n :=
  if h : i < n then v.set i (f v[i]) else v

/-- The numbers below `n`, rising. -/
def below (n : Nat) : List Nat := List.range n

/-- A change of state made for each number of a list, in order. -/
def State.forEach (s : State) (l : List Nat) (f : State → Nat → State) : State := l.foldl f s

/-- The bits of two 32-bit halves as one set of 64 rails. -/
def rails64 (lo hi : Nat) : Nat := lo % 2 ^ 32 + 2 ^ 32 * (hi % 2 ^ 32)

/-- The rails of a set of 64. -/
def railList (m : Nat) : List Nat := (below 64).filter (bitOf m)

/-! ### Modes (R17), as SEC_STATE.MODE encodes them -/

def mCommission := 0
def mRamp := 1
def mGuard := 2
def mService := 3
def mHoldup := 4
def mQuiescent := 5
def mStartup := 6

def State.mode (s : State) : Nat := s.get F.SEC_STATE_MODE

/-! ### Free values -/

/-- Takes the next number of the counter that free values are drawn with. -/
def State.drawn (s : State) (n : Nat := 1) : State := { s with freeCount := s.freeCount + n }

/-- A quotient rounded to the nearest; a tie goes the way `Config.tieUp` says (log entry 5). -/
def State.rounded (s : State) (num : Int) (den : Nat) : State × Int :=
  if den ≠ 0 ∧ 2 * (num % (den : Int)) = den then
    (s.drawn, num / den + (if Config.tieUp s.freeCount then 1 else 0))
  else (s, divNear num den)

/-- A quotient in a coarser unit, where the manual names no rounding: exact when it is whole, else the whole number
below or above it, as `Config.tieUp` says (log entry 5). -/
def State.approx (s : State) (num : Int) (den : Nat) : State × Int :=
  if den ≠ 0 ∧ num % (den : Int) ≠ 0 then
    (s.drawn, num / den + (if Config.tieUp s.freeCount then 1 else 0))
  else (s, num / den)

/-- A value the manual leaves unstated: `w` bits of a fresh free word. -/
def State.unstated (s : State) (w : Nat) : State × Nat :=
  (s.drawn, (Config.unstated s.freeCount).toNat % 2 ^ w)

/-! ### Events (spec/11_fault_collection.md R285 to R287) -/

def State.modAng (s : State) (f : AngleState → AngleState) : State := { s with ang := f s.ang }
def State.modFlt (s : State) (f : FaultState → FaultState) : State := { s with flt := f s.flt }

/-- The field of an event's status bit. -/
def evtStatus (n : Nat) : Field := ⟨R.EVT_Gg_STATUS (n / 32), n % 32, 1⟩
def evtEn (n : Nat) : Field := ⟨R.EVT_Gg_EN (n / 32), n % 32, 1⟩
def evtRouteRing (n : Nat) : Field := ⟨R.EVT_Gg_ROUTE_RING (n / 32), n % 32, 1⟩

/-- R530: LOCKED and HOLDOVER as a stamp carries them. -/
def State.locked (s : State) : Bool := s.flag F.ANG_STATUS_LOCKED
def State.holdover (s : State) : Bool := s.flag F.ANG_STATUS_HOLDOVER

/-- R262, R267: a detector sends a fault message. -/
def State.send (s : State) (m : FaultMsg) : State := s.modFlt fun f => { f with msgs := f.msgs ++ [m] }

/-- R287: an event that turned from 0 to 1 with EN and ROUTE_RING sends one message to the ring queue. R419, R452: a
node without an address, or Retired, neither queues nor counts it. R425: at
most 32 are queued; a message that finds the queue full is dropped and counted, with source 88 and the queue drop
event EV231, which has no room for a message of its own. -/
def State.ringEvent (s : State) (n : Nat) (guardOnly : Bool := false) : State :=
  if s.get F.RING_STATUS_ADDR = 0xFFFF ∨ s.get F.SEC_STATE_SECURITY = 3 then s
  else if s.evq.length < 32 then
    { s with evq := s.evq ++ [⟨n, s.ang.stamp, s.locked, s.holdover, guardOnly⟩] }
  else
    let s := s.addSat F.RING_EVQ_DROPPED
    let s := s.put F.RING_EVT_EVQ_DROP 1
    let s := s.put (evtStatus 231) 1
    let m : FaultMsg := ⟨88, 0, 0, s.get F.RING_EVQ_DROPPED, false⟩
    let s := s.modFlt fun f =>
      if f.conds.any (fun c => c.msg.source == 88) then f else { f with conds := f.conds ++ [⟨0, m⟩] }
    s.send m

/-- R286: an event arises. Its status bit sets whatever its enable; on a bit already 1 nothing changes. -/
def State.event (s : State) (n : Nat) (guardOnly : Bool := false) : State :=
  if s.flag (evtStatus n) then s
  else
    let s := s.put (evtStatus n) 1
    if s.flag (evtEn n) && s.flag (evtRouteRing n) then s.ringEvent n guardOnly else s

/-- A block's own W1C bit sets, and its event arises (R285). -/
def State.evtBit (s : State) (f : Field) (n : Nat) : State := (s.put f 1).event n

/-! ### Fault conditions (spec/11_fault_collection.md R262, R271) -/

/-- Whether the condition of one instance of a source stands. -/
def State.condStands (s : State) (src inst : Nat) : Bool :=
  s.flt.conds.any fun c => c.msg.source == src && c.inst == inst

/-- R262: whether any instance of the source holds its condition level at 1. -/
def State.condLevel (s : State) (src : Nat) : Bool := s.flt.conds.any fun c => c.msg.source == src

/-- A detector raises its fault: one message, with the condition standing from the raise. -/
def State.raise (s : State) (src kind cls inst detail : Nat) : State :=
  let m : FaultMsg := ⟨src, kind, cls, detail, false⟩
  let s := s.modFlt fun f =>
    { f with conds := f.conds.filter (fun c => !(c.msg.source == src && c.inst == inst)) ++ [⟨inst, m⟩] }
  s.send m

/-- A detector raises its fault unless the condition of that instance already stands. -/
def State.raiseOnce (s : State) (src kind cls inst detail : Nat) : State :=
  if s.condStands src inst then s else s.raise src kind cls inst detail

/-- A fault whose condition ends at once: the message alone. -/
def State.raiseMomentary (s : State) (src kind cls detail : Nat) : State := s.send ⟨src, kind, cls, detail, false⟩

/-- A condition ends. -/
def State.endCond (s : State) (src inst : Nat) : State :=
  s.modFlt fun f => { f with conds := f.conds.filter fun c => !(c.msg.source == src && c.inst == inst) }

/-- The conditions of a list of instances end. -/
def State.endConds (s : State) (src : Nat) (insts : List Nat) : State :=
  s.modFlt fun f => { f with conds := f.conds.filter fun c => !(c.msg.source == src && insts.contains c.inst) }

/-- Every condition of a source ends. -/
def State.endSource (s : State) (src : Nat) : State :=
  s.modFlt fun f => { f with conds := f.conds.filter fun c => c.msg.source != src }

/-! ### Stamps (spec/02_angle_and_clocks.md R24, R36 to R38) -/

/-- R23: the stamp runs, so that angle matches can fire. -/
def State.angRun (s : State) : Bool := s.flag F.ANG_STATUS_RUN

/-- R36: an absolute target has matched: `(S - T) mod 2^48 < 2^47`. -/
def stampReached (now target : Stamp) : Bool := (now - target).toNat < 2 ^ 47

/-- The angle within the cycle. -/
def angleOf (t : Stamp) : Nat := t.toNat % 2 ^ 20

/-- R38: an angle window [O, C] is open at an angle. -/
def windowOpen (o c a : Nat) : Bool := if o ≤ c then o ≤ a && a ≤ c else o ≤ a || a ≤ c

/-- R38: the last ANG edge reached or passed angle `o`. -/
def angPassed (s : State) (o : Nat) : Bool :=
  decide ((o + 2 ^ 20 - 1 - angleOf s.ang.prev) % 2 ^ 20 < (s.ang.stamp - s.ang.prev).toNat)

/-- R38: a window is open on the present ANG edge: by its angle, or because the edge reaches or passes O. -/
def windowNow (s : State) (o c : Nat) : Bool := windowOpen o c (angleOf s.ang.stamp) || angPassed s o

/-- R37: the first stamp after `since` at angle `a`: the next match of a per-cycle target armed, or matched, at `since`. -/
def nextAngle (since : Stamp) (a : Nat) : Stamp :=
  since + BitVec.ofNat 48 ((a + 2 ^ 20 - 1 - angleOf since) % 2 ^ 20 + 1)

/-- R37: a per-cycle target armed, or last matched, at `since` has been reached or passed. -/
def angleReached (s : State) (since : Stamp) (a : Nat) : Bool := s.angRun && stampReached s.ang.stamp (nextAngle since a)

def stampHi (t : Stamp) : Nat := t.toNat / 2 ^ 32
def stampLo (t : Stamp) : Nat := t.toNat % 2 ^ 32
def stampOf (hi lo : Nat) : Stamp := BitVec.ofNat 48 (hi % 2 ^ 16 * 2 ^ 32 + lo % 2 ^ 32)

/-- R243: the source of a Tally counter: 0 TCLK, 1 angle, 2 reference edges, 3 CAP edge, 4 neighbour overflow. -/
def tSource (s : State) (n : Nat) : Nat :=
  match s.get (F.Tn_CFG_SRC n) with
  | 1 => 1 | 2 => 2 | 3 => 3 | 4 => if n = 0 then 0 else 4 | _ => 0

/-! ### Words behind index registers, at addresses of the model's own above the register map (log entry 7) -/

/-- Word `w` of step `i` of Quire `q` (spec/07_quires.md). -/
def R.quireStep (q i w : Nat) : Nat := 0x10000 + ((q * 32 + i) * 8 + w) * 4

/-- The pool calibration pair of a gain and an AUX input: offset, gain, state (R142). -/
def R.poolPair (gain aux w : Nat) : Nat := 0x14000 + ((gain * 32 + aux) * 4 + w) * 4

/-- The Assay's slice factors: gain, offset (R155). -/
def R.sliceFactor (slice w : Nat) : Nat := 0x15000 + (slice * 2 + w) * 4

/-- What `SND_SEL` shows of a rail (spec/08_margin_sounding.md). -/
def R.sndSum (rail w : Nat) : Nat := 0x18000 + (rail * 8 + w) * 4
def R.sndRes (rail pt w : Nat) : Nat := 0x20000 + ((rail * 32 + pt) * 4 + w) * 4

/-- Stage `k` of the Hallmark down-order: LO, HI, CFG (spec/17_modes_security_debug.md, HM_ORDER_IDX). -/
def R.hmStage (k w : Nat) : Nat := 0x16000 + (k * 4 + w) * 4

/-- The caps of a rail as `MARG_CAP` shows them (spec/08_margin_sounding.md R197). -/
def R.margCap (rail : Nat) : Nat := 0x17000 + rail * 4

def F.pairOffset (gain aux : Nat) : Field := ⟨R.poolPair gain aux 0, 0, 24⟩
def F.pairGain (gain aux : Nat) : Field := ⟨R.poolPair gain aux 1, 0, 24⟩
def F.pairState (gain aux : Nat) : Field := ⟨R.poolPair gain aux 2, 4, 2⟩
def F.sfGain (slice : Nat) : Field := ⟨R.sliceFactor slice 0, 0, 24⟩
def F.sfOffset (slice : Nat) : Field := ⟨R.sliceFactor slice 1, 0, 24⟩

/-! ### Results that cross into a Folio (spec/13_folio_ledger_nvm.md R327) -/

/-- A result is delivered: `words` are the words of a Folio that show it, as they were before. A result older than 2 TCLK periods
has crossed. -/
def State.delivers (s : State) (words : List (Nat × Word)) : State :=
  let same (r : FreshResult) : Bool := r.words.map (·.1) == words.map (·.1)
  { s with folio := { s.folio with
      fresh := s.folio.fresh.filter (fun r => decide (s.tclk < r.at' + 2) && !same r) ++ [⟨s.tclk, words⟩] } }

/-! ### Ports -/

def portIdx : Port → Nat
  | .host => 0
  | .ring => 1

/-- A value held in a port's read latch. -/
def State.latched (s : State) (p : Port) (a : Nat) : Nat :=
  storeGet (match p with | .host => s.portLatch[0] | .ring => s.portLatch[1]) a

def State.latch (s : State) (p : Port) (a v : Nat) : State :=
  { s with portLatch := vmod s.portLatch (portIdx p) (fun r => storeSet r a v) }

/-- A register read on a port returns a word. -/
def State.readBack (s : State) (p : Port) (v : Nat) : State :=
  { s with readOut := vmod s.readOut (portIdx p) (fun _ => BitVec.ofNat 32 v) }

/-! ### Registers by address -/

/-- The index of an address within an array of registers. -/
def indexIn (a base stride count : Nat) : Option Nat :=
  if a < base then none
  else
    let d := a - base
    if stride = 0 then (if d = 0 then some 0 else none)
    else if d % stride = 0 ∧ d / stride < count then some (d / stride) else none

/-- Whether an address is one of a register array's. -/
def RegDef.covers (d : RegDef) (a : Nat) : Bool :=
  (below d.n2).any fun j => (indexIn a (d.base + d.s2 * j) d.s1 d.n1).isSome

/-- The register at an address; none where no register stands. -/
def regDefAt (a : Nat) : Option RegDef := regDefs.find? (fun d => d.covers a)

end Sys2Proof.Machine
end

