-- ==== Sys2Proof/Machine/Guard.lean ====
section
/-! DEFINITION. Rail sense inputs and the guard path (spec/03_rail_guard.md R53 to R78): comparators, glitch
filters, arming, power good, and the EN latches. -/

namespace Sys2Proof.Machine

def State.gr (s : State) (n : Nat) : GuardRail := vget s.guard n

def State.fr (s : State) (n : Nat) : FineRail := vget s.fine n

def State.modFine (s : State) (n : Nat) (f : FineRail → FineRail) : State := { s with fine := vmod s.fine n f }

def State.modGuard (s : State) (n : Nat) (f : GuardRail → GuardRail) : State := { s with guard := vmod s.guard n f }

/-- A rail is supervised (R68). -/
def railUse (s : State) (n : Nat) : Bool := s.flag (F.RAILn_GUARD_CFG_USE n)

/-- The EN latch of a rail. -/
def enLatch (s : State) (n : Nat) : Bool := s.flag (F.RAILn_GUARD_STATUS_EN_LATCH n)

/-- The set of rails whose EN latch is on. -/
def enabledRails (s : State) : List Nat := (below 64).filter (enLatch s)

/-! ### Comparators (R59 to R62) -/

/-- R60: the effective OV code. -/
def ovEff (s : State) (n : Nat) : Nat :=
  min (s.get (F.RAILn_GUARD_OV_THRESH n)) (s.get (F.RAILn_GUARD_OV_CEIL n))

/-- The setting that the registers hold. -/
def guardSetting (s : State) (n : Nat) : GuardThr :=
  ⟨ovEff s n, s.get (F.RAILn_GUARD_UV_THRESH n), s.get (F.RAILn_GUARD_CFG_HYST n),
   s.get (F.RAILn_GUARD_FILT_OV_FILT n), s.get (F.RAILn_GUARD_FILT_UV_FILT n)⟩

/-- A guard code as a sense voltage in nV. -/
def guardNv (code : Nat) : Int := (code : Int) * 390625

/-- R59: the release levels, held within codes 0 to 4,095. -/
def GuardThr.ovRelease (t : GuardThr) : Nat := t.ov - t.hyst
def GuardThr.uvRelease (t : GuardThr) : Nat := min (t.uv + t.hyst) 4095

/-- R61: the trip and release levels judged: the most protective of the settings in a change-over. -/
def ovTripLevel (g : GuardRail) : Nat := g.old.foldl (fun m o => min m o.ov) g.eff.ov
def ovReleaseLevel (g : GuardRail) : Nat := g.old.foldl (fun m o => min m o.ovRelease) g.eff.ovRelease
def uvTripLevel (g : GuardRail) : Nat := g.old.foldl (fun m o => max m o.uv) g.eff.uv
def uvReleaseLevel (g : GuardRail) : Nat := g.old.foldl (fun m o => max m o.uvRelease) g.eff.uvRelease

/-- R59: a raw OV output, from its present level. -/
def rawOv (g : GuardRail) (was : Bool) : Bool :=
  if was then !decide (g.sense < guardNv (ovReleaseLevel g)) else decide (g.sense > guardNv (ovTripLevel g))

def rawUv (g : GuardRail) (was : Bool) : Bool :=
  if was then !decide (g.sense > guardNv (uvReleaseLevel g)) else decide (g.sense < guardNv (uvTripLevel g))

/-! ### Faults of the guard path (R69, R70) -/

/-- R70: whether the Hallmark Fatal reaction set names a rail, in a pair of registers. -/
def fatalNamed (s : State) (lo hi n : Nat) : Bool := bitOf (rails64 (s.reg lo) (s.reg hi)) n

/-- R70: the class in which a kind is raised for a rail. -/
def guardClass (s : State) (lo hi n : Nat) : Nat := if fatalNamed s lo hi n then 2 else 1

/-- R69: UV is raised. -/
def raiseUv (s : State) (n : Nat) : State := s.raise 2 0 (guardClass s R.HM_FATAL_UV_LO R.HM_FATAL_UV_HI n) n n

/-- R69, R82: filtered UV has asserted on an armed comparator. -/
def assertUv (s : State) (n : Nat) : State :=
  raiseUv ((s.addSat (F.RAILn_GUARD_CNT_UV_CNT n)).evtBit (F.RAILn_GUARD_EVT_UV_SEEN n) 65) n

/-- R69: filtered OV has asserted. -/
def raiseOv (s : State) (n : Nat) : State :=
  let s := (s.addSat (F.RAILn_GUARD_CNT_OV_CNT n)).evtBit (F.RAILn_GUARD_EVT_OV_SEEN n) 64
  if enLatch s n then s.raise 0 0 (guardClass s R.HM_FATAL_OV_LO R.HM_FATAL_OV_HI n) n n
  else s.raise 1 0 1 n n

/-- R58: the ratio in use; a value below 1.0, as the load of an unnamed field leaves, acts as 1.0 (DEDUCED, log entry 65). -/
def railRatio (s : State) (n : Nat) : Nat := max 0x01000000 (s.get (F.RAILn_DIV_RATIO n))

/-- R71: filtered PG, always good with PG_USE = 0. -/
def pgGood (s : State) (n : Nat) : Bool :=
  !s.flag (F.RAILn_GUARD_CFG_PG_USE n) || s.flag (F.RAILn_GUARD_STATUS_PG_GOOD n)

/-- R72: PG lost is raised when the last of its three conditions comes to hold; its condition ends when PG is
good again or the latch is off. -/
def checkPgLost (s : State) (n : Nat) : State :=
  if !railUse s n then s
  else if enLatch s n && s.flag (F.RAILn_GUARD_STATUS_UV_ARMED n) && !pgGood s n then
    if (s.gr n).pgRaised then s
    else
      let s := (s.modGuard n fun g => { g with pgRaised := true }).evtBit (F.RAILn_GUARD_EVT_PG_LOST n) 66
      s.raise 3 0 (guardClass s R.HM_FATAL_PG_LO R.HM_FATAL_PG_HI n) n n
  else
    let s := s.modGuard n fun g => { g with pgRaised := false }
    if pgGood s n || !enLatch s n then s.endCond 3 n else s

/-- R67: the UV comparator arms; with filtered UV asserted it raises UV on that edge. -/
def armUv (s : State) (n : Nat) : State :=
  if !railUse s n || s.flag (F.RAILn_GUARD_STATUS_UV_ARMED n) then s
  else
    let s := s.put (F.RAILn_GUARD_STATUS_UV_ARMED n) 1
    let s := s.when (s.flag (F.RAILn_GUARD_STATUS_UV_OUT n)) (fun s => raiseUv s n)
    checkPgLost s n

/-- The filtered outputs of a rail are those of its serving slice and of the spare that joins (R80). A rise
raises the fault, a fall ends the condition and may arm the UV comparator. -/
def refreshOut (s : State) (n : Nat) : State :=
  let g := s.gr n
  let ov := (g.ownOv && !s.flag (F.RAILn_GUARD_STATUS_OV_FAILED n)) || g.spOv
  let uv := (g.ownUv && !s.flag (F.RAILn_GUARD_STATUS_UV_FAILED n)) || g.spUv
  let wasOv := s.flag (F.RAILn_GUARD_STATUS_OV_OUT n)
  let wasUv := s.flag (F.RAILn_GUARD_STATUS_UV_OUT n)
  let s := (s.putB (F.RAILn_GUARD_STATUS_OV_OUT n) ov).putB (F.RAILn_GUARD_STATUS_UV_OUT n) uv
  let s := s.when (ov && !wasOv) (fun s => raiseOv s n)
  let s := s.when (!ov && wasOv) (fun s => (s.endCond 0 n).endCond 1 n)
  let s := s.when (uv && !wasUv && s.flag (F.RAILn_GUARD_STATUS_UV_ARMED n)) (fun s => assertUv s n)
  s.when (!uv && wasUv) fun s =>
    let s := s.endCond 2 n
    s.when (enLatch s n) (fun s => armUv s n)

/-! ### Raw outputs and filters (R63, R64, R66) -/

/-- R63: the number of TCLK edges of a filter value. -/
def filterN (f : Nat) : Nat := (128 * f + 124) / 125

/-- R64: the edges for a deassertion; a bypassed filter deasserts on the second. -/
def filterOff (f : Nat) : Nat := if f = 0 then 2 else filterN f

/-- R79, R317: the filter of a comparator is frozen during its proof, and every filter while the references move. -/
def filterFrozen (s : State) (n : Nat) (uv : Bool) : Bool :=
  (match (s.gr n).proof with | some p => p.uv == uv | none => false) || decide (0 < s.spare.moved)

/-- R80: the spare slice of a substitution has joined the rail's outputs, from step 3 to step 6. -/
def spareJoined (s : State) (n : Nat) : Bool :=
  match s.spare.sub with | some b => b.rail == n && decide (3 ≤ b.step) && decide (b.step < 6) | none => false

/-- The filtered output of one of a rail's four filters: OV or UV, of the serving slice or of the joined spare. -/
def GuardRail.out (g : GuardRail) (uv spare : Bool) : Bool :=
  match uv, spare with | false, false => g.ownOv | true, false => g.ownUv | false, true => g.spOv | true, true => g.spUv

/-- The running count of that filter. -/
def GuardRail.count (g : GuardRail) (uv spare : Bool) : Nat :=
  match uv, spare with | false, false => g.cntOv | true, false => g.cntUv | false, true => g.cntSpOv | true, true => g.cntSpUv

/-- That filter with another output and running count. -/
def GuardRail.setFilter (g : GuardRail) (uv spare out : Bool) (c : Nat) : GuardRail :=
  match uv, spare with
  | false, false => { g with ownOv := out, cntOv := c }
  | true, false => { g with ownUv := out, cntUv := c }
  | false, true => { g with spOv := out, cntSpOv := c }
  | true, true => { g with spUv := out, cntSpUv := c }

/-- The filter value in use. -/
def GuardRail.filt (g : GuardRail) (uv : Bool) : Nat := if uv then g.eff.uvFilt else g.eff.ovFilt

/-- One filter after its raw output may have moved. R64: with F = 0 a raw assertion passes at once. R63: an edge with the
filter's own level restarts the count. A frozen filter neither counts nor restarts. -/
def GuardRail.refilter (g : GuardRail) (uv spare raw frozen : Bool) : GuardRail :=
  if frozen then g
  else
    let out := g.out uv spare || (raw && g.filt uv == 0)
    g.setFilter uv spare out (if raw == out then 0 else g.count uv spare)

/-- The raw outputs follow the sense voltage and the levels, and the filters of the slices that watch the rail follow them. -/
def refreshRaw (s : State) (n : Nat) : State :=
  if !railUse s n then s
  else
    let g := s.gr n
    let ov := rawOv g (s.flag (F.RAILn_GUARD_STATUS_OV_RAW n))
    let uv := rawUv g (s.flag (F.RAILn_GUARD_STATUS_UV_RAW n))
    let s := (s.putB (F.RAILn_GUARD_STATUS_OV_RAW n) ov).putB (F.RAILn_GUARD_STATUS_UV_RAW n) uv
    let joined := spareJoined s n
    let s := s.modGuard n fun g =>
      let g := (g.refilter false false ov (filterFrozen s n false)).refilter true false uv (filterFrozen s n true)
      let still := decide (0 < s.spare.moved)
      if joined then (g.refilter false true ov still).refilter true true uv still else g
    refreshOut s n

/-- A rail's raw output changes as the sense voltage moves to `nv` (R54, R59). -/
def guardRawChange (s : State) (n : Nat) (nv : Int) : State :=
  refreshRaw (s.modGuard n fun g => { g with sense := nv }) n

/-- The raw output a filter samples. -/
def rawOut (s : State) (n : Nat) (uv : Bool) : Bool :=
  s.flag (if uv then F.RAILn_GUARD_STATUS_UV_RAW n else F.RAILn_GUARD_STATUS_OV_RAW n)

/-- A filter counts for a rail: the rail is in use, neither a proof nor a move of references freezes it, and a spare's has
joined. -/
def filterRuns (s : State) (n : Nat) (uv spare : Bool) : Bool :=
  railUse s n && (if spare then spareJoined s n && s.spare.moved == 0 else !filterFrozen s n uv)

/-- R63, R64: the edges after which a filter takes over the raw level. -/
def filterNeed (s : State) (n : Nat) (uv raw : Bool) : Nat :=
  if raw then max 1 (filterN ((s.gr n).filt uv)) else filterOff ((s.gr n).filt uv)

/-- R63, R64: the raw output has been at the level `raw` at `edges` consecutive TCLK edges: the count stands there, or the
filtered output takes the level over. -/
def filterCount (s : State) (n : Nat) (uv spare raw : Bool) (edges : Nat) : State :=
  if filterRuns s n uv spare && (rawOut s n uv == raw) then
    if filterNeed s n uv raw ≤ edges then refreshOut (s.modGuard n fun g => g.setFilter uv spare raw 0) n
    else s.modGuard n fun g => g.setFilter uv spare (g.out uv spare) (if g.out uv spare == raw then 0 else edges)
  else s

/-- R63: the raw output has been asserted at `edges` consecutive TCLK edges. -/
def filterAssert (s : State) (n : Nat) (uv spare : Bool) (edges : Nat) : State := filterCount s n uv spare true edges

/-- R63, R64: the raw output has been deasserted at `edges` consecutive TCLK edges. -/
def filterDeassert (s : State) (n : Nat) (uv spare : Bool) (edges : Nat) : State := filterCount s n uv spare false edges

/-- R66: a running count that equals or exceeds the new N changes the filtered output at once. -/
def recount (s : State) (n : Nat) (uv spare : Bool) : State :=
  let c := (s.gr n).count uv spare
  if c = 0 then s else filterCount s n uv spare (rawOut s n uv) c

/-- R60: CLAMPED while the written OV threshold exceeds CEIL. -/
def syncClamped (s : State) (n : Nat) : State :=
  s.putB (F.RAILn_GUARD_STATUS_CLAMPED n)
    (decide (s.get (F.RAILn_GUARD_OV_CEIL n) < s.get (F.RAILn_GUARD_OV_THRESH n)))

/-- A write of a threshold, hysteresis or filter value has been stored; it reaches the comparator later (R61). -/
def guardSettingWritten (s : State) (n : Nat) : State :=
  let new := guardSetting s n
  syncClamped (s.modGuard n fun g => { g with thrPend := g.thrPend ++ [new] }) n

/-- R62: the order of the thresholds in use. -/
def checkOrder (s : State) (n : Nat) : State :=
  let t := (s.gr n).eff
  if railUse s n && decide (t.ov ≤ t.uv) then
    if s.flag (F.RAILn_GUARD_STATUS_ORDER_ERR n) then s
    else (s.put (F.RAILn_GUARD_STATUS_ORDER_ERR n) 1).raise 6 0 0 n n
  else (s.put (F.RAILn_GUARD_STATUS_ORDER_ERR n) 0).endCond 6 n

/-- R61, R62, R66: the oldest written setting that waits reaches the comparator, and its change-over begins. -/
def guardThreshWrite (s : State) (n : Nat) : State :=
  match (s.gr n).thrPend with
  | [] => s
  | new :: rest =>
    let s := s.modGuard n fun g => { g with old := g.old ++ [g.eff], eff := new, thrPend := rest }
    let s := refreshRaw (checkOrder s n) n
    recount (recount (recount (recount s n false false) n true false) n false true) n true true

/-- R61: 1 µs after a setting reached the comparator, the setting it replaced is judged no more. -/
def guardChangeoverEnd (s : State) (n : Nat) : State :=
  match (s.gr n).old with
  | [] => s
  | _ :: rest => refreshRaw (s.modGuard n fun g => { g with old := rest }) n

/-- The guard settings of a rail taken into use at once, at the configuration load. -/
def guardLoad (s : State) (n : Nat) : State :=
  let new := guardSetting s n
  let s := s.modGuard n fun g => { g with eff := new, old := [], thrPend := [] }
  checkOrder (syncClamped s n) n

/-- R68: a rail taken out of supervision: its comparators, filters and PG input are inactive, and it has no guard fault. -/
def guardUnuse (s : State) (n : Nat) : State :=
  let s := s.modGuard n fun g =>
    { g with ownOv := false, ownUv := false, spOv := false, spUv := false, cntOv := 0, cntUv := 0, cntSpOv := 0, cntSpUv := 0
             pgRaised := false, proof := none }
  let s := ((s.put (F.RAILn_GUARD_STATUS_OV_RAW n) 0).put (F.RAILn_GUARD_STATUS_UV_RAW n) 0).put
    (F.RAILn_GUARD_STATUS_OV_OUT n) 0
  let s := ((s.put (F.RAILn_GUARD_STATUS_UV_OUT n) 0).put (F.RAILn_GUARD_STATUS_UV_ARMED n) 0).put
    (F.RAILn_GUARD_STATUS_ORDER_ERR n) 0
  s.forEach [0, 1, 2, 3, 4, 5, 6] (fun s src => s.endCond src n)

/-- R71: PG_GOOD when the rail's use or PG_USE has been written or loaded: good with PG_USE = 0; an input newly taken into
use is not good until the filter says so. -/
def pgUseWritten (s : State) (n : Nat) (was : Bool) : State :=
  if !s.flag (F.RAILn_GUARD_CFG_PG_USE n) then s.put (F.RAILn_GUARD_STATUS_PG_GOOD n) 1
  else if was && railUse s n then s else s.put (F.RAILn_GUARD_STATUS_PG_GOOD n) 0

/-! ### Common mode (R56) -/

/-- SNSNn has been outside its band for 10 µs. R68: with USE = 0 CM_ERR is set, with no guard event and no fault (log entry
93). -/
def commonModeError (s : State) (n : Nat) : State :=
  if s.flag (F.RAILn_GUARD_STATUS_CM_ERR n) && (s.condStands 5 n || !railUse s n) then s
  else
    let s := (s.modFine n fun g => { g with cmNow := true }).put (F.RAILn_GUARD_STATUS_CM_ERR n) 1
    if railUse s n then (s.evtBit (F.RAILn_GUARD_EVT_CM_SEEN n) 68).raise 5 0 1 n n else s

/-- SNSNn has been inside its band for 10 µs. R87: the output period in which CM_ERR clears saw it 1. -/
def commonModeClear (s : State) (n : Nat) : State :=
  let s := if s.flag (F.RAILn_GUARD_STATUS_CM_ERR n) then s.modFine n fun g => { g with cmNow := true } else s
  (s.put (F.RAILn_GUARD_STATUS_CM_ERR n) 0).endCond 5 n

/-! ### Power good (R71, R72) -/

/-- R71: the TCLK edges of the PG filter. -/
def pgFilterN (s : State) (n : Nat) : Nat :=
  match s.get (F.RAILn_GUARD_CFG_PG_FILT n) with | 0 => 0 | 1 => filterN 10 | 2 => filterN 100 | _ => filterN 1000

/-- The ball PGn has held `level` at `edges` consecutive TCLK edges. -/
def pgFilterChange (s : State) (n : Nat) (level : Bool) (edges : Nat) : State :=
  let s := s.putB (F.RAILn_GUARD_STATUS_PG_RAW n) level
  if !railUse s n || !s.flag (F.RAILn_GUARD_CFG_PG_USE n) || decide (edges < pgFilterN s n) then s
  else
    let good := level != s.flag (F.RAILn_GUARD_CFG_PG_POL n)
    let was := s.flag (F.RAILn_GUARD_STATUS_PG_GOOD n)
    let s := s.putB (F.RAILn_GUARD_STATUS_PG_GOOD n) good
    let s := s.when (good && !was && !enLatch s n) (·.evtBit (F.RAILn_GUARD_EVT_PG_NO_EN n) 70)
    checkPgLost s n

/-! ### The EN latch and its ball (R73 to R78) -/

/-- R73: the level the latch and EN_POL call for on the ball. -/
def enLevel (s : State) (n : Nat) : Bool := enLatch s n != s.flag (F.RAILn_GUARD_CFG_EN_POL n)

/-- The ball of a driven ENn follows the latch. -/
def syncEnPin (s : State) (n : Nat) : State :=
  s.when (s.flag (F.RAILn_GUARD_STATUS_EN_DRIVE n)) (fun s => s.putB (F.RAILn_GUARD_STATUS_EN_PIN n) (enLevel s n))

/-- R304 step 1, R452: requests to turn a latch on are dropped, on the outgoing twin of a role change and in Retired. -/
def onDropped (s : State) : Bool := s.twin.frozen || s.get F.SEC_STATE_SECURITY == 3

/-- A rail's EN latch turns on (R67, R72, R74); the slope monitor awaits its first valid sample (R97). -/
def latchOn (s : State) (n : Nat) : State :=
  if enLatch s n || onDropped s then s
  else
    let s := syncEnPin (s.put (F.RAILn_GUARD_STATUS_EN_LATCH n) 1) n
    let t := s.tclk
    let s := s.modGuard n fun g => { g with onAt := t }
    let s := s.modFine n fun g => { g with slopeArm := true }
    if s.flag (F.RAILn_GUARD_STATUS_UV_OUT n) then checkPgLost s n else checkPgLost (armUv s n) n

/-- A rail's EN latch turns off; the UV comparator disarms on that edge, and the slope
monitor ends (R97). -/
def latchOff (s : State) (n : Nat) : State :=
  if enLatch s n then
    let s := syncEnPin (s.put (F.RAILn_GUARD_STATUS_EN_LATCH n) 0) n
    let s := (s.modFine n fun g => { g with slopeArm := false }).put (F.RAILn_FINE_STATE_SLOPE_ACTIVE n) 0
    checkPgLost (s.put (F.RAILn_GUARD_STATUS_UV_ARMED n) 0) n
  else s

/-- R74: the latch requests that meet on one TCLK edge, as sets of rails; off wins. -/
def applyLatch (s : State) (on off : Nat) : State :=
  s.forEach (below 64) fun s n =>
    if bitOf off n then latchOff s n else if bitOf on n then latchOn s n else s

/-- R76: the ball reads `level` and has done so at `edges` consecutive TCLK edges. From 20 on it is judged while ENn is
driven, and with EN_OD = 1 only against a driven low level. R68: with USE = 0 the mismatch shows in the status alone (log
entry 93). -/
def enReadback (s : State) (n : Nat) (level : Bool) (edges : Nat) : State :=
  let s := s.putB (F.RAILn_GUARD_STATUS_EN_PIN n) level
  if decide (edges < 20) || !s.flag (F.RAILn_GUARD_STATUS_EN_DRIVE n) then s
  else if level == enLevel s n then (s.put (F.RAILn_GUARD_STATUS_EN_MISMATCH n) 0).endCond 4 n
  else if s.flag (F.RAILn_GUARD_CFG_EN_OD n) && enLevel s n then s
  else
    let s := s.put (F.RAILn_GUARD_STATUS_EN_MISMATCH n) 1
    if !railUse s n || s.condStands 4 n then s
    else (s.evtBit (F.RAILn_GUARD_EVT_EN_MISMATCH_SEEN n) 67).raise 4 0 1 n n

/-- R73, R77: ENn starts or stops driving. -/
def setEnDrive (s : State) (n : Nat) (on : Bool) : State :=
  let s := s.putB (F.RAILn_GUARD_STATUS_EN_DRIVE n) on
  if on then syncEnPin s n else (s.put (F.RAILn_GUARD_STATUS_EN_MISMATCH n) 0).endCond 4 n

end Sys2Proof.Machine
end

