-- ==== Sys2Proof/Machine/Replies.lean ====
section
/-! DEFINITION. Status codes, replies and notices (spec/14_command_engine.md R359, R363, R364, R370 to R372;
spec/15_command_reference.md R406, R407). -/

namespace Sys2Proof.Machine

/-! ### Status codes (R366, R407) -/

def stOk := 0x0000
def stStarted := 0x0001
def stBadFormat := 0x0100
def stBadCrc := 0x0101
def stTagInUse := 0x0102
def stUnknownOpcode := 0x0103
def stAuthRequired := 0x0104
def stAuthFail := 0x0105
def stAuthReplay := 0x0106
def stRestarting := 0x0107
def stHalted := 0x0108
def stModeChange := 0x0109
def stBusy := 0x010A
def stBadAddress := 0x0200
def stEpochGone := 0x0201
def stEpochFar := 0x0202
def stEpochSrc := 0x0203
def stNotCoherent := 0x0204
def stEngineRestart := 0x0300
def stBadParam := 0x0400
def stSecurityState := 0x0401
def stWrongMode := 0x0402
def stHoldup := 0x0403
def stSealed := 0x0404
def stNotPermitted := 0x0405
def stTwinStandby := 0x0406
def stTwinActive := 0x0407
def stRailsEnabled := 0x0410
def stQuireRefused := 0x0411
def stQuireBusy := 0x0412
def stMemberConflict := 0x0413
def stLayoutInvalid := 0x0414
def stBenchRefused := 0x0415
def stPartnerInvalid := 0x0416
def stWorkBusy := 0x0417
def stFolioArmed := 0x0418
def stCalRange := 0x0420
def stCalUnstable := 0x0421
def stCalAborted := 0x0422
def stCalBusy := 0x0423
def stRailUnused := 0x0424
def stFineDown := 0x0425
def stRailOff := 0x0430
def stOverCap := 0x0431
def stNoSource := 0x0432
def stMarginFail := 0x0433
def stAborted := 0x0434
def stPlanInvalid := 0x0435
def stFallback := 0x0436
def stStoreBusy := 0x0440
def stAbandoned := 0x0441
def stNvmFail := 0x0442
def stEmpty := 0x0443
def stImageInvalid := 0x0444
def stFolioDropped := 0x0445
def stFuseFail := 0x0446
def stNotWarden := 0x0450
def stNotReady := 0x0451
def stWardenOwnPair := 0x0452
def stNotMaster := 0x0453
def stNoChallenge := 0x0460
def stEscortFail := 0x0461

/-! ### Opcodes -/

/-- The class of an opcode: 0 A, 1 B, 2 C; none for a code of no opcode (R392 to R405). -/
def opClass : Nat → Option Nat
  | 0x0001 | 0x0002 | 0x0010 | 0x0012 | 0x0014 | 0x0700 | 0x0701 => some 0
  | 0x0003 | 0x0011 | 0x0013 => some 1
  | 0x0100 => some 2
  | 0x0101 => some 1
  | 0x0102 => some 0
  | 0x0200 | 0x0201 | 0x0202 | 0x0203 | 0x0204 | 0x0205 => some 2
  | 0x0300 | 0x0302 => some 2
  | 0x0301 | 0x0303 => some 0
  | 0x0304 => some 1
  | 0x0400 | 0x0401 | 0x0402 | 0x0404 => some 0
  | 0x0403 | 0x0405 => some 1
  | 0x0500 | 0x0502 => some 1
  | 0x0501 => some 2
  | 0x0600 | 0x0601 | 0x0602 => some 0
  | 0x0603 | 0x0604 => some 2
  | 0x0605 => some 1
  | _ => none

/-- R370: the bound of a first reply, in TCLK periods of 97.65625 ns: 20 µs is 204.8 and 500 µs is 5,120. -/
def classBound (cls : Nat) : Nat := if cls = 0 then 204 else 5120

/-! ### Output queues (R359, R364) -/

def State.modEng (s : State) (f : EngineState → EngineState) : State := { s with eng := f s.eng }

def State.outQueue (s : State) (p : Port) : List OutItem := match p with | .host => s.eng.outHost | .ring => s.eng.outRing

def State.setOutQueue (s : State) (p : Port) (q : List OutItem) : State :=
  s.modEng fun e => match p with | .host => { e with outHost := q } | .ring => { e with outRing := q }

def State.queueItem (s : State) (p : Port) (i : OutItem) : State := s.setOutQueue p (s.outQueue p ++ [i])

/-- R364: a notice; the seventeenth is dropped. -/
def queueNotice (s : State) (p : Port) (type status : Nat) (results : List Word) : State :=
  if ((s.outQueue p).filter (·.notice)).length < 16 then
    s.queueItem p ⟨true, true, false, false, s.holdover, false, 0, type, status, 0, 0, results, none⟩
  else
    (s.put (F.CMD_Pp_STATUS_NOTICE_OVF (portIdx p)) 1).evtBit F.CMD_EVT_NOTICE_OVF 202

/-! ### Replies (R363, R370 to R372) -/

/-- R379: the port delivers COHERENT. -/
def coherent (s : State) (p : Port) : Bool := s.flag (F.CMD_Pp_STATUS_MODE_ACTIVE (portIdx p))

/-- R373: epoch numbers count time: the source is time, or the stamp does not run. -/
def epochByTime (s : State) : Bool := !s.flag F.CMD_EPOCH_CFG_SRC || !s.angRun

/-- R372: what suspends the BOUNDED promises now: 0 nothing, 1 fallback, 2 Halt. -/
def suspension (s : State) : Nat :=
  if s.get F.SEC_STATE_DEBUG == 2 then 2 else if s.ang.relocking then 1 else 0

/-- R371, R372: the reply misses its bound. -/
def isLate (s : State) (c : Cmd) : Bool :=
  let t := s.tclk - c.accepted
  !coherent s c.port &&
    (match max c.susp (suspension s) with
     | 0 => decide (c.bound < t)
     | 1 => decide (5 * c.bound < 4 * t)
     | _ => false)

/-- A reply to a command as it stands now (R363); `final` is 0 in an interim reply only. EPOCH_TIME speaks of the reply's
epoch number, which a BOUNDED port's reply does not carry; `EPOCH_GONE` names no epoch (DEDUCED, log entry 63). -/
def mkReply (s : State) (c : Cmd) (final : Bool) (status : Nat) (results : List Word) : OutItem :=
  let coh := coherent s c.port
  { notice := false, final := final, susp := max c.susp (suspension s) != 0, late := isLate s c
    holdover := s.holdover, epochTime := coh && (epochByTime s || s.eng.byTime), tag := c.tag, opcode := c.opcode, status := status
    epoch := if coh && status != stEpochGone then c.atEpoch.getD (s.get F.CMD_EPOCH_NUMBER) else 0
    time := min (s.tclk - c.accepted) 0xFFFFFFFF, results := results, auth := c.auth }

/-- Queues a reply. R371: a late one is counted, with its event and the promise missed fault; R386: one in time
ends that fault's condition for its port and class. -/
def pushReply (s : State) (c : Cmd) (final : Bool) (status : Nat) (results : List Word) : State :=
  let i := mkReply s c final status results
  let inst := portIdx c.port + 4 * (opClass c.opcode).getD 0
  let s := s.queueItem c.port i
  if i.late then
    ((s.addSat (F.CMD_Pp_ERR_LATE (portIdx c.port))).evtBit F.CMD_EVT_LATE 195).raiseOnce 68 0 1 inst inst
  else s.endCond 68 inst

/-- The words of a refusal (R391). -/
def refusalWords (bad reason : Nat) : List Word := [BitVec.ofNat 32 bad, BitVec.ofNat 32 reason]

/-- R391: no parameter word is at fault. -/
def noWord := 0xFFFFFFFF

/-- The command leaves its slot. -/
def dropCmd (s : State) (c : Cmd) : State :=
  s.modEng fun e => { e with cmds := e.cmds.filter fun d => !(d.port == c.port && d.tag == c.tag) }

/-- A class C command at work ends with its final reply. Work that no command started ends with none. -/
def finishC (s : State) (pred : Cmd → Bool) (status : Nat) (results : List Word) : State :=
  match s.eng.cmds.find? (fun c => c.phase == .running && pred c) with
  | some c => pushReply (dropCmd s c) c true status results
  | none => s

/-- Every such command at work ends. -/
def finishAll (s : State) (pred : Cmd → Bool) (status : Nat) (results : List Word) : State :=
  s.eng.cmds.foldl (fun s _ => finishC s pred status results) s

end Sys2Proof.Machine
end

