-- ==== Sys2Proof/Machine/Fine.lean ====
section
/-! DEFINITION. The fine measurement path and the rail calibrations (spec/04_rail_fine_path.md). -/

namespace Sys2Proof.Machine

/-! ### Running, restarts and marks (R85, R86, R90, R91) -/

/-- R86: the fine path of a rail is to run. -/
def fineWanted (s : State) (n : Nat) : Bool :=
  railUse s n && (s.mode == mCommission || s.mode == mRamp || s.mode == mGuard || s.mode == mService) &&
    !s.flag (F.RAILn_FINE_STATE_OOS n)

def fineRun (s : State) (n : Nat) : Bool := s.flag (F.RAILn_FINE_STATE_RUN n)

/-- R84: the output period of a RATE, in quarter microseconds. -/
def ratePeriod (rate : Nat) : Nat := match rate with | 0 => 25 | 1 => 100 | 2 => 400 | _ => 1600

/-- R90: a restart with `k` marked samples is scheduled; of several the largest number applies (R91). -/
def scheduleRestart (s : State) (n k : Nat) : State :=
  s.modFine n fun g => { g with pend := some (max k (g.pend.getD 0)) }

/-- R90, R91: modulator, decimator and FIR restart on a sample boundary, and `k` samples are marked: the largest number of
the restarts on one boundary. -/
def restartFine (s : State) (n k : Nat) : State :=
  let now := s.tclk
  s.modFine n fun g =>
    { g with marks := if g.fresh && g.freshAt == now then max g.marks k else k, fresh := true, freshAt := now
             cmNow := false, fbNow := false, cmHist := [], fbHist := [] }

/-- R90: the scheduled configuration takes effect. -/
def takeFineCfg (s : State) (n : Nat) : State :=
  s.modFine n fun g =>
    { g with pend := none, rate := s.get (F.RAILn_FINE_CFG_RATE n), fir := s.flag (F.RAILn_FINE_CFG_FIR_EN n) }

/-! ### The end of a calibration (R105) -/

/-- Whether a command calibrates the rail. -/
def isRailCal (n : Nat) (c : Cmd) : Bool :=
  (c.opcode == 0x0200 || c.opcode == 0x0201) &&
    (let w := (c.params.headD 0).toNat; !bitOf w 31 && w % 64 == n)

/-- R105: a calibration of a rail ends: BUSY clears, LAST records the outcome, CAL_DONE and its event, and the reply of
the command that started it. -/
def endRailCal (s : State) (n last status : Nat) (results : List Word) : State :=
  let s := s.modFine n fun g => { g with cal := none }
  let s := (s.put (F.RAILn_CAL_STATUS_BUSY n) 0).put (F.RAILn_CAL_STATUS_LAST n) last
  finishC (s.evtBit (F.RAILn_FINE_STATE_CAL_DONE n) 76) (isRailCal n) status results

/-- R106: a calibration that runs on the rail is aborted. -/
def abortRailCal (s : State) (n : Nat) : State :=
  if (s.fr n).cal.isSome then endRailCal s n 3 stCalAborted (refusalWords noWord 0) else s

/-! ### Start and stop (R86, R110) -/

/-- R86: the fine path stops; its monitors hold their state. -/
def stopFine (s : State) (n : Nat) : State :=
  let s := (s.put (F.RAILn_FINE_STATE_RUN n) 0).modFine n fun g => { g with pend := none }
  abortRailCal s n

/-- R86: the fine path starts or stops as the mode, USE and OOS call for. A start is a change of R90 with 4 marks. -/
def syncFineRun (s : State) (n : Nat) : State :=
  if fineWanted s n then
    if fineRun s n || (s.fr n).pend.isSome then s else scheduleRestart s n 4
  else if fineRun s n || (s.fr n).pend.isSome then stopFine s n else s

def syncAllFineRun (s : State) : State := s.forEach (below 64) syncFineRun

/-- R105, R90: the coefficients written since the last boundary commit. During a substitution they are the worn slice's as
well as the rail's (DESIGN CHOICE, log entry 85). -/
def commitCoeffs (s : State) (n : Nat) : State :=
  let g := s.fr n
  if g.offPend.isSome || g.gainPend.isSome then
    let s := match g.offPend with | some v => s.put (F.RAILn_CAL_OFFSET_OFFSET n) v | none => s
    let s := match g.gainPend with | some v => s.put (F.RAILn_CAL_GAIN_GAIN n) v | none => s
    let s := s.modFine n fun g =>
      { g with offPend := none, gainPend := none
               worn := g.worn.map fun w => ((g.offPend.map (toSigned 24)).getD w.1, g.gainPend.getD w.2.1, 0) }
    (s.put (F.RAILn_CAL_STATUS_STATE n) 0).endCond 12 n
  else s

/-- FINE_RESTART: the sample boundary of R90 on which what is scheduled for the rail takes effect. -/
def fineRestart (s : State) (n : Nat) : State :=
  let s := commitCoeffs s n
  match (s.fr n).pend with
  | none => s
  | some k =>
    if !fineWanted s n then stopFine s n
    else
      let s := if fineRun s n then s else
        ((s.put (F.RAILn_FINE_STATE_RUN n) 1).put (F.RAILn_FINE_STATE_WIN n) 0).modFine n fun g =>
          { g with inCount := 0, outCount := 0, ovl := none }
      restartFine (takeFineCfg s n) n k

/-- A write of `RAILn_FINE_CFG` has been stored: RATE and FIR_EN restart the path (R90); with SLOPE_EN = 0 the slope
monitor is not in use (R97). -/
def fineCfgWritten (s : State) (n old : Nat) : State :=
  let s := if s.flag (F.RAILn_FINE_CFG_SLOPE_EN n) then s else s.put (F.RAILn_FINE_STATE_SLOPE_ACTIVE n) 0
  if !fineRun s n && (s.fr n).pend.isNone then s
  else if (F.RAILn_FINE_CFG_FIR_EN n).extract old != s.get (F.RAILn_FINE_CFG_FIR_EN n) then scheduleRestart s n 5
  else if (F.RAILn_FINE_CFG_RATE n).extract old != s.get (F.RAILn_FINE_CFG_RATE n) then scheduleRestart s n 4
  else s

/-- A new value of `RAILn_GUARD_CFG` is stored: USE (R68, R86), HYST (R61), the PG and EN settings (R71 to R73). -/
def guardCfgWritten (s : State) (n old : Nat) : State :=
  let was := (F.RAILn_GUARD_CFG_USE n).extract old == 1
  let s :=
    if was && !railUse s n then guardUnuse s n
    else if !was && railUse s n then
      let s := refreshRaw (guardLoad s n) n
      if enLatch s n && !s.flag (F.RAILn_GUARD_STATUS_UV_OUT n) then armUv s n else s
    else guardSettingWritten s n
  let s := pgUseWritten s n (was && (F.RAILn_GUARD_CFG_PG_USE n).extract old == 1)
  syncFineRun (syncEnPin (checkPgLost s n) n) n

/-- R96: a write of HI, LO or CNT restarts the count. -/
def fineWindowWritten (s : State) (n : Nat) : State := s.modFine n fun g => { g with inCount := 0, outCount := 0 }

/-- R105: a written coefficient waits for the next sample boundary. -/
def calCoeffWrite (s : State) (n : Nat) (gain : Bool) (v : Nat) : State :=
  let s := s.modFine n fun g => if gain then { g with gainPend := some (v % 2 ^ 24) } else { g with offPend := some (v % 2 ^ 24) }
  if fineRun s n || (s.fr n).pend.isSome then scheduleRestart s n 4 else s

/-! ### Results (R87, R92 to R94) -/

def codeMax : Int := 8388607
def codeMin : Int := -8388608

/-- R94: a calibrated code in rail volts, signed 10.22: code x 1.6 / 2^23 x RATIO, RATIO being 8.24. -/
def railVolts (s : State) (n : Nat) (code : Int) : State × Nat :=
  let (s, v) := s.approx (code * (railRatio s n : Nat)) 20971520
  (s, ofSigned 32 (clampInt (-2147483648) 2147483647 v))

/-- R93, R108: the offset, the gain and the CAL_STATE in use for a rail's samples. -/
def coeffsInUse (s : State) (n : Nat) : Int × Nat × Nat :=
  match (s.fr n).worn with
  | some w => w
  | none => (s.getS (F.RAILn_CAL_OFFSET_OFFSET n), s.get (F.RAILn_CAL_GAIN_GAIN n), s.get (F.RAILn_CAL_STATUS_STATE n))

/-- R93: raw codes to calibrated codes; R92: `true` where the range is exceeded. -/
def calibrate (s : State) (n : Nat) (raw : Int) : State × Int × Bool :=
  let (off, gain, _) := coeffsInUse s n
  let (s, v) := s.rounded ((raw - off) * (gain : Nat)) 4194304
  (s, clampInt codeMin codeMax v, decide (v < codeMin ∨ codeMax < v))

/-- What a sample brought, for the blocks that use it. -/
structure FineOut where
  delivered : Bool
  valid     : Bool
  settling  : Bool
  fallback  : Bool
  code      : Int
  /-- The debounced window state after it: 0 not judged, 1 inside, 2 high, 3 low. -/
  win       : Nat
  slopeErr  : Bool
  deriving DecidableEq, Repr, Inhabited

/-! ### Window, slope and ripple (R95 to R100) -/

/-- R95: a code against the window: 0 inside, 1 above HI, 2 below LO. With HI < LO every code is outside. -/
def winOf (s : State) (n : Nat) (code : Int) : Nat :=
  if s.getS (F.RAILn_FINE_WIN_HI_HI n) < code then 1 else if code < s.getS (F.RAILn_FINE_WIN_LO_LO n) then 2 else 0

/-- R95, R100: a valid sample is judged; `quiet` holds when no Quire step, margin test or Sounding involves the rail. -/
def judgeWindow (s : State) (n win : Nat) (quiet : Bool) : State :=
  let cnt := max 1 (s.get (F.RAILn_FINE_WIN_HI_CNT n))
  let s := s.modFine n fun g =>
    if win = 0 then { g with inCount := min 255 (g.inCount + 1), outCount := 0 }
    else { g with outCount := min 255 (g.outCount + 1), inCount := 0 }
  let g := s.fr n
  let was := s.get (F.RAILn_FINE_STATE_WIN n)
  if win = 0 then
    if cnt ≤ g.inCount ∧ was ≠ 1 then
      let s := (s.put (F.RAILn_FINE_STATE_WIN n) 1).evtBit (F.RAILn_FINE_STATE_WIN_ENTERED n) 71
      (s.put (F.RAILn_FINE_STATE_SLOPE_ACTIVE n) 0).endCond 9 n
    else s
  else if cnt ≤ g.outCount then
    let s := s.put (F.RAILn_FINE_STATE_WIN n) (win + 1)
    if was = 1 then
      let s := s.evtBit (F.RAILn_FINE_STATE_WIN_LEFT n) 72
      if s.flag (F.RAILn_FINE_CFG_WIN_FAULT n) && enLatch s n && quiet then s.raise 9 (win - 1) 0 n n else s
    else s
  else s

/-- R98: the span D in valid samples. -/
def slopeSpan (s : State) (n : Nat) : Nat := 2 ^ min 8 (max 1 (s.get (F.RAILn_FINE_CFG_SLOPE_SPAN n)))

/-- R97, R98: a valid sample in the slope monitor; `true` when it completes a slope error. `entered`: the
debounced window state became inside on this sample, which ends the monitor. -/
def judgeSlope (s : State) (n : Nat) (code : Int) (fallback entered : Bool) : State × Bool :=
  let arm := (s.fr n).slopeArm
  let s := s.modFine n fun g => { g with slopeArm := false }
  let s := if arm && s.flag (F.RAILn_FINE_CFG_SLOPE_EN n) && !entered then
      (s.put (F.RAILn_FINE_STATE_SLOPE_ACTIVE n) 1).modFine n fun g => { g with stream := [], slopeBad := 0 }
    else s
  if !s.flag (F.RAILn_FINE_STATE_SLOPE_ACTIVE n) then (s, false)
  else if fallback then (s.modFine n fun g => { g with stream := [] }, false)
  else
    let g := s.fr n
    let d := slopeSpan s n
    let s := s.modFine n fun g => { g with stream := (code :: g.stream).take 257 }
    match g.stream[d - 1]? with
    | none => (s, false)
    | some old =>
      let num := (code - old) * 4000
      let den := 2048 * d * ratePeriod g.rate
      let (s, v) := s.approx num den
      let s := s.putS (F.RAILn_FINE_MON_SLOPE n) (clampInt (-32767) 32767 v)
      if num < (s.get (F.RAILn_FINE_SLOPE_MIN n) : Nat) * (den : Int) ∨ (s.get (F.RAILn_FINE_SLOPE_MAX n) : Nat) * (den : Int) < num then
        if max 1 (s.get (F.RAILn_FINE_CFG_SLOPE_CNT n)) ≤ g.slopeBad + 1 then
          ((s.modFine n fun g => { g with slopeBad := 0 }).evtBit (F.RAILn_FINE_STATE_SLOPE_SEEN n) 73, true)
        else (s.modFine n fun g => { g with slopeBad := g.slopeBad + 1 }, false)
      else (s.modFine n fun g => { g with slopeBad := 0 }, false)

/-- R99: the block length. -/
def rippleBlock (s : State) (n : Nat) : Nat := 2 ^ min 12 (max 4 (s.get (F.RAILn_FINE_RIPPLE_BLOCK n)))

/-- R99: a sample in the ripple monitor; `true` when it completes a block that exceeds LIMIT. `spoil`: the block
that contains it is discarded unjudged. While the monitor does not judge it keeps no block: a part of one is dropped (DESIGN
CHOICE, log entry 84). -/
def judgeRipple (s : State) (n : Nat) (code : Int) (valid spoil : Bool) : State × Bool :=
  if !s.flag (F.RAILn_FINE_CFG_RIPPLE_EN n) || !enLatch s n || s.flag (F.RAILn_FINE_STATE_SLOPE_ACTIVE n) then
    (s.modFine n fun g => { g with ripN := 0, ripDirty := false }, false)
  else if !valid then
    (s.modFine n fun g => { g with ripDirty := g.ripDirty || (spoil && decide (0 < g.ripN)) }, false)
  else
    let s := s.modFine n fun g =>
      if g.ripN = 0 then { g with ripN := 1, ripLo := code, ripHi := code, ripDirty := spoil }
      else { g with ripN := g.ripN + 1, ripLo := min g.ripLo code, ripHi := max g.ripHi code, ripDirty := g.ripDirty || spoil }
    let g := s.fr n
    if g.ripN < rippleBlock s n then (s, false)
    else
      let s := s.modFine n fun g => { g with ripN := 0, ripDirty := false }
      if g.ripDirty then (s, false)
      else
        let pp := g.ripHi - g.ripLo
        let (s, v) := s.approx pp 16
        let s := s.put (F.RAILn_FINE_MON_RIPPLE n) (min 0xFFFF v.toNat)
        if (s.get (F.RAILn_FINE_RIPPLE_LIMIT n) : Nat) * 16 < pp then
          let s := s.evtBit (F.RAILn_FINE_STATE_RIPPLE_SEEN n) 74
          (if s.flag (F.RAILn_FINE_CFG_RIPPLE_FAULT n) then s.raiseOnce 10 0 0 n n else s, true)
        else (s.endCond 10 n, false)

/-! ### Calibration averaging (R102) -/

def CalRun.zero : CalRun := ⟨false, 16, 0, 0, 2 ^ 62, -2 ^ 62, 0, 0, 1, false, none⟩

/-- R102: a sample in a calibration's average. -/
def CalRun.add (c : CalRun) (valid : Bool) (raw : Int) : CalRun :=
  if c.ended || c.commit.isSome then c
  else if valid then
    let c := { c with sum := c.sum + raw, n := c.n + 1, lo := min c.lo raw, hi := max c.hi raw }
    { c with ended := decide (c.count ≤ c.n) }
  else
    let c := { c with restarts := c.restarts + 1, n := 0, sum := 0, lo := 2 ^ 62, hi := -2 ^ 62 }
    { c with ended := decide (8 < c.restarts) }

/-! ### The sample (R87, R89, R92) -/

/-- The tag of a sample (R87). -/
def fineTag (count : Nat) (settling subst oos clip fb cm hold : Bool) (cal win : Nat) (slope ripple : Bool) (seq : Nat) : Nat :=
  let b (x : Bool) (k : Nat) : Nat := if x then 2 ^ k else 0
  count * 2 ^ 29 + b settling 28 + b subst 27 + b oos 26 + b clip 25 + b fb 24 + b cm 23 + b hold 22 +
    cal * 2 ^ 20 + win * 2 ^ 18 + b slope 17 + b ripple 16 + seq

/-- Delivers a result: its registers and the latest sample. -/
def deliverFine (s : State) (n : Nat) (code : Int) (tag : Nat) : State :=
  let (s, rv) := railVolts s n code
  let s := s.delivers [(96 + n, BitVec.ofNat 32 (s.reg (R.RAILn_FINE_RESULT n))), (160 + n, (s.fr n).latest.tag)]
  let s := s.putS (F.RAILn_FINE_RESULT_VALUE n) code
  s.modFine n fun g => { g with latest := ⟨code, BitVec.ofNat 32 tag, BitVec.ofNat 32 rv, s.ang.stamp⟩ }

/-- R87: whether CM_ERR and fallback stood at some time in the output period that ends now, and in the sample's window. -/
def windowFlags (s : State) (n : Nat) : Bool × Bool × Bool × Bool :=
  let g := s.fr n
  let cmThis := g.cmNow || s.flag (F.RAILn_GUARD_STATUS_CM_ERR n)
  let fbThis := g.fbNow || s.flag F.CLK_STATUS_FALLBACK
  let back := if g.fir then 4 else 2
  (cmThis, fbThis, cmThis || (g.cmHist.take back).any id, fbThis || (g.fbHist.take back).any id)

/-- A sample boundary of a rail, in the order of R83: `raw` is the decimator or FIR output before it is held to 24 bits (R54), `back` holds on
the boundary that ends an overload (R92). `quiet` and `stim` are what other blocks do with the rail (R100, R99). -/
def fineSample (s : State) (n : Nat) (raw : Int) (back quiet stim : Bool) : State × FineOut :=
  if !fineRun s n then (s, default)
  else
    let g := s.fr n
    let (cmThis, fbThis, cm, fb) := windowFlags s n
    let calState := (coeffsInUse s n).2.2
    let (s, cal, beyond) := calibrate s n (clampInt codeMin codeMax raw)
    let clip := beyond || decide (raw < codeMin ∨ codeMax < raw) || g.ovl.isSome
    let code := match g.ovl with | some true => codeMin | some false => codeMax | none => cal
    let settling := decide (0 < g.marks)
    let subst := g.outage == 1 || (g.outage == 2 && (settling || clip || cm))
    let valid := !settling && !subst && !clip && !cm
    let win := if valid then winOf s n code else 3
    let s := s.modFine n fun g =>
      { g with marks := g.marks - 1, fresh := false, cmNow := false, fbNow := false
               cmHist := (cmThis :: g.cmHist).take 4, fbHist := (fbThis :: g.fbHist).take 4
               seq := (g.seq + 1) % 65536, outage := if subst then g.outage else 0
               lastValid := if valid then some code else g.lastValid
               cal := g.cal.map fun c => c.add valid raw }
    let was := s.get (F.RAILn_FINE_STATE_WIN n)
    let s := if valid then judgeWindow s n win quiet else s
    let entered := was != 1 && s.get (F.RAILn_FINE_STATE_WIN n) == 1
    let (s, slopeErr) := if valid then judgeSlope s n code fb entered else (s, false)
    let (s, ripErr) := judgeRipple s n code valid (settling || fb || stim)
    let s := if valid then s.endCond 11 n else s
    let s := deliverFine s n code
      (fineTag (g.marks - 1) settling subst false clip fb cm s.holdover calState win
        slopeErr ripErr (s.fr n).seq)
    let s := if back && g.ovl.isSome then restartFine (s.modFine n fun g => { g with ovl := none }) n 4 else s
    (s, ⟨true, valid, settling, fb, code, s.get (F.RAILn_FINE_STATE_WIN n), slopeErr⟩)

/-- R92: the modulator leaves its stable range, with a negative input or not. -/
def fineOverload (s : State) (n : Nat) (neg : Bool) : State :=
  if fineRun s n && (s.fr n).ovl.isNone then
    let s := s.modFine n fun g => { g with ovl := some neg }
    (s.evtBit (F.RAILn_FINE_STATE_OVERLOAD_SEEN n) 75).raiseOnce 11 0 0 n n
  else s

/-- R110: the fine path is declared out of service: a running path delivers one last sample with OOS = 1, whose value
the manual does not state. -/
def fineOutOfService (s : State) (n : Nat) : State :=
  let s := if fineRun s n then
      let s := s.modFine n fun g => { g with seq := (g.seq + 1) % 65536 }
      let (s, v) := s.unstated 24
      let g := s.fr n
      let (_, _, cm, fb) := windowFlags s n
      deliverFine s n (toSigned 24 v)
        (fineTag (g.marks - 1) (decide (0 < g.marks)) (g.outage != 0) true g.ovl.isSome fb cm s.holdover (coeffsInUse s n).2.2 3
          false false g.seq)
    else s
  let s := s.modFine n fun g => { g with lastValid := none, outage := 0, worn := none }
  let s := ((s.put (F.RAILn_FINE_STATE_OOS n) 1).put (F.RAILn_FINE_STATE_WIN n) 0).put (F.RAILn_FINE_STATE_SLOPE_ACTIVE n) 0
  stopFine s n

/-- R88: a read of `RAILn_FINE_RESULT` latches tag, rail volts and stamp of the same sample for the port. -/
def fineResultRead (s : State) (p : Port) (n : Nat) : State :=
  let l := (s.fr n).latest
  let s := (s.latch p (R.RAILn_FINE_TAG n) l.tag.toNat).latch p (R.RAILn_FINE_RAILV n) l.railv.toNat
  (s.latch p (R.RAILn_FINE_STAMP_HI n) (stampHi l.stamp)).latch p (R.RAILn_FINE_STAMP_LO n) (stampLo l.stamp)

/-! ### Calibration (R101 to R106) -/

/-- R102: the number of samples CAL_AVG selects. -/
def calCount (avg : Nat) : Nat := match avg with | 0 => 16 | 1 => 64 | 2 => 256 | _ => 1024

/-- R399, R101: the status that refuses a calibration of a rail at execution, if one does. -/
def railCalRefusal (s : State) (n : Nat) : Option Nat :=
  if !railUse s n then some stRailUnused
  else if !fineRun s n then some stFineDown
  else if (s.fr n).cal.isSome then some stCalBusy
  else none

/-- R104: the target in sense volts, as a fraction of VOLTS (10.22) and RATIO (8.24): VOLTS x 4 / RATIO, lies within
0.800 V to 1.600 V. -/
def railTargetOk (volts ratio : Nat) : Bool := decide (4 * ratio ≤ 5 * (4 * volts)) && decide (5 * (4 * volts) ≤ 8 * ratio)

/-- R102 to R104: an accepted calibration of a rail. -/
def startRailCal (s : State) (n : Nat) (full : Bool) : State :=
  let volts := s.get (F.RAILn_CAL_TARGET_VOLTS n)
  let ratio := railRatio s n
  let c : CalRun := { CalRun.zero with
    full := full, count := calCount (s.get (F.RAILn_FINE_CFG_CAL_AVG n)), targNum := volts * 20971520, targDen := ratio }
  (s.put (F.RAILn_CAL_STATUS_BUSY n) 1).modFine n fun g => { g with cal := some c }

/-- R102 to R104: what an average that has ended gives: the mean and the coefficient, or a status. The averaged values
are in units of 1 / `scale` code. -/
def calResult (s : State) (c : CalRun) (offset : Int) (scale : Nat) : State × Except Nat (Int × Nat) :=
  if c.n < c.count then (s, .error stCalUnstable)
  else if 8192 * (scale : Int) < c.hi - c.lo then (s, .error stCalUnstable)
  else
    let (s, mean) := s.rounded c.sum (c.count * scale)
    if c.full then
      let d := mean - offset
      let den : Int := d * (c.targDen : Int)
      if d ≤ 0 then (s, .error stCalRange)
      else if 4 * (c.targNum : Int) < 3 * den ∨ 5 * den < 4 * (c.targNum : Int) then (s, .error stCalRange)
      else
        let (s, g) := s.rounded ((c.targNum : Int) * 4194304) den.toNat
        (s, .ok (mean, g.toNat))
    else if mean < -524288 ∨ 524288 < mean then (s, .error stCalRange)
    else (s, .ok (mean, ofSigned 24 mean))

/-- LAST of a calibration status. -/
def calLast (status : Nat) : Nat := if status = stCalRange then 2 else 3

/-- R102: the average of a rail's calibration has ended: the outcome, or the coefficient that waits for the next
sample boundary. -/
def railAverageDone (s : State) (n : Nat) : State :=
  match (s.fr n).cal with
  | none => s
  | some c =>
    if !c.ended || c.commit.isSome then s
    else
      let s := if c.count ≤ c.n then
          let (s, v) := s.approx (c.hi - c.lo) 16
          s.put (F.RAILn_CAL_STATUS_SPREAD n) (min 0xFFFF v.toNat)
        else s
      match calResult s c (s.getS (F.RAILn_CAL_OFFSET_OFFSET n)) 1 with
      | (s, .error st) => endRailCal s n (calLast st) st (refusalWords noWord 0)
      | (s, .ok (mean, coef)) => s.modFine n fun g => { g with cal := some { c with commit := some (coef, mean) } }

/-- The results of a committed calibration (R399). -/
def calWords (c : CalRun) (mean : Int) (coef spread : Nat) : List Word :=
  [BitVec.ofNat 32 (ofSigned 32 mean), BitVec.ofNat 32 coef, BitVec.ofNat 32 (c.restarts * 2 ^ 24 + spread)]

/-- R105: a completed calibration commits its coefficient on the sample boundary, and 4 samples are marked. -/
def railCalCommit (s : State) (n : Nat) : State :=
  match (s.fr n).cal with
  | some c =>
    match c.commit with
    | some (coef, mean) =>
      let s := if c.full then
          (s.put (F.RAILn_CAL_GAIN_GAIN n) coef).put (F.RAILn_CAL_STATUS_FULL_DONE n) 1
        else
          ((s.put (F.RAILn_CAL_OFFSET_OFFSET n) coef).put (F.RAILn_CAL_STATUS_ZERO_DONE n) 1).put (F.RAILn_CAL_STATUS_FULL_DONE n) 0
      let s := restartFine ((s.put (F.RAILn_CAL_STATUS_STATE n) 0).endCond 12 n) n 4
      endRailCal s n 1 stOk (calWords c mean coef (s.get (F.RAILn_CAL_STATUS_SPREAD n)))
    | none => s
  | none => s

end Sys2Proof.Machine
end

