-- ==== Sys2Proof/Machine/Pool.lean ====
section
/-! DEFINITION. Pool converters, Benches and the pool calibration (spec/05_converter_benches.md). -/

namespace Sys2Proof.Machine

def State.modPool (s : State) (f : PoolState → PoolState) : State := { s with pool := f s.pool }
def State.pc (s : State) (n : Nat) : PoolConv := vget s.pool.conv n
def State.modPc (s : State) (n : Nat) (f : PoolConv → PoolConv) : State :=
  s.modPool fun p => { p with conv := vmod p.conv n f }
def State.bn (s : State) (b : Nat) : BenchState := vget s.pool.bench b
def State.modBn (s : State) (b : Nat) (f : BenchState → BenchState) : State :=
  s.modPool fun p => { p with bench := vmod p.bench b f }

def State.modAssay (s : State) (f : AssayState → AssayState) : State := { s with assay := f s.assay }

/-! ### Layout and map (R112, R124) -/

def sizeOf' (code : Nat) : Nat := match code with | 0 => 0 | 1 => 1 | 2 => 2 | _ => 4

/-- R124: the layout register value obeys the rules. -/
def layoutOk (v : Nat) : Bool :=
  let size (k : Nat) := sizeOf' ((F.BENCH_LAYOUT_SIZE k).extract v)
  if F.BENCH_LAYOUT_ALL8.extract v = 1 then (below 8).all fun k => size k == 0
  else
    ((below 8).all fun k => size k == 0 || k % size k == 0) &&
      (below 8).all fun p => ((below 8).filter fun k => decide (k ≤ p) && decide (p < k + size k)).length == 1

def allEight (s : State) : Bool := s.flag F.BENCH_LAYOUT_ALL8

/-- The positions of a Bench, rising. -/
def benchPositions (s : State) (b : Nat) : List Nat :=
  if allEight s then (if b = 0 then below 8 else [])
  else (below 8).filter fun p => decide (b ≤ p) && decide (p < b + sizeOf' (s.get (F.BENCH_LAYOUT_SIZE b)))

/-- The converter at a position; none when it is lost. -/
def posConv (s : State) (p : Nat) : Option Nat :=
  let c := s.get (F.BENCH_MAP_POS p)
  if c < 10 then some c else none

/-- The converters that serve a Bench, in position order. -/
def benchConvs (s : State) (b : Nat) : List Nat := (benchPositions s b).filterMap (posConv s)

/-- The position a converter holds. -/
def convPos (s : State) (n : Nat) : Option Nat := (below 8).find? fun p => s.get (F.BENCH_MAP_POS p) == n

/-- The Bench a position belongs to. -/
def posBench (s : State) (p : Nat) : Option Nat := (below 8).find? fun b => (benchPositions s b).contains p

/-- R126, R139: the Bench interleaves eight converters. -/
def interleaved (s : State) (b : Nat) : Bool := allEight s && b == 0 && (benchConvs s 0).length == 8

def benchState (s : State) (b : Nat) : Nat := s.get (F.BENCHb_STATUS_STATE b)
def benchStopped (s : State) (b : Nat) : Bool := benchState s b == 0

/-- `ASSAY_CONV_MISS` shows the miss counts by position (R149). -/
def syncConvMiss (s : State) : State :=
  s.forEach (below 8) fun s p =>
    s.put (F.ASSAY_CONV_MISS_POS p) (match posConv s p with | some n => min 15 (s.pc n).miss | none => 0)

/-- The registers that show map and layout. R141: a Bench that holds a converter again is not empty. -/
def syncPoolMap (s : State) : State :=
  let s := s.forEach (below 8) fun s b =>
    let s := s.put (F.BENCHb_STATUS_NCONV b) (benchConvs s b).length
    if (benchConvs s b).isEmpty then s else s.endCond 14 b
  (syncConvMiss s).forEach (below 10) fun s n =>
    match convPos s n with
    | some p => (s.put (F.PCn_STATUS_POS n) p).put (F.PCn_STATUS_BENCH n) ((posBench s p).getD 15)
    | none => (s.put (F.PCn_STATUS_POS n) 15).put (F.PCn_STATUS_BENCH n) 15

/-! ### Work on a converter (R113, R114, R118) -/

/-- A converter is taken by work. -/
def convBusy (s : State) (n : Nat) : Bool :=
  (s.pc n).work.isSome || (s.pool.pipe.isSome && (convPos s n).isSome)

/-- R118: the marks of a start. -/
def firMarks (fir : Bool) : Nat := if fir then 5 else 4

/-- The factors of every converter at a gain stage, offset and gain (R123). -/
def poolFacs (s : State) (gain : Nat) : List (Int × Nat) :=
  (below 10).map fun n => (s.getS (F.PCn_FACx_OFFSET_OFFSET n gain), s.get (F.PCn_FACx_GAIN_GAIN n gain))

/-- R123: OFFSET and GAIN of an input and gain: the pool pair for an AUX input, factory coefficients else. -/
def poolCoeff (s : State) (input gain : Nat) : Int × Nat :=
  if input < 32 then (s.getS (F.pairOffset gain input), s.get (F.pairGain gain input))
  else let (o, g) := Config.factoryCoeff input gain; (o.toInt, g.toNat)

/-- Work with the settings of its start. -/
def newWork (s : State) (kind : PcKind) (input rail gain : Nat) (fir avg shw : Bool) (total mult : Nat) : PcWork :=
  let (o, g) := poolCoeff s input gain
  { kind := kind, input := input, rail := rail, gain := gain, fir := fir, avg := avg, show' := shw, total := total
    marks := firMarks fir * mult, left := total, facs := poolFacs s gain, offset := o, coef := g, sum := 0, usum := 0
    clip := false, cm := false, fb := false, hold := false, fbNow := false, fbHist := [], t0 := s.tclk, t1 := s.tclk }

/-- The registers of a converter that starts work. -/
def showStart (s : State) (n : Nat) (w : PcWork) : State :=
  let s := ((s.put (F.PCn_STATUS_CONVERTING n) 1).put (F.PCn_STATUS_POWERED n) 1).put (F.PCn_STATUS_INPUT n) w.input
  match w.kind with
  | .entry _ inj k => (s.put (F.PCn_STATUS_ENTRY n) k).putB (F.PCn_STATUS_IN_INJ n) inj
  | _ => s.put (F.PCn_STATUS_IN_INJ n) 0

def startOn (s : State) (n : Nat) (w : PcWork) : State :=
  showStart (s.modPc n fun c => { c with work := some w }) n w

/-- R114: the registers of a converter whose work ends. -/
def showEnd (s : State) (n : Nat) : State :=
  ((s.put (F.PCn_STATUS_CONVERTING n) 0).put (F.PCn_STATUS_IN_INJ n) 0).putB (F.PCn_STATUS_POWERED n)
    (s.flag (F.PCn_CFG_KEEP_ON n))

def endOn (s : State) (n : Nat) : State := showEnd (s.modPc n fun c => { c with work := none }) n

/-! ### Scheduling inside a Bench (R125 to R135) -/

/-- STATE of a Bench that is not stopped. -/
def syncBenchState (s : State) (b : Nat) : State :=
  if benchStopped s b then s
  else
    let t := s.bn b
    (s.put (F.BENCHb_STATUS_STATE b) (if t.injOn then 3 else if t.passOn then 2 else 1)).putB
      (F.BENCHb_STATUS_DELAYING b) (t.regDelay.isSome || t.injDelay.isSome)

/-- R114: converters of a Bench that neither run nor wait for the rest of a sequence power down, but with KEEP_ON. -/
def restConvs (s : State) (b : Nat) : State :=
  if s.mode == mHoldup || (s.bn b).passOn || (s.bn b).injOn then s
  else s.forEach (benchConvs s b) fun s n =>
    if convBusy s n || s.flag (F.PCn_CFG_KEEP_ON n) then s else s.put (F.PCn_STATUS_POWERED n) 0

/-- R137: in QUIESCENT only Benches with QUIET_RUN run; in HOLDUP none does. -/
def benchQuiet (s : State) (b : Nat) : Bool :=
  s.mode == mHoldup || (s.mode == mQuiescent && !s.flag (F.BENCHb_CFG_QUIET_RUN b)) || s.mode == mStartup

/-- The regular slice of a Bench. -/
def benchLen (s : State) (b : Nat) : Nat := let l := s.get (F.BENCHb_CFG_LEN b); if l = 0 then 32 else l
def benchSlice (s : State) (b : Nat) : List Nat := (below (benchLen s b)).map (· + s.get (F.BENCHb_CFG_FIRST b))

/-- An entry's settings as work; R127: none for an entry that is skipped. -/
def entryWork (s : State) (b : Nat) (inj : Bool) (k mult : Nat) : Option PcWork :=
  let w := s.reg (if inj then R.BENCHb_INJj_CFG b k else R.BENCH_REGk_CFG k)
  let input := w / 2 ^ 26 % 64
  let gain := w / 2 ^ 18 % 4
  let n := w / 2 ^ 8 % 16
  if 45 ≤ input ∨ gain = 3 then none
  else some (newWork s (.entry b inj k) input (w / 2 ^ 20 % 64) gain (bitOf w 14) (bitOf w 13) (bitOf w 12)
    (if n = 0 then 16 else n) mult)

/-- Whether work belongs to a Bench's sequence. -/
def PcWork.isEntry (w : PcWork) (b : Nat) (inj : Bool) : Bool :=
  match w.kind with | .entry b' i _ => b' == b && i == inj | _ => false

/-- Whether an entry of the sequence runs. -/
def entryRuns (s : State) (b : Nat) (inj : Bool) : Bool :=
  (s.pool.conv.toList.any fun c => match c.work with | some w => w.isEntry b inj | none => false) ||
    (match s.pool.pipe with | some w => w.isEntry b inj | none => false)

/-- The free places of a Bench, as converters in position order; the whole pipeline counts as one. -/
def freeConvs (s : State) (b : Nat) : List Nat :=
  if interleaved s b then (if (benchConvs s b).any (convBusy s) then [] else (benchConvs s b).take 1)
  else (benchConvs s b).filter fun n => !convBusy s n

/-- PC8 and PC9 where they are spare (R314). -/
def freeConvSpares (s : State) : List Nat := [8, 9].filter fun n => s.get (F.PCn_STATUS_ROLE n) == 1

/-- R156: an Assay conversion of the Bench is due, so that no regular entry starts. -/
def assayDue (s : State) (b : Nat) : Bool := (benchConvs s b).any fun n => (s.pc n).due

/-- Starts one entry of a sequence on converter `n`, or skips it (R127). -/
def startEntry (s : State) (b : Nat) (inj : Bool) (k n : Nat) : State :=
  let pipe := interleaved s b
  match entryWork s b inj k (if pipe then 8 else 1) with
  | none => s.evtBit (F.BENCHb_STATUS_CFG_ERR b) 83
  | some w =>
    let s := if inj then s else s.put (F.BENCHb_STATUS_CUR b) k
    if pipe then
      (s.modPool fun p => { p with pipe := some w }).forEach (benchConvs s b) fun s c => showStart s c w
    else startOn s n w

/-- Starts at most one entry of a Bench; none where none can start. -/
def benchStart1 (s : State) (b : Nat) : Option State :=
  let t := s.bn b
  match freeConvs s b with
  | [] => none
  | n :: _ =>
    if benchStopped s b || benchQuiet s b then none
    else if t.injOn then
      match t.injTodo with
      | j :: rest => some (startEntry (s.modBn b fun t => { t with injTodo := rest }) b true j n)
      | [] => none
    else if t.passOn && !assayDue s b then
      match t.todo with
      | k :: rest => some (startEntry (s.modBn b fun t => { t with todo := rest }) b false k n)
      | [] => none
    else none

/-- Starts every entry of a Bench that can start now. -/
def benchFill : Nat → State → Nat → State
  | 0, s, _ => s
  | fuel + 1, s, b => match benchStart1 s b with | some s => benchFill fuel s b | none => s

/-- A regular trigger acts (R128). -/
def regFire (s : State) (b : Nat) : State :=
  let slice := benchSlice s b
  s.modBn b fun t =>
    if s.get (F.BENCHb_CFG_MODE b) = 2 then
      let i := if t.stepNext < slice.length then t.stepNext else 0
      { t with passOn := true, todo := [slice.getD i 0], stepNext := if i + 1 < slice.length then i + 1 else 0 }
    else { t with passOn := true, todo := slice }

/-- R128: the regular pass, or the entry of STEP, has run to its end. -/
def passEnds (s : State) (b : Nat) : State :=
  let mode := s.get (F.BENCHb_CFG_MODE b)
  let whole := mode != 2 || (s.bn b).stepNext == 0
  let s := if whole then
      let s := s.modBn b fun t => { t with passCnt := (t.passCnt + 1) % 512 }
      let s := s.put (F.BENCHb_STATUS_PASS_DONE b) 1
      if s.flag (F.BENCHb_CFG_EVT_PASS b) then s.event 81 else s
    else s
  let slice := benchSlice s b
  s.modBn b fun t => if mode = 1 then { t with todo := slice } else { t with passOn := false }

/-- What follows when sequences have run to their end: the pass completes first (R136), then the injected sequence,
after which a pending regular trigger acts (R131). `true` where something ended. -/
def benchEnds (s : State) (b : Nat) : State × Bool :=
  let t := s.bn b
  if t.passOn && t.todo.isEmpty && !entryRuns s b false then (passEnds s b, true)
  else if t.injOn && t.injTodo.isEmpty && !entryRuns s b true then
    let s := (s.modBn b fun t => { t with injOn := false }).evtBit (F.BENCHb_STATUS_INJ_DONE b) 80
    let s := if s.flag (F.BENCHb_STATUS_REG_PEND b) then regFire (s.put (F.BENCHb_STATUS_REG_PEND b) 0) b else s
    (s, true)
  else (s, false)

/-- A Bench goes on: entries start, and sequences that are through end. A sequence whose every entry is skipped
ends without a conversion, and CONT then tries its slice again at the next occasion. -/
def benchServe : Nat → State → Nat → State
  | 0, s, b => restConvs (syncBenchState s b) b
  | fuel + 1, s, b =>
    let s := benchFill 40 s b
    match benchEnds s b with
    | (s, true) => benchServe fuel s b
    | (s, false) => restConvs (syncBenchState s b) b

/-! ### The Assay's use of the converters (R156) -/

/-- The gain and the node level's number of a round (R148). -/
def roundGain (round : Nat) : Nat := (round - 1) / 2

/-- The Bench whose position a converter holds. -/
def convBench (s : State) (n : Nat) : Option Nat := (convPos s n).bind (posBench s)

/-- R156: a converter's Assay conversion is due; of a Bench of 8 the Assay then takes all positions together. -/
def dueHere (s : State) (n : Nat) : Bool :=
  (s.pc n).due || (match convBench s n with | some b => interleaved s b && assayDue s b | none => false)

/-- R156: an Assay conversion may start on a free converter. -/
def assayMayStart (s : State) (n : Nat) : Bool :=
  match convBench s n with
  | none => true
  | some b =>
    let t := s.bn b
    benchStopped s b || benchQuiet s b || (dueHere s n && !t.injOn) ||
      (!t.injOn && !(t.passOn && !t.todo.isEmpty) && !s.flag (F.BENCHb_STATUS_REG_PEND b) && t.regDelay.isNone && t.injDelay.isNone)

/-- R115: the input an Assay conversion takes, and the rail on the crossing bus. -/
def assayInput : PcKind → Nat × Nat
  | .railCheck r | .recheck r => (42, r)
  | .ref c => (if c then 34 else 33, 0)
  | _ => (43, 0)

/-- R148: an Assay conversion starts: four averaged samples, FIR off. -/
def assayStart (s : State) (n : Nat) (kind : PcKind) (gain : Nat) : State :=
  let (input, rail) := assayInput kind
  startOn s n (newWork s kind input rail gain false true false 4 1)

/-- The converters a waiting conversion needs; R145: the one at the lowest occupied position for a reference. -/
def jobConvs (s : State) (j : AssayJob) : List Nat :=
  match j.kind with | .ref _ => ((below 8).filterMap (posConv s)).take 1 | _ => j.convs

/-- R159: rail checks do not run in QUIESCENT. -/
def jobMode (s : State) (j : AssayJob) : Bool :=
  match j.kind with | .railCheck _ | .recheck _ => s.mode != mQuiescent | _ => true

/-- R156: what waits may start: each of its converters is free, has no conversion of the round to make first, and may
take it; `due`: only what is due. -/
def jobMay (s : State) (due : Bool) (j : AssayJob) : Bool :=
  let l := jobConvs s j
  !l.isEmpty && jobMode s j && (l.all fun n => !convBusy s n && !(s.pc n).need && assayMayStart s n) && (!due || l.any (dueHere s))

/-- A waiting conversion starts on its converters. -/
def jobStart (s : State) (j : AssayJob) : State :=
  let l := jobConvs s j
  let s := s.modAssay fun a => { a with jobs := a.jobs.erase j }
  let s := l.foldl (fun s n => assayStart (s.modPc n fun c => { c with due := false }) n j.kind j.gain) s
  match j.kind with
  | .railCheck r =>
    s.modAssay fun a => { a with checks := a.checks.filter (fun c => c.rail != r) ++ [⟨r, l.headD 0, [], none⟩] }
  | _ => s

/-- Starts the Assay conversions that may start now, those of the round first; `due`: only the due ones. -/
def assayServe (s : State) (due : Bool) : State :=
  let s := s.forEach (below 10) fun s n =>
    if (s.pc n).need && !convBusy s n && assayMayStart s n && (!due || dueHere s n) then
      assayStart s n .node (roundGain (s.get F.ASSAY_STATUS_ROUND))
    else s
  s.assay.jobs.foldl (fun s j => if jobMay s due j then jobStart s j else s) s

/-- Everything in the pool that can start, starts: due Assay conversions ahead of regular entries. -/
def poolServe (s : State) : State := assayServe ((assayServe s true).forEach (below 8) (benchServe 16)) false

/-! ### Results (R120 to R122) -/

/-- R121: a result word. -/
def poolWord (count : Nat) (settling clip cm fb hold : Bool) (code : Int) : Nat :=
  let b (x : Bool) (k : Nat) : Nat := if x then 2 ^ k else 0
  count * 2 ^ 29 + b settling 28 + b clip 27 + b cm 26 + b fb 25 + b hold 24 + ofSigned 24 code

/-- R122: keeps the tag and stamp of a write to a result register. -/
def keepLatch (s : State) (addr bench tag : Nat) : State :=
  s.modPool fun p =>
    { p with latches := p.latches.filter (fun l => l.1 != addr) ++ [(addr, bench, BitVec.ofNat 32 tag, s.ang.stamp)] }

/-- Delivers a result of an entry to its register, with its event (R120, R141). -/
def deliverPool (s : State) (w : PcWork) (pc word : Nat) : State :=
  match w.kind with
  | .entry b inj k =>
    let addr := if inj then R.BENCHb_INJj_RES b k else R.BENCH_REGk_RES k
    let tag := pc * 2 ^ 28 + w.input * 2 ^ 22 + w.rail * 2 ^ 16 + (if inj then 2 ^ 15 else 0) + k * 2 ^ 9 + (s.bn b).passCnt
    let s := s.delivers [(if inj then 304 + 4 * b + k else 256 + k, BitVec.ofNat 32 (s.reg addr))]
    let s := keepLatch (s.setReg addr word) addr b tag
    if s.flag (F.BENCHb_CFG_EVT_ENTRY b) then s.event 84 else s
  | _ => s

/-- R120: work that has its last sample delivers its mean, where it averages. -/
def deliverMean (s : State) (w : PcWork) (pc : Nat) : State :=
  if w.avg then
    let (s, m) := s.rounded w.sum w.total
    deliverPool s w pc (poolWord 0 false w.clip w.cm w.fb w.hold m)
  else s

def PcWork.through (w : PcWork) : Bool := w.marks == 0 && w.left == 0

/-- R120: the entry on converter `n` is complete. -/
def completeConv (s : State) (n : Nat) (w : PcWork) : State := (endOn (deliverMean s w n) n).addWrap (F.PCn_CNT_DONE n)

/-- R126: the entry of the pipeline is complete. The manual does not say which converter counts it: DONE counts on all
eight, and so does ABORTS for a flush (DESIGN CHOICE, log entry 86). -/
def completePipe (s : State) (w : PcWork) : State :=
  let s := (deliverMean s w 15).modPool fun p => { p with pipe := none }
  s.forEach (benchConvs s 0) fun s c => (showEnd s c).addWrap (F.PCn_CNT_DONE c)

/-! ### Aborts (R132, R134, R138) -/

/-- Puts a number into a rising list. -/
def insertNat (k : Nat) : List Nat → List Nat
  | [] => [k]
  | x :: rest => if k ≤ x then k :: x :: rest else x :: insertNat k rest

/-- The entry of aborted work is to run again (`again`), or is dropped. -/
def reinsert (s : State) (w : PcWork) (again : Bool) : State :=
  match w.kind with
  | .entry b inj k =>
    let s := s.evtBit (F.BENCHb_STATUS_ABORT_SEEN b) 82
    if !again then s
    else s.modBn b fun t => if inj then { t with injTodo := insertNat k t.injTodo } else { t with todo := insertNat k t.todo }
  | _ => s

def PcWork.entry? (w : PcWork) : Bool := match w.kind with | .entry .. => true | _ => false

/-- An Assay conversion that delivers no result, aborted or cut off, waits for its converter again (R157); a conversion of
the round is still needed. -/
def askAgain (s : State) (n : Nat) (w : PcWork) : State :=
  match w.kind with
  | .railCheck r =>
    let s := s.modAssay fun a => { a with checks := a.checks.filter fun c => c.rail != r }
    if s.assay.roundOn then s.modAssay fun a => { a with jobs := a.jobs ++ [⟨[n], .railCheck r, 0⟩] } else s
  | .recheck _ | .triage | .ref _ => s.modAssay fun a => { a with jobs := a.jobs ++ [⟨[n], w.kind, w.gain⟩] }
  | _ => s

/-- A converter's work is aborted, an entry to run again (`again`) or not. An Assay conversion is retried (R157), and shows
in ABORT_SEEN too (R134). R136: an entry whose last sample is written completes. -/
def abortConv (s : State) (n : Nat) (again : Bool) : State :=
  match (s.pc n).work with
  | none => s
  | some w =>
    if w.entry? && w.through then completeConv s n w
    else
      let s := (endOn s n).addSat (F.PCn_CNT_ABORTS n)
      if w.entry? then reinsert s w again
      else
        let s := askAgain s n w
        match convBench s n with | some b => s.evtBit (F.BENCHb_STATUS_ABORT_SEEN b) 82 | none => s

/-- R126: the pipeline is flushed. -/
def abortPipe (s : State) (again : Bool) : State :=
  match s.pool.pipe with
  | none => s
  | some w =>
    if w.through then completePipe s w
    else
      let s := s.modPool fun p => { p with pipe := none }
      let s := s.forEach (benchConvs s 0) fun s n => (showEnd s n).addSat (F.PCn_CNT_ABORTS n)
      reinsert s w again

/-- R134: every entry and Assay conversion on a Bench's converters is aborted, entries to run again; the converters stay
powered. -/
def abortBench (s : State) (b : Nat) : State :=
  s.forEach (benchConvs s b) fun s n =>
    match (s.pc n).work with
    | some w => if w.kind == .cal then s else (abortConv s n true).put (F.PCn_STATUS_POWERED n) 1
    | none => s

/-- R132, R137: every running entry of a Bench is aborted without a result; `assay`: Assay conversions too (R157). -/
def dropEntries (s : State) (b : Nat) (assay : Bool) : State :=
  let s := if allEight s && b == 0 then abortPipe s false else s
  s.forEach (benchConvs s b) fun s n =>
    match (s.pc n).work with
    | some w => if w.entry? || (assay && w.kind != .cal) then abortConv s n false else s
    | none => s

/-- Sequences, pending triggers and delays of a Bench are discarded. -/
def discardBench (s : State) (b : Nat) : State :=
  (s.modBn b fun t =>
    { t with regDelay := none, injDelay := none, passOn := false, todo := [], injOn := false, injTodo := [] }).put
    (F.BENCHb_STATUS_REG_PEND b) 0

/-- R132: STOP. -/
def benchStop (s : State) (b : Nat) : State :=
  let s := discardBench (dropEntries s b true) b
  poolServe ((s.put (F.BENCHb_STATUS_STATE b) 0).put (F.BENCHb_STATUS_DELAYING b) 0)

/-! ### START and triggers (R127 to R131) -/

/-- R127: START is refused. -/
def benchStartRefused (s : State) (b : Nat) : Bool :=
  let slice := benchSlice s b
  (benchConvs s b).isEmpty || slice.any (fun k => decide (47 < k)) ||
    ((below 8).any fun c => c != b && !benchStopped s c && (benchSlice s c).any slice.contains) ||
    s.get (F.BENCHb_CFG_MODE b) == 3 || (match s.pool.cal with | some c => c.bench == b | none => false) ||
    s.mode == mHoldup

/-- R127: START arms the Bench, or sets CFG_ERR. On a Bench armed or running already it clears ROVR, IOVR and the pass count,
and the run goes on (DESIGN CHOICE, log entry 87). R37: the angle targets of its triggers are armed with it. -/
def benchStart (s : State) (b : Nat) : State :=
  if benchStartRefused s b then s.evtBit (F.BENCHb_STATUS_CFG_ERR b) 83
  else
    let s := ((s.put (F.BENCHb_STATUS_ROVR b) 0).put (F.BENCHb_STATUS_IOVR b) 0).modBn b fun t => { t with passCnt := 0 }
    if benchStopped s b then
      (s.modBn b fun t => { t with stepNext := 0, regFrom := s.ang.stamp, injFrom := s.ang.stamp }).put (F.BENCHb_STATUS_STATE b) 1
    else s

/-- A regular trigger acts, or is held as pending while the injected sequence runs and no pass runs (R131). -/
def regAct (s : State) (b : Nat) : State :=
  if (s.bn b).injOn && !(s.bn b).passOn then syncBenchState (s.put (F.BENCHb_STATUS_REG_PEND b) 1) b
  else poolServe (regFire s b)

/-- R130: the delay of a trigger detected now; none where it acts at once. With SRC = 0b0010 no delay applies (R129). -/
def trigDelay (s : State) (b : Nat) (inj : Bool) : Option TrigDelay :=
  let (src, delay, ang) := if inj then (s.get (F.BENCHb_ITRIG_SRC b), s.get (F.BENCHb_ITRIG_DELAY b), s.flag (F.BENCHb_ITRIG_DLY_ANG b))
    else (s.get (F.BENCHb_TRIG_SRC b), s.get (F.BENCHb_TRIG_DELAY b), s.flag (F.BENCHb_TRIG_DLY_ANG b))
  if src = 2 ∨ delay = 0 then none
  else if ang then some (.angle (s.ang.stamp + BitVec.ofNat 48 delay))
  else some (.tclk (s.tclk + (128 * delay + 124) / 125))

/-- R130, R39: a delay has run out. -/
def TrigDelay.over (d : TrigDelay) (s : State) : Bool :=
  match d with | .tclk due => decide (due ≤ s.tclk) | .angle t => s.angRun && stampReached s.ang.stamp t

/-- R131: a regular trigger arrives. In CONT one that meets the first trigger's delay, or a pending trigger, is a later
trigger of R128, ignored and not counted, where R131 would count it (DESIGN CHOICE, log entry 88). -/
def regTrigger (s : State) (b : Nat) : State :=
  let t := s.bn b
  let mode := s.get (F.BENCHb_CFG_MODE b)
  let pend := s.flag (F.BENCHb_STATUS_REG_PEND b)
  if benchStopped s b || benchQuiet s b then s
  else if mode = 1 && (t.passOn || t.regDelay.isSome || pend) then s
  else if t.regDelay.isSome || pend || t.passOn then s.addSat (F.BENCHb_STATUS_ROVR b)
  else
    match trigDelay s b false with
    | none => regAct s b
    | some d => syncBenchState (s.modBn b fun t => { t with regDelay := some d }) b

/-- An injected trigger acts (R133 to R135). -/
def injAct (s : State) (b : Nat) : State :=
  let s := s.modBn b fun t => { t with injOn := true, injTodo := below (s.get (F.BENCHb_CFG_INJ_LEN b) + 1) }
  let s := if s.flag (F.BENCHb_ITRIG_URGENT b) && !interleaved s b then abortBench s b else s
  poolServe s

/-- R131: an injected trigger arrives. -/
def injTrigger (s : State) (b : Nat) : State :=
  let t := s.bn b
  if benchStopped s b || benchQuiet s b then s
  else if t.injDelay.isSome || t.injOn then s.addSat (F.BENCHb_STATUS_IOVR b)
  else
    match trigDelay s b true with
    | none => injAct s b
    | some d => syncBenchState (s.modBn b fun t => { t with injDelay := some d }) b

/-- R130: a trigger's delay ends where it has run out. -/
def delayEnd (s : State) (b : Nat) (inj : Bool) : State :=
  match (if inj then (s.bn b).injDelay else (s.bn b).regDelay) with
  | some d =>
    if !d.over s then s
    else if inj then injAct (s.modBn b fun t => { t with injDelay := none }) b
    else regAct (s.modBn b fun t => { t with regDelay := none }) b
  | none => s

/-- The delays of every Bench that run out, the injected ones first (R136). -/
def delaysEnd (s : State) : State := s.forEach (below 8) fun s b => delayEnd (delayEnd s b true) b false

/-- R129: a source triggers the Benches that select it: the injected trigger first (R136). -/
def sourceTrigger (s : State) (src sel : Nat) (edgeOk : Nat → Bool) : State :=
  s.forEach (below 8) fun s b =>
    let i := s.get (F.BENCHb_ITRIG_SRC b) == src && s.get (F.BENCHb_ITRIG_SEL b) == sel && edgeOk (s.get (F.BENCHb_ITRIG_EDGE b))
    let r := s.get (F.BENCHb_TRIG_SRC b) == src && s.get (F.BENCHb_TRIG_SEL b) == sel && edgeOk (s.get (F.BENCHb_TRIG_EDGE b))
    let s := if i then injTrigger s b else s
    if r then regTrigger s b else s

/-- R129: a PWM_SYNC input takes a level. -/
def pwmSyncEdge (s : State) (sel : Nat) (level : Bool) : State :=
  if s.pool.pwm.getLsbD sel == level then s
  else
    let s := s.modPool fun p => { p with pwm := p.pwm ^^^ (1#4 <<< sel) }
    sourceTrigger s 3 sel fun e => if level then e == 1 || e == 3 else e == 2 || e == 3

/-- R129, R37: the per-cycle angle target of a Bench's trigger matches, once in each stamp cycle. -/
def benchAngle (s : State) (b : Nat) (inj : Bool) : State :=
  let (src, since, target) := if inj then (s.get (F.BENCHb_ITRIG_SRC b), (s.bn b).injFrom, s.get (F.BENCHb_ITRIG_TARGET b))
    else (s.get (F.BENCHb_TRIG_SRC b), (s.bn b).regFrom, s.get (F.BENCHb_TRIG_TARGET b))
  if src = 2 && !benchStopped s b && angleReached s since target then
    if inj then injTrigger (s.modBn b fun t => { t with injFrom := s.ang.stamp }) b
    else regTrigger (s.modBn b fun t => { t with regFrom := s.ang.stamp }) b
  else s

/-- The angle targets of every Bench, the injected triggers first (R136). -/
def benchAngles (s : State) : State := s.forEach (below 8) fun s b => benchAngle (benchAngle s b true) b false

/-- R143: with SRC = 0b0010 bits [23:20] of a trigger register are reserved. -/
def dropReserved (s : State) (a : Nat) : State :=
  let w := s.reg a
  if w / 2 ^ 24 % 16 = 2 then s.setReg a (w / 2 ^ 24 * 2 ^ 24 + w % 2 ^ 20) else s

/-- R37: a trigger register has been written, and its angle target is armed. -/
def trigWritten (s : State) (b : Nat) (inj : Bool) : State :=
  (dropReserved s (if inj then R.BENCHb_ITRIG b else R.BENCHb_TRIG b)).modBn b fun t =>
    if inj then { t with injFrom := s.ang.stamp } else { t with regFrom := s.ang.stamp }

/-! ### Samples and results (R120 to R123) -/

/-- R123: u of a sample, in units of 2^-22 code. -/
def poolU (w : PcWork) (n : Nat) (raw : Int) : Int :=
  let (o, g) := w.facs.getD n (0, 0)
  (raw - o) * (g : Int)

/-- R123: the calibrated code and whether it exceeds its range. -/
def poolCode (s : State) (w : PcWork) (u : Int) : State × Int × Bool :=
  let (s, v) := s.rounded ((u - w.offset * 4194304) * (w.coef : Int)) 17592186044416
  (s, clampInt codeMin codeMax v, decide (v < codeMin ∨ codeMax < v))

/-- R121: the modulator of a converter is overloaded at this sample. -/
def poolOverload (s : State) (n : Nat) : State :=
  let b := (convBench s n).getD 0
  s.raiseOnce 13 0 0 n (n + 16 * b)

/-- R121: the output periods before the present one that a sample's window holds; the combined stream of the Bench of 8 has
eight in each. -/
def PcWork.windowBack (w : PcWork) (piped : Bool) : Nat :=
  let periods := if w.fir then 5 else 3
  (if piped then 8 * periods else periods) - 1

/-- A sample of the work `w` on converter `n`: the state, with results delivered, the work after it, and whether the sample
is valid but for its marks. `ovl`: the sample overlaps an overload, `cmOut`: the AUXCOM input was outside its band (R116). -/
def sampleWork (s : State) (w : PcWork) (n : Nat) (piped : Bool) (raw : Int) (ovl cmOut : Bool) : State × PcWork × Bool :=
  let u := poolU w n raw
  let (s, code, beyond) := poolCode s w u
  let fbThis := w.fbNow || s.flag F.CLK_STATUS_FALLBACK
  let fb := fbThis || (w.fbHist.take (w.windowBack piped)).any id
  let clip := ovl || beyond
  let hold := s.holdover
  let pc := if piped then 15 else n
  let s := if ovl then poolOverload s n else s
  let w := { w with fbNow := false, fbHist := (fbThis :: w.fbHist).take 40
                    t0 := if 0 < w.marks then s.tclk else w.t0, t1 := if 0 < w.left then s.tclk else w.t1 }
  let good := !clip && !cmOut
  if 0 < w.marks then
    let count := if piped then (w.marks - 1) / 8 else w.marks - 1
    let s := if w.show' then deliverPool s w pc (poolWord count true clip cmOut fb hold code) else s
    (s, { w with marks := w.marks - 1 }, good)
  else if w.left = 0 then (s, w, good)
  else
    let s := if good then s.endCond 13 n else s
    let s := if w.avg then s else deliverPool s w pc (poolWord 0 false clip cmOut fb hold code)
    (s, { w with left := w.left - 1, sum := w.sum + code, usum := w.usum + u, clip := w.clip || clip, cm := w.cm || cmOut
                 fb := w.fb || fb, hold := w.hold || hold }, good)

/-- R140, R102: a sample of the pool calibration, on work `w` before it. The marked samples of its start take time only;
later ones, after a fallback, restart the block as every invalid sample does (R106). -/
def sampleCal (s : State) (w w' : PcWork) (n : Nat) (raw : Int) (good : Bool) : State :=
  let live := match s.pool.cal with | some c => c.live | none => false
  if 0 < w.marks && !live then s
  else
    let s := s.modPc n fun c => { c with work := some { w' with left := 1 } }
    s.modPool fun p => { p with cal := p.cal.map fun c =>
      { c with live := true, run := c.run.add (good && w.marks == 0) (poolU w n raw) } }

/-- POOL_SAMPLE: a sample boundary of a converter. -/
def poolSample (s : State) (n : Nat) (raw : Int) (ovl cmOut : Bool) : State :=
  match (s.pc n).work with
  | some w =>
    let (s, w', good) := sampleWork s w n false raw ovl cmOut
    let s := s.modPc n fun c => { c with work := some w' }
    if w.kind == .cal then sampleCal s w w' n raw good else s
  | none =>
    match s.pool.pipe with
    | some w =>
      if (convPos s n).isSome then
        let (s, w', _) := sampleWork s w n true raw ovl cmOut
        s.modPool fun p => { p with pipe := some w' }
      else s
    | none => s

/-- ENTRY_COMPLETE: the entry on converter `n`, or of its pipeline, is complete, and the Bench goes on. -/
def entryComplete (s : State) (n : Nat) : State :=
  match (s.pc n).work with
  | some w => if w.entry? && w.through then poolServe (completeConv s n w) else s
  | none =>
    match s.pool.pipe with
    | some w => if w.through && (convPos s n).isSome then poolServe (completePipe s w) else s
    | none => s

/-- R122: a read of a pool result register latches the tag and stamp of the write that made its value. -/
def poolResultRead (s : State) (p : Port) (addr : Nat) : State :=
  match s.pool.latches.find? fun l => l.1 == addr with
  | some (_, b, tag, st) =>
    ((s.latch p (R.BENCHb_RTAG b) tag.toNat).latch p (R.BENCHb_RSTAMP_HI b) (stampHi st)).latch p (R.BENCHb_RSTAMP_LO b)
      (stampLo st)
  | none => s

/-! ### Modes, hold-up and lost converters (R137 to R139) -/

/-- R137: entry to QUIESCENT. What the Bench had begun, a pass, a CONT run, a pending trigger or a delay, does not go on
afterwards: the manual keeps only the armed state (DESIGN CHOICE, log entry 89). -/
def poolQuiescent (s : State) : State :=
  s.forEach (below 8) fun s b =>
    if benchStopped s b || s.flag (F.BENCHb_CFG_QUIET_RUN b) then s
    else restConvs (syncBenchState (discardBench (dropEntries s b false) b) b) b

/-- R137: entry to HOLDUP: every Bench stops, every converter but the one at the lowest position powers down. -/
def poolHoldup (s : State) : State :=
  let s := s.forEach (below 8) fun s b =>
    let s := discardBench (dropEntries s b false) b
    (s.put (F.BENCHb_STATUS_STATE b) 0).put (F.BENCHb_STATUS_DELAYING b) 0
  let keep := ((below 8).filterMap (posConv s)).head?
  s.forEach (below 10) fun s n =>
    let s := s.modPc n fun c => { c with work := none, need := false, due := false }
    let s := (s.put (F.PCn_STATUS_CONVERTING n) 0).put (F.PCn_STATUS_IN_INJ n) 0
    s.putB (F.PCn_STATUS_POWERED n) (keep == some n)

/-- R137: a conversion of the hold-up input in HOLDUP. -/
def holdupConversion (s : State) (raw : Int) (ovl cmOut : Bool) : State :=
  match ((below 8).filterMap (posConv s)).head? with
  | some n =>
    if s.mode == mHoldup && s.flag F.POOL_HU_CFG_EN then
      let g := s.get F.POOL_HU_CFG_GAIN
      let w := newWork s .node (s.get F.POOL_HU_CFG_AUX) 0 (if g = 3 then 0 else g) false false false 1 1
      let (s, code, beyond) := poolCode s w (poolU w n raw)
      let s := if ovl then poolOverload s n else s
      let s := if !ovl && !beyond && !cmOut then s.endCond 13 n else s
      let s := s.delivers [(336, BitVec.ofNat 32 (s.reg R.POOL_HU_RES))]
      s.setReg R.POOL_HU_RES (poolWord 0 false (ovl || beyond) cmOut (s.flag F.CLK_STATUS_FALLBACK) s.holdover code)
    else s
  | none => s

/-! ### Pool calibration (R140) -/

/-- Whether a command is the pool form of a calibration. -/
def isPoolCal (c : Cmd) : Bool := (c.opcode == 0x0200 || c.opcode == 0x0201) && bitOf (c.params.headD 0).toNat 31

/-- R105, R140: the pool calibration ends. -/
def endPoolCal (s : State) (last status : Nat) (results : List Word) : State :=
  let s := match s.pool.cal with
    | some c => (endOn s c.conv).modPool fun p => { p with cal := none }
    | none => s
  let s := (s.put F.POOL_CAL_STATUS_BUSY 0).put F.POOL_CAL_STATUS_LAST last
  poolServe (finishC s isPoolCal status results)

def abortPoolCal (s : State) : State :=
  if s.pool.cal.isSome then endPoolCal s 3 stCalAborted (refusalWords noWord 0) else s

/-- R399: the status that refuses a pool calibration on a Bench at execution, if one does. -/
def poolCalRefusal (s : State) (b : Nat) : Option Nat :=
  if s.pool.cal.isSome then some stCalBusy
  else if !benchStopped s b || (benchConvs s b).isEmpty then some stBenchRefused
  else none

def gainFactor (g : Nat) : Nat := match g with | 0 => 1 | 1 => 4 | _ => 16

/-- R140: the target, in units of 2^-22 V, lies from 0.5 to 1.0 of the gain's full scale of 2.048 V / G. -/
def poolTargetOk (volts : Int) (g : Nat) : Bool :=
  let v := volts * (gainFactor g : Nat) * 1000
  decide (1024 * 4194304 ≤ v ∧ v ≤ 2048 * 4194304)

/-- R140: an accepted pool calibration of a pair on a Bench. An Assay conversion on the converter it needs is aborted, and
retried later: the manual does not say which of the two waits (DESIGN CHOICE, log entry 90). -/
def startPoolCal (s : State) (b gain aux : Nat) (full : Bool) : State :=
  let volts := s.getS F.POOL_CAL_TARGET_VOLTS
  match (benchConvs s b).head? with
  | none => s
  | some n =>
    let s := abortConv s n true
    let run : CalRun := { CalRun.zero with
      full := full, count := calCount (s.get F.POOL_CAL_IDX_CAL_AVG)
      targNum := (volts * (gainFactor gain : Nat) * 125).toNat, targDen := 128 }
    let s := (s.put F.POOL_CAL_STATUS_BUSY 1).modPool fun p => { p with cal := some ⟨b, n, gain, aux, run, false⟩ }
    startOn s n (newWork s .cal aux 0 gain false true false 1 1)

/-- R102: the pool calibration's average has ended. -/
def poolAverageDone (s : State) : State :=
  match s.pool.cal with
  | none => s
  | some c =>
    if !c.run.ended || c.run.commit.isSome then s
    else
      let s := if c.run.count ≤ c.run.n then
          let (s, v) := s.approx (c.run.hi - c.run.lo) 67108864
          s.put F.POOL_CAL_STATUS_SPREAD (min 0xFFFF v.toNat)
        else s
      match calResult s c.run (s.getS (F.pairOffset c.gain c.aux)) 4194304 with
      | (s, .error st) => endPoolCal s (calLast st) st (refusalWords noWord 0)
      | (s, .ok (mean, coef)) =>
        s.modPool fun p => { p with cal := some { c with run := { c.run with commit := some (coef, mean) } } }

/-- POOL_CAL_STATUS.STATE shows the indexed pair. -/
def poolCalIdx (s : State) : Nat × Nat :=
  let g := s.get F.POOL_CAL_IDX_GAIN
  (if g = 3 then 0 else g, s.get F.POOL_CAL_IDX_AUX)

/-- R105, R140: the pool calibration commits to its pair. -/
def poolCalCommit (s : State) : State :=
  match s.pool.cal with
  | some c =>
    match c.run.commit with
    | some (coef, mean) =>
      let s := if c.run.full then s.put (F.pairGain c.gain c.aux) coef else s.put (F.pairOffset c.gain c.aux) coef
      let s := (s.put (F.pairState c.gain c.aux) 0).endCond 15 0
      endPoolCal s 1 stOk (calWords c.run mean coef (s.get F.POOL_CAL_STATUS_SPREAD))
    | none => s
  | none => s

/-- R142: a write of an indexed coefficient. -/
def poolCoeffWrite (s : State) (gain : Bool) (v : Nat) : State :=
  let (g, a) := poolCalIdx s
  let s := if gain then s.put (F.pairGain g a) v else s.put (F.pairOffset g a) v
  s.put (F.pairState g a) 0

/-- R142: whether a calibration runs on the indexed pair. -/
def poolPairBusy (s : State) : Bool :=
  match s.pool.cal with | some c => poolCalIdx s == (c.gain, c.aux) | none => false

/-- A converter leaves its position: its work aborts, a pool calibration on it ends, and the Assay asks nothing more of it. -/
def convLeaves (s : State) (n : Nat) : State :=
  let s := if (match s.pool.cal with | some c => c.conv == n | none => false) then abortPoolCal s else s
  let s := if s.pool.pipe.isSome then abortPipe s true else abortConv s n true
  let s := s.modPc n fun c => { c with need := false, due := false }
  let s := s.modAssay fun a => { a with jobs := a.jobs.filter fun j => !j.convs.contains n || (match j.kind with | .ref _ => true | _ => false) }
  (s.put (F.PCn_STATUS_ROLE n) 2).put (F.PCn_STATUS_POWERED n) 0

/-- R138: a spare converter takes the position of a worn one: work aborts and runs again, and a pool calibration on it
ends. -/
def convSubstitute (s : State) (pos spare : Nat) : State :=
  let s := match posConv s pos with | some n => convLeaves s n | none => s
  poolServe (syncPoolMap ((s.put (F.BENCH_MAP_POS pos) spare).put (F.PCn_STATUS_ROLE spare) 0))

/-- R139: a position is lost with no spare free. -/
def convLost (s : State) (pos : Nat) : State :=
  let b := (posBench s pos).getD 0
  let s := match posConv s pos with | some n => convLeaves s n | none => s
  let s := syncPoolMap (s.put (F.BENCH_MAP_POS pos) 15)
  if (benchConvs s b).isEmpty then
    let s := (discardBench s b).put (F.BENCHb_STATUS_STATE b) 0
    (s.put (F.BENCHb_STATUS_DELAYING b) 0).raiseOnce 14 0 1 b (16 * b)
  else poolServe s

end Sys2Proof.Machine
end

