-- ==== Sys2Proof/Machine/Spare.lean ====
section
/-! DEFINITION. Spare capacity: guard proofs, slice and converter substitution, worn references and SRAM rows,
degradation (spec/03_rail_guard.md R79, R80; spec/04_rail_fine_path.md R108, R109; spec/12_twins_spares.md R313 to
R320). -/

namespace Sys2Proof.Machine

def State.modSpare (s : State) (f : SpareState → SpareState) : State := { s with spare := f s.spare }

/-- The slice that serves a rail, as `ASSAY_SF_IDX` numbers it (R81). -/
def sliceOf (s : State) (n : Nat) : Nat :=
  let v := s.get (F.RAILn_GUARD_STATUS_SLICE n)
  if v = 0 then n else 63 + v

/-- R314: a spare slice is free: in no service, not worn, and its last check did not miss. -/
def spareFree (s : State) (k : Nat) : Bool := s.get (F.SPAREk_STATUS_STATE k) == 0 && !s.spare.lastBad.getLsbD k

def freeSpares (s : State) : List Nat := (below 8).filter (spareFree s)

/-- The spare control's registers. -/
def syncSpares (s : State) : State :=
  let s := (s.put F.SPR_STATUS_FREE_SLICES (freeSpares s).length).put F.SPR_STATUS_FREE_CONV (freeConvSpares s).length
  let s := s.putB F.SPR_STATUS_VREF_C_FREE (s.spare.vrefRole == 0 && !s.spare.vrefWorn.getLsbD 2)
  (s.putB F.SPR_STATUS_BUSY s.spare.sub.isSome).put F.SPR_STATUS_QUEUED (s.spare.slices.length + s.spare.convs.length)

/-- R320: the spare-use map has changed and is to be written. -/
def mapChanged (s : State) : State := syncSpares (s.modSpare fun p => { p with mapPend := true })

/-- R319: a degradation: spares exhausted, whose condition stands as long as the degradation. -/
def degraded (s : State) (kind part : Nat) : State :=
  mapChanged ((s.raiseOnce 54 kind 1 (kind * 256 + part) part).evtBit F.TWIN_EVT_DEGRADED 143)

/-! ### Worn rail slices (R79, R314, R319) -/

/-- R319: the rail's slice is worn and no spare is free. A failed comparator leaves the rail unsupervised; else the
fine path goes out of service. R320: the map shows the rail's own slice as worn. -/
def degradeSlice (s : State) (n : Nat) (cmp : Option Bool) : State :=
  let s := s.endCond 53 n
  let part := sliceOf s n
  let s := s.endCond 17 (256 + n)
  let s := if part = n then s.modSpare fun p => { p with wornRails := p.wornRails ||| (1#64 <<< n) } else s
  match cmp with
  | some uv => mapChanged ((s.raise 8 (if uv then 1 else 0) 2 n n).evtBit F.TWIN_EVT_DEGRADED 143)
  | none =>
    degraded ((fineOutOfService s n).modSpare fun p => { p with guardOnly := p.guardOnly ||| (1#64 <<< n) }) 0 part

/-- The substitution in progress is this rail's. -/
def substOf (s : State) (n : Nat) : Bool := match s.spare.sub with | some b => b.rail == n | none => false

/-- R314: a rail's slice is declared worn: it joins the queue, or the device degrades. -/
def declareSlice (s : State) (n : Nat) (cmp : Option Bool) : State :=
  if s.spare.slices.any (fun e => e.1 == n) then s
  else if substOf s n then s
  else if s.spare.slices.length < (freeSpares s).length then
    syncSpares (s.modSpare fun p => { p with slices := p.slices ++ [(n, cmp)] })
  else degradeSlice s n cmp

/-! ### Guard proofs (R79) -/

/-- R79: the latest valid fine result in guard codes (R89). -/
def proofCode (s : State) (n : Nat) : Option Int := (s.fr n).lastValid.map (· / 2048)

/-- R79: a scheduled proof starts, or is skipped; one that shows a comparator stuck asserted is never skipped. -/
def proofStart (s : State) (n : Nat) (uv : Bool) : State :=
  let skip := s.addSat (F.RAILn_PROOF_SKIP_CNT n)
  let t := (s.gr n).eff
  let raw := s.flag (if uv then F.RAILn_GUARD_STATUS_UV_RAW n else F.RAILn_GUARD_STATUS_OV_RAW n)
  if !railUse s n || (s.gr n).proof.isSome ||
      s.flag (if uv then F.RAILn_GUARD_STATUS_UV_FAILED n else F.RAILn_GUARD_STATUS_OV_FAILED n) then s
  else
    match proofCode s n with
    | none => skip
    | some r =>
      let safe : Int := if uv then r - (t.uv : Nat) else ((t.ov : Nat) : Int) - r
      let stuck := raw && decide (32 ≤ safe)
      if !stuck && (raw || s.flag (F.RAILn_GUARD_STATUS_SUBST n) ||
          (if uv then decide (4095 < r + 32) else decide (r - 32 < 0))) then skip
      else s.modGuard n fun g => { g with proof := some ⟨uv, stuck, false⟩ }

/-- R79: a comparator is declared failed. -/
def comparatorFailed (s : State) (n : Nat) (uv : Bool) : State :=
  let s := s.put (if uv then F.RAILn_GUARD_STATUS_UV_FAILED n else F.RAILn_GUARD_STATUS_OV_FAILED n) 1
  let v := s.get (F.RAILn_GUARD_STATUS_SLICE n)
  let s := if v = 0 then s else
    s.put (if uv then F.SPAREk_STATUS_UV_FAILED (v - 1) else F.SPAREk_STATUS_OV_FAILED (v - 1)) 1
  let s := refreshOut s n
  let s := if s.spare.slices.length < (freeSpares s).length || s.spare.slices.any (fun e => e.1 == n) || substOf s n then
      s.raise 7 (if uv then 1 else 0) 0 n n
    else s
  declareSlice s n (some uv)

/-- R79: 1.5 µs into the proof: the raw output is sampled and the threshold restored. -/
def proofSample (s : State) (n : Nat) (asserted : Bool) : State :=
  match (s.gr n).proof with
  | some p =>
    if p.sampled then s
    else
      let s := s.modGuard n fun g => { g with proof := some { p with sampled := true } }
      let miss := if p.uv then F.RAILn_PROOF_UV_MISS n else F.RAILn_PROOF_OV_MISS n
      if asserted && !p.stuck then (s.put miss 0).put (F.RAILn_PROOF_LAST_OK n) 1
      else
        let s := (s.addSat miss).put (F.RAILn_PROOF_LAST_OK n) 0
        let s := s.evtBit (F.RAILn_GUARD_EVT_PROOF_FAIL n) 69
        if s.get miss = 3 then comparatorFailed s n p.uv else s
  | none => s

/-- R79: 1 µs after the restore the filter is unfrozen. -/
def proofEnd (s : State) (n : Nat) : State :=
  match (s.gr n).proof with
  | some p => if p.sampled then refreshRaw (s.modGuard n fun g => { g with proof := none }) n else s
  | none => s

/-! ### Slice substitution (R80, R108, R109, R314 to R316) -/

/-- R109, R155: the coefficients the spare takes from the worn slice's. -/
def transferCoeffs (s : State) (n k : Nat) : State × Int × Nat :=
  let w := sliceOf s n
  let x := 64 + k
  let gw := s.get (F.sfGain w)
  let gx := s.get (F.sfGain x)
  let off := s.getS (F.RAILn_CAL_OFFSET_OFFSET n)
  if gw = 0 ∨ gx = 0 then
    let (s, a) := s.unstated 24
    let (s, b) := s.unstated 24
    (s, toSigned 24 a, b)
  else
    let (s, o) := s.rounded ((off - s.getS (F.sfOffset w)) * (gx : Int)) gw
    let (s, g) := s.rounded ((s.get (F.RAILn_CAL_GAIN_GAIN n) * gw : Nat) : Int) gx
    (s, clampInt codeMin codeMax (s.getS (F.sfOffset x) + o), min (2 ^ 24 - 1) g.toNat)

/-- R315: spares that fail their check are marked worn, until one passes; none where every free one fails. -/
def pickSpare (s : State) (n : Nat) (checkOk : BitVec 8) : List Nat → State × Option Nat
  | [] => (s, none)
  | k :: rest =>
    if checkOk.getLsbD k then (s, some k)
    else
      let s := (s.put (F.SPAREk_STATUS_STATE k) 2).evtBit F.TWIN_EVT_SUB_FAIL 142
      pickSpare (mapChanged (s.raise 53 0 0 n (64 + k))) n checkOk rest

/-- SUBSTITUTION_START: step 1 of R80 for the first queued slice; `checkOk` tells which spares pass their supply and
bias check. R109: the rail's coefficients become the spare's; the worn slice's serve its last samples (R108). -/
def substStart (s : State) (checkOk : BitVec 8) : State :=
  match s.spare.slices with
  | [] => s
  | (n, cmp) :: rest =>
    if s.spare.sub.isSome || s.mode == mHoldup then s
    else
      let s := (s.modSpare fun p => { p with slices := rest }).evtBit F.TWIN_EVT_SUB_START 140
      match pickSpare s n checkOk (freeSpares s) with
      | (s, none) => syncSpares (degradeSlice s n cmp)
      | (s, some k) =>
        let s := abortRailCal s n
        let (s, o, g) := transferCoeffs s n k
        let worn := coeffsInUse s n
        let s := ((s.putS (F.RAILn_CAL_OFFSET_OFFSET n) o).put (F.RAILn_CAL_GAIN_GAIN n) g).put (F.RAILn_CAL_STATUS_STATE n) 1
        let s := s.modSpare fun p => { p with sub := some ⟨n, k, 1⟩ }
        let s := (s.put (F.SPAREk_STATUS_STATE k) 1).put (F.SPAREk_STATUS_RAIL k) n
        let s := (s.put (F.RAILn_GUARD_STATUS_SUBST n) 1).modGuard n fun g =>
          { g with spOv := false, spUv := false, cntSpOv := 0, cntSpUv := 0 }
        syncSpares (s.modFine n fun g => { g with outage := 1, worn := some worn })

/-- R80 step 6: the worn slice's outputs leave, and SLICE shows the spare. The spare's comparators start with no failed
proof: the manual does not say whether OV_MISS and UV_MISS carry over (DESIGN CHOICE, log entry 83). -/
def substStep6 (s : State) (b : Subst) : State :=
  let n := b.rail
  let w := s.get (F.RAILn_GUARD_STATUS_SLICE n)
  let s := if w = 0 then s.modSpare fun p => { p with wornRails := p.wornRails ||| (1#64 <<< n) }
    else s.put (F.SPAREk_STATUS_STATE (w - 1)) 2
  let s := (s.put (F.RAILn_GUARD_STATUS_SLICE n) (b.spare + 1)).put (F.RAILn_GUARD_STATUS_SUBST n) 0
  let s := (s.put (F.RAILn_GUARD_STATUS_OV_FAILED n) 0).put (F.RAILn_GUARD_STATUS_UV_FAILED n) 0
  let s := (s.put (F.RAILn_PROOF_OV_MISS n) 0).put (F.RAILn_PROOF_UV_MISS n) 0
  refreshOut (s.modGuard n fun g =>
    { g with ownOv := g.spOv, ownUv := g.spUv, cntOv := g.cntSpOv, cntUv := g.cntSpUv, spOv := false, spUv := false
             cntSpOv := 0, cntSpUv := 0 }) n

/-- R80 step 7: the worn slice leaves; R108: the spare's first samples are marked, and carry SUBST until one is valid. -/
def substStep7 (s : State) (b : Subst) : State :=
  let n := b.rail
  let s := s.modFine n fun g => { g with outage := if s.flag (F.RAILn_FINE_STATE_OOS n) then 0 else 2, worn := none }
  let s := if fineRun s n then restartFine s n 4 else s
  let s := ((s.endCond 7 n).endCond 53 n).endCond 17 (256 + n)
  let s := (s.modSpare fun p => { p with sub := none }).evtBit F.TWIN_EVT_SUB_DONE 141
  mapChanged s

/-- SUBSTITUTION_STEP: the next timed stage of R80. At step 3 the spare's filters start, a bypassed one at once (R64). -/
def substStep (s : State) : State :=
  match s.spare.sub with
  | none => s
  | some b =>
    let s := s.modSpare fun p => { p with sub := some { b with step := b.step + 1 } }
    if b.step = 5 then substStep6 s b
    else if b.step = 6 then substStep7 s b
    else if b.step = 2 then refreshRaw s b.rail
    else s

/-! ### Converters (R138, R139, R314) -/

/-- R314: a converter is declared worn. A spare is offered no more; a working one joins the queue, or its position is
lost. -/
def declareConv (s : State) (n : Nat) : State :=
  let s := s.modSpare fun p => { p with wornConvs := p.wornConvs ||| (1#10 <<< n) }
  match convPos s n with
  | none => mapChanged ((s.put (F.PCn_STATUS_ROLE n) 2).endCond 17 (128 + n))
  | some pos =>
    if s.spare.convs.contains n then s
    else if s.spare.convs.length < (freeConvSpares s).length then
      syncSpares (s.modSpare fun p => { p with convs := p.convs ++ [n] })
    else degraded ((convLost s pos).endCond 17 (128 + n)) 1 n

/-- CONVERTER_SUBSTITUTION: the first queued worn converter's position goes to PC8, or PC9. -/
def convSubst (s : State) : State :=
  match s.spare.convs with
  | [] => s
  | n :: rest =>
    if s.mode == mHoldup then s
    else
      let s := s.modSpare fun p => { p with convs := rest }
      match convPos s n, freeConvSpares s with
      | none, _ => syncSpares s
      | some pos, [] => degraded ((convLost s pos).endCond 17 (128 + n)) 1 n
      | some pos, k :: _ =>
        let s := s.evtBit F.TWIN_EVT_SUB_START 140
        mapChanged (((convSubstitute s pos k).endCond 17 (128 + n)).evtBit F.TWIN_EVT_SUB_DONE 141)

/-! ### References and SRAM rows (R317, R318) -/

/-- R317: VREF_C takes the role of a worn reference, 0 for VREF_A and 1 for VREF_B. -/
def referenceSubst (s : State) (part : Nat) : State :=
  let s := s.modSpare fun p => { p with vrefRole := part + 1, vrefWorn := p.vrefWorn ||| (1#3 <<< part) }
  let s := s.evtBit F.TWIN_EVT_SUB_START 140
  let s := if part = 0 then
      let s := s.modSpare fun p => { p with moved := 11 }
      let s := s.forEach (below 64) fun s n => if fineRun s n then scheduleRestart s n 4 else s
      let s := abortPipe s true
      poolServe (s.forEach (below 10) fun s n =>
        match (s.pc n).work with
        | some w => (match w.kind with | .entry .. => abortConv s n true | _ => s)
        | none => s)
    else s
  mapChanged ((s.endCond 17 part).evtBit F.TWIN_EVT_SUB_DONE 141)

/-- R317: a TCLK edge of the 1 µs, 11 edges, in which the guard filters stand still. -/
def tickMove (s : State) : State :=
  if s.spare.moved = 0 then s
  else
    let s := s.modSpare fun p => { p with moved := p.moved - 1 }
    if s.spare.moved = 0 then s.forEach (below 64) refreshRaw else s

/-- 24 h in TCLK periods of 97.65625 ns. -/
def day : Nat := 884736000000

/-- R318: a corrected error in an SRAM row; the second within 24 h declares it worn, and it is remapped at its next
write while a spare row is left. -/
def sramError (s : State) (row : Nat) : State :=
  let again := s.spare.sramErr.any fun e => e.1 == row && decide (s.tclk - e.2 ≤ day)
  let s := s.modSpare fun p => { p with sramErr := p.sramErr.filter (fun e => e.1 != row) ++ [(row, s.tclk)] }
  if again && !s.spare.sramWorn.contains row then
    let s := s.modSpare fun p => { p with sramWorn := p.sramWorn ++ [row] }
    if s.get F.SPR_STATUS_SRAM_USED < 32 then mapChanged (s.addSat F.SPR_STATUS_SRAM_USED)
    else degraded s 3 (row % 256)
  else s

end Sys2Proof.Machine
end

