-- ==== Sys2Proof/Machine/Assay.lean ====
section
/-! DEFINITION. The Assay: reference watch and triage, converter rounds, rail checks and spare slice checks
(spec/06_assay.md). -/

namespace Sys2Proof.Machine

/-- R159: the Assay runs in every mode except HOLDUP. -/
def assayMode (s : State) : Bool := s.mode != mHoldup && s.mode != mStartup

/-- R158: judgments are suspended. -/
def assayFrozen (s : State) : Bool :=
  decide (0 < s.assay.refMiss) || (match s.assay.triage with | some .reference => true | _ => false)

/-- The status bits of the Assay. -/
def syncAssay (s : State) : State :=
  let s := s.putB F.ASSAY_STATUS_RUN (assayMode s &&
    (s.flag F.ASSAY_CFG_REF_EN || s.flag F.ASSAY_CFG_CONV_EN || s.flag F.ASSAY_CFG_RAIL_EN || s.flag F.ASSAY_CFG_SPARE_EN))
  syncConvMiss ((s.putB F.ASSAY_STATUS_REF_MISS (decide (0 < s.assay.refMiss))).putB F.ASSAY_STATUS_FROZEN (assayFrozen s))

/-- A MISS setting; 0 acts as 1. -/
def missLimit (s : State) (f : Field) : Nat := max 1 (s.get f)

/-! ### Triages (R158) -/

/-- The fault kind and part of a triage (R160), and its place in the priority order. -/
def triageKind : Triage → Nat | .reference => 0 | .converter .. => 1 | .rail .. => 2 | .spare _ => 3
def triagePart (s : State) : Triage → Nat
  | .reference => 0
  | .converter n _ => n
  | .rail n _ _ _ _ => sliceOf s n
  | .spare k => 64 + k

/-- The instance of an Assay fault. -/
def triageInst : Triage → Nat
  | .reference => 0 | .converter n _ => 128 + n | .rail n _ _ _ _ => 256 + n | .spare k => 512 + k

/-- R145: VREF_C is powered while a record or triage works with it, and while it serves. -/
def vrefCOff (s : State) : State := s.putB F.ASSAY_STATUS_VREF_C_ON (s.spare.vrefRole != 0)

/-- R150: the two witnesses for a suspect. -/
def witnesses (s : State) (suspect : Nat) : List Nat :=
  let ok (n : Nat) := n != suspect && (s.pc n).miss == 0
  (((below 8).filterMap (posConv s)).filter ok ++ (freeConvSpares s).filter ok).take 2

/-- R153: the second converter of a rail triage. -/
def secondConv (s : State) (c1 : Nat) : Option Nat := ((below 8).filterMap (posConv s)).find? fun c => c != c1 && (s.pc c).miss == 0

/-- R150, R153: the converters of the triage that runs are asked for their conversions. -/
def triageAsk (s : State) : State :=
  let ask (s : State) (l : List Nat) (kind : PcKind) (gain : Nat) : State :=
    if l.isEmpty then s else s.modAssay fun a => { a with group := l, got := [], jobs := a.jobs ++ [⟨l, kind, gain⟩] }
  match s.assay.triage with
  | some (.converter n round) =>
    match witnesses s n with
    | [a, b] => ask s [n, a, b] .triage (roundGain round)
    | _ => s
  | some (.rail n c1 _ _ _) => ask s (secondConv s c1).toList (.recheck n) 0
  | _ => s

/-- The conversions of the triage that runs are given up. -/
def triageDrop (s : State) : State :=
  s.modAssay fun a =>
    { a with group := [], got := [], jobs := a.jobs.filter fun j => match j.kind with | .triage | .recheck _ => false | _ => true }

/-- A triage ends with a verdict: outcome 1 worn, 2 no verdict, 3 unresolved. R154: no substitution follows for a spare
slice, whose worn part condition is over at once. -/
def endTriage (s : State) (t : Triage) (outcome part w1 w2 : Nat) : State :=
  let s := (triageDrop s).modAssay fun a => { a with triage := none }
  let s := (s.put F.ASSAY_STATUS_TRIAGE 0).put F.ASSAY_STATUS_PART 0
  let s := s.setReg R.ASSAY_VERDICT (triageKind t * 2 ^ 30 + outcome * 2 ^ 28 + part * 2 ^ 20 + w1 * 2 ^ 16 + w2 * 2 ^ 12)
  let s := (s.event (96 + outcome)).endCond 16 (triageInst t)
  let s := if outcome = 3 then s.raise 18 (triageKind t) 1 (triageInst t) part else s
  let s := if outcome = 1 then
      if triageKind t = 3 then s.raiseMomentary 17 3 0 part
      else s.raise 17 (triageKind t) 0 (if triageKind t = 0 then part else triageInst t) part
    else s
  syncAssay s

/-- R154: a spare slice is marked worn, and offered no more. -/
def spareWorn (s : State) (k : Nat) : State :=
  mapChanged ((endTriage s (.spare k) 1 (64 + k) 15 0).put (F.SPAREk_STATUS_STATE k) 2)

/-- R158: the waiting triage of the highest priority starts when none runs, those of spare slices (R154) with their verdict
at once. -/
def startTriages : Nat → State → State
  | 0, s => s
  | fuel + 1, s =>
    if s.assay.triage.isSome then s
    else
      let pick (k : Nat) := s.assay.waiting.find? fun t => triageKind t == k
      match [0, 1, 2, 3].findSome? pick with
      | none => s
      | some t =>
        let s := s.modAssay fun a => { a with triage := some t, waiting := a.waiting.filter fun u => u != t }
        let s := (s.addSat F.ASSAY_CNT_TRIAGES).event 96
        let s := (s.put F.ASSAY_STATUS_TRIAGE (min 3 (triageKind t + 1))).put F.ASSAY_STATUS_PART (triagePart s t)
        match t with
        | .spare k => startTriages fuel (spareWorn s k)
        | .reference =>
          let s := s.modAssay fun a => { a with ref := some ⟨true, false, none, none⟩, recordDue := a.recordDue || a.ref.isSome }
          syncAssay (if s.spare.vrefWorn.getLsbD 2 then s else s.put F.ASSAY_STATUS_VREF_C_ON 1)
        | _ => poolServe (syncAssay (triageAsk s))

def startTriage (s : State) : State := startTriages 9 s

/-- A triage waits for its turn. R158: a reference triage starts although another runs: the judgments of that one are
suspended, its results are discarded, and it waits again (DEDUCED, log entry 95). -/
def queueTriage (s : State) (t : Triage) : State :=
  let s := match t, s.assay.triage with
    | .reference, some u =>
      if u == .reference then s
      else (triageDrop s).modAssay fun a => { a with triage := none, waiting := a.waiting ++ [u] }
    | _, _ => s
  startTriage (if (s.assay.waiting ++ s.assay.triage.toList).any (fun u => triageInst u == triageInst t) then s
    else s.modAssay fun a => { a with waiting := a.waiting ++ [t] })

/-- A count has reached MISS: the mismatch fault, and its triage waits for its turn. -/
def mismatch (s : State) (t : Triage) : State :=
  queueTriage (s.raise 16 (triageKind t) 0 (triageInst t) (triagePart s t)) t

/-! ### References (R144 to R147) -/

/-- R145 step 1: a record of the references begins: VREF_C is powered. It is skipped while a reference miss count is above 0,
and is then due when the count returns to 0. -/
def recordStart (s : State) : State :=
  if !assayMode s || s.spare.vrefWorn.getLsbD 2 || s.assay.ref.isSome then s
  else if 0 < s.assay.refMiss then s.modAssay fun a => { a with recordDue := true }
  else (s.modAssay fun a => { a with ref := some ⟨false, false, none, none⟩, recordDue := false }).put F.ASSAY_STATUS_VREF_C_ON 1

/-- R144: a measurement of VREF_A - VREF_B in ppm. R145: a record that is due is taken once the count is 0. -/
def referenceWatch (s : State) (diff : Int) : State :=
  if !assayMode s || !s.flag F.ASSAY_CFG_REF_EN then s
  else
    let s := s.putS F.ASSAY_REF_DIFF_DIFF (clampInt (-32768) 32767 diff)
    if (s.get F.ASSAY_REF_TOL_TOL : Int) < diff.natAbs then
      let s := syncAssay (s.modAssay fun a => { a with refMiss := min 16 (a.refMiss + 1) })
      if s.assay.refMiss = missLimit s F.ASSAY_REF_TOL_MISS then mismatch s .reference else s
    else
      let s := syncAssay ((s.modAssay fun a => { a with refMiss := 0 }).endCond 18 0)
      if s.assay.recordDue then recordStart s else s

/-- R145 step 2: 5 ms after VREF_C was powered the conversions are asked for, VREF_B first. -/
def refAsk (s : State) (r : RefRun) : State :=
  poolServe (s.modAssay fun a => { a with ref := some { r with asked := true }, jobs := a.jobs ++ [⟨[], .ref false, 0⟩] })

/-- The tolerance test of two recorded readings. -/
def refMoved (s : State) (x x0 : Nat) : Bool :=
  decide ((s.get F.ASSAY_REF_TOL_TOL : Int) < ((x : Int) - (x0 : Int)).natAbs)

/-- R145 step 3, R147: a record's two readings, in the units of `ASSAY_REF_RATIO`, are judged and stored. -/
def recordStore (s : State) (b c : Nat) : State :=
  let s := s.modAssay fun a => { a with ref := none }
  if 0 < s.assay.refMiss then vrefCOff (s.modAssay fun a => { a with recordDue := true })
  else
    let b0 := s.get F.ASSAY_REF_RATIO_B0
    let c0 := s.get F.ASSAY_REF_RATIO_C0
    if s.assay.recorded && s.spare.vrefRole == 0 && refMoved s c c0 then
      if refMoved s b b0 then queueTriage (vrefCOff s) .reference
      else
        let s := vrefCOff (s.modSpare fun p => { p with vrefWorn := p.vrefWorn ||| 4#3 })
        let s := s.setReg R.ASSAY_VERDICT (2 ^ 28 + 2 * 2 ^ 20)
        mapChanged ((s.event 97).raiseMomentary 17 0 0 2)
    else
      let s := (s.put F.ASSAY_REF_RATIO_B0 b).put F.ASSAY_REF_RATIO_C0 c
      vrefCOff (s.modAssay fun a => { a with recorded := true })

/-- REFERENCE_RATIO_RECORD: the next of the three steps of R145. -/
def referenceRecord (s : State) : State :=
  match s.assay.ref with
  | none => recordStart s
  | some r =>
    if r.triage || !assayMode s then s
    else if !r.asked then refAsk s r
    else match r.b, r.c with | some b, some c => recordStore s b c | _, _ => s

/-- R319: the references degrade when the triage cannot call on VREF_C. -/
def referenceUnresolved (s : State) : State :=
  let s := vrefCOff (endTriage s .reference 3 0 15 0)
  if s.spare.vrefRole ≠ 0 || s.spare.vrefWorn.getLsbD 2 then degraded s 2 0 else s

/-- R146: the verdict on the reference triage's fresh readings. -/
def referenceVerdict (s : State) (b c : Nat) : State :=
  let db : Int := (b : Int) - (s.get F.ASSAY_REF_RATIO_B0 : Nat)
  let dc : Int := (c : Int) - (s.get F.ASSAY_REF_RATIO_C0 : Nat)
  let tol : Int := (s.get F.ASSAY_REF_TOL_TOL : Nat)
  let worn (s : State) (part : Nat) :=
    let s := referenceSubst (endTriage s .reference 1 part 15 0) part
    s.modAssay fun a => { a with recordDue := true, recorded := false }
  if !s.assay.recorded then referenceUnresolved s
  else if ((dc - db).natAbs : Int) ≤ tol ∧ tol < db.natAbs then worn s 0
  else if (dc.natAbs : Int) ≤ tol ∧ tol < db.natAbs then worn s 1
  else referenceUnresolved s

/-- REFERENCE_TRIAGE: the next step of the reference triage, which repeats those of R145. One that cannot use VREF_C ends
unresolved (R147). -/
def referenceTriage (s : State) : State :=
  if s.assay.triage != some .reference then s
  else
    let noC := s.spare.vrefRole ≠ 0 || s.spare.vrefWorn.getLsbD 2
    match s.assay.ref with
    | none => s
    | some r =>
      if noC then startTriage (referenceUnresolved (s.modAssay fun a => { a with ref := none }))
      else if !r.asked then refAsk s r
      else
        match r.b, r.c with
        | some b, some c => startTriage (referenceVerdict (s.modAssay fun a => { a with ref := none }) b c)
        | _, _ => s

/-- R145: a reading in ppm of 1.250 V above 1,000,000 - 32,768, from the sum of four codes of 2.048 V / 2^23 each. -/
def refReading (s : State) (sum : Int) : State × Nat :=
  let (s, v) := s.approx (sum * 25) 512
  (s, (clampInt 0 65535 (v - 967232)).toNat)

/-- R145 step 2: a reading of VREF_B is followed by one of VREF_C. -/
def refConverted (s : State) (c : Bool) (sum : Int) : State :=
  match s.assay.ref with
  | some r =>
    let (s, v) := refReading s sum
    if c then s.modAssay fun a => { a with ref := some { r with c := some v } }
    else s.modAssay fun a => { a with ref := some { r with b := some v }, jobs := a.jobs ++ [⟨[], .ref true, 0⟩] }
  | none => s

/-! ### Converter rounds (R148, R149, R151, R156, R157) -/

/-- The next working converter from a position on, in position order. -/
def nextConv (s : State) (pos : Nat) : Option Nat :=
  ((below 8).map fun i => (pos + i) % 8).find? fun p => (posConv s p).isSome

/-- R152: the rail check of a round is skipped. `stim`: a margin step or Sounding is applied to the rail. -/
def railCheckSkipped (s : State) (n : Nat) (stim : Bool) : Bool :=
  !s.flag F.ASSAY_CFG_RAIL_EN || s.mode == mQuiescent || !railUse s n || !fineRun s n || stim ||
    s.flag (F.RAILn_GUARD_STATUS_SUBST n)

/-- R152: the rail check of a round: rail `n` on the next working converter in position order. -/
def roundCheck (s : State) (n : Nat) (stim : Bool) : State :=
  match nextConv s s.assay.nextPos with
  | some p =>
    let s := s.modAssay fun a => { a with nextPos := (p + 1) % 8 }
    if railCheckSkipped s n stim then s
    else s.modAssay fun a => { a with jobs := a.jobs ++ [⟨(posConv s p).toList, .railCheck n, 0⟩] }
  | none => s

/-- R148: a round starts. -/
def roundStart (s : State) (stim : Nat → Bool) : State :=
  if !assayMode s || !s.flag F.ASSAY_CFG_CONV_EN || s.assay.roundOn then s
  else
    let s := s.put F.ASSAY_STATUS_ROUND (s.get F.ASSAY_STATUS_ROUND % 6 + 1)
    let s := s.forEach (below 10) fun s n =>
      let on := (convPos s n).isSome || s.get (F.PCn_STATUS_ROLE n) == 1
      s.modPc n fun c => { c with need := on, due := false, u := none }
    let s := s.modAssay fun a => { a with roundOn := true }
    let n := s.get F.ASSAY_STATUS_NEXT_RAIL
    let s := s.put F.ASSAY_STATUS_NEXT_RAIL (n + 1)
    assayServe (roundCheck s n (stim n)) false

/-- R156: a converter's Assay conversion is due. -/
def conversionDue (s : State) (n : Nat) : State :=
  if (s.pc n).need || s.assay.jobs.any (fun j => (jobConvs s j).contains n) then poolServe (s.modPc n fun c => { c with due := true }) else s

/-- The middle of a list of readings, doubled. -/
def median2 (l : List Int) : Int :=
  let rec ins (x : Int) : List Int → List Int
    | [] => [x]
    | y :: r => if x ≤ y then x :: y :: r else y :: ins x r
  let l := l.foldl (fun acc x => ins x acc) []
  l.getD ((l.length - 1) / 2) 0 + l.getD (l.length / 2) 0

/-- R149: two sums of four readings of u differ by more than TOL ppm of full scale. -/
def convDiffer (s : State) (a b : Int) : Bool :=
  decide ((s.get F.ASSAY_CONV_TOL_TOL : Int) * 8388608 * 16777216 < ((a - b).natAbs : Int) * 1000000)

/-- R151: a factor of converter `n` moves toward the round median, by an amount the manual bounds and does not state:
at most FAC_STEP ppm of full scale, and not past the median. -/
def nudge (s : State) (n round : Nat) (u med2 : Int) : State :=
  let g := roundGain round
  let gap := (med2 - 2 * u).natAbs / 33554432
  let codes := min gap (s.get F.ASSAY_CFG_FAC_STEP * 8388608 / 1000000)
  let up := decide (2 * u < med2)
  if round % 2 = 1 then
    let (s, v) := s.unstated 32
    let d : Int := (v % (codes + 1) : Nat)
    let o := s.getS (F.PCn_FACx_OFFSET_OFFSET n g)
    s.putS (F.PCn_FACx_OFFSET_OFFSET n g) (clampInt codeMin codeMax (if up then o - d else o + d))
  else
    let (s, v) := s.unstated 32
    let d := v % (codes * 10 / 18 + 1)
    let k := s.get (F.PCn_FACx_GAIN_GAIN n g)
    s.put (F.PCn_FACx_GAIN_GAIN n g) (if up then min (2 ^ 24 - 1) (k + d) else k - d)

/-- R157: what of the round's conversions has not been delivered when it ends is left out. -/
def roundCut (s : State) : State :=
  let s := s.forEach (below 10) fun s n =>
    let s := s.modPc n fun c => { c with need := false, due := false }
    match (s.pc n).work with
    | some w => if w.kind == .node then (endOn s n).addSat (F.PCn_CNT_ABORTS n) else s
    | none => s
  s.modAssay fun a => { a with roundOn := false, jobs := a.jobs.filter fun j => match j.kind with | .railCheck _ => false | _ => true }

/-- R154: every SPARE_PER rounds a check of each spare slice is due. -/
def sparePeriod (s : State) : State :=
  if max 1 (s.get F.ASSAY_CFG_SPARE_PER) ≤ s.assay.sparePer + 1 then s.modAssay fun a => { a with sparePer := 0, spareDue := 255 }
  else s.modAssay fun a => { a with sparePer := a.sparePer + 1 }

/-- R149, R151: the deliveries of a round are judged. -/
def roundJudge (s : State) (round : Nat) : State :=
  let l := (below 10).filterMap fun n => (s.pc n).u.map fun u => (n, u)
  if assayFrozen s || decide (l.length < 3) then s
  else
    let missed (n : Nat) (u : Int) : Bool :=
      let others := l.filter fun e => e.1 != n
      decide (others.length ≤ 2 * (others.filter fun e => convDiffer s u e.2).length)
    let anyMiss := l.any fun e => missed e.1 e.2
    let med := median2 (l.map (·.2))
    let s := s.modAssay fun a =>
      if round = 1 then { a with median0 := some med } else if round = 2 then { a with median1 := some med } else a
    let hits := l.map fun e => (e.1, e.2, missed e.1 e.2)
    hits.foldl (fun s e =>
      if e.2.2 then
        let s := s.modPc e.1 fun c => { c with miss := min 16 (c.miss + 1) }
        if (s.pc e.1).miss = missLimit s F.ASSAY_CONV_TOL_MISS then mismatch s (.converter e.1 round) else s
      else
        let s := (s.modPc e.1 fun c => { c with miss := 0 }).endCond 18 (128 + e.1)
        if anyMiss then s else nudge s e.1 round e.2.1 med) s

/-- R149, R151: the round ends. -/
def roundEnd (s : State) : State :=
  if !s.assay.roundOn then s
  else
    let s := sparePeriod ((roundCut s).addWrap F.ASSAY_CNT_ROUNDS)
    poolServe (syncAssay (roundJudge s (s.get F.ASSAY_STATUS_ROUND)))

/-! ### Converter triage (R150) -/

/-- R158: rail counts built on the checks of a converter return to 0. -/
def resetRailCounts (s : State) (conv : Nat) : State :=
  s.modAssay fun a => { a with railMiss := Vector.ofFn fun i => if vget a.railConv i = conv then 0 else vget a.railMiss i }

/-- What a converter has delivered for the triage that runs. -/
def gotOf (s : State) (n : Nat) : Option Int := (s.assay.got.find? fun e => e.1 == n).map (·.2)

/-- A conversion of the triage that runs waits or is at work. -/
def triageBusy (s : State) : Bool :=
  (s.assay.jobs.any fun j => j.kind == .triage || (match j.kind with | .recheck _ => true | _ => false)) ||
    s.pool.conv.toList.any fun c => match c.work with
      | some w => (match w.kind with | .triage | .recheck _ => true | _ => false)
      | none => false

/-- A triage whose results have been discarded, or which has lost a converter, asks again. -/
def triageRetry (s : State) : State := if triageBusy s then s else poolServe (triageAsk (triageDrop s))

/-- CONVERTER_TRIAGE: the suspect and the witnesses have converted the node together, and the verdict falls. R158: while
judgments are suspended the results are discarded. -/
def converterTriage (s : State) : State :=
  match s.assay.triage with
  | some (.converter n round) =>
    let t := Triage.converter n round
    if assayFrozen s then triageDrop s
    else
      match s.assay.group, s.assay.group.map (gotOf s) with
      | [_, a, b], [some u, some w1, some w2] =>
        let s := if convDiffer s w1 w2 then endTriage s t 3 n a b
          else if convDiffer s u w1 && convDiffer s u w2 then declareConv (resetRailCounts (endTriage s t 1 n a b) n) n
          else endTriage (s.modPc n fun c => { c with miss := 0 }) t 2 n a b
        startTriage (syncAssay s)
      | _, _ =>
        let l := witnesses s n
        if l.length < 2 then startTriage (syncAssay (endTriage s t 3 n (l.getD 0 15) 15)) else triageRetry s
  | _ => s

/-! ### Rail checks (R152, R153, R155) -/

/-- The valid fine samples of a rail in a check's window: number, sums of the calibrated and the raw codes, lowest
and highest calibrated code (spec/06_assay.md R152). -/
structure FineWindow where
  cnt  : Nat
  sum  : Int
  raw  : Int
  lo   : Int
  hi   : Int
  deriving DecidableEq, Repr, Inhabited

/-- R152: a converter's four codes and a fine mean differ by more than TOL microvolts at the sense input: one code is
2.048 V / 2^23 and 1.600 V / 2^23. -/
def railDiffer (s : State) (pool fineSum : Int) (cnt : Nat) : Bool :=
  decide ((s.get F.ASSAY_RAIL_TOL_TOL : Int) * 8388608 * (cnt : Int) <
    (((pool * 512 * (cnt : Int) - fineSum * 1600)).natAbs : Int) * 1000)

/-- Two converters' four codes differ by more than TOL microvolts. -/
def poolsDiffer (s : State) (a b : Int) : Bool :=
  decide ((s.get F.ASSAY_RAIL_TOL_TOL : Int) * 8388608 < (((a - b) * 512).natAbs : Int) * 1000)

/-- R155: a passed check updates a factor of slice `x`: `rawNum / rawDen` is its mean raw code, `vNum / vDen` the pool
consensus in fine codes. Below 1 mV (5,242.88 codes) it is the offset, else the gain. -/
def sliceUpdate (s : State) (x : Nat) (rawNum : Int) (rawDen : Nat) (vNum : Int) (vDen : Nat) : State :=
  if vNum.natAbs * 100 < 524288 * vDen then
    let g : Int := (s.get (F.sfGain x) : Nat)
    let (s, o) := s.rounded (rawNum * (vDen : Int) * 4194304 - vNum * g * (rawDen : Int)) (rawDen * vDen * 4194304)
    s.putS (F.sfOffset x) (clampInt codeMin codeMax o)
  else
    let num := (rawNum - s.getS (F.sfOffset x) * (rawDen : Int)) * (vDen : Int) * 4194304
    let num := if vNum < 0 then -num else num
    let (s, g) := s.rounded num (rawDen * vNum.natAbs)
    s.put (F.sfGain x) (clampInt 0 (2 ^ 24 - 1) g).toNat

/-- R152: a rail check is complete: the pool reading against the rail's fine samples. -/
def railCheckDone (s : State) (n conv : Nat) (pool : Int) (f : FineWindow) (stim : Bool) : State :=
  if assayFrozen s || railCheckSkipped s n stim || decide (f.cnt < 2) ||
      decide ((s.get F.ASSAY_RAIL_TOL_SPREAD : Int) * 16 < f.hi - f.lo) then s
  else
    let s := s.modAssay fun a => { a with railConv := vmod a.railConv n fun _ => conv }
    if railDiffer s pool f.sum f.cnt then
      let s := s.modAssay fun a => { a with railMiss := vmod a.railMiss n fun m => min 16 (m + 1) }
      if vget s.assay.railMiss n = missLimit s F.ASSAY_RAIL_TOL_MISS then mismatch s (.rail n conv pool f.sum f.cnt) else s
    else
      let s := (s.modAssay fun a => { a with railMiss := vmod a.railMiss n fun _ => 0 }).endCond 18 (256 + n)
      sliceUpdate s (sliceOf s n) f.raw f.cnt (pool * 32) 100

/-- R84: the group delay of a fine path, in 1/125 TCLK period. -/
def groupDelay (rate : Nat) (fir : Bool) : Int :=
  match rate, fir with
  | 0, false => 13312 | 0, true => 21248 | 1, false => 49280 | 1, true => 81280
  | 2, false => 193280 | 2, true => 321280 | _, false => 769280 | _, true => 1281280

/-- R152: the valid fine samples of a check whose input instants, one group delay before their stamps, fall inside its
valid-sample window. -/
def RailCheck.fine (c : RailCheck) (t0 t1 : Nat) : FineWindow :=
  let l := c.seen.filter fun e => decide ((t0 : Int) * 125 ≤ e.1) && decide (e.1 ≤ (t1 : Int) * 125)
  let codes := l.map (·.2.1)
  { cnt := codes.length, sum := codes.sum, raw := (l.map (·.2.2)).sum
    lo := codes.foldl min (codes.headD 0), hi := codes.foldl max (codes.headD 0) }

/-- R152: the checks of a rail whose pool conversion is complete, and whose fine samples are all in, are judged. -/
def judgeChecks (s : State) (n : Nat) (stim : Bool) : State :=
  let now : Int := (s.tclk : Int) * 125 - groupDelay (s.fr n).rate (s.fr n).fir
  match s.assay.checks.find? fun c => c.rail == n with
  | some c =>
    match c.done with
    | some (t0, t1, pool) =>
      if (t1 : Int) * 125 < now then
        let s := s.modAssay fun a => { a with checks := a.checks.filter fun e => e.rail != n }
        railCheckDone s n c.conv pool (c.fine t0 t1) stim
      else s
    | none => s
  | none => s

/-- R152: a sample of a rail's fine path, for the check that is at work on it. -/
def checkSample (s : State) (n : Nat) (raw : Int) (o : FineOut) (stim : Bool) : State :=
  let t : Int := (s.tclk : Int) * 125 - groupDelay (s.fr n).rate (s.fr n).fir
  let s := if o.valid then
      s.modAssay fun a => { a with checks := a.checks.map fun c => if c.rail = n then { c with seen := c.seen ++ [(t, o.code, raw)] } else c }
    else s
  judgeChecks s n stim

/-- ASSAY_CONVERSION_COMPLETE: a converter has its Assay conversion. -/
def conversionComplete (s : State) (n : Nat) (stim : Nat → Bool) : State :=
  match (s.pc n).work with
  | some w =>
    if !w.through then s
    else
      match w.kind with
      | .node => poolServe ((endOn s n).modPc n fun c => { c with need := false, due := false, u := some w.usum })
      | .railCheck r =>
        let s := (endOn s n).modAssay fun a =>
          { a with checks := a.checks.map fun c => if c.rail = r then { c with done := some (w.t0, w.t1, w.sum) } else c }
        poolServe (judgeChecks s r (stim r))
      | .recheck _ => poolServe ((endOn s n).modAssay fun a => { a with got := a.got ++ [(n, w.sum)] })
      | .triage => poolServe ((endOn s n).modAssay fun a => { a with got := a.got ++ [(n, w.usum)] })
      | .ref c => poolServe (refConverted (endOn s n) c w.sum)
      | _ => s
  | none => s

/-- R153: the verdict of a rail triage: the second converter `c2` has repeated the check, with `pool` as its four codes
summed; the fine path is the witness with the reading of the check that missed. A combination that no row names ends
unresolved (DESIGN CHOICE, log entry 91). -/
def railVerdict (s : State) (n c1 c2 : Nat) (p1 fs : Int) (cnt : Nat) (pool : Int) : State :=
  let t := Triage.rail n c1 p1 fs cnt
  let part := sliceOf s n
  let clear (s : State) := s.modAssay fun a => { a with railMiss := vmod a.railMiss n fun _ => 0 }
  let agreePools := !poolsDiffer s p1 pool
  let agree1 := !railDiffer s p1 fs cnt
  let agree2 := !railDiffer s pool fs cnt
  if agreePools && !agree1 && !agree2 then declareSlice (endTriage s t 1 part c1 c2) n none
  else if agree2 && !agree1 && !agreePools then
    let s := clear (endTriage s t 2 part c1 c2)
    let s := s.modPc c1 fun c => { c with miss := missLimit s F.ASSAY_CONV_TOL_MISS }
    mismatch s (.converter c1 1)
  else if agree2 && agreePools then clear (endTriage s t 2 part c1 c2)
  else endTriage s t 3 part c1 c2

/-- RAIL_TRIAGE: the second converter has repeated the check, and the verdict falls. R158: while judgments are suspended the
result is discarded. -/
def railTriage (s : State) : State :=
  match s.assay.triage with
  | some (.rail n c1 p1 fs cnt) =>
    if assayFrozen s then triageDrop s
    else
      match s.assay.group, s.assay.group.map (gotOf s) with
      | [c2], [some pool] => startTriage (syncAssay (railVerdict s n c1 c2 p1 fs cnt pool))
      | _, _ =>
        if (secondConv s c1).isNone then startTriage (syncAssay (endTriage s (.rail n c1 p1 fs cnt) 3 (sliceOf s n) c1 15))
        else triageRetry s
  | _ => s

/-! ### Spare slices (R154) -/

/-- R154: a spare slice's mean raw codes against the medians of the pool at the two ×1 levels: one misses. -/
def spareMisses (s : State) (x : Nat) (raw0 raw1 m0 m1 : Int) : Bool :=
  let g : Int := (s.get (F.sfGain x) : Nat)
  let off := s.getS (F.sfOffset x)
  let bad (raw med : Int) : Bool :=
    decide ((s.get F.ASSAY_RAIL_TOL_TOL : Int) * 8388608 * (g * 3355443200) <
      (((raw - off) * 4194304 * 3355443200 - med * 128 * g).natAbs : Int) * 1600000)
  bad raw0 m0 || bad raw1 m1

/-- R154: a spare slice whose check is due has converted both ×1 levels of the node, with mean raw codes `raw0` and `raw1`. It
is compared once rounds 1 and 2 have given their medians. -/
def spareCheck (s : State) (k : Nat) (raw0 raw1 : Int) : State :=
  if !s.flag F.ASSAY_CFG_SPARE_EN || !assayMode s || s.mode == mQuiescent || s.get (F.SPAREk_STATUS_STATE k) != 0 ||
      !s.assay.spareDue.getLsbD k then s
  else
    match s.assay.median0, s.assay.median1 with
    | some m0, some m1 =>
      let s := s.modAssay fun a => { a with spareDue := a.spareDue &&& ~~~(1#8 <<< k) }
      if assayFrozen s then s
      else
        let x := 64 + k
        let s := s.addWrap (F.SPAREk_CNT_CHECKS k)
        if spareMisses s x raw0 raw1 m0 m1 then
          let s := (s.addSat (F.SPAREk_CNT_MISSES k)).put (F.SPAREk_STATUS_CHECK_OK k) 0
          let s := s.modSpare fun p => { p with lastBad := p.lastBad ||| (1#8 <<< k) }
          let s := s.modAssay fun a => { a with spareMiss := vmod a.spareMiss k (· + 1) }
          if missLimit s F.ASSAY_RAIL_TOL_MISS ≤ vget s.assay.spareMiss k then syncSpares (queueTriage s (.spare k)) else syncSpares s
        else
          let s := s.put (F.SPAREk_STATUS_CHECK_OK k) 1
          let s := s.modSpare fun p => { p with lastBad := p.lastBad &&& ~~~(1#8 <<< k) }
          let s := s.modAssay fun a => { a with spareMiss := vmod a.spareMiss k fun _ => 0 }
          let s := sliceUpdate s x raw0 1 (m0 * 128) 3355443200
          syncSpares (sliceUpdate s x raw1 1 (m1 * 128) 3355443200)
    | _, _ => s

/-- R159: entry to HOLDUP abandons every round and triage without a verdict; the counts are kept. -/
def assayHoldup (s : State) : State :=
  let ended := s.assay.triage.toList ++ s.assay.waiting
  let s := s.modAssay fun a =>
    { a with roundOn := false, jobs := [], checks := [], ref := none, recordDue := a.recordDue || a.ref.isSome
             triage := none, waiting := [], group := [], got := [] }
  let s := ((vrefCOff s).put F.ASSAY_STATUS_TRIAGE 0).put F.ASSAY_STATUS_PART 0
  syncAssay (ended.foldl (fun s t => s.endCond 16 (triageInst t)) s)

end Sys2Proof.Machine
end

