-- ==== Sys2Proof/Machine/Angle.lean ====
section
/-! DEFINITION. The angle time base (spec/02_angle_and_clocks.md R21 to R40, R530, R531). -/

namespace Sys2Proof.Machine

/-! ### The increment and the stamp -/

/-- `ANG_CFG` fields in effect. -/
def angEff (s : State) (f : Field) : Nat := f.extract s.ang.cfgEff.toNat

/-- The tracked increment for a period in 1/256 ANG clocks, unsigned 10.22, to the nearest (R21, R531). -/
def incOfPeriod (p256 : Nat) : Nat := if p256 = 0 then 0 else (2 ^ 51 / p256 + 1) / 2

/-- R421: the reference periods of a cycle: 16 marks of the ring, else one edge. -/
def edgeShare (s : State) : Nat := if s.get F.ANG_STATUS_ACTIVE_SRC = 2 then 16 else 1

/-- R52: the free-running increment; 0 acts as 0x1111_1111. -/
def freeInc (s : State) : Nat :=
  let v := s.get F.ANG_FREE_INC_INC
  if v = 0 then 0x11111111 else v

/-- R35: the largest slew, as a share of the tracked increment. -/
def slewStep (s : State) : Nat :=
  s.ang.base / (match angEff s F.ANG_CFG_SLEW with | 0 => 256 | 1 => 64 | 2 => 16 | _ => 4)

/-- R46: on fallback the increment is rescaled by 153.6 MHz over the measured ANG frequency, which is half the
fallback frequency; the measurement is in units of 10 kHz. -/
def angScaled (s : State) (inc : Nat) : Nat :=
  if s.ang.fbFreq = 0 then inc else min (inc * 30720 / s.ang.fbFreq) 0xFFFFFFFF

/-- R35, R46: what one ANG edge slews: the largest slew at the rate the stamp runs at, or the error that is left. -/
def slewNow (s : State) : Nat := min (angScaled s (slewStep s)) s.ang.phaseErr.natAbs

/-- The increment the stamp advances by: the tracked one, within SLEW of it while a phase error remains (R35). -/
def angIncNow (s : State) : Nat :=
  let b := angScaled s s.ang.base
  if s.ang.phaseErr > 0 then b - slewNow s else b + slewNow s

/-- `ANG_INC` shows the increment in use. -/
def syncInc (s : State) : State := s.put F.ANG_INC_INC (angIncNow s)

/-- R35: PHASE_OK is 1 while the remaining error is within 256 angle units; its rise is EV20. -/
def syncPhaseOk (s : State) : State :=
  if s.locked && decide (s.ang.phaseErr.natAbs ≤ 256 * 2 ^ 22) then
    if s.flag F.ANG_STATUS_PHASE_OK then s else (s.put F.ANG_STATUS_PHASE_OK 1).event 20
  else s.put F.ANG_STATUS_PHASE_OK 0

/-- The stamp with its fractional accumulator, 70 bits. -/
def stampAcc (s : State) : Nat := s.ang.stamp.toNat * 2 ^ 22 + s.ang.frac.toNat

/-- R23, R530: RUN becomes 1, the stamp starts at a value. -/
def stampStart (s : State) (angle : Nat) : State :=
  (s.modAng fun a => { a with stamp := BitVec.ofNat 48 (angle % 2 ^ 20), frac := 0 }).put F.ANG_STATUS_RUN 1

/-- R421, R530: whether the stamp runs at the free increment: SRC is FREE, or RING on a master. -/
def angFree (s : State) : Bool :=
  s.get F.ANG_CFG_SRC == 3 || (s.get F.ANG_CFG_SRC == 2 && s.flag F.RING_STATUS_MASTER)

/-- R21: one ANG clock edge adds the increment to the stamp. R23: while the angle is free, the first one starts it. -/
def angEdge (s : State) : State :=
  if s.angRun then
    let t := stampAcc s + s.get F.ANG_INC_INC
    let s := s.modAng fun a =>
      { a with prev := a.stamp, stamp := BitVec.ofNat 48 (t / 2 ^ 22), frac := BitVec.ofNat 22 t }
    if s.ang.phaseErr = 0 then s
    else
      let d := slewNow s
      let s := s.modAng fun a =>
        { a with phaseErr := if a.phaseErr > 0 then a.phaseErr - d else a.phaseErr + d }
      syncPhaseOk (syncInc s)
  else if angFree s && s.get F.ANG_STATUS_ACTIVE_SRC == 3 then stampStart s 0
  else s

/-! ### Acquisition (R27, R29, R30) -/

/-- R27: a spacing of `p` ANG clocks, as `n` periods, lies within 39.6 Hz to 25.25 kHz. -/
def spacingInRange (p n : Nat) : Bool := 396 * p ≤ 1536000000 * n && 153600000 * n ≤ 25250 * p

/-- R27: the period, in ANG clocks, of 39.6 Hz to 25.25 kHz. -/
def periodInRange (p : Nat) : Bool := spacingInRange p 1

/-- The band of a period: band b covers 40 · 2^b Hz to 80 · 2^b Hz. -/
def bandOf (p : Nat) : Nat :=
  ((below 10).filter fun b => 40 * 2 ^ b * p ≤ 153600000).getLast?.getD 0

/-- Two spacings agree within 0.5 %. -/
def within05 (a b : Nat) : Bool := 200 * (if a ≤ b then b - a else a - b) ≤ b

/-- R29: the lowest-numbered valid hop entry within 0.5 % of whose period the measurement lies. -/
def hopMatch (s : State) (p : Nat) : Option Nat :=
  (below 8).find? fun k =>
    s.flag (F.ANG_HOPk_CTRL_VALID k) && s.get (F.ANG_HOPk_CTRL_BAND k) ≤ 9 &&
      within05 (256 * p) (s.get (F.ANG_HOPk_PERIOD_PERIOD k))

/-- R26, R27: a stray is counted. -/
def countStray (s : State) : State := s.addSat F.ANG_STRAY_CNT_COUNT

/-- R27: a rejected period raises the angle reference out of range fault. -/
def rangeFault (s : State) : State := s.raise 38 0 0 0 (s.get F.ANG_STATUS_ACTIVE_SRC)

/-- R29, R32: a measurement is taken up: the hop table, or a band search, and the increment for the new period. -/
def takeMeasurement (s : State) (p : Nat) : State :=
  let s := match hopMatch s p with
    | some k =>
      (((s.put F.ANG_STATUS_HOP_HIT 1).put F.ANG_STATUS_HOP_LAST k).put F.ANG_STATUS_BAND
        (s.get (F.ANG_HOPk_CTRL_BAND k))).event 19
    | none => (s.put F.ANG_STATUS_HOP_HIT 0).put F.ANG_STATUS_BAND (bandOf (p * edgeShare s))
  let s := s.modAng fun a =>
    { a with acq := some ⟨true, some p⟩, base := incOfPeriod (256 * p * edgeShare s), phaseErr := 0 }
  syncInc ((s.put F.ANG_STATUS_ACQUIRE 1).put F.ANG_STATUS_LOCKED 0)

/-- R30: an acquisition starts on the input `src`. -/
def startAcquisition (s : State) (src : Nat) : State :=
  let s := s.modAng fun a =>
    { a with acq := some ⟨false, none⟩, lastStray := none, phaseErr := 0, altGood := 0, pin := none, gap := 0, altPin := none }
  let s := (s.put F.ANG_STATUS_ACTIVE_SRC src).put F.ANG_STATUS_ACQUIRE 1
  syncInc ((s.put F.ANG_STATUS_LOCKED 0).put F.ANG_STATUS_PHASE_OK 0)

/-- R530: the stamp follows no reference. R23: one that does not run yet starts on the next ANG edge. -/
def enterFree (s : State) : State :=
  let s := s.modAng fun a =>
    { a with acq := none, lastStray := none, sinceAcc := none, phaseErr := 0, base := freeInc s
             cfgEff := BitVec.ofNat 32 (s.reg R.ANG_CFG) }
  let s := ((s.put F.ANG_STATUS_ACTIVE_SRC 3).put F.ANG_STATUS_ACQUIRE 0).put F.ANG_STATUS_LOCKED 0
  let s := ((s.put F.ANG_STATUS_HOLDOVER 0).put F.ANG_STATUS_HOLD_EXP 0).put F.ANG_STATUS_PHASE_OK 0
  let s := (s.put F.ANG_STATUS_ALIGNED 0).endCond 37 0
  syncInc (s.put F.ANG_CTRL_RESEL 0)

/-- R30, R530: the input that SRC names is selected. R421: SRC = RING on a master raises the ring configuration event. -/
def selectSource (s : State) : State :=
  let s := s.when (s.get F.ANG_CFG_SRC != 2) (·.put F.ANG_STATUS_ALIGNED 0)
  let s := s.when (s.get F.ANG_CFG_SRC == 2 && s.flag F.RING_STATUS_MASTER) (·.evtBit F.RING_EVT_LINK_UP 224)
  if angFree s then enterFree s
  else
    startAcquisition (s.modAng fun a => { a with cfgEff := BitVec.ofNat 32 (s.reg R.ANG_CFG) })
      (s.get F.ANG_CFG_SRC)

/-! ### Lock and phase -/

/-- R531: the phase error of an edge: the stamp's angle less the assigned angle, to the nearer whole cycle, in
units of 2^-22 angle unit. An error of exactly half a cycle has no nearer one: it is taken as negative, and slewed forward
(DESIGN CHOICE, log entry 78). R421: a mark is worth 0x1_0000 units, and its edge lies behind the stamp; the whole marks of
an error that is being slewed stay in it (log entry 79). -/
def edgePhaseErr (s : State) : Int :=
  let d : Int := ((s.ang.stamp.toNat : Nat) : Int) - (s.ang.edgeBack : Int) - ((s.get F.ANG_PHASE_OFFSET : Nat) : Int)
  if edgeShare s = 16 then
    let e := s.ang.phaseErr / 2 ^ 22
    (e + toSigned 16 (ofSigned 16 (d - e))) * 2 ^ 22
  else toSigned 20 (ofSigned 20 d) * 2 ^ 22

/-- R35: the phase error of an edge is slewed out from now on. -/
def alignToEdge (s : State) : State :=
  let e := edgePhaseErr s
  syncPhaseOk (syncInc (s.modAng fun a => { a with phaseErr := e }))

/-- R32, R34: the PLL locks on an edge with period `p256`. R23: the first lock starts the stamp; with the ring, the first
ANGLE cell does (spec/18_startup_reset.md R484). -/
def lockOnEdge (s : State) (p256 : Nat) : State :=
  let first := !s.angRun && edgeShare s == 1
  let s := s.modAng fun a =>
    { a with took := true, acq := none, lastStray := none, sinceAcc := some 0, base := incOfPeriod (p256 * edgeShare s)
             cfgEff := BitVec.ofNat 32 (s.reg R.ANG_CFG) }
  let s := s.put F.ANG_PERIOD_PERIOD p256
  let s := s.when first (fun s => stampStart s (s.get F.ANG_PHASE_OFFSET))
  let s := (((s.put F.ANG_STATUS_LOCKED 1).put F.ANG_STATUS_HOLDOVER 0).put F.ANG_STATUS_HOLD_EXP 0).put
    F.ANG_STATUS_ACQUIRE 0
  alignToEdge (((s.put F.ANG_CTRL_RESEL 0).endCond 37 0).event 17)

/-- R29, R51: an acquisition completes: the lock ends the range fault. -/
def lockAcquired (s : State) (p256 : Nat) : State := (lockOnEdge s p256).endCond 38 0

/-- The gate tolerance of R26, in percent. -/
def gateTol (s : State) : Nat := match angEff s F.ANG_CFG_TOL with | 0 => 1 | 1 => 3 | 2 => 10 | _ => 25

/-- R26: the multiple of the period whose gate holds a spacing of `t` ANG clocks; none outside every gate. -/
def gateOf (s : State) (t : Nat) : Option Nat :=
  let p := s.get F.ANG_PERIOD_PERIOD
  if p = 0 then none
  else
    let n := max 1 ((2 * 256 * t + p) / (2 * p))
    let d := if n * p ≤ 256 * t then 256 * t - n * p else n * p - 256 * t
    if 100 * d ≤ gateTol s * p then some n else none

/-- R531: the tracked period after an accepted edge, P + k (p - P), in 1/256 ANG clocks, rounded toward P. -/
def trackPeriod (s : State) (t n : Nat) : Nat :=
  let p : Int := ((s.get F.ANG_PERIOD_PERIOD : Nat) : Int)
  let m : Int := ((256 * t / n : Nat) : Int)
  let k : Int := 4 * 4 ^ angEff s F.ANG_CFG_BW
  (p + (m - p).tdiv k).toNat

/-- R28: tracked periods pass on the active input: ANGREF_ALT has to deliver a gated edge in each. -/
def ageAlt (s : State) (n : Nat) : State :=
  s.modAng fun a => { a with altIdle := a.altIdle + n, altGood := if 2 ≤ a.altIdle + n then 0 else a.altGood }

/-- R26, R531: an edge inside a gate is accepted. -/
def acceptEdge (s : State) (t n : Nat) : State :=
  let s := ageAlt s n
  let p := trackPeriod s t n
  if s.holdover || !s.locked then lockOnEdge s p
  else
    let s := s.modAng fun a =>
      { a with took := true, sinceAcc := some 0, lastStray := none, base := incOfPeriod (p * edgeShare s)
               cfgEff := BitVec.ofNat 32 (s.reg R.ANG_CFG) }
    alignToEdge (s.put F.ANG_PERIOD_PERIOD p)

/-- R26, R27: an edge outside every gate; two in a row whose spacings agree are a frequency change. -/
def strayEdge (s : State) (spacing : Nat) : State :=
  let s := countStray s
  match s.ang.lastStray with
  | some q =>
    if within05 spacing q then
      if periodInRange (spacing * edgeShare s) then
        let s := s.modAng fun a => { a with lastStray := none, sinceAcc := some 0 }
        takeMeasurement (s.event 18) spacing
      else rangeFault (s.modAng fun a => { a with lastStray := none })
    else s.modAng fun a => { a with lastStray := some spacing }
  | none => s.modAng fun a => { a with lastStray := some spacing }

/-- R29, R30: an edge during an acquisition. -/
def acquireEdge (s : State) (q : Acq) (spacing : Nat) : State :=
  if !q.edgeSeen then s.modAng fun a => { a with took := true, acq := some { q with edgeSeen := true }, sinceAcc := some 0 }
  else if !periodInRange (spacing * edgeShare s) then rangeFault (countStray s)
  else
    let s := s.modAng fun a => { a with took := true, sinceAcc := some 0, cfgEff := BitVec.ofNat 32 (s.reg R.ANG_CFG) }
    match q.meas with
    | none => takeMeasurement s spacing
    | some m => if within05 spacing m then s else takeMeasurement s spacing

/-- R26, R27: an edge `spacing` ANG clocks after the one before it and `t` after the last accepted one: accepted in a gate
whose period is in range, else a stray. -/
def gateEdge (s : State) (t spacing : Nat) : State :=
  match gateOf s t with
  | some n =>
    if spacingInRange (t * edgeShare s) n then acceptEdge s t n
    else rangeFault (strayEdge (s.modAng fun a => { a with sinceAcc := some t, lastStray := none }) spacing)
  | none => strayEdge (s.modAng fun a => { a with sinceAcc := some t }) spacing

/-- An active edge taken on the active input, `spacing` ANG clocks after the one before it (R26). -/
def referenceEdge (s : State) (spacing : Nat) : State :=
  if angFree s then s
  else
    match s.ang.acq with
    | some q => acquireEdge s q spacing
    | none =>
      match s.ang.sinceAcc with
      | none => s
      | some t => gateEdge s (t + spacing) spacing

/-- R26: the level that an active edge leads to, by `ANG_CFG.EDGE` in effect. -/
def activeLevel (s : State) : Bool := angEff s F.ANG_CFG_EDGE == 0

/-- R29, R23: the acquisition completes on a reference edge that agrees with its measurement. -/
def acquisitionComplete (s : State) (spacing : Nat) : State :=
  let s := s.modAng fun a => { a with pin := some (activeLevel s), gap := 0 }
  match s.ang.acq with
  | some ⟨_, some m⟩ =>
    if periodInRange (spacing * edgeShare s) && within05 spacing m then lockAcquired s (256 * m) else acquireEdge s ⟨true, some m⟩ spacing
  | _ => s

/-- R25: a level on an input is taken once 16 ANG samples in a row show it, where another was taken before. -/
def levelTaken (pin : Option Bool) (level : Bool) (held : Nat) : Bool := decide (16 ≤ held) && pin != some level

/-- R25, R26: the active input has changed to `level`, `spacing` ANG clocks after its last change, and holds it for `held`
samples. A change that is not taken, and an edge of the other direction, only let time pass. -/
def referencePin (s : State) (spacing : Nat) (level : Bool) (held : Nat) : State :=
  let gap := s.ang.gap + spacing
  if !levelTaken s.ang.pin level held then s.modAng fun a => { a with gap := gap }
  else if level == activeLevel s then
    referenceEdge (s.modAng fun a => { a with pin := some level, gap := 0 }) gap
  else s.modAng fun a => { a with pin := some level, gap := gap }

/-- R28: the last 8 cycles have each brought a gated edge of ANGREF_ALT, the present one too. -/
def altReady (s : State) : Bool :=
  s.ang.altGood == 8 && s.ang.altIdle == 0 && decide ((s.ang.stamp - s.ang.altAt).toNat ≤ 2 ^ 20 + 2 ^ 20 * gateTol s / 100)

/-- R28: the PLL moves to ANGREF_ALT. -/
def altFailover (s : State) : State :=
  let s := (s.put F.ANG_STATUS_ACTIVE_SRC 1).event 21
  s.modAng fun a => { a with sinceAcc := some 0, lastStray := none, altGood := 0, pin := a.altPin, gap := a.altGap }

/-- R32, R28: no accepted edge for 1.5 tracked periods. -/
def holdoverEntry (s : State) : State :=
  if angFree s || !s.angRun || s.holdover then s
  else if s.locked && s.get F.ANG_STATUS_ACTIVE_SRC == 0 && s.get F.ANG_CFG_SRC == 0 &&
      angEff s F.ANG_CFG_ALT_FAILOVER == 1 && altReady s then altFailover s
  else
    let s := ((s.put F.ANG_STATUS_LOCKED 0).put F.ANG_STATUS_PHASE_OK 0).put F.ANG_STATUS_HOLDOVER 1
    let s := s.put F.ANG_STATUS_ALIGNED 0
    syncInc ((s.modAng fun a => { a with phaseErr := 0 }).event 16)

/-- R34: holdover has lasted ANG_HOLD_MAX cycles; 0 sets no limit. -/
def holdoverExpired (s : State) : State :=
  if s.holdover && s.flag F.ANG_HOLD_MAX_CYCLES && !s.flag F.ANG_STATUS_HOLD_EXP then
    (s.put F.ANG_STATUS_HOLD_EXP 1).raise 37 0 1 0 0
  else s

/-- R28: an active edge taken on ANGREF_ALT, `spacing` ANG clocks after the one before it, judged by the second gate. -/
def altEdge (s : State) (spacing : Nat) : State :=
  if s.get F.ANG_CFG_SRC == 0 && s.get F.ANG_STATUS_ACTIVE_SRC == 0 && angEff s F.ANG_CFG_ALT_FAILOVER == 1 && s.locked then
    match gateOf s spacing with
    | some 1 => s.modAng fun a => { a with altGood := min 8 (a.altGood + 1), altIdle := 0, altAt := a.stamp }
    | _ => s.modAng fun a => { a with altGood := 0 }
  else s

/-- R25, R28: ANGREF_ALT has changed to `level`, as `referencePin` has it of the active input. -/
def altPinChange (s : State) (spacing : Nat) (level : Bool) (held : Nat) : State :=
  let gap := s.ang.altGap + spacing
  if !levelTaken s.ang.altPin level held then s.modAng fun a => { a with altGap := gap }
  else if level == activeLevel s then
    altEdge (s.modAng fun a => { a with altPin := some level, altGap := 0 }) gap
  else s.modAng fun a => { a with altPin := some level, altGap := gap }

/-! ### Register writes and reads of the angle block (R52) -/

/-- A write of `ANG_CFG` has been stored: a change of SRC acquires (R30); in FREE it takes effect at once. -/
def angCfgWritten (s : State) (old : Nat) : State :=
  if F.ANG_CFG_SRC.extract old != s.get F.ANG_CFG_SRC then selectSource s
  else if angFree s then s.modAng fun a => { a with cfgEff := BitVec.ofNat 32 (s.reg R.ANG_CFG) }
  else s

/-- R28, R30: ANG_CTRL.RESEL. The bit reads 1 until the reselection is complete. -/
def angResel (s : State) : State := selectSource (s.put F.ANG_CTRL_RESEL 1)

/-- R31: ANG_CTRL.HOP_STORE. -/
def hopStore (s : State) : State :=
  if s.locked then
    let k := s.get F.ANG_CTRL_HOP_IDX
    let s := s.put (F.ANG_HOPk_PERIOD_PERIOD k) (s.get F.ANG_PERIOD_PERIOD)
    (s.put (F.ANG_HOPk_CTRL_BAND k) (s.get F.ANG_STATUS_BAND)).put (F.ANG_HOPk_CTRL_VALID k) 1
  else s

/-- The free increment changed: in FREE the stamp advances at it. -/
def freeIncChanged (s : State) : State :=
  if angFree s then syncInc (s.modAng fun a => { a with base := freeInc s }) else s

/-- R52: a write of `ANG_INC` is ignored unless SRC is FREE; then it is also stored in `ANG_FREE_INC`. -/
def angIncWrite (s : State) (v : Nat) : State :=
  if s.get F.ANG_CFG_SRC == 3 then freeIncChanged (s.put F.ANG_FREE_INC_INC v) else s

/-- R52: a write of `ANG_FREE_INC`. -/
def angFreeIncWrite (s : State) (v : Nat) : State := freeIncChanged (s.put F.ANG_FREE_INC_INC v)

/-- R35: a write of `ANG_PHASE.OFFSET`; the difference is slewed out. -/
def angPhaseWrite (s : State) (v : Nat) : State :=
  let old : Int := ((s.get F.ANG_PHASE_OFFSET : Nat) : Int)
  let s := s.put F.ANG_PHASE_OFFSET v
  if s.locked then
    let e := s.ang.phaseErr + (old - ((s.get F.ANG_PHASE_OFFSET : Nat) : Int)) * 2 ^ 22
    let e := toSigned 42 (ofSigned 42 e)
    syncPhaseOk (syncInc (s.modAng fun a => { a with phaseErr := e }))
  else s

/-- The flags and high part that `ANG_STAMP_HI` shows. -/
def stampHiWord (s : State) : Nat :=
  (if s.holdover then 2 ^ 31 else 0) + (if s.locked then 2 ^ 30 else 0) + (if s.angRun then 2 ^ 29 else 0) +
    stampHi s.ang.stamp

/-- R24: a read of `ANG_STAMP_HI` latches the whole stamp for the issuing port. -/
def angStampRead (s : State) (p : Port) : State :=
  (s.latch p R.ANG_STAMP_HI (stampHiWord s)).latch p R.ANG_STAMP_LO (stampLo s.ang.stamp)

end Sys2Proof.Machine
end

