-- ==== Sys2Proof/Machine/Quire.lean ====
section
/-! DEFINITION. The Quire sequencer: up- and down-sequences, retries, shuts, the Hallmark down-order
(spec/07_quires.md). -/

namespace Sys2Proof.Machine

def State.modSeq (s : State) (f : SeqState → SeqState) : State := { s with seq := f s.seq }
def State.qu (s : State) (q : Nat) : QuireState := vget s.seq.quire q
def State.modQ (s : State) (q : Nat) (f : QuireState → QuireState) : State :=
  s.modSeq fun t => { t with quire := vmod t.quire q f }
def State.rs (s : State) (n : Nat) : RailSeq := vget s.seq.rail n
def State.modRs (s : State) (n : Nat) (f : RailSeq → RailSeq) : State :=
  s.modSeq fun t => { t with rail := vmod t.rail n f }

/-! ### Members, steps and states (R162 to R164) -/

def qOff := 0
def qUpRun := 1
def qOn := 2
def qDownRun := 3
def qShutting := 4
def qHeld := 5
def qStopped := 6
def qHallmark := 7

def quires : List Nat := below 16
def qState (s : State) (q : Nat) : Nat := s.get (F.QUIREq_STATUS_STATE q)
def members (s : State) (q : Nat) : Nat := rails64 (s.reg (R.QUIREq_MEMBERS_LO q)) (s.reg (R.QUIREq_MEMBERS_HI q))

/-- The Quire a rail belongs to (R162). -/
def quireOf (s : State) (n : Nat) : Option Nat := quires.find? fun q => bitOf (members s q) n

/-- A word of a step: direction `down`, index `i`. -/
def stepWord (s : State) (q : Nat) (down : Bool) (i w : Nat) : Nat := s.reg (R.quireStep q (i + if down then 16 else 0) w)

/-- A field of a step, by the field of its window register. -/
def stepGet (s : State) (q : Nat) (down : Bool) (i w : Nat) (f : Field) : Nat := f.extract (stepWord s q down i w)

def stepValid (s : State) (q : Nat) (down : Bool) (i : Nat) : Bool :=
  decide (i < 16) && stepGet s q down i 2 (F.QUIREq_STEP2_VALID q) == 1
def stepRails (s : State) (q : Nat) (down : Bool) (i : Nat) : Nat :=
  rails64 (stepWord s q down i 0) (stepWord s q down i 1)
def stepFlag (s : State) (q : Nat) (down : Bool) (i : Nat) (f : Nat → Field) : Bool := stepGet s q down i 2 (f q) == 1

/-- The current step: direction and index. -/
def curDown (s : State) (q : Nat) : Bool := s.flag (F.QUIREq_STATUS_DIR q)
def curStep (s : State) (q : Nat) : Nat := s.get (F.QUIREq_STATUS_STEP q)
def curRails (s : State) (q : Nat) : Nat := stepRails s q (curDown s q) (curStep s q)
def curFlag (s : State) (q : Nat) (f : Nat → Field) : Bool := stepFlag s q (curDown s q) (curStep s q) f

/-- A rail of the Quire is in a retry cycle. -/
def cycleRuns (s : State) (q : Nat) : Bool := (railList (members s q)).any fun n => (s.rs n).cycle != .none

/-- R164: a step is in progress for R17. -/
def stepInProgress (s : State) (q : Nat) : Bool :=
  let st := qState s q
  st == qUpRun || st == qDownRun || st == qShutting || st == qHeld || st == qHallmark || (st == qOn && cycleRuns s q)

/-- Whether a Quire step involving the rail is in progress (R100). -/
def stepOnRail (s : State) (n : Nat) : Bool :=
  match quireOf s n with
  | some q => (s.rs n).cycle != .none || qState s q == qHallmark ||
      ((s.qu q).phase != .idle && stepInProgress s q && bitOf (curRails s q) n)
  | none => false

/-- R188, R189, R187: the sequencer may start steps and apply actions. -/
def seqRuns (s : State) : Bool :=
  !s.flag F.SEQ_STATUS_HALT_SUSP && s.get F.TWIN_STATUS_ROLE < 2 && s.mode != mHoldup && s.mode != mStartup

/-! ### Conditions (R169, R185) -/

/-- R169: whether a rail's PG condition holds now. -/
def pgCond (s : State) (n : Nat) (down : Bool) : Bool :=
  !s.flag (F.RAILn_GUARD_CFG_PG_USE n) || (if down then !pgGood s n else pgGood s n)

/-- R169, R185, R184, R186: whether a rail's WIN condition holds now, `valids` valid samples after the action. -/
def winCond (s : State) (n : Nat) (down : Bool) (valids : Nat) : Bool :=
  if s.flag (F.RAILn_FINE_STATE_OOS n) then down || !s.flag (F.RAILn_GUARD_STATUS_UV_OUT n)
  else if (s.fr n).outage != 0 then false
  else if down then decide (2 ≤ (s.rs n).lows)
  else s.get (F.RAILn_FINE_STATE_WIN n) == 1 && decide (max 1 (s.get (F.RAILn_FINE_WIN_HI_CNT n)) ≤ valids)

/-- Rails whose step conditions hold stay counted as holding (R169). -/
def latchRail (s : State) (n : Nat) (down : Bool) : State :=
  let pg := pgCond s n down
  let win := winCond s n down (s.rs n).valids
  s.modRs n fun r => { r with pgHeld := r.pgHeld || pg, winHeld := r.winHeld || win }

/-- R175: the same for a retry cycle, which counts for its one rail. -/
def latchCycle (s : State) (n : Nat) : State :=
  let pg := pgCond s n false
  let win := winCond s n false (s.rs n).cycleValids
  s.modRs n fun r => { r with cyclePg := r.cyclePg || pg, cycleWin := r.cycleWin || win }

/-- Whether a rail's selected step conditions hold. -/
def railHolds (s : State) (q n : Nat) : Bool :=
  (!curFlag s q F.QUIREq_STEP2_PG || (s.rs n).pgHeld) && (!curFlag s q F.QUIREq_STEP2_WIN || (s.rs n).winHeld)

/-- R169, R177: the DEP condition. -/
def depHolds (s : State) (q : Nat) : Bool :=
  let down := curDown s q
  let i := curStep s q
  let d := stepGet s q down i 2 (F.QUIREq_STEP2_DEP_Q q)
  let k := stepGet s q down i 2 (F.QUIREq_STEP2_DEP_STEP q)
  let bit := bitOf (s.reg (R.QUIREq_DONE d)) (k + if stepFlag s q down i F.QUIREq_STEP2_DEP_DIR then 16 else 0)
  !curFlag s q F.QUIREq_STEP2_DEP || bit ||
    (qState s q == qShutting && !(qState s d == qDownRun || qState s d == qShutting))

/-- R177: the barrier is waited for. -/
def barSelected (s : State) (q : Nat) : Bool := curFlag s q F.QUIREq_STEP2_BAR && qState s q != qShutting

/-- R171: the conditions that do not hold, in the order of STEP2 [29:24]. -/
def openConds (s : State) (q : Nat) : Nat :=
  let rails := railList (curRails s q)
  (if barSelected s q then 32 else 0) + (if depHolds s q then 0 else 16) +
    (if curFlag s q F.QUIREq_STEP2_SETTLE_W && !(s.qu q).settled then 8 else 0) +
    (if curFlag s q F.QUIREq_STEP2_WIN && rails.any (fun n => !(s.rs n).winHeld) then 2 else 0) +
    (if curFlag s q F.QUIREq_STEP2_PG && rails.any (fun n => !(s.rs n).pgHeld) then 1 else 0)

/-- R171, R192: `QUIREq_WAITING` as it reads. -/
def quireWaitingWord (s : State) (q : Nat) : Nat :=
  let waits := match (s.qu q).phase with | .wait | .bar _ => true | _ => false
  s.reg (R.QUIREq_WAITING q) + (if waits then openConds s q else 0)

/-- R192: `QUIREq_STATUS` as it reads: the stored fields, and how the Quire waits. -/
def quireStatusWord (s : State) (q : Nat) : Nat :=
  let p := (s.qu q).phase
  let bar := match p with | .bar _ => true | _ => false
  let retry := p == .retryOff || (railList (members s q)).any fun n => (s.rs n).cycle == .off
  s.reg (R.QUIREq_STATUS q) + (if s.flag F.SEQ_STATUS_HALT_SUSP then 0x8000 else 0) +
    (if p == .gate then 0x4000 else 0) + (if bar then 0x2000 else 0) + (if retry then 0x1000 else 0)

/-- R2, R192: `QUIREq_CTRL` as it reads: a start written to it reads 1 until its sequence is complete. -/
def quireCtrlWord (s : State) (q : Nat) : Nat :=
  let runs (st : Nat) (down : Bool) := qState s q == st || (qState s q == qHeld && curDown s q == down)
  (if s.flag ⟨R.QUIREq_CTRL q, 0, 1⟩ && runs qUpRun false then 1 else 0) +
    (if s.flag ⟨R.QUIREq_CTRL q, 1, 1⟩ && runs qDownRun true then 2 else 0)

/-- R192: `SEQ_STATUS` as it reads: the stored fields, and the Quires with a step in progress. -/
def seqStatusWord (s : State) : Nat :=
  s.reg R.SEQ_STATUS + quires.foldl (fun m q => if stepInProgress s q then m + 2 ^ q else m) 0

/-- The rails that are waited for have their conditions looked at again. -/
def latchConds (s : State) (q : Nat) : State :=
  let s := match (s.qu q).phase with
    | .wait | .bar _ => s.forEach (railList (curRails s q)) fun s n => latchRail s n (curDown s q)
    | _ => s
  s.forEach (railList (members s q)) fun s n => if (s.rs n).cycle == .waiting then latchCycle s n else s

/-- The same for the Quire of one rail. -/
def latchCondsOf (s : State) (n : Nat) : State :=
  match quireOf s n with | some q => latchConds s q | none => s

/-! ### Steps (R167, R163) -/

def qEvent (s : State) (q : Nat) (f : Nat → Field) (bit : Nat) : State := s.evtBit (f q) (104 + bit)

/-- R167 item 5, R185: the step done event, with the guard-only flag where a step rail's fine path is out of service. -/
def stepDoneEvent (s : State) (q rails : Nat) : State :=
  (s.put (F.QUIREq_EVT_STEP_DONE q) 1).event 104 ((railList rails).any fun n => s.flag (F.RAILn_FINE_STATE_OOS n))

/-- R97: the slope monitor ends with the step that enabled the rails. -/
def slopeEnd (s : State) (rails : Nat) : State :=
  s.forEach (railList rails) fun s n =>
    (s.put (F.RAILn_FINE_STATE_SLOPE_ACTIVE n) 0).modFine n fun g => { g with slopeArm := false }

/-- A condition that ends when a Quire leaves HELD (R182). -/
def endHeld (s : State) (q : Nat) : State := s.endCond 22 q

/-- R179, R191: what ends when the Quire becomes OFF. -/
def endOff (s : State) (q : Nat) : State :=
  let s := (((s.endCond 19 q).endCond 21 q).endCond 22 q)
  s.forEach (railList (members s q)) fun s n =>
    (s.endCond 20 n).modRs n fun r => { r with cycle := .none, enabler := none }

/-- R179: the final action of a down-sequence. -/
def downFinal (s : State) (q : Nat) : State :=
  let s := applyLatch s 0 (members s q)
  let s := (s.put (F.QUIREq_STATUS_STATE q) qOff).modQ q fun t => { t with phase := .idle }
  qEvent (endOff s q) q F.QUIREq_EVT_DOWN_DONE 1

/-- R164, R18: a sequence ran to its end in this step, so a step was in progress, be it for this one edge. -/
def seqRan (s : State) : State := s.modSeq fun t => { t with ran := true }

/-- A step becomes ready, or the sequence has run to its end. -/
def readyStep (s : State) (q : Nat) (down : Bool) (i : Nat) : State :=
  if stepValid s q down i then
    let s := ((s.putB (F.QUIREq_STATUS_DIR q) down).put (F.QUIREq_STATUS_STEP q) i).put (F.QUIREq_STATUS_ATTEMPT q) 0
    let gated := stepFlag s q down i F.QUIREq_STEP2_ANG_GATE && qState s q != qShutting
    (s.put (F.QUIREq_WAITING_ELAPSED q) 0).modQ q fun t =>
      { t with phase := if gated then .gate else .action, settled := false, elapsed := 0 }
  else if down then seqRan (downFinal s q)
  else
    let s := (s.put (F.QUIREq_STATUS_STATE q) qOn).modQ q fun t => { t with phase := .idle }
    seqRan (qEvent (s.endCond 19 q) q F.QUIREq_EVT_UP_DONE 2)

/-- R167 item 3: the action reaches the latches; `off` are rails whose off request meets it (R74). -/
def applyAction (s : State) (q off : Nat) : State :=
  let down := curDown s q
  let i := curStep s q
  let rails := curRails s q
  let s := s.forEach (railList rails) fun s n =>
    s.modRs n fun r => { r with valids := 0, lows := 0, pgHeld := false, winHeld := false
                                enabler := if down then r.enabler else some (q, i) }
  let s := if down then applyLatch s 0 rails else applyLatch s rails (railList rails |>.foldl (fun m n => if bitOf off n then m + 2 ^ n else m) 0)
  let s := (s.put (F.QUIREq_WAITING_ELAPSED q) 0).modQ q fun t => { t with phase := .wait, settled := false, elapsed := 0 }
  latchConds s q

/-- R167 item 5: the step completes, and the next becomes ready. -/
def completeStep (s : State) (q : Nat) : State :=
  let down := curDown s q
  let i := curStep s q
  let rails := curRails s q
  let held := qState s q == qHeld
  let s := if held then (endHeld s q).put (F.QUIREq_STATUS_STATE q) (if down then qDownRun else qUpRun) else s
  let s := s.put (F.QUIREq_STATUS_ATTEMPT q) 0
  let s := s.put ⟨R.QUIREq_DONE q, i + (if down then 16 else 0), 1⟩ 1
  let s := stepDoneEvent s q rails
  let s := if down then s else
    (slopeEnd s rails).forEach (railList rails) fun s n => if enLatch s n then armUv s n else s
  readyStep s q down (i + 1)

/-! ### Starts (R166) -/

/-- R166, R398: why an up- or down-start of a Quire is refused: 1 state, 2 FATAL_BLOCK, 3 a step rail, 4 DEP; 0 none.
Mode, role and security are judged apart. -/
def startReason (s : State) (q : Nat) (down : Bool) : Nat :=
  let st := qState s q
  let steps := (below 32).map fun k => (decide (16 ≤ k), k % 16)
  if down then (if st == qUpRun || st == qOn || st == qHeld || st == qStopped then 0 else 1)
  else if !(st == qOff || st == qStopped) then 1
  else if s.flag F.SEQ_STATUS_FATAL_BLOCK then 2
  else if steps.any (fun k => stepValid s q k.1 k.2 &&
      (railList (stepRails s q k.1 k.2)).any fun n => !bitOf (members s q) n || !railUse s n) then 3
  else if steps.any (fun k => stepValid s q k.1 k.2 && stepFlag s q k.1 k.2 F.QUIREq_STEP2_DEP &&
      stepGet s q k.1 k.2 2 (F.QUIREq_STEP2_DEP_Q q) == q) then 4
  else 0

/-- R166: the modes that allow a start. -/
def startMode (s : State) : Bool := s.mode == mRamp || s.mode == mGuard || s.mode == mQuiescent

def secUnsealed := 0
def secSealed := 1
def secEscorted := 2
def secRetired := 3
def State.security (s : State) : Nat := s.get F.SEC_STATE_SECURITY

/-- R166: a start written to a register is refused. -/
def startRefused (s : State) (q : Nat) (down : Bool) : Bool :=
  !startMode s || (!down && s.security == secRetired) || startReason s q down != 0

/-- A rail's retry counter and its condition holds, at a start from OFF (R176). -/
def resetRused (s : State) (rails : Nat) : State := s.forEach (railList rails) fun s n => s.put (F.SEQ_RAIL_RUSED n) 0

/-- R166: an accepted up-start. -/
def startUp (s : State) (q : Nat) : State :=
  let st := qState s q
  let i := if st == qStopped && !curDown s q then curStep s q else 0
  let s := (s.setReg (R.QUIREq_DONE q) 0).setReg (R.QUIREq_CTRL q) 0
  let s := if st == qOff then resetRused s (members s q) else s
  readyStep (s.put (F.QUIREq_STATUS_STATE q) qUpRun) q false i

/-- The running step of a Quire ends without a DONE mark. -/
def abandonStep (s : State) (q : Nat) : State :=
  let s := if (s.qu q).phase != .idle && !curDown s q then slopeEnd s (curRails s q) else s
  ((endHeld s q).put (F.QUIREq_STATUS_ATTEMPT q) 0).modQ q fun t => { t with phase := .idle, slopeHeld := 0 }

/-- R166: an accepted commanded down-sequence. -/
def startDown (s : State) (q : Nat) : State :=
  let s := ((abandonStep s q).setReg (R.QUIREq_DONE q) 0).setReg (R.QUIREq_CTRL q) 0
  readyStep (s.put (F.QUIREq_STATUS_STATE q) qDownRun) q true 0

/-! ### Shuts (R177, R178, R188) -/

/-- Ends the retry cycles of a set of rails. -/
def endCycles (s : State) (rails : Nat) : State :=
  s.forEach (railList rails) fun s n => s.modRs n fun r => { r with cycle := .none }

/-- R188: the next stage of the Hallmark order that names a rail of the set, from stage `k` on. -/
def hmStageRails (s : State) (k : Nat) : Nat := rails64 (s.reg (R.hmStage k 0)) (s.reg (R.hmStage k 1))
def hmStageValid (s : State) (k : Nat) : Bool := F.HM_ORDER_CFG_VALID.extract (s.reg (R.hmStage k 2)) == 1

def maskMembers (s : State) (qs : Nat) : List Nat :=
  (below 64).filter fun n => quires.any fun q => bitOf qs q && bitOf (members s q) n

/-- R188: past the last stage the remaining members turn off and the Quires become OFF. -/
def haltEnd (s : State) (qs : Nat) : State :=
    let s := applyLatch s 0 ((maskMembers s qs).foldl (fun m n => m + 2 ^ n) 0)
    let s := seqRan (s.modSeq fun t => { t with haltOff := none })
    s.forEach quires fun s q =>
      if bitOf qs q then
        let s := (s.put (F.QUIREq_STATUS_STATE q) qOff).modQ q fun t => { t with phase := .idle }
        qEvent (endOff s q) q F.QUIREq_EVT_DOWN_DONE 1
      else s

/-- R188, R467: stage `k` of the shutdown order at Halt acts; stages that name no member are skipped, and the order ends before
the first stage with VALID = 0. -/
def haltStage : Nat → State → Nat → Nat → State
  | 0, s, qs, _ => haltEnd s qs
  | fuel + 1, s, qs, k =>
    let named := (maskMembers s qs).filter fun n => bitOf (hmStageRails s k) n
    if !hmStageValid s k then haltEnd s qs
    else if !named.isEmpty then
      (applyLatch s 0 (named.foldl (fun m n => m + 2 ^ n) 0)).modSeq fun t => { t with haltOff := some (qs, k) }
    else haltStage fuel s qs (k + 1)

/-- R188: at Halt a shut turns the member rails off in the Hallmark stage order, those of a suspended shut too. A Quire that
joins a running order does so at the stage reached (DESIGN CHOICE, log entry 97). -/
def haltShut (s : State) (qs : Nat) : State :=
  let joined (q : Nat) : Bool := match s.seq.haltOff with | some (old, _) => bitOf old q | none => false
  let live := quires.foldl (fun m q =>
    if bitOf qs q && qState s q != qOff && qState s q != qHallmark && !joined q then m + 2 ^ q else m) 0
  if live = 0 then s
  else
    let s := s.forEach quires fun s q =>
      if bitOf live q then
        let active := (s.qu q).phase != .idle
        let s := (abandonStep (endCycles s (members s q)) q).put (F.QUIREq_STATUS_STATE q) qShutting
        if active then s.put (F.QUIREq_STATUS_CAUSE q) 6 else s
      else s
    match s.seq.haltOff with
    | some (old, k) => s.modSeq fun t => { t with haltOff := some (old ||| live, k) }
    | none => haltStage 16 s live 0

/-- R177: the shut of a Quire; in COMMISSION its members turn off on one edge (R174). -/
def shutQuire (s : State) (q : Nat) : State :=
  let st := qState s q
  if s.mode == mCommission then applyLatch s 0 (members s q)
  else if s.flag F.SEQ_STATUS_HALT_SUSP then haltShut s (2 ^ q)
  else if st == qOff || st == qHallmark || st == qShutting then s
  else
    let s := endCycles s (members s q)
    if st == qDownRun then
      let s := s.put (F.QUIREq_STATUS_STATE q) qShutting
      match (s.qu q).phase with
      | .gate => s.modQ q fun t => { t with phase := .action }
      | .bar _ => s.modQ q fun t => { t with phase := .wait }
      | _ => s
    else
      let running := (s.qu q).phase != .idle
      let s := (abandonStep s q).setReg (R.QUIREq_DONE q) 0
      let s := if running then s.put (F.QUIREq_STATUS_CAUSE q) 6 else s
      readyStep (s.put (F.QUIREq_STATUS_STATE q) qShutting) q true 0

/-- R178: every Quire is shut; in COMMISSION every Quire's members turn off. -/
def shutAllQuires (s : State) : State :=
  if s.flag F.SEQ_STATUS_HALT_SUSP && s.mode != mCommission then haltShut s 0xFFFF else s.forEach quires shutQuire

/-! ### Retries and failure (R172, R173, R175, R306) -/

/-- R306: a non-Fatal hand to the Warden for a rail: the request is sent, or the reaction acts as shut the Quire. -/
def handOver (s : State) (n : Nat) : State :=
  if s.get F.TWIN_STATUS_ROLE == 1 && s.flag F.TWIN_STATUS_LINK_UP && s.flag F.TWIN_STATUS_PEER_READY &&
      s.flag F.TWIN_STATUS_WARDEN_OK && !s.flag F.TWIN_STATUS_FROZEN then
    ((s.put F.TWIN_STATUS_HO_PEND 1).modSeq fun t => { t with hoRails := t.hoRails.filter (· != n) ++ [n] }).evtBit
      F.TWIN_EVT_HO_SENT 132
  else
    let s := s.raiseMomentary 51 0 1 0
    match quireOf s n with
    | some q => shutQuire s q
    | none => latchOff s n

/-- The strongest reaction, as R173 orders them: 0 none held, 1 ignore, 2 retry, 3 shut, 4 shut all, 5 Warden. -/
def rxnRank (s : State) (n : Nat) : Nat :=
  match s.get (F.SEQ_RAIL_RXN n) with | 0 => 1 | 1 => 2 | 2 => 3 | 4 => 5 | _ => 4

/-- R173: an up-step has used its last attempt. -/
def exhaust (s : State) (q cause holding : Nat) : State :=
  let i := curStep s q
  let s := slopeEnd s (curRails s q)
  let s := s.setReg R.SEQ_FAIL (q * 4096 + i * 128 + cause)
  let s := (s.setReg R.SEQ_FAIL_LO (holding % 2 ^ 32)).setReg R.SEQ_FAIL_HI (holding / 2 ^ 32)
  let s := qEvent s q F.QUIREq_EVT_STEP_FAIL 3
  let s := s.raise 19 0 1 q (q + i * 16 + cause * 512)
  let rank := (railList holding).foldl (fun m n => max m (rxnRank s n)) 0
  match rank with
  | 0 => (s.put (F.QUIREq_STATUS_STATE q) qStopped).modQ q fun t => { t with phase := .idle }
  | 1 => completeStep s q
  | 4 => shutAllQuires (s.modQ q fun t => { t with phase := .idle })
  | 5 => match (railList holding).find? fun n => rxnRank s n == 5 with | some n => handOver s n | none => s
  | _ => shutQuire (s.modQ q fun t => { t with phase := .idle }) q

/-- R172: an attempt of the running up-step fails. -/
def failAttempt (s : State) (q cause holding : Nat) : State :=
  let s := s.put (F.QUIREq_STATUS_CAUSE q) cause
  let i := curStep s q
  let a := s.get (F.QUIREq_STATUS_ATTEMPT q)
  if a = stepGet s q false i 2 (F.QUIREq_STEP2_RETRY q) then exhaust s q cause holding
  else
    let s := (s.put (F.QUIREq_STATUS_ATTEMPT q) (a + 1)).addSat (F.QUIREq_CNT_RETRIES q)
    let s := qEvent (applyLatch s 0 (curRails s q)) q F.QUIREq_EVT_RETRY 4
    s.modQ q fun t => { t with phase := .retryOff, slopeHeld := 0 }

/-- R174: an attempt of the up-step that enabled the rail is in progress. R172: entering HELD ends the attempt. -/
def attemptOn (s : State) (q n : Nat) : Bool :=
  qState s q == qUpRun && !curDown s q &&
    (match (s.qu q).phase with | .wait | .bar _ => true | _ => false) && bitOf (curRails s q) n

/-- R175: a rail retry cycle starts, or its budget is used up. -/
def retryCycle (s : State) (q n : Nat) : State :=
  let budget := match (s.rs n).enabler with
    | some (p, i) => stepGet s p false i 2 (F.QUIREq_STEP2_RETRY p)
    | none => 0
  if s.get (F.SEQ_RAIL_RUSED n) = budget then shutQuire (s.raise 20 0 1 n (n + 256 * q)) q
  else
    let s := (s.addSat (F.SEQ_RAIL_RUSED n)).addSat (F.QUIREq_CNT_RETRIES q)
    qEvent ((latchOff s n).modRs n fun r => { r with cycle := .off }) q F.QUIREq_EVT_RETRY 4

/-- R174, R188: the rail's reaction to its OV, UV or PG lost fault; it asks nothing of the engine (R14). -/
def railReaction (s : State) (n : Nat) : State :=
  let rxn := s.get (F.SEQ_RAIL_RXN n)
  let halted := s.flag F.SEQ_STATUS_HALT_SUSP
  match rxn, quireOf s n with
  | 0, _ => s
  | 4, _ => handOver s n
  | 1, none | 2, none => latchOff s n
  | 1, some q =>
    if s.mode == mCommission then latchOff s n
    else if halted then haltShut s (2 ^ q)
    else if attemptOn s q n then failAttempt s q 3 (2 ^ n) else retryCycle s q n
  | 2, some q => shutQuire s q
  | _, _ => shutAllQuires s

/-- R98, R172, R188: a slope error on a rail. -/
def slopeError (s : State) (n : Nat) : State :=
  match quireOf s n with
  | some q =>
    if attemptOn s q n && curFlag s q F.QUIREq_STEP2_SLOPE then
      if s.flag F.SEQ_STATUS_HALT_SUSP then s.modQ q fun t => { t with slopeHeld := t.slopeHeld ||| (1#64 <<< n) }
      else failAttempt s q 2 (2 ^ n)
    else s
  | none => s

/-- R169: a delivered fine sample counts for the steps and retry cycles that wait on its rail. -/
def sampleForSteps (s : State) (n : Nat) (o : FineOut) : State :=
  if o.valid then
    let low := decide (o.code < (match quireOf s n with | some q => (s.get (F.QUIREq_CFG_OFF_LVL q) : Int) | none => 0) * 32768)
    let s := s.modRs n fun r => { r with valids := r.valids + 1, lows := if low then r.lows + 1 else 0, cycleValids := r.cycleValids + 1 }
    latchCondsOf (if o.slopeErr then slopeError s n else s) n
  else s

/-! ### The rows of a running step -/

/-- STEP_ACTION, R167. -/
def stepAction (s : State) (q off : Nat) : State :=
  if seqRuns s && (s.qu q).phase == .action then applyAction s q off else s

/-- ANGLE_GATE_OPEN, R168. -/
def gateOpen (s : State) (q off : Nat) : State :=
  let down := curDown s q
  let i := curStep s q
  if seqRuns s && (s.qu q).phase == .gate && s.angRun &&
      windowNow s (stepGet s q down i 4 (F.QUIREq_STEP4_ANG_OPEN q)) (stepGet s q down i 5 (F.QUIREq_STEP5_ANG_CLOSE q)) then
    applyAction s q off
  else s

/-- GATE_TIMEOUT, R168. -/
def gateTimeout (s : State) (q off : Nat) : State :=
  if seqRuns s && (s.qu q).phase == .gate && s.flag (F.QUIREq_CFG_GATE_TO q) then
    applyAction (qEvent s q F.QUIREq_EVT_GATE_LATE 7) q off
  else s

/-- SETTLE_END, R170. -/
def settleEnd (s : State) (q : Nat) : State :=
  match (s.qu q).phase with
  | .wait => if s.flag F.SEQ_STATUS_HALT_SUSP then s else s.modQ q fun t => { t with settled := true }
  | _ => s

/-- R181: the arrival at the barrier. -/
def arrive (s : State) (q : Nat) : State :=
  let bar := stepGet s q (curDown s q) (curStep s q) 2 (F.QUIREq_STEP2_BAR_ID q)
  let s := (s.modQ q fun t => { t with phase := .bar none }).modSeq fun t => { t with arrivals := t.arrivals ++ [bar] }
  qEvent s q F.QUIREq_EVT_BAR_ARRIVE 5

/-- STEP_COMPLETE: the selected conditions hold; only then does the step complete, or arrive at its barrier. -/
def stepComplete (s : State) (q : Nat) : State :=
  if !seqRuns s then s
  else
    match (s.qu q).phase with
    | .wait =>
      let s := latchConds s q
      if openConds s q % 32 ≠ 0 then s
      else if barSelected s q then arrive s q
      else completeStep s q
    | _ => s

/-- The rails of the step whose conditions are open (R173). -/
def holdingRails (s : State) (q : Nat) : Nat :=
  (railList (curRails s q)).foldl (fun m n => if railHolds s q n then m else m + 2 ^ n) 0

/-- R182: a timeout with only the barrier open puts the Quire in HELD. -/
def holdQuire (s : State) (q : Nat) : State :=
  let i := curStep s q
  let bar := stepGet s q (curDown s q) i 2 (F.QUIREq_STEP2_BAR_ID q)
  let s := (s.addSat (F.QUIREq_CNT_TIMEOUTS q)).put (F.QUIREq_STATUS_STATE q) qHeld
  let s := (s.put (F.QUIREq_STATUS_CAUSE q) 5).raise 22 0 1 q (q + i * 16 + bar * 256)
  qEvent s q F.QUIREq_EVT_HELD 6

/-- STEP_TIMEOUT, R171, R172, R182, R184. -/
def stepTimeout (s : State) (q : Nat) : State :=
  let down := curDown s q
  let i := curStep s q
  let outage := (railList (curRails s q)).any fun n => (s.fr n).outage != 0
  if !seqRuns s || stepGet s q down i 3 (F.QUIREq_STEP3_TIMEOUT q) = 0 || outage then s
  else
    match (s.qu q).phase with
    | .wait =>
      let s := latchConds s q
      if openConds s q % 32 = 0 then (if barSelected s q then holdQuire (arrive s q) q else completeStep s q)
      else
        let s := s.addSat (F.QUIREq_CNT_TIMEOUTS q)
        if down then
          let s := (s.raise 21 0 0 q (q + i * 16)).put (F.QUIREq_STATUS_CAUSE q) 1
          readyStep s q true (i + 1)
        else failAttempt s q 1 (holdingRails s q)
    | .bar rel =>
      if (match rel with | some t => s.angRun && stampReached s.ang.stamp t | none => false) then completeStep s q
      else if qState s q == qHeld then s
      else holdQuire s q
    | _ => s

/-- RETRY_OFF_END, R172. -/
def retryOffEnd (s : State) (q off : Nat) : State :=
  if seqRuns s && (s.qu q).phase == .retryOff then
    if curFlag s q F.QUIREq_STEP2_ANG_GATE then s.modQ q fun t => { t with phase := .gate } else applyAction s q off
  else s

/-- RESUME, R182. -/
def resume (s : State) (q : Nat) : State := if qState s q == qHeld then completeStep s q else s

/-- R181: a release for a barrier: the steps that wait on it take its stamp, and complete at once when it has passed. -/
def releaseBarrier (s : State) (bar : Nat) (t : Stamp) : State :=
  s.forEach quires fun s q =>
    match (s.qu q).phase with
    | .bar _ =>
      if stepGet s q (curDown s q) (curStep s q) 2 (F.QUIREq_STEP2_BAR_ID q) = bar then
        let s := s.modQ q fun u => { u with phase := .bar (some t) }
        if s.angRun && stampReached s.ang.stamp t && seqRuns s then completeStep s q else s
      else s
    | _ => s

/-- BARRIER_RELEASE_MATCH, R181. -/
def barrierMatch (s : State) (q : Nat) : State :=
  match (s.qu q).phase with
  | .bar (some t) => if s.angRun && stampReached s.ang.stamp t && seqRuns s then completeStep s q else s
  | _ => s

/-! ### Rail retry cycles (R175, R176) -/

/-- RAIL_RETRY_OFF_END. R74, R190: where a Hallmark stage or a shut turns the rail off on the same edge, `off`, the rail stays
off and the cycle ends. -/
def railRetryOffEnd (s : State) (n : Nat) (off : Bool) : State :=
  match quireOf s n with
  | some q =>
    if !seqRuns s || (s.rs n).cycle != .off then s
    else
      let st := qState s q
      if off || st == qShutting || st == qDownRun || st == qHallmark || st == qOff || st == qStopped then
        s.modRs n fun r => { r with cycle := .none }
      else
        let s := s.modRs n fun r => { r with cycle := .waiting, cycleValids := 0, cyclePg := false, cycleWin := false }
        latchCycle (latchOn s n) n
  | none => s

/-- The PG and WIN conditions of the enabling step hold for the rail alone. -/
def cycleHolds (s : State) (n : Nat) : Bool :=
  match (s.rs n).enabler with
  | some (p, i) => (!stepFlag s p false i F.QUIREq_STEP2_PG || (s.rs n).cyclePg) &&
      (!stepFlag s p false i F.QUIREq_STEP2_WIN || (s.rs n).cycleWin)
  | none => true

/-- RAIL_RETRY_DONE. -/
def railRetryDone (s : State) (n : Nat) : State :=
  if !seqRuns s || (s.rs n).cycle != .waiting then s
  else
    let s := latchCycle s n
    if cycleHolds s n then armUv (s.modRs n fun r => { r with cycle := .none }) n else s

/-- RAIL_RETRY_TIMEOUT. -/
def railRetryTimeout (s : State) (n : Nat) : State :=
  match quireOf s n, (s.rs n).enabler with
  | some q, some (p, i) =>
    if !seqRuns s || (s.rs n).cycle != .waiting || stepGet s p false i 3 (F.QUIREq_STEP3_TIMEOUT p) = 0 ||
        (s.fr n).outage != 0 then s
    else
      let s := latchCycle s n
      if cycleHolds s n then armUv (s.modRs n fun r => { r with cycle := .none }) n
      else shutQuire (s.raise 20 0 1 n (n + 256 * q)) q
  | _, _ => s

/-- RETRY_BUDGET_REFILL, R176. -/
def budgetRefill (s : State) (n : Nat) : State :=
  if enLatch s n && !s.condStands 0 n && !s.condStands 2 n && !s.condStands 3 n then s.put (F.SEQ_RAIL_RUSED n) 0 else s

/-! ### The Hallmark down-order (R180) -/

/-- Every rail off. -/
def allOff (s : State) : State := applyLatch s 0 (2 ^ 64 - 1)

/-- R467: stage `k`, where the order reaches it: it ends before the first stage with VALID = 0. -/
def nextStage (s : State) (k : Nat) : Option Nat := if k < 16 ∧ hmStageValid s k then some k else none

/-- A stage acts. -/
def hmStageAct (s : State) (k : Nat) : State := applyLatch (s.put F.SEQ_STATUS_HM_STAGE k) 0 (hmStageRails s k)

/-- R180 item 4: with no further stage every rail still on is turned off. -/
def hmStageNext (s : State) (k : Nat) : State :=
  match nextStage s k with
  | some k => hmStageAct s k
  | none => (allOff s).modSeq fun t => { t with hmLast := true }

/-- R180 items 1 and 4: the order starts, unless it runs already. -/
def hallmarkStart (s : State) : State :=
  if s.flag F.SEQ_STATUS_HM_RUN then s
  else
    let s := s.modSeq fun t => { t with haltOff := none, hoRails := [] }
    let s := s.forEach quires fun s q =>
      let active := stepInProgress s q
      let s := (abandonStep (endCycles s (members s q)) q).put (F.QUIREq_STATUS_STATE q) qHallmark
      if active then s.put (F.QUIREq_STATUS_CAUSE q) 6 else s
    hmStageNext (s.put F.SEQ_STATUS_HM_RUN 1) 0

/-- R180 item 5: on the TCLK edge after the last stage's end the order completes. -/
def hallmarkDone (s : State) : State :=
  let s := (s.put F.SEQ_STATUS_HM_RUN 0).modSeq fun t => { t with hmLast := false }
  s.forEach quires fun s q => endOff (s.put (F.QUIREq_STATUS_STATE q) qOff) q

/-- R180 item 5: a TCLK edge after the last stage's end. -/
def tickHallmark (s : State) : State := if s.flag F.SEQ_STATUS_HM_RUN && s.seq.hmLast then hallmarkDone s else s

/-- HALLMARK_STAGE_END: the stage's dwell or early end has passed, of the down-order or of the shutdown order at Halt; or,
after the last stage, the edge that completes the order. -/
def hallmarkStageEnd (s : State) : State :=
  if s.flag F.SEQ_STATUS_HM_RUN then
    if s.seq.hmLast then hallmarkDone s else hmStageNext s (s.get F.SEQ_STATUS_HM_STAGE + 1)
  else
    match s.seq.haltOff with
    | some (qs, k) => haltStage (15 - k) s qs (k + 1)
    | none => s

/-- An order of the reaction logic is taken by the sequencer. -/
def takeOrder (s : State) (o : SeqOrder) : State × Bool :=
  if s.seq.inbox.contains o then (s.modSeq fun t => { t with inbox := t.inbox.erase o }, true) else (s, false)

/-! ### Halt (R188) -/

/-- Halt begins. -/
def haltSeq (s : State) : State := s.put F.SEQ_STATUS_HALT_SUSP 1

/-- Halt ends: a held slope error fails its attempt first. -/
def unhaltSeq (s : State) : State :=
  let s := s.put F.SEQ_STATUS_HALT_SUSP 0
  s.forEach quires fun s q =>
    let h := (s.qu q).slopeHeld.toNat
    if h ≠ 0 then failAttempt (s.modQ q fun t => { t with slopeHeld := 0 }) q 2 h else s

/-- R171: a TCLK edge counts for ELAPSED, unless R184 or R188 stops it. -/
def tickQuire (s : State) (q : Nat) : State :=
  match (s.qu q).phase with
  | .wait | .bar _ =>
    if s.flag F.SEQ_STATUS_HALT_SUSP || (railList (curRails s q)).any (fun n => (s.fr n).outage != 0) then s
    else
      let s := s.modQ q fun t => { t with elapsed := t.elapsed + 1 }
      s.put (F.QUIREq_WAITING_ELAPSED q) (min 0xFFFF ((s.qu q).elapsed / 1024))
  | _ => s

end Sys2Proof.Machine
end

