-- ==== Sys2Proof/Machine/Pmbus.lean ====
section
/-! DEFINITION. The regulator ports: transactions, polls, alerts, host transfers, loss and recovery
(spec/09_regulator_ports.md). -/

namespace Sys2Proof.Machine

def State.pp (s : State) (p : Nat) : PmPort := vget s.pm p
def State.modPp (s : State) (p : Nat) (f : PmPort → PmPort) : State := { s with pm := vmod s.pm p f }

def pmEvent (s : State) (p : Nat) (f : Nat → Field) (bit : Nat) : State := s.evtBit (f p) (120 + bit)

/-! ### Entries (R223, R225, R236) -/

def portOf (k : Nat) : Nat := k / 32
def entryValid (s : State) (k : Nat) : Bool := s.flag (F.PMPk_CFG_VALID k)
def entryLost (s : State) (k : Nat) : Bool := s.flag (F.PMPk_STATUS_LOST k)
def portEntries (p : Nat) : List Nat := (below 32).map (· + 32 * p)

/-- R236: the entry's rail is off, and its polls and FAILS rest. -/
def entryRests (s : State) (k : Nat) : Bool :=
  s.flag (F.PMPk_CFG_SKIP_OFF k) && s.flag (F.PMPk_CFG_LINK k) && !enLatch s (s.get (F.PMPk_CFG_RAIL k))

/-- R236: a round that started at TCLK edge `t` does not poll the entry: its rail is off, or turned on later than 10 ms (102,400
TCLK periods) before. -/
def entrySkipped (s : State) (t k : Nat) : Bool :=
  entryRests s k || (s.flag (F.PMPk_CFG_SKIP_OFF k) && s.flag (F.PMPk_CFG_LINK k) &&
    decide (t < (s.gr (s.get (F.PMPk_CFG_RAIL k))).onAt + 102400))

/-- The entries that a round polls. -/
def roundEntries (s : State) (p : Nat) : List Nat :=
  (portEntries p).filter fun k => entryValid s k && !entryLost s k && !entrySkipped s s.tclk k

/-- R225: the next poll of the entry reads VOUT_MODE first. -/
def needVoutMode (s : State) (k : Nat) : State :=
  s.modPp (portOf k) fun t => { t with needMode := t.needMode ||| (1#32 <<< (k % 32)) }

/-- R223: whether a value may be written to `PMPk_CFG`. -/
def partnerCfgOk (s : State) (k v : Nat) : Bool :=
  let addr := (F.PMPk_CFG_ADDR k).extract v
  let paged := (F.PMPk_CFG_PAGE_EN k).extract v == 1
  decide (0x0D ≤ addr) && decide (addr ≤ 0x77) && addr != 0x28 && addr != 0x37 && addr != 0x61 &&
    (portEntries (portOf k)).all fun j => j == k || !entryValid s j || s.get (F.PMPk_CFG_ADDR j) != addr ||
      (paged && s.flag (F.PMPk_CFG_PAGE_EN j) && s.get (F.PMPk_CFG_PAGE j) != (F.PMPk_CFG_PAGE k).extract v)

/-- R223: an entry that is no longer valid takes no part: what waits for it is dropped, a waiting host transfer as refused
(DESIGN CHOICE, log entry 103). A transaction that runs completes (R239). -/
def dropEntry (s : State) (k : Nat) : State :=
  let p := portOf k
  let running := match (s.pp p).run with | some r => r.entry == k && r.kind != 5 | none => false
  let s := s.modPp p fun t => { t with
    alertReads := match t.run with | some r => if running && r.cls == 2 then t.alertReads else t.alertReads.filter (· != k)
                                   | none => t.alertReads.filter (· != k)
    cur := match t.cur with | some (j, cs) => if j == k && !running then none else some (j, cs) | none => none }
  match (s.pp p).host with
  | some r => if r.entry == k && (s.pp p).run != some r then
      (s.modPp p fun t => { t with host := none }).put F.PM_XFER_STATUS_OUTCOME 5 else s
  | none => s

/-- R223, R225: an accepted write of `PMPk_CFG` has been stored. -/
def partnerCfgWritten (s : State) (k old : Nat) : State :=
  let same (f : Nat → Field) : Bool := (f k).extract old == s.get (f k)
  let s := if !same F.PMPk_CFG_VALID && entryValid s k then needVoutMode s k else s
  let s := if entryValid s k then s else dropEntry s k
  if same F.PMPk_CFG_ADDR && same F.PMPk_CFG_PAGE && same F.PMPk_CFG_PAGE_EN then s
  else
    let s := ((s.put (F.PMPk_STATUS_LOST k) 0).put (F.PMPk_STATUS_FAILS k) 0).put (F.PMPk_STATUS_VMODE k) 0
    needVoutMode ((s.put (F.PMPk_STATUS_VEXP k) 0).endCond 30 k) k

/-! ### The bus (R227, R234, R238) -/

/-- R238: the port is silent. -/
def pmSuspended (s : State) : Bool := decide (2 ≤ s.get F.TWIN_STATUS_ROLE) || s.mode == mHoldup

/-- The transactions that wait, one per class that has any, highest class first. -/
def pmWaiting (s : State) (p : Nat) : List PmTrans :=
  let t := s.pp p
  let of (c : Nat) := (t.margin.filter (·.cls == c)).take 1
  let alert := match t.alertReads with
    | k :: _ => [(⟨2, k, 4, 0x79, 0, 0, false⟩ : PmTrans)]
    | [] => if t.alertPend then [⟨2, 0, 5, 0x0C, 0, 0, false⟩] else []
  let poll := match t.cur with
    | some (k, c :: _) => [(⟨4, k, if c == 0x20 then 3 else 4, c, 0, 0, false⟩ : PmTrans)]
    | _ => []
  of 0 ++ of 1 ++ alert ++ t.host.toList ++ poll

/-- The codes of one poll of entry `k` (R225, R228); `short`: STATUS_WORD only. -/
def pollCodes (s : State) (k : Nat) (short : Bool) : List Nat :=
  let mode := if (s.pp (portOf k)).needMode.getLsbD (k % 32) then [0x20] else []
  if short then [0x79]
  else
    mode ++ [0x79] ++ (if s.flag (F.PMPk_CFG_POLL_VOUT k) then [0x8B] else []) ++
      (match s.get (F.PMPk_CFG_POLL_AUX k) with | 1 => [0x8C] | 2 => [0x8D] | 3 => [0x88] | _ => [])

/-- R228: PER in ms. -/
def pollPer (s : State) (p : Nat) : Nat := min 1000 (s.get (F.PMp_CFG_PER p))

/-- R227: the lowest of the entries that wait. -/
def firstEntry (l : List Nat) : Option Nat := l.foldl (fun m k => match m with | some j => some (min j k) | none => some k) none

/-- R227, R228: the poll class takes its next entry: of an extra round, else in entry order of the round and of the lost entries
that are due. An entry that has become invalid, lost or skipped meanwhile is passed over. With PER = 0 nothing but an extra round
is polled. -/
def nextPoll : Nat → State → Nat → State
  | 0, s, _ => s
  | fuel + 1, s, p =>
    let t := s.pp p
    let take (k : Nat) (short : Bool) : State := s.modPp p fun t => { t with
      extra := t.extra.erase k, round := t.round.erase k, lostQ := t.lostQ.erase k, cur := some (k, pollCodes s k short) }
    let pass (k : Nat) : State := s.modPp p fun t => { t with
      extra := t.extra.erase k, round := t.round.erase k, lostQ := t.lostQ.erase k }
    if t.cur.isSome then s
    else
      match t.extra with
      | k :: _ =>
        if entryValid s k && !entrySkipped s s.tclk k then
          s.modPp p fun t => { t with extra := t.extra.tail, cur := some (k, pollCodes s k true) }
        else nextPoll fuel (s.modPp p fun t => { t with extra := t.extra.tail }) p
      | [] =>
        if pollPer s p = 0 then s.modPp p fun t => { t with round := [], lostQ := [] }
        else
          match firstEntry (t.round ++ t.lostQ) with
          | some k =>
            if !entryValid s k then nextPoll fuel (pass k) p
            else if entryLost s k then (if t.lostQ.contains k && !entrySkipped s s.tclk k then take k true else nextPoll fuel (pass k) p)
            else if t.round.contains k && !entrySkipped s t.started k then take k false
            else nextPoll fuel (pass k) p
          | none => s

/-- R228: a round starts. -/
def startRound (s : State) (p : Nat) : State :=
  let entries := roundEntries s p
  s.modPp p fun t => { t with roundOn := true, due := false, round := entries, started := s.tclk }

/-- R228: a round that has polled its last entry ends: LOAD, and the next round when it is due. -/
def endRound (s : State) (p : Nat) : State :=
  let t := s.pp p
  if t.roundOn && t.round.isEmpty && t.cur.isNone then
    let (s, load) := s.approx ((s.tclk - t.started : Nat) * 100 : Int) (10240 * pollPer s p)
    let s := if pollPer s p = 0 then s else s.put (F.PMp_STATUS_LOAD p) (min 255 load.toNat)
    let s := s.modPp p fun t => { t with roundOn := false }
    if t.due && pollPer s p != 0 then startRound s p else s.modPp p fun t => { t with due := false }
  else s

/-- The poll class goes on: its next entry, the end of a round, and the first entry of one that was due. -/
def pollTurn (s : State) (p : Nat) : State := endRound (nextPoll 128 (endRound (nextPoll 128 s p) p) p) p

/-- KIND of `PMp_STATUS`. -/
def pmKind (t : PmPort) : Nat :=
  if t.blocked then 5
  else match t.run with
    | some r => (match r.cls with | 0 | 1 => 4 | 2 => 2 | 3 => 3 | _ => 1)
    | none => 0

def syncPort (s : State) (p : Nat) : State :=
  let t := s.pp p
  let s := (s.putB (F.PMp_STATUS_BUSY p) t.run.isSome).put (F.PMp_STATUS_KIND p) (pmKind t)
  let s := s.putB (F.PMp_STATUS_SUSPENDED p) (pmSuspended s)
  s.putB F.PM_XFER_STATUS_BUSY ((below 4).any fun i => (s.pp i).host.isSome)

/-- R226: the SCL periods of a transaction by its kind, with PEC. -/
def sclPeriods (kind : Nat) : Nat := match kind with | 0 => 30 | 1 => 39 | 2 => 48 | 3 => 49 | 4 => 58 | _ => 30

/-- R226: a transaction as it goes on the bus: an access to an entry with PAGE_EN = 1 is preceded by a PAGE write, a write byte, and
the two are one transaction. Without PEC each takes 9 periods fewer; the alert read, from 0x0C, always carries it. -/
def busAccess (s : State) (r : PmTrans) : BusAccess :=
  if r.kind = 5 then ⟨0x0C, none, true, sclPeriods 5⟩
  else
    let k := r.entry
    let pec := s.flag (F.PMPk_CFG_PEC k)
    let cut := if pec then 0 else 9
    let page := s.flag (F.PMPk_CFG_PAGE_EN k)
    ⟨s.get (F.PMPk_CFG_ADDR k), if page then some (s.get (F.PMPk_CFG_PAGE k)) else none, pec,
      sclPeriods r.kind - cut + if page then sclPeriods 1 - cut else 0⟩

/-- R229, R230: alerts of the port are served. -/
def alertsServed (s : State) (p : Nat) : Bool :=
  !s.flag (F.PMp_STATUS_ALERT_STUCK p) && !pmSuspended s && s.flag (F.PMp_CFG_EN p)

/-- R229: the level of SMBALERT_N: a low one queues an alert service, or one extra round, as ALERT_MODE says at present. -/
def alertLevel (s : State) (p : Nat) : State :=
  let low := s.flag (F.PMp_STATUS_ALERT_LOW p) && alertsServed s p
  match s.get (F.PMp_CFG_ALERT_MODE p) with
  | 0 => s.modPp p fun t => { t with alertPend := false, alertReads := [], extraRan := false }
  | 2 =>
    let entries := roundEntries s p
    s.modPp p fun t =>
      if low && !t.extraRan then { t with alertPend := false, alertReads := [], extra := entries, extraRan := true }
      else { t with alertPend := false, alertReads := [], extraRan := t.extraRan && low }
  | _ => s.modPp p fun t => { t with alertPend := t.alertPend || (low && t.alertReads.isEmpty), extraRan := false }

/-- R227: a free port takes the next transaction from the highest class that has one waiting; in HOLDUP only margin
return writes, once (R238). -/
def pmServe (s : State) (p : Nat) : State :=
  let s := pollTurn (alertLevel s p) p
  let t := s.pp p
  let s :=
    if t.run.isSome || t.blocked || !s.flag (F.PMp_CFG_EN p) || decide (2 ≤ s.get F.TWIN_STATUS_ROLE) then s
    else
      match pmWaiting s p with
      | r :: _ =>
        if s.mode == mHoldup && r.cls != 0 then s
        else s.modPp p fun t => { t with run := some r, bus := some (busAccess s r), tries := 0, retryWait := false }
      | [] => s
  syncPort s p

/-- A margin transaction joins its class (R205). -/
def queueMargin (s : State) (r : PmTrans) : State :=
  let p := portOf r.entry
  pmServe (s.modPp p fun t => { t with margin := t.margin ++ [r] }) p

/-- The waiting margin transactions of a rail's test are dropped; one that runs completes. -/
def dropMargin (s : State) (k rail : Nat) : State :=
  s.modPp (portOf k) fun t =>
    { t with margin := t.margin.filter fun r => r.rail != rail || t.run == some r }

/-! ### STATUS_WORD (R231, R232, R235) -/

/-- The lowest 1 of a word. -/
def lowestBit (v : Nat) : Nat := ((below 16).find? (bitOf v)).getD 0

/-- R231: a successful STATUS_WORD read of entry `k`: the fault is raised where the masked word turns from zero, as the FAULT bit
tells. R235: it restores a lost entry. -/
def absorbStatus (s : State) (k word : Nat) : State :=
  let p := portOf k
  let old := s.get (F.PMPk_STATUS_STATUS_WORD k)
  let fm := s.get (F.PMPk_MASK_FAULT_MASK k)
  let s := s.put (F.PMPk_STATUS_STATUS_WORD k) word
  let rose := (below 16).any fun b => bitOf word b && !bitOf old b && bitOf (s.get (F.PMPk_MASK_EVT_MASK k)) b
  let s := if rose then pmEvent s p F.PMp_EVT_STATUS_CHG 0 else s
  let s := if Nat.land word fm ≠ 0 then
      (if !s.flag (F.PMPk_STATUS_FAULT k) then
        (s.put (F.PMPk_STATUS_FAULT k) 1).raise 29 0 1 k (k + 256 * lowestBit (Nat.land word fm))
      else s)
    else if s.flag (F.PMPk_STATUS_FAULT k) then
      let t := s.tclk
      ((s.put (F.PMPk_STATUS_FAULT k) 0).endCond 29 k).modPp p fun u => { u with faultEnd := some (k, t) }
    else s.endCond 29 k
  let s := s.put (F.PMPk_STATUS_FAILS k) 0
  if entryLost s k then
    needVoutMode ((pmEvent (s.put (F.PMPk_STATUS_LOST k) 0) p F.PMp_EVT_RESTORED 2).endCond 30 k) k
  else s

/-- R235: a poll of entry `k` failed. R236: FAILS is held while the rail of a skipped entry is off. -/
def pollFailed (s : State) (k : Nat) : State :=
  if entryRests s k then s
  else
  let p := portOf k
  let n := min 15 (s.get (F.PMPk_STATUS_FAILS k) + 1)
  let s := s.put (F.PMPk_STATUS_FAILS k) n
  if max 1 (s.get (F.PMp_CFG_LOSS p)) ≤ n && !entryLost s k then
    pmEvent ((s.put (F.PMPk_STATUS_LOST k) 1).raise 30 0 1 k k) p F.PMp_EVT_LOST 1
  else s

/-! ### The end of a transaction (R227 to R235) -/

/-- What a margin transaction brought its test. -/
structure MargReply where
  trans : PmTrans
  ok    : Bool
  data  : Nat
  deriving DecidableEq, Repr

/-- R228: a code of the poll in progress has been read, or has failed. -/
def pollDone (s : State) (p k code : Nat) (ok : Bool) (data : Nat) : State :=
  let live := entryValid s k
  let s := s.modPp p fun t => { t with cur := match t.cur with
    | some (j, _ :: c :: rest) => if code == 0x79 && !ok then none else some (j, c :: rest)
    | _ => none }
  if !live then s
  else if code == 0x20 then
    (if ok then
      let s := (s.put (F.PMPk_STATUS_VMODE k) (data / 32)).put (F.PMPk_STATUS_VEXP k) data
      s.modPp p fun t => { t with needMode := t.needMode &&& ~~~(1#32 <<< (k % 32)) }
    else s)
  else if code == 0x79 then (if ok then absorbStatus s k data else pollFailed s k)
  else if !ok then s.put (F.PMPk_STATUS_STALE k) 1
  else (s.put (if code == 0x8B then F.PMPk_READ_VOUT k else F.PMPk_READ_AUX k) data).put (F.PMPk_STATUS_STALE k) 0

/-- R230: the port's alerts are served no more until SMBALERT_N has been high for 1 ms. -/
def alertStuck (s : State) (p : Nat) : State :=
  let s := s.modPp p fun t => { t with alertPend := false, alertReads := [], noAck := 0, services := 0 }
  (s.put (F.PMp_STATUS_ALERT_STUCK p) 1).raiseOnce 32 0 0 p p

/-- R229, R230: an alert service has made its last read; it repeats while the line stays low. -/
def alertServed (s : State) (p : Nat) : State :=
  let low := s.flag (F.PMp_STATUS_ALERT_LOW p)
  let s := s.modPp p fun t => { t with alertPend := low, services := if low then t.services + 1 else 0 }
  if 32 ≤ (s.pp p).services then alertStuck s p else s

/-- R229: the transaction of an alert service has ended. -/
def alertDone (s : State) (p : Nat) (r : PmTrans) (res : SmbResult) (data : Nat) : State :=
  if r.kind == 5 then
    let s := s.addSat (F.PMp_ALERT_COUNT p)
    if res == .ok then
      let addr := data % 128
      let s := s.put (F.PMp_ALERT_LAST_ADDR p) addr
      let hit := (portEntries p).filter fun k => entryValid s k && s.get (F.PMPk_CFG_ADDR k) == addr
      if hit.isEmpty then alertServed (pmEvent s p F.PMp_EVT_UNKNOWN_ALERT 5) p
      else s.modPp p fun t => { t with alertReads := hit, alertPend := false }
    else
      alertServed s p
  else
    let s := s.modPp p fun t => { t with alertReads := t.alertReads.tail }
    let s := if res == .ok && entryValid s r.entry then absorbStatus s r.entry data else s
    if (s.pp p).alertReads.isEmpty then alertServed s p else s

/-- OUTCOME of `PM_XFER_STATUS`. -/
def xferOutcome : SmbResult → Nat
  | .ok => 1 | .nack => 2 | .pec => 3 | .arbLost | .timeout => 4

/-- The host transfer ends. R239: the result of one whose entry is no longer valid is discarded. -/
def hostDone (s : State) (p : Nat) (r : PmTrans) (outcome data : Nat) : State :=
  let s := s.modPp p fun t => { t with host := none }
  if !entryValid s r.entry then s
  else
  let s := s.put F.PM_XFER_STATUS_OUTCOME outcome
  if outcome = 1 && decide (3 ≤ r.kind) then
    let s := s.put F.PM_XFER_DATA_DATA (if r.kind = 3 then data % 256 else data)
    if r.code == 0x79 then absorbStatus s r.entry data else s
  else s

/-- Hands the result of a transaction to what asked for it. -/
def transResult (s : State) (p : Nat) (r : PmTrans) (res : SmbResult) (data : Nat) : State × Option MargReply :=
  match r.cls with
  | 0 | 1 => (s.modPp p fun t => { t with margin := t.margin.erase r }, some ⟨r, res == .ok, data⟩)
  | 2 => (alertDone s p r res data, none)
  | 3 => (hostDone s p r (xferOutcome res) data, none)
  | _ => (pollDone s p r.entry r.code (res == .ok) data, none)

/-- R233: a PEC is judged only on a read, and only where the entry carries it. -/
def busResult (t : PmPort) (r : PmTrans) (res : SmbResult) : SmbResult :=
  let judged := decide (3 ≤ r.kind) && (match t.bus with | some b => b.pec | none => false)
  if res == .pec && !judged then .ok else res

/-- SMBUS_TRANSACTION_DONE and SMBUS_TIMEOUT: the running transaction completes or fails. A failed one waits for its
repetition while retries are left (R233). `alertLow` is the filtered level of SMBALERT_Np. R230: only alert reads in a row without
acknowledgement count. -/
def transDone (s : State) (p : Nat) (result : SmbResult) (data : Nat) (alertLow : Bool) : State × Option MargReply :=
  let t := s.pp p
  match t.run with
  | none => (s, none)
  | some r =>
    if t.retryWait || t.blocked then (s, none)
    else
      let res := busResult t r result
      let s := s.putB (F.PMp_STATUS_ALERT_LOW p) alertLow
      let s := if r.kind == 5 then s.modPp p fun t => { t with noAck := if res == .nack then t.noAck + 1 else 0 } else s
      if 8 ≤ (s.pp p).noAck then
        let s := ((s.addSat (F.PMp_CNT_FAILS p)).addSat (F.PMp_ALERT_COUNT p)).modPp p fun t => { t with run := none, bus := none }
        (pmServe (alertStuck (pmEvent s p F.PMp_EVT_BUS_ERR 3) p) p, none)
      else if res != .ok && !r.once && decide (t.tries < s.get (F.PMp_CFG_RETRY p)) then
        (syncPort (s.modPp p fun t => { t with tries := t.tries + 1, retryWait := true }) p, none)
      else
        let s := s.modPp p fun t => { t with run := none, bus := none }
        let s := if res == .ok then
            ((s.addWrap (F.PMp_CNT_DONE p)).put (F.PMp_STATUS_STUCK p) 0).endCond 31 p
          else pmEvent (s.addSat (F.PMp_CNT_FAILS p)) p F.PMp_EVT_BUS_ERR 3
        let (s, m) := transResult s p r res data
        (pmServe s p, m)

/-- SMBUS_RETRY, R233: 50 µs of bus idle have passed. -/
def pmRetry (s : State) (p : Nat) : State := syncPort (s.modPp p fun t => { t with retryWait := false }) p

/-! ### Recovery (R234) -/

/-- BUS_RECOVERY: before a start SDA or SCL was found low. `freed`: the pulses have freed the bus. The replies are of the
margin transactions that fail; each failure counts in FAILS (R233). -/
def busRecovery (s : State) (p : Nat) (freed : Bool) : State × List MargReply :=
  let t := s.pp p
  if t.run.isNone && !t.blocked then (s, [])
  else if freed then (pmServe (s.modPp p fun t => { t with blocked := false }) p, [])
  else
    let s := s.modPp p fun t => { t with blocked := true, run := none, bus := none, retryWait := false, margin := [] }
    let s := (s.put (F.PMp_STATUS_STUCK p) 1).raiseOnce 31 0 1 p p
    let n := t.margin.length + (if t.host.isSome then 1 else 0)
    let s := if n = 0 then s else pmEvent (s.addSat (F.PMp_CNT_FAILS p) n) p F.PMp_EVT_BUS_ERR 3
    let s := match t.host with | some r => hostDone s p r 6 0 | none => s
    (syncPort s p, t.margin.map fun r => ⟨r, false, 0⟩)

/-! ### Rounds, alerts, lost entries, host transfers -/

/-- R228: a late round. -/
def lateRound (s : State) (p : Nat) : State := pmEvent (s.addSat (F.PMp_STATUS_LATE_CNT p)) p F.PMp_EVT_LATE 4

/-- POLL_ROUND_START, R228, R239: PER has passed. -/
def pollRoundStart (s : State) (p : Nat) : State :=
  if !s.flag (F.PMp_CFG_EN p) || pollPer s p = 0 || pmSuspended s then s
  else if s.flag (F.PMp_STATUS_STUCK p) then lateRound s p
  else if (s.pp p).roundOn then (lateRound s p).modPp p fun t => { t with due := true }
  else pmServe (startRound s p) p

/-- SMBALERT_ASSERT, R229: the filtered level of SMBALERT_Np has fallen. -/
def alertAssert (s : State) (p : Nat) : State :=
  pmServe ((s.put (F.PMp_STATUS_ALERT_LOW p) 1).modPp p fun t => { t with extraRan := false }) p

/-- SMBALERT_STUCK_CLEAR, R230: SMBALERT_Np has been high for 1 ms. -/
def alertStuckClear (s : State) (p : Nat) : State :=
  let s := (s.put (F.PMp_STATUS_ALERT_LOW p) 0).put (F.PMp_STATUS_ALERT_STUCK p) 0
  (s.modPp p fun t => { t with noAck := 0, services := 0 }).endCond 32 p

/-- LOST_ENTRY_POLL, R235: a second has passed since the lost entry was last polled. -/
def lostEntryPoll (s : State) (k : Nat) : State :=
  let p := portOf k
  if entryValid s k && entryLost s k && !pmSuspended s && pollPer s p != 0 && !entrySkipped s s.tclk k &&
      !(s.pp p).lostQ.contains k then
    pmServe (s.modPp p fun t => { t with lostQ := t.lostQ ++ [k] }) p
  else s

/-- R224: CODE and KIND form a pair of the table. -/
def xferPair (code kind : Nat) : Bool :=
  match kind with
  | 0 => code == 0x03
  | 1 => code == 0x00 || code == 0x01
  | 3 => [0x01, 0x20, 0x78, 0x7A, 0x7B, 0x7C, 0x7D, 0x7E, 0x98].contains code
  | 4 => [0x21, 0x25, 0x26, 0x40, 0x42, 0x43, 0x44, 0x79, 0x88, 0x8B, 0x8C, 0x8D].contains code
  | _ => false

/-- PM_XFER_START, R237: a write of 1 to `PM_XFER_CTRL.START` queues the transfer or is refused. -/
def xferStart (s : State) : State :=
  let k := s.get F.PM_XFER_CTRL_ENTRY
  let kind := s.get F.PM_XFER_CTRL_KIND
  let code := s.get F.PM_XFER_CTRL_CODE
  if s.flag F.PM_XFER_STATUS_BUSY || !entryValid s k || !xferPair code kind ||
      (decide (kind ≤ 2) && s.mode != mCommission && s.mode != mService) ||
      (kind == 1 && code == 0x01 && s.flag (F.PMPk_STATUS_MARGIN k)) || pmSuspended s then
    s.put F.PM_XFER_STATUS_OUTCOME 5
  else
    let p := portOf k
    pmServe (s.modPp p fun t => { t with host := some ⟨3, k, kind, code, s.get F.PM_XFER_DATA_DATA, 0, false⟩ }) p

/-! ### Modes and twins (R238) -/

/-- HOLDUP entry: the running transactions are cut, and pending margin return writes are sent once. -/
def pmHoldup (s : State) : State :=
  s.forEach (below 4) fun s p =>
    pmServe (s.modPp p fun t =>
      { t with run := none, bus := none, retryWait := false, blocked := false
               margin := (t.margin.filter (·.cls == 0)).map fun r => { r with once := true } }) p

/-- The ports go on, after HOLDUP or when the device becomes active. -/
def pmResume (s : State) : State := s.forEach (below 4) pmServe

/-- A device that becomes standby releases its buses: what waits is dropped. -/
def pmStandby (s : State) : State :=
  s.forEach (below 4) fun s p =>
    syncPort (s.modPp p fun t => { (default : PmPort) with needMode := t.needMode }) p

/-- A twin that becomes active reads VOUT_MODE of every valid entry in its first round. The margin tests that the mirror showed
ended with the outgoing twin (R216), and own no entry here (R237). -/
def pmActive (s : State) : State :=
  pmResume (s.forEach (below 128) fun s k =>
    (if entryValid s k then needVoutMode s k else s).put (F.PMPk_STATUS_MARGIN k) 0)

end Sys2Proof.Machine
end

