-- ==== Sys2Proof/Machine/Margin.lean ====
section
/-! DEFINITION. The margin output and margin tests (spec/08_margin_sounding.md R194 to R205). -/

namespace Sys2Proof.Machine

def State.modMarg (s : State) (f : MargState → MargState) : State := { s with marg := f s.marg }
def State.mr (s : State) (n : Nat) : MargRail := vget s.marg.rail n
def State.modMr (s : State) (n : Nat) (f : MargRail → MargRail) : State :=
  s.modMarg fun m => { m with rail := vmod m.rail n f }
def State.modTest (s : State) (n : Nat) (f : MargTest → MargTest) : State :=
  s.modMr n fun r => { r with test := r.test.map f }

/-- MARG_EVT bit b is event 112 + b, SND_EVT bit b is event 116 + b. -/
def margEvent (s : State) (f : Field) (bit : Nat) : State := s.evtBit f (112 + bit)
def sndEvent (s : State) (f : Field) (bit : Nat) : State := s.evtBit f (116 + bit)

/-! ### The output (R194 to R198) -/

/-- R197: the caps of a rail. -/
def capOf (s : State) (n : Nat) (f : Field) : Nat := f.extract (s.reg (R.margCap n))
def mcap (s : State) (n : Nat) : Nat := capOf s n F.MARG_CAP_MCAP
def mdev (s : State) (n : Nat) : Nat := capOf s n F.MARG_CAP_MDEV
def scap (s : State) (n : Nat) : Nat := capOf s n F.MARG_CAP_SCAP
def sdev (s : State) (n : Nat) : Nat := min 50 (capOf s n F.MARG_CAP_SDEV)

def margSrc (s : State) (n : Nat) : Nat := match s.get (F.MARGn_CFG_SRC n) with | 1 => 1 | 2 => 2 | _ => 0
def margCode (s : State) (n : Nat) : Int := s.getS (F.MARGn_STATUS_CODE n)
def setCode (s : State) (n : Nat) (c : Int) : State := s.putS (F.MARGn_STATUS_CODE n) c

/-- R194: MRGn drives the current of the present code; else it is high impedance. -/
def mrgDrives (s : State) (n : Nat) : Bool :=
  s.mode != mStartup && railUse s n && margSrc s n == 1 && decide (s.get F.TWIN_STATUS_ROLE < 2)

/-- A rail of a sweep that has not left it. -/
def sndOn (s : State) (n : Nat) : Bool :=
  match s.marg.snd with | some w => w.rails.any fun r => r.rail == n && !r.left | none => false

/-- R198: a margin test, or its return, owns the rail. -/
def testOwns (s : State) (n : Nat) : Bool := (s.mr n).test.isSome

/-- R196, R198: the code of a Sounding that has left the rail is still on its way back to zero. -/
def sndReturns (s : State) (n : Nat) : Bool := !testOwns s n && !sndOn s n && margCode s n != 0

/-- R198: a margin test or a Sounding, or its return, owns the rail. -/
def workOwns (s : State) (n : Nat) : Bool := testOwns s n || sndOn s n || sndReturns s n

/-- R199: a substitution of the rail's slice is in progress. -/
def inSubst (s : State) (n : Nat) : Bool := match s.spare.sub with | some b => b.rail == n | none => false

/-- The code of the direction that runs. -/
def levelCode (s : State) (n : Nat) (hi : Bool) : Int :=
  s.getS (if hi then F.MARGn_LEVEL_HI_CODE n else F.MARGn_LEVEL_LO_CODE n)

/-- The stimulus of a Sounding drives the rail: not before its plus step, not in a pause, not once every point has run. -/
def sndDrives (s : State) (n : Nat) : Bool :=
  sndOn s n && (match s.marg.snd with
    | some w => !w.pausedFb && !w.pausedHalt &&
        (match w.part with | .plus | .minus | .settle _ | .integ _ | .mls => true | _ => false)
    | none => false)

/-- The code of a rail's stimulus. -/
def sndCode (s : State) (n : Nat) : Int :=
  match s.marg.snd with
  | some w => match w.rails.find? fun r => r.rail == n with | some r => r.code | none => 0
  | none => 0

/-- The code toward which the output moves. -/
def targetCode (s : State) (n : Nat) : Int :=
  match (s.mr n).test with
  | some t =>
    if t.pmbus then 0
    else match t.phase with
      | .stepping | .dwell | .measuring => if t.dirs.headD true then t.hiCode else t.loCode
      | _ => 0
  | none => if sndDrives s n then sndCode s n else 0

/-- R196: the rate of a rail's code in 1/1024 code per TCLK period: a stimulus moves at up to 80 codes per µs, a Sounding's stop
and a forced return at 16, all else at SLEW. -/
def slewRate (s : State) (n : Nat) : Nat :=
  match (s.mr n).test with
  | none => if sndDrives s n then 8000 else 1600
  | some t =>
    if t.forced then 1600
    else match s.get (F.MARGn_CFG_SLEW n) with | 0 => 10 | 1 => 100 | 2 => 400 | _ => 1600

/-- R196: a TCLK edge moves the codes that slew, one LSB at a time. -/
def tickMargin (s : State) (n : Nat) : State :=
  let c := margCode s n
  let t := targetCode s n
  if c = t || inSubst s n then s
  else
    let acc := (s.mr n).acc + slewRate s n
    let k : Int := (acc / 1024 : Nat)
    let s := s.modMr n fun r => { r with acc := acc % 1024 }
    setCode s n (if c < t then min t (c + k) else max t (c - k))

/-- STATE of a margin status. -/
def margStateOf (t : MargTest) : Nat :=
  match t.phase with
  | .preflight | .stepping | .dwell => 1
  | .baseline | .measuring => 2
  | .returning | .window => 3

def syncTest (s : State) (n : Nat) : State :=
  s.put (F.MARGn_STATUS_STATE n) (match (s.mr n).test with | some t => margStateOf t | none => 0)

def setPhase (s : State) (n : Nat) (p : MargPhase) : State :=
  syncTest (s.modTest n fun t => { t with phase := p, n := 0, sum := 0 }) n

/-! ### The end of a test (R203) -/

def isMarginCmd (n : Nat) (c : Cmd) : Bool := c.opcode == 0x0300 && (c.params.headD 0).toNat % 64 == n

def partner (s : State) (n : Nat) : Nat := s.get (F.MARGn_CFG_PARTNER n)

/-- The test leaves the rail. -/
def dropTest (s : State) (n : Nat) : State :=
  let s := match (s.mr n).test with
    | some t => if t.pmbus then s.put (F.PMPk_STATUS_MARGIN (partner s n)) 0 else s
    | none => s
  syncTest (s.modMr n fun r => { r with test := none }) n

/-- R203: the test ends: its outcome (1 pass, 2 fail, 3 aborted), its events, faults and reply. -/
def endTest (s : State) (n outcome reason : Nat) : State :=
  match (s.mr n).test with
  | none => s
  | some t =>
    let s := (s.put (F.MARGn_STATUS_OUTCOME n) outcome).put F.MARG_EVT_RAIL n
    let s := if outcome = 1 then (s.endCond 23 n) else s.put F.MARG_EVT_REASON reason
    let s := if outcome = 2 then (margEvent s F.MARG_EVT_FAIL 1).raise 23 0 0 n (n + 256 * reason) else s
    let s := if outcome ≠ 3 then s.endCond 25 n else s
    let s := margEvent s F.MARG_EVT_DONE 0
    let s := s.modTest n fun t => { t with ended := true }
    finishC s (isMarginCmd n) (match outcome with | 1 => stOk | 2 => stMarginFail | _ => stAborted)
      [BitVec.ofNat 32 (ofSigned 32 t.base), BitVec.ofNat 32 (ofSigned 16 t.devHi * 65536 + ofSigned 16 t.devLo),
       BitVec.ofNat 32 (outcome * 65536 + reason)]

/-- R205: the return write of OPERATION. -/
def queueReturn (s : State) (n : Nat) (once : Bool) : State :=
  match (s.mr n).test with
  | some t => queueMargin s ⟨0, partner s n, 1, 0x01, t.oper, n, once⟩
  | none => s

/-- R202 step 5, R205: the return starts. An ended test with nothing to return leaves the rail. -/
def startReturn (s : State) (n : Nat) : State :=
  match (s.mr n).test with
  | none => s
  | some t =>
    if t.pmbus then
      if t.stepped then queueReturn (setPhase s n .returning) n t.once
      else if t.ended then dropTest s n else setPhase s n .window
    else if t.ended && margCode s n == 0 then dropTest s n
    else setPhase s n .returning

/-- R216: the test on a rail is aborted. `forced`: the return moves at 16 codes per µs (R196); `once`: a return write is sent
once, without retry. -/
def abortTest (s : State) (n reason : Nat) (forced once : Bool) : State :=
  match (s.mr n).test with
  | none => s
  | some t =>
    let s := s.modTest n fun t => { t with forced := t.forced || forced, once := t.once || once }
    if t.ended then s
    else
      let s := endTest s n 3 reason
      let s := if t.pmbus then dropMargin s (partner s n) n else s
      match t.phase with
      | .returning => if t.pmbus then queueReturn s n (t.once || once) else s
      | _ => startReturn s n

/-! ### Starting (R200) -/

/-- The directions of a start. -/
def margDirs (dir : Nat) : List Bool := match dir with | 1 => [true] | 2 => [false] | 3 => [true, false] | _ => []

/-- R401: the conditions of R200 on a rail that a Sounding shares. -/
def railRefusal (s : State) (n : Nat) : Option Nat :=
  if !enLatch s n || (match quireOf s n with | some q => qState s q != qOn | none => false) then some stRailOff
  else if !fineRun s n || s.flag (F.RAILn_FINE_STATE_OOS n) || (s.fr n).outage != 0 || inSubst s n then some stFineDown
  else if workOwns s n then some stWorkBusy
  else none

/-- R200, R401: the status that refuses a margin test, the mode apart. -/
def marginRefusal (s : State) (n dir : Nat) : Option Nat :=
  if margDirs dir = [] then some stBadParam
  else if margSrc s n = 0 then some stNoSource
  else match railRefusal s n with
    | some st => some st
    | none =>
      if mdev s n = 0 || decide (100 * mdev s n < s.get (F.MARGn_EXPECT_MAX_DEV n)) then some stOverCap
      else if margSrc s n == 1 && (mcap s n = 0 || (margDirs dir).any fun d =>
          decide (8 * mcap s n < (levelCode s n d).natAbs)) then some stOverCap
      else none

/-- A test as it starts, with the codes and the range of DEV that it was accepted with: R200 checks them against the caps, which
no later write may raise (R197; DESIGN CHOICE, log entry 99). -/
def newTest (s : State) (n : Nat) (pmbus : Bool) (dirs : List Bool) : MargTest where
  pmbus := pmbus
  hiCode := levelCode s n true
  loCode := levelCode s n false
  maxDev := s.get (F.MARGn_EXPECT_MAX_DEV n)
  minDev := s.get (F.MARGn_EXPECT_MIN_DEV n)
  dirs := dirs
  phase := if pmbus then .preflight else .baseline
  n := 0
  sum := 0
  base := 0
  oper := 0
  vcmd := 0
  vhi := 0
  vlo := 0
  stepped := false
  devHi := 0
  devLo := 0
  missed := false
  ended := false
  forced := false
  once := false

/-- R225: VOUT values of the entry are decoded. -/
def voutDecoded (s : State) (k : Nat) : Bool := s.get (F.PMPk_STATUS_VMODE k) == 0 || s.get (F.PMPk_STATUS_VMODE k) == 3

/-- R200: an accepted test starts; R205: on a regulator port the preflight reads are queued. -/
def startMargin (s : State) (n dir : Nat) : State :=
  let dirs := margDirs dir
  let pmbus := margSrc s n == 2
  let s := (s.modMr n fun r => { r with test := some (newTest s n pmbus dirs), acc := 0 }).modMarg fun m => { m with svcWork := true }
  let s := syncTest s n
  if pmbus then
    let k := partner s n
    let s := s.put (F.PMPk_STATUS_MARGIN k) 1
    if !entryValid s k || entryLost s k || !voutDecoded s k then abortTest s n 0xA false false
    else
      let rd (s : State) (kind code : Nat) : State := queueMargin s ⟨1, k, kind, code, 0, n, false⟩
      let s := rd (rd s 3 0x01) 4 0x21
      let s := if dirs.contains true then rd s 4 0x25 else s
      if dirs.contains false then rd s 4 0x26 else s
  else s

/-! ### The steps of a test (R201 to R204) -/

/-- AVG of a rail. -/
def margAvg (s : State) (n : Nat) : Nat := calCount (s.get (F.MARGn_CFG_AVG n))

/-- R225: a VOUT value as a fraction over 2^24, in the entry's format; ULINEAR16 values are compared as they stand. -/
def voutValue (s : State) (k v : Nat) : Int :=
  if s.get (F.PMPk_STATUS_VMODE k) = 3 then
    let e := v / 1024 % 32
    let m := v % 1024
    let mag := if e = 0 then m else (1024 + m) * 2 ^ (e - 1)
    if v / 32768 = 1 then -(mag : Int) else mag
  else (v : Int)

/-- R201: P_hi or P_lo as a guard code. -/
def predicted (s : State) (n : Nat) (t : MargTest) (hi : Bool) : Int :=
  if t.pmbus then
    let k := partner s n
    let c := voutValue s k t.vcmd
    if c ≤ 0 then t.base / 2048 else t.base * voutValue s k (if hi then t.vhi else t.vlo) / (c * 2048)
  else
    let d : Int := t.maxDev
    t.base * (if hi then 100000 + d else 100000 - d) / 204800000

/-- R201: a prediction lies beyond the guard thresholds. -/
def nearGuard (s : State) (n : Nat) (hi : Bool) (p : Int) : Bool :=
  let h : Int := (guardSetting s n).hyst
  if hi then decide ((ovEff s n : Int) - h - 8 < p)
  else decide (p < ((guardSetting s n).uv : Int) + h + 8)

/-- R202 step 1, R205 step 2: the direction at the head starts. -/
def startDirection (s : State) (n : Nat) : State :=
  match (s.mr n).test with
  | none => s
  | some t =>
    let s := setPhase s n .stepping
    if t.pmbus then
      queueMargin (s.modTest n fun t => { t with stepped := true })
        ⟨1, partner s n, 1, 0x01, if t.dirs.headD true then 0xA8 else 0x98, n, false⟩
    else s

/-- MARGIN_BASELINE_DONE, R201. -/
def baselineDone (s : State) (n : Nat) : State :=
  match (s.mr n).test with
  | none => s
  | some t =>
    if t.phase != .baseline || decide (t.n < margAvg s n) then s
    else
      let (s, base) := s.rounded t.sum (margAvg s n)
      let s := s.modTest n fun t => { t with base := base }
      let t := { t with base := base }
      if base < 524288 then abortTest s n 1 false false
      else if t.dirs.any fun d => nearGuard s n d (predicted s n t d) then abortTest s n 2 false false
      else startDirection s n

/-- MARGIN_CODE_ARRIVED, R202: the code has reached its target; DWELL, or the wait for the window, starts. -/
def codeArrived (s : State) (n : Nat) : State :=
  if inSubst s n || sndOn s n then s
  else
    let target := targetCode s n
    match (s.mr n).test with
    | none => setCode s n 0
    | some t =>
      if t.pmbus then s
      else match t.phase with
        | .stepping => setPhase (setCode s n target) n .dwell
        | .returning =>
          let s := setCode s n 0
          if t.ended then dropTest s n else setPhase s n .window
        | _ => s

/-- MARGIN_DWELL_END, R202. -/
def dwellEnd (s : State) (n : Nat) : State :=
  match (s.mr n).test with
  | some t => if t.phase == .dwell then setPhase s n .measuring else s
  | none => s

/-- R202 step 4: DEV of the average, in units of 10 ppm of the baseline. -/
def measureDone (s : State) (n : Nat) : State :=
  match (s.mr n).test with
  | none => s
  | some t =>
    let avg := margAvg s n
    if t.phase != .measuring || decide (t.n < avg) then s
    else
      let (s, dev) := s.approx ((t.sum - avg * t.base) * 100000) (avg * t.base.toNat)
      let dev := clampInt (-32768) 32767 dev
      let s := s.putS (F.MARGn_STATUS_DEV n) dev
      let hi := t.dirs.headD true
      let d := if hi then dev else -dev
      let miss := decide (d < t.minDev ∨ t.maxDev < d)
      let s := s.modTest n fun t =>
        { t with missed := t.missed || miss, devHi := if hi then dev else t.devHi, devLo := if hi then t.devLo else dev }
      startReturn s n

/-- The window is inside. -/
def windowInside (s : State) (n : Nat) : Bool := s.get (F.RAILn_FINE_STATE_WIN n) == 1

/-- MARGIN_RETURN_DONE, R203: the window is inside after the return. -/
def returnDone (s : State) (n : Nat) : State :=
  match (s.mr n).test with
  | none => s
  | some t =>
    if t.ended || !windowInside s n || !(t.phase == .window || (t.phase == .returning && !t.pmbus)) then s
    else
      let s := if t.pmbus then s else setCode s n 0
      let s := s.modTest n fun t => { t with dirs := t.dirs.tail, stepped := false }
      if t.dirs.tail = [] then dropTest (endTest s n (if t.missed then 2 else 1) 0) n
      else startDirection s n

/-- MARGIN_RETURN_TIMEOUT, R203. -/
def returnTimeout (s : State) (n : Nat) : State :=
  match (s.mr n).test with
  | none => s
  | some t =>
    if t.ended || windowInside s n || !(t.phase == .window || (t.phase == .returning && !t.pmbus)) then s
    else dropTest (endTest (if t.pmbus then s else setCode s n 0) n 2 0xC) n

/-- R204: the sample lies further from the baseline than MDEV x 0.1 % of it. -/
def beyondCap (s : State) (n : Nat) (base : Int) (o : FineOut) : Bool :=
  decide ((mdev s n : Int) * base < 1000 * ((o.code - base).natAbs : Int))

/-- R202, R204: a delivered fine sample in the test of its rail; R219: the conditions that end with the window. -/
def marginSample (s : State) (n : Nat) (o : FineOut) : State :=
  let s := match (s.mr n).test with
    | none => s
    | some t =>
      if !o.valid then s
      else
        let s := match t.phase with
          | .baseline | .measuring => s.modTest n fun t =>
              if t.n < margAvg s n then { t with n := t.n + 1, sum := t.sum + o.code } else t
          | _ => s
        match t.phase with
        | .stepping | .dwell | .measuring | .returning =>
          if beyondCap s n t.base o && !t.ended then
            abortTest ((margEvent s F.MARG_EVT_CAP_TRIP 2).raise 24 0 1 n n) n 3 false false
          else s
        | _ => s
  let s := match (s.mr n).watch with
    | some base =>
      if o.valid && beyondCap s n base o && !s.condStands 24 n then
        (margEvent (s.put F.MARG_EVT_RAIL n) F.MARG_EVT_CAP_TRIP 2).raise 24 0 1 n n
      else s
    | none => s
  if windowInside s n then ((s.endCond 24 n).endCond 26 n).modMr n fun r => { r with watch := none } else s

/-! ### The regulator's part (R205) -/

/-- R205 step 1: everything the preflight reads is there. -/
def preflightDone (s : State) (n : Nat) : State :=
  match (s.mr n).test with
  | none => s
  | some t =>
    let k := partner s n
    let c := voutValue s k t.vcmd
    let beyond (hi : Bool) : Bool :=
      let d := if hi then voutValue s k t.vhi - c else c - voutValue s k t.vlo
      decide ((mdev s n : Int) * c < 1000 * d)
    if t.oper ≠ 0x80 then abortTest s n 0xB false false
    else if t.dirs.any beyond then abortTest s n 3 false false
    else setPhase s n .baseline

/-- A margin transaction has ended. A preflight read that arrives last completes the preflight. -/
def marginReply (s : State) (m : MargReply) : State :=
  let n := m.trans.rail
  match (s.mr n).test with
  | none => s
  | some t =>
    if m.trans.cls = 0 then
      if t.phase != .returning then s
      else if m.ok then (if t.ended then dropTest s n else setPhase (s.modTest n fun t => { t with stepped := false }) n .window)
      else
        let s := if t.ended then s else endTest s n 3 0xA
        (dropTest s n).modMr n fun r => { r with watch := some t.base }
    else if t.ended then s
    else if !m.ok then abortTest s n 0xA false false
    else match t.phase with
      | .preflight =>
        let s := s.modTest n fun t => match m.trans.code with
          | 0x01 => { t with oper := m.data % 256 }
          | 0x21 => { t with vcmd := m.data }
          | 0x25 => { t with vhi := m.data }
          | _ => { t with vlo := m.data }
        if (s.pp (portOf m.trans.entry)).margin.any (fun r => r.rail == n && r.cls == 1) then s else preflightDone s n
      | .stepping => setPhase s n .dwell
      | _ => s

/-- R235, R239: a test that loses its partner ends. -/
def lostPartners (s : State) : State :=
  s.forEach (below 64) fun s n =>
    match (s.mr n).test with
    | some t => if t.pmbus && !t.ended && entryLost s (partner s n) then abortTest s n 0xA false false else s
    | none => s

end Sys2Proof.Machine
end

