-- ==== Sys2Proof/Machine/Sounding.lean ====
section
/-! DEFINITION. Sounding and its archive (spec/08_margin_sounding.md R206 to R218). -/

namespace Sys2Proof.Machine

def State.modSnd (s : State) (f : Sounding → Sounding) : State := s.modMarg fun m => { m with snd := m.snd.map f }

/-- Changes the rail of a sweep. -/
def State.modSr (s : State) (n : Nat) (f : SndRail → SndRail) : State :=
  s.modSnd fun w => { w with rails := w.rails.map fun r => if r.rail == n then f r else r }

/-- Changes every rail that is still in the sweep. -/
def State.modLive (s : State) (f : SndRail → SndRail) : State :=
  s.modSnd fun w => { w with rails := w.rails.map fun r => if r.left then r else f r }

def State.sndRails (s : State) : List SndRail := match s.marg.snd with | some w => w.rails | none => []

/-- The rails still in the sweep. -/
def State.live (s : State) : List SndRail := s.sndRails.filter fun r => !r.left

/-! ### The plan (R208, R210, R211, R213) -/

def nPts (s : State) : Nat := match s.get F.SND_CFG_NPTS with | 0 => 32 | 1 => 2 | n => n
def isMls (s : State) : Bool := s.flag F.SND_CFG_STIM

/-- R197, R206: `SND_AMP` and `SND_FREQ` of the sweep: while one runs, as its start was accepted with them, since no write may
take a sweep past its caps or its plan (DESIGN CHOICE, log entry 99). -/
def sndAmp (s : State) (f : Field) : Nat := f.extract (match s.marg.snd with | some w => w.ampWord | none => s.reg R.SND_AMP)
def sndFreq (s : State) (f : Field) : Nat := f.extract (match s.marg.snd with | some w => w.freqWord | none => s.reg R.SND_FREQ)

def mlsReps (s : State) : Nat := let r := sndAmp s F.SND_AMP_REPS; if r = 0 then 16 else r
def mlsOrder (s : State) : Nat := max 7 (sndAmp s F.SND_AMP_ORDER)
def mlsChip (s : State) : Nat := sndAmp s F.SND_AMP_CHIP

/-- R208: the phase increment of point `k`: f_k in units of 1.28 MHz / 2^32. -/
def pointInc (s : State) (k : Nat) : Nat :=
  let m := nPts s - 1
  rootNear m (sndFreq s F.SND_FREQ_F_START ^ (m - k) * (sndFreq s F.SND_FREQ_F_STOP) ^ k * 2 ^ (32 * m)) (1280000 ^ m)

/-- The frequency of an increment, unsigned 24.8 Hz. -/
def incFreq (inc : Nat) : Nat := (divNear (inc * 327680000 : Nat) (2 ^ 32)).toNat

/-- R208: the plan is admitted. -/
def planOk (s : State) : Bool :=
  let a := sndFreq s F.SND_FREQ_F_START
  let b := sndFreq s F.SND_FREQ_F_STOP
  decide (10 ≤ a) && decide (a < b) && decide (b ≤ 40000)

/-- R211: within 2 % of a multiple, up to the eighth, of the tracked reference frequency. -/
def nearCarrier (s : State) (inc : Nat) : Bool :=
  let p := s.get F.ANG_PERIOD_PERIOD
  (below 8).any fun i =>
    let carrier : Int := (i + 1) * 39321600000 * 2 ^ 32
    let f : Int := inc * 1280000 * p
    decide (50 * (f - carrier).natAbs ≤ carrier.natAbs)

/-- R213: a plan frequency that the sequence reports. -/
def mlsReports (s : State) (inc : Nat) : Bool :=
  let den := 2 ^ mlsChip s
  decide (10 * inc * 1280000 * den ≤ 4 * 160000 * 2 ^ 32) &&
    decide (2 * 160000 * 2 ^ 32 ≤ inc * 1280000 * den * (2 ^ mlsOrder s - 1))

/-- R210: the whole cycles of a point's integration. -/
def pointCycles (s : State) (inc : Nat) : Nat :=
  let tmin := match s.get F.SND_CFG_TMIN with | 0 => 1 | 1 => 10 | _ => 100
  max (8 * 2 ^ s.get F.SND_CFG_CYC) ((inc * 1280 * tmin + (2 ^ 32 - 1)) / 2 ^ 32)

/-- The sweep's duration with no halving, in ms rounded up (R406). -/
def planMs (s : State) : Nat :=
  let us := if isMls s then
      25000 + (1 + mlsReps s) * ((2 ^ mlsOrder s - 1) * 2 ^ mlsChip s * 25 / 4 + 1)
    else
      (below (nPts s)).foldl (fun t k =>
        let inc := pointInc s k
        let cyc (n : Nat) : Nat := (n * 2 ^ 32 * 100 + 128 * inc - 1) / (128 * max 1 inc)
        t + max 1000 (cyc 2) + cyc (pointCycles s inc)) 25000
  (us + 999) / 1000

/-- SND_STATUS follows the sweep. -/
def syncSnd (s : State) : State :=
  match s.marg.snd with
  | none => (s.put F.SND_STATUS_STATE 0).put F.SND_STATUS_POINT 0
  | some w =>
    let s := s.put F.SND_STATUS_STATE
      (if w.pausedFb || w.pausedHalt then 3 else if w.part == .target then 1 else 2)
    s.put F.SND_STATUS_POINT (match w.part with | .settle k | .integ k => k | _ => 0)

/-! ### The stimulus (R208, R213) -/

/-- R208: a rail's stimulus code A x sin θ. -/
def stimCode (s : State) (n phase : Nat) : State :=
  match s.sndRails.find? (·.rail == n) with
  | some r =>
    let (s, c) := s.approx (r.amp * (sinCos phase).1) (2 ^ 30)
    s.modSr n fun r => { r with code := c }
  | none => s

/-- The stimulus of every live rail at the phase reached. -/
def stimAll (s : State) : State :=
  match s.marg.snd with
  | some w => s.forEach (s.live.map (·.rail)) fun s n => stimCode s n w.phase
  | none => s

/-- R213: the next state of the register of a sequence of order `n`. -/
def lfsrNext (n mask st : Nat) : Nat :=
  (2 * st + (below n).foldl (fun p i => if bitOf mask i && bitOf st i then 1 - p else p) 0) % 2 ^ n

/-- How long the register, started at 1, takes to be at 1 again; 0 where `fuel` steps do not bring it there. -/
def lfsrPeriod (n mask : Nat) : Nat → Nat → Nat → Nat
  | 0, _, _ => 0
  | fuel + 1, st, k => let t := lfsrNext n mask st; if t = 1 then k + 1 else lfsrPeriod n mask fuel t (k + 1)

/-- Taps of maximum length for each order. -/
def lfsrTaps (n : Nat) : Nat :=
  match n with
  | 7 => 0x60 | 8 => 0xB8 | 9 => 0x110 | 10 => 0x240 | 11 => 0x500 | 12 => 0x829 | 13 => 0x100D | 14 => 0x2015 | _ => 0x6000

/-- R213: the sequence is of maximum length; the manual names no taps and no first state (log entry 100). -/
def mlsMask (n : Nat) : Nat :=
  let m := (Config.mlsTaps n).toNat % 2 ^ n
  if lfsrPeriod n m (2 ^ n) 1 0 = 2 ^ n - 1 then m else lfsrTaps n

def mlsStart (n : Nat) : Nat := max 1 ((Config.mlsSeed n).toNat % 2 ^ n)

/-- The level of the chip that a register state gives. -/
def mlsSign (n st : Nat) : Int := if bitOf st (n - 1) then 1 else -1

/-- The stimulus of every live rail at the chip reached. -/
def mlsAll (s : State) : State :=
  match s.marg.snd with
  | some w => s.modLive fun r => { r with code := mlsSign (mlsOrder s) w.lfsr * r.amp }
  | none => s

/-- TCLK periods of a chip: 160 kHz is TCLK / 64. -/
def chipTicks (s : State) : Nat := 64 * 2 ^ mlsChip s

/-- A TCLK edge for the stimulus: the phase accumulator is updated at MOD / 8, a chip lasts 64 x 2^CHIP periods (log entry
101). -/
def tickSounding (s : State) : State :=
  match s.marg.snd with
  | none => s
  | some w =>
    if w.pausedFb || w.pausedHalt then s
    else match w.part with
      | .settle k | .integ k =>
        if w.div < 7 then s.modSnd fun w => { w with div := w.div + 1 }
        else
          let inc := pointInc s k
          stimAll (s.modSnd fun w => { w with div := 0, phase := (w.phase + inc) % 2 ^ 32 })
      | .mls =>
        if w.chipT + 1 < chipTicks s then s.modSnd fun w => { w with chipT := w.chipT + 1 }
        else
          let n := mlsOrder s
          mlsAll (s.modSnd fun w => { w with
            chipT := 0, chip := (w.chip + 1) % (2 ^ n - 1), lfsr := lfsrNext n (mlsMask n) w.lfsr })
      | _ => s

/-! ### Points (R208, R210, R212) -/

/-- What a settle, or a period to be discarded, starts anew on a rail. -/
def SndRail.fresh (r : SndRail) : SndRail :=
  { r with accN := 0, totN := 0, fit := default, mlsX := [], mlsH := [] }

/-- A point begins, on every rail of the sweep, with its settle. A change of frequency keeps the phase (R208). -/
def beginPoint (s : State) (k : Nat) : State :=
  let amp := sndAmp s F.SND_AMP_AMP
  let s := s.modLive fun r => { r.fresh with amp := amp, halv := 0, ran := false, done := false, holdN := false }
  syncSnd (stimAll (s.modSnd fun w => { w with part := .settle k }))

/-- R213: the sequence begins with its discarded period. -/
def beginMls (s : State) : State :=
  let amp := sndAmp s F.SND_AMP_AMP
  let n := mlsOrder s
  let s := s.modLive fun r =>
    { r.fresh with amp := amp, halv := 0, devSeen := false, period := 0, mlsCap := false, done := false, holdN := false }
  syncSnd (mlsAll (s.modSnd fun w => { w with part := .mls, lfsr := mlsStart n, chip := 0, chipT := 0 }))

/-- Every point has run: the stimulus stops. -/
def sweepRun (s : State) : State := syncSnd (s.modSnd fun w => { w with part := .complete })

/-- Every live rail has run the point: those to be repeated settle again (R212), else the next point begins. -/
def pointTurn (s : State) (k : Nat) : State :=
  if s.live.isEmpty || !s.live.all (·.ran) then s
  else if s.live.all (·.done) then (if k + 1 < nPts s then beginPoint s (k + 1) else sweepRun s)
  else syncSnd (stimAll (s.modSnd fun w => { w with part := .settle k }))

/-- R213: every live rail has its last period. -/
def mlsTurn (s : State) : State := if !s.live.isEmpty && s.live.all (·.done) then sweepRun s else s

/-- The sweep goes on where the rails that are still in it have all done their part. -/
def sndTurn (s : State) : State :=
  match s.marg.snd with
  | some w => (match w.part with | .integ k => pointTurn s k | .mls => mlsTurn s | _ => s)
  | none => s

/-! ### Ends (R215, R216) -/

def isSndCmd (c : Cmd) : Bool := c.opcode == 0x0302

/-- A set of rails as two words. -/
def railWords (l : List Nat) : List Word :=
  let m := l.foldl (fun a n => a + 2 ^ n) 0
  [BitVec.ofNat 32 m, BitVec.ofNat 32 (m / 2 ^ 32)]

def sumFlag (n bit : Nat) : Field := ⟨R.sndSum n 3, bit, 1⟩

/-- The Sounding ends (R215): its outcome, its events and its reply. -/
def endSounding (s : State) : State :=
  match s.marg.snd with
  | none => s
  | some w =>
    let ok := (w.rails.filter fun r => !r.left).map (·.rail)
    let bad := (w.rails.filter (·.left)).map (·.rail)
    let s := s.modMarg fun m => { m with snd := none }
    let s := sndEvent (s.put F.SND_STATUS_LAST (if ok.isEmpty then 2 else 1)) F.SND_EVT_DONE 0
    finishC (syncSnd s) isSndCmd (if ok.isEmpty then stAborted else stOk) (railWords ok ++ railWords bad)

/-- A rail leaves the sweep as aborted; its stimulus stops at 16 codes per µs (R196). -/
def leaveRail (s : State) (n : Nat) (capped : Bool) : State :=
    let s := (s.modSr n fun r => { r with left := true }).modMr n fun r => { r with acc := 0 }
    let s := ((s.setReg (R.sndSum n 3) 0).put (sumFlag n 8) 1).putB (sumFlag n 4) capped
    let s := s.putB (sumFlag n 11) (match s.marg.snd with | some w => w.wasPaused | none => false)
    sndEvent s F.SND_EVT_ABORTED 1

/-- R216: a rail leaves the sweep as aborted. The sweep ends with its last rail, and goes on where this one was the last that
it waited for (R212, R215). -/
def leaveSweep (s : State) (n : Nat) (capped : Bool) : State :=
  if !sndOn s n then s
  else
    let s := leaveRail s n capped
    if s.live.isEmpty then endSounding s else sndTurn s

/-- The whole Sounding is aborted. -/
def abortSounding (s : State) : State :=
  if s.marg.snd.isSome then endSounding (s.forEach (s.live.map (·.rail)) fun s n => leaveRail s n false) else s

/-! ### Starting (R206) -/

/-- The rails a start names. -/
def namedRails (s : State) : List Nat := railList (rails64 (s.reg R.SND_RAILS_LO) (s.reg R.SND_RAILS_HI))

/-- R206, R401: the status that refuses a Sounding, the mode apart. -/
def soundingRefusal (s : State) : Option Nat :=
  let rails := namedRails s
  let amp := sndAmp s F.SND_AMP_AMP
  if s.marg.snd.isSome || rails.any (workOwns s) then some stWorkBusy
  else if rails.isEmpty then some stBadParam
  else if rails.any (fun n => margSrc s n != 1) then some stNoSource
  else match rails.filterMap (railRefusal s) with
    | st :: _ => some st
    | [] =>
      if rails.any (fun n => decide (scap s n < amp) || scap s n == 0 || sdev s n == 0) then some stOverCap
      else if amp = 0 || !planOk s || (isMls s && s.flag F.SND_CFG_QUIET_EN) then some stPlanInvalid
      else if s.flag F.CLK_STATUS_FALLBACK then some stFallback
      else none

/-- The sweep starts: the DC point begins with the baseline (R209). R217: its stamp and its tag are taken. -/
def beginSweep (s : State) : State :=
  syncSnd (s.modSnd fun w => { w with
    part := .base, start := s.ang.stamp, tag := s.reg R.SND_TAG
    rails := w.rails.map fun r => { r with marks := 4, taps := [] } })

/-- R206: an accepted Sounding. The phase at which the accumulator starts is not stated: a free value. -/
def startSounding (s : State) : State :=
  let amp := sndAmp s F.SND_AMP_AMP
  let rails := (namedRails s).map fun n => { (default : SndRail) with rail := n, amp := amp, dcAmp := amp }
  let (s, phase) := s.unstated 32
  let w : Sounding := { rails := rails, part := .target, pausedFb := false, pausedHalt := false, wasPaused := false, start := 0,
                        tag := 0, ampWord := s.reg R.SND_AMP, freqWord := s.reg R.SND_FREQ, phase := phase, div := 0, lfsr := 1,
                        chip := 0, chipT := 0 }
  let s := (s.setReg R.SND_CTRL 0).addWrap F.SND_STATUS_SEQ
  let s := s.modMarg fun m =>
    { m with snd := some w, svcWork := true
             archive := Vector.ofFn fun i => let a := vget m.archive i.val
                                             if rails.any (·.rail == i.val) then { a with seq := (a.seq + 1) % 65536 } else a }
  if s.flag F.SND_CFG_AT_EN then syncSnd s else beginSweep s

/-- SOUNDING_TARGET_MATCH, R206, R36. R47: no Sounding starts on fallback, nor in the pause of R216. -/
def soundingMatch (s : State) : State :=
  match s.marg.snd with
  | some w =>
    if w.part == .target && !w.pausedFb && !w.pausedHalt && !s.flag F.CLK_STATUS_FALLBACK && s.angRun &&
        stampReached s.ang.stamp (stampOf (s.reg R.SND_AT_HI) (s.reg R.SND_AT_LO)) then beginSweep s else s
  | none => s

/-! ### The DC point (R209) -/

/-- The sum and number of the valid tap samples held. -/
def tapMean (r : SndRail) : Int × Nat := r.taps.foldl (fun a x => match x with | some c => (a.1 + c, a.2 + 1) | none => a) (0, 0)

/-- `|x - baseline|`, of means held as sum and number, exceeds `lim` x SDEV of the baseline. -/
def offBase (s : State) (r : SndRail) (x : Int × Nat) (lim : Nat) : Bool :=
  let (bs, bn) := r.base
  let d := (x.1 * bn - bs * x.2).natAbs * 10000
  decide (lim * sdev s r.rail * bs.natAbs * x.2 < d)

/-- R209 item 2: the guard check of the DC point. -/
def dcNearGuard (s : State) (r : SndRail) : Bool :=
  let (bs, bn) := r.base
  let d : Int := 2 * sdev s r.rail
  let g (m : Int) : Int := bs * m / (10000 * 2048 * (max 1 bn : Nat))
  nearGuard s r.rail true (g (10000 + d)) || nearGuard s r.rail false (g (10000 - d))

/-- Every live rail of the DC point that is not finished holds a code of its amplitude. -/
def dcCodes (s : State) (sign : Int) : State :=
  s.modLive fun r => { r with code := if r.dcDone then 0 else sign * r.dcAmp, taps := [] }

/-- R209 item 5: after the minus step: halve, leave as capped, or be done. -/
def dcJudge (s : State) (r : SndRail) : State :=
  if r.dcDone then s
  else if offBase s r r.plus 1 || offBase s r r.minus 1 then
    if r.halv < 3 then
      s.modSr r.rail fun r => { r with dcAmp := max 1 (r.dcAmp / 2), halv := r.halv + 1, reduced := true }
    else leaveSweep (s.raiseOnce 27 0 0 r.rail r.rail) r.rail true
  else s.modSr r.rail fun r => { r with dcDone := true }

/-- SOUNDING_DC_STEP, R209: a timed part of the DC point ends. -/
def dcStep (s : State) : State :=
  match s.marg.snd with
  | none => s
  | some w =>
    if w.pausedFb || w.pausedHalt then s
    else match w.part with
      | .base =>
        let s := s.modLive fun r => { r with base := tapMean r, halv := 0, dcDone := false }
        let s := s.forEach (s.live.map (·.rail)) fun s n =>
          match s.live.find? (·.rail == n) with
          | some r => if r.base.2 = 0 || dcNearGuard s r then leaveSweep s n false else s
          | none => s
        if s.marg.snd.isSome then syncSnd (dcCodes (s.modSnd fun w => { w with part := .plus }) 1) else s
      | .plus =>
        let s := s.modLive fun r => if r.dcDone then r else { r with plus := tapMean r }
        syncSnd (dcCodes (s.modSnd fun w => { w with part := .minus }) (-1))
      | .minus =>
        let s := s.modLive fun r => if r.dcDone then r else { r with minus := tapMean r }
        let s := s.live.foldl dcJudge s
        if s.marg.snd.isNone then s
        else if s.live.all (·.dcDone) then
          if isMls s then beginMls s else beginPoint s 0
        else syncSnd (dcCodes (s.modSnd fun w => { w with part := .plus }) 1)
      | _ => s

/-- SOUNDING_SETTLE_END, R210. -/
def settleDone (s : State) : State :=
  match s.marg.snd with
  | some w =>
    match w.part with
    | .settle k =>
      if w.pausedFb || w.pausedHalt then s
      else
        let s := s.modLive fun r => if r.done then { r with ran := true } else { r.fresh with ran := false, holdN := s.holdover }
        syncSnd (s.modSnd fun w => { w with part := .integ k })
    | _ => s
  | none => s

/-- R207, R211: the angle at a tap sample's input instant, 10.4 µs before its stamp. -/
def tapAngle (s : State) : Nat :=
  angleOf (s.ang.stamp - BitVec.ofNat 48 (angIncNow s * 159744 / (100 * 2 ^ 22)))

/-! ### The lock-in (R207, R210, R213, R214) -/

/-- What the lock-in gives at a frequency, in units of 2^-16 tap code: the terms a and b of R210, and the standard error of the
amplitude (R214). -/
structure LockIn where
  a     : Int
  b     : Int
  sigma : Nat
  deriving DecidableEq, Repr

/-- R207: the magnitude of the tap's sinc3 at OSR 64, in units of 2^-30, at the frequency of an increment:
(sin 64x / 64 sin x)^3 at x = π f / MOD, where sin 64x / 64 sin x is the product of cos 2^j x for j = 0 to 5. -/
def tapMag (inc : Nat) : Nat :=
  let m := (below 6).foldl (fun m j => m * (sinCos (2 ^ j * inc / 16)).2.toNat / 2 ^ 30) (2 ^ 30)
  m * m / 2 ^ 30 * m / 2 ^ 30

/-- R207, R210: the stimulus phase at a tap sample's input instant, 10.4 µs (106.496 TCLK periods) before its stamp. -/
def tapPhase (w : Sounding) (inc : Nat) : Nat :=
  (((w.phase * 8000 : Nat) + inc * ((w.div * 1000 : Nat) - 106496 : Int)) / 8000 % 4294967296).toNat

/-- A tap code enters the fit. -/
def FitSums.add (f : FitSums) (x : Int) (phase : Nat) : FitSums :=
  let (s, c) := sinCos phase
  ⟨f.n + 1, f.s + s, f.c + c, f.ss + s * s, f.sc + s * c, f.cc + c * c, f.x + x, f.xs + x * s, f.xc + x * c, f.xx + x * x⟩

/-- R210: the least-squares fit of a sin θ + b cos θ + c, with the standard error of its amplitude, the tap's magnitude divided
out (R207). None where the samples do not determine it. -/
def FitSums.solve (f : FitSums) (mag : Nat) : Option LockIn :=
  let n : Int := f.n
  let m11 := f.cc * n - f.c * f.c
  let m12 := f.s * f.c - f.sc * n
  let m13 := f.sc * f.c - f.cc * f.s
  let m22 := f.ss * n - f.s * f.s
  let m23 := f.sc * f.s - f.ss * f.c
  let m33 := f.ss * f.cc - f.sc * f.sc
  let d := f.ss * m11 + f.sc * m12 + f.s * m13
  if f.n ≤ 3 ∨ d ≤ 0 ∨ mag = 0 then none
  else
    let da := m11 * f.xs + m12 * f.xc + m13 * f.x
    let db := m12 * f.xs + m22 * f.xc + m23 * f.x
    let dc := m13 * f.xs + m23 * f.xc + m33 * f.x
    let rss := f.xx * d - da * f.xs - db * f.xc - dc * f.x
    let sq := da * da + db * db
    let v := if sq = 0 then m11 else da * da * m11 + db * db * m22 + 2 * da * db * m12
    let den := (d * d * (f.n - 3 : Nat) * (if sq = 0 then 1 else sq) * mag * mag).toNat
    some ⟨divNear (da * 2 ^ 76) (d * mag).toNat, divNear (db * 2 ^ 76) (d * mag).toNat, isqrt ((rss * v).toNat * 2 ^ 152 / den)⟩

/-- A term of the lock-in that the manual does not state: a free value. -/
def State.unstatedFit (s : State) : State × LockIn :=
  let (s, a) := s.unstated 32
  let (s, b) := s.unstated 32
  let (s, e) := s.unstated 32
  (s, ⟨toSigned 32 a, toSigned 32 b, e⟩)

/-- R213: the levels of a period's chips, from chip 0 on. -/
def mlsLevels (n : Nat) : Nat → Nat → List Int
  | 0, _ => []
  | k + 1, st => mlsSign n st :: mlsLevels n k (lfsrNext n (mlsMask n) st)

/-- R213: the chip at a tap sample's input instant. -/
def tapChip (s : State) (w : Sounding) : Nat :=
  let per := chipTicks s
  ((((w.chip * per + w.chipT) * 1000 : Nat) - 106496 : Int) / (1000 * per : Nat) % ((2 : Int) ^ mlsOrder s - 1)).toNat

/-- R213: the impulse response over one period, by cross-correlation of the tap with the sequence, one value per chip of lag. -/
def impulse (n : Nat) (taps : List (Nat × Int)) : List Int :=
  let l := 2 ^ n - 1
  let seq := mlsLevels n l (mlsStart n)
  (below l).map fun k => taps.foldl (fun a t => a + t.2 * seq.getD ((t.1 + l - k) % l) 0) 0

/-- R213: a response evaluated at the frequency of an increment, in units of 2^-16 tap code. -/
def mlsAt (s : State) (r : SndRail) (h : List Int) (inc : Nat) : Int × Int :=
  let step := inc * 8 * 2 ^ mlsChip s
  let sums := (h.zip (below h.length)).foldl (fun a t =>
    let (sn, cs) := sinCos (t.2 * step)
    (a.1 + t.1 * cs, a.2 - t.1 * sn)) ((0 : Int), (0 : Int))
  let den := 2 ^ mlsOrder s * 2 ^ mlsChip s * tapMag inc * max 1 r.base.2
  (divNear (sums.1 * 65536) den, divNear (sums.2 * 65536) den)

/-- R213: the mean of what the periods gave, its standard error from their spread. With one period the manual leaves no spread to
take it from: a free value. -/
def mlsMean (s : State) (l : List (Int × Int)) : State × LockIn :=
  let r := l.length
  let a := divNear (l.foldl (fun m x => m + x.1) 0) r
  let b := divNear (l.foldl (fun m x => m + x.2) 0) r
  let amps := l.map fun x => isqrt (x.1 * x.1 + x.2 * x.2).natAbs
  let sum := amps.foldl (· + ·) 0
  let sq := amps.foldl (fun m x => m + x * x) 0
  if r ≤ 1 then
    let (s, e) := s.unstated 32
    (s, ⟨a, b, e⟩)
  else (s, ⟨a, b, isqrt ((r * sq - sum * sum) / (r * r * (r - 1)))⟩)

/-! ### Tap samples and the ends of points (R207, R210 to R213) -/

/-- SOUNDING_TAP_SAMPLE, R207, R211, R212: a tap sample of a rail. Clipped ones and those under a common-mode error are not used,
but judged for the response trip. -/
def tapSample (s : State) (n : Nat) (raw : Int) (clip : Bool) : State :=
  match s.marg.snd, s.sndRails.find? (·.rail == n) with
  | some w, some r =>
    if r.left || w.pausedFb || w.pausedHalt || w.part == .target then s
    else
      let (s, code, beyond) := calibrate s n raw
      let usable := decide (r.marks = 0) && !clip && !beyond && !s.flag (F.RAILn_GUARD_STATUS_CM_ERR n)
      let valid := usable && (w.part != .base || margCode s n == 0)
      let s := s.modSr n fun r => { r with
        marks := r.marks - 1, taps := ((if valid then some code else none) :: r.taps).take 800 }
      if decide (r.marks = 0) && w.part != .base && offBase s r (code, 1) 4 then
        leaveSweep (s.raise 26 0 1 n n) n false
      else
        match w.part with
          | .integ k =>
            let quiet := !s.flag F.SND_CFG_QUIET_EN ||
              windowOpen (s.get F.SND_QUIET_OPEN_ANGLE) (s.get F.SND_QUIET_CLOSE_ANGLE) (tapAngle s)
            let phase := tapPhase w (pointInc s k)
            s.modSr n fun r =>
              if r.ran then r
              else
                let r := { r with totN := r.totN + 1, holdN := r.holdN || s.holdover }
                if valid && quiet then { r with accN := r.accN + 1, fit := r.fit.add code phase } else r
          | .mls =>
            let dev := valid && offBase s r (code, 1) 1
            let x := code * r.base.2 - r.base.1
            s.modSr n fun r =>
              let r := { r with devSeen := r.devSeen || dev, holdN := r.holdN || s.holdover }
              if valid && !r.done then { r with mlsX := (tapChip s w, x) :: r.mlsX } else r
          | _ => s
  | _, _ => s

/-- SOUNDING_POINT_END, R210 to R212: a rail's integration ends; the fit is made and judged. -/
def pointEnd (s : State) (n : Nat) : State :=
  match s.marg.snd, s.sndRails.find? (·.rail == n) with
  | some w, some r =>
    match w.part with
    | .integ k =>
      if r.left || r.ran || w.pausedFb || w.pausedHalt then s
      else
        let inc := pointInc s k
        let (s, f) := match r.fit.solve (tapMag inc) with | some f => (s, f) | none => s.unstatedFit
        let (bs, bn) := r.base
        let beyond := decide ((sdev s n * bs.natAbs * 65536) ^ 2 < (f.a * f.a + f.b * f.b).natAbs * (10000 * bn) ^ 2)
        if beyond && decide (r.halv < 3) then
          pointTurn (s.modSr n fun r => { r with amp := max 1 (r.amp / 2), halv := r.halv + 1, ran := true, reduced := true }) k
        else
          let p : SndPoint := ⟨k, inc, f.a, f.b, f.sigma, r.amp, r.halv, !beyond, beyond, nearCarrier s inc, r.holdN,
            decide (4 * r.accN < r.totN)⟩
          let s := if beyond then s.raiseOnce 27 0 0 n n else s
          pointTurn (s.modSr n fun r => { r with ran := true, done := true, capped := r.capped || beyond, pts := r.pts ++ [p] }) k
    | _ => s
  | _, _ => s

/-- R213: the points of a rail's last period. -/
def mlsPoints (s : State) (r : SndRail) (hs : List (List (Int × Int))) : State × List SndPoint :=
  (below (nPts s)).foldl (fun a k =>
    let inc := pointInc a.1 k
    let (s, f) := mlsMean a.1 (hs.map fun h => h.getD k (0, 0))
    (s, a.2 ++ [⟨k, inc, f.a, f.b, f.sigma, r.amp, r.halv, mlsReports s inc, r.mlsCap, nearCarrier s inc, r.holdN, false⟩])) (s, [])

/-- MLS_PERIOD_END, R213: a period of a rail ends: discarded, repeated at half the amplitude, or averaged; the last one gives the
response at each plan frequency. -/
def mlsPeriod (s : State) (n : Nat) : State :=
  match s.marg.snd, s.sndRails.find? (·.rail == n) with
  | some w, some r =>
    if w.part != .mls || r.left || r.done || w.pausedFb || w.pausedHalt then s
    else if r.period = 0 then
      if r.devSeen && decide (r.halv < 3) then
        mlsAll (s.modSr n fun r =>
          { r.fresh with amp := max 1 (r.amp / 2), halv := r.halv + 1, devSeen := false, reduced := true })
      else s.modSr n fun r => { r.fresh with period := 1, mlsCap := r.devSeen, capped := r.capped || r.devSeen, holdN := false }
    else
      let h := impulse (mlsOrder s) r.mlsX
      let hs := r.mlsH ++ [(below (nPts s)).map fun k => mlsAt s r h (pointInc s k)]
      let s := s.modSr n fun r => { r with period := r.period + 1, mlsX := [], mlsH := hs }
      if r.period < mlsReps s then s
      else
        let (s, pts) := mlsPoints s r hs
        mlsTurn (s.modSr n fun r => { r with done := true, pts := pts })
  | _, _ => s

/-! ### Results (R209, R214) -/

/-- The DC response H0 is `dv / dq` codes for 2 x dcAmp codes. -/
def dcDiff (r : SndRail) : Int × Nat := (r.plus.1 * r.minus.2 - r.minus.1 * r.plus.2, r.plus.2 * r.minus.2)

/-- G of a point as (x + j y) / d with d positive: (a + j b) x 2 x dcAmp / (amp x dv). -/
def pointG (r : SndRail) (p : SndPoint) : Int × Int × Nat :=
  let (dv, dq) := dcDiff r
  let f : Int := 2 * (r.dcAmp * dq : Nat)
  let sg : Int := if dv < 0 then -1 else 1
  (sg * p.a * f, sg * p.b * f, p.amp * dv.natAbs * 65536)

/-- R214: L = G / (1 - G) of a point: numerator, and the squares of the moduli of G and 1 - G times d. -/
structure LoopGain where
  re  : Int
  im  : Int
  num : Nat
  den : Nat
  deriving DecidableEq, Repr

def loopGain (r : SndRail) (p : SndPoint) : LoopGain :=
  let (x, y, d) := pointG r p
  let e : Int := d - x
  ⟨x * e - y * y, y * d, (x * x + y * y).toNat, (e * e + y * y).toNat⟩

/-- log2 |L| in units of 2^-33. -/
def LoopGain.log (l : LoopGain) : Int := if l.num = 0 then -(2 ^ 40) else if l.den = 0 then 2 ^ 40 else log2Fix l.num l.den

/-- Brings an angle to within 180 degrees of another. -/
def unwrapTo (a prev : Int) : Int := a + 2 * halfTurn * ((prev - a + halfTurn) / (2 * halfTurn))

/-- R214: the phases of L along the valid points: the first from -360 to 0 degrees, each next within 180 of the last. -/
def phasesOf (r : SndRail) : List SndPoint → Option Int → List (SndPoint × LoopGain × Int)
  | [], _ => []
  | p :: rest, prev =>
    let l := loopGain r p
    let a := angleXY l.re l.im
    let a := match prev with | some q => unwrapTo a q | none => if 0 < a then a - 2 * halfTurn else a
    (p, l, a) :: phasesOf r rest (some a)

/-- R214: SNR below 20 dB. -/
def lowSnr (p : SndPoint) : Bool := decide ((p.a * p.a + p.b * p.b).natAbs < 100 * p.sigma ^ 2)

/-- R214: the SNR in dB. -/
def snrOf (s : State) (p : SndPoint) : State × Nat :=
  if p.sigma = 0 then (s, 255)
  else if p.a = 0 && p.b = 0 then (s, 0)
  else
    let (s, v) := s.approx (log2Fix (p.a * p.a + p.b * p.b).natAbs (p.sigma ^ 2) * 12929139860) (2 ^ 64)
    (s, min 255 v.toNat)

/-- The falls of |L| through 1 between consecutive points. -/
def crossings : List (SndPoint × LoopGain × Int) → List ((SndPoint × LoopGain × Int) × (SndPoint × LoopGain × Int))
  | a :: b :: rest =>
    let more := crossings (b :: rest)
    if decide (a.2.1.den ≤ a.2.1.num) && decide (b.2.1.num < b.2.1.den) then (a, b) :: more else more
  | _ => []

/-- What a summary finds: crossover in 24.8 Hz, phase margin in 0.01 degree, number of crossings. -/
def crossover (s : State) (l : List (SndPoint × LoopGain × Int)) : State × Nat × Int × Nat :=
  match crossings l with
  | [] => (s, 0, 0, 0)
  | (a, b) :: more =>
    let la := a.2.1.log
    let lb := b.2.1.log
    let den := (la - lb).toNat
    let fa := log2Fix a.1.inc 1
    let fb := log2Fix b.1.inc 1
    let (s, e) := s.approx (fa * den + la * (fb - fa)) den
    let (s, f) := s.approx ((exp2Fix e.toNat * 5000 : Nat) : Int) (2 ^ 32)
    let (s, pm) := s.approx ((18000 * 1048576 + a.2.2) * den + la * (b.2.2 - a.2.2)) (den * 1048576)
    (s, f.toNat, pm, 1 + more.length)

/-- |G| of a point in units of 2^-32. -/
def magG (r : SndRail) (p : SndPoint) : Nat :=
  let (x, y, d) := pointG r p
  if d = 0 then 0 else isqrt ((x * x + y * y).natAbs * 2 ^ 64) / d

/-- The results of a point: its frequency, |G| and phase registers. With H0 = 0 the manual states no |G| and no phase. -/
def pointResult (s : State) (r : SndRail) (p : SndPoint) : State :=
  let n := r.rail
  let (x, y, d) := pointG r p
  let s := s.setReg (R.sndRes n p.k 0) (incFreq p.inc)
  let (s, mag) := if d = 0 then s.unstated 32 else
    let (s, v) := s.approx (magG r p : Nat) 256
    (s, min (2 ^ 32 - 1) v.toNat)
  let (s, ph) := if d = 0 then s.unstated 16 else
    let (s, v) := s.approx (angleXY x y) 1048576
    (s, ofSigned 16 v)
  let (s, snr) := snrOf s p
  let s := s.setReg (R.sndRes n p.k 1) (if p.valid then mag else 0)
  let b (c : Bool) (k : Nat) : Nat := if c then 2 ^ k else 0
  s.setReg (R.sndRes n p.k 2) ((if p.valid then ph * 65536 + snr * 256 else 0) + b p.valid 7 + p.halv * 32 + b p.capped 4 +
    b (lowSnr p) 3 + b p.near 2 + b p.hold 1 + b p.short 0)

/-- R209: H0, signed 24.8 ohm: dv x 1.6 / 2^23 x RATIO / (2 x A x 195.3125 nA). -/
def h0Of (s : State) (r : SndRail) : State × Nat :=
  let (dv, dq) := dcDiff r
  let (s, v) := s.approx (dv * (railRatio s r.rail : Nat) * 256 * 16 * 10 ^ 13)
    (10 * 2 ^ 23 * 2 ^ 24 * dq * 2 * r.dcAmp * 1953125)
  (s, ofSigned 32 (clampInt (-2147483648) 2147483647 v))

/-- The largest |G| of the valid points, as the square of its modulus over the square of d. -/
def peakG (r : SndRail) (pts : List SndPoint) : Nat × Nat :=
  pts.foldl (fun m p =>
    let (x, y, d) := pointG r p
    let q := ((x * x + y * y).natAbs, d * d)
    if m.1 * q.2 < q.1 * m.2 then q else m) (0, 1)

/-- R214, R215: the summary registers of a rail that completed, its events and faults. -/
def summarise (s : State) (r : SndRail) (wasPaused : Bool) : State :=
  let n := r.rail
  let s := r.pts.foldl (fun s p => pointResult s r p) s
  let (s, h0) := h0Of s r
  let good := r.pts.filter (·.valid)
  let ph := (phasesOf r good none).filter fun t => !lowSnr t.1
  let (s, xover, pm, count) := if (dcDiff r).1 = 0 then (s, 0, 0, 0) else crossover s ph
  let (pn, pd) := peakG r good
  let (s, peak) := if pn = 0 || pd = 0 then s.unstated 16 else
    let (s, v) := s.approx (log2Fix pn pd * 1292913986000) (2 ^ 64)
    (s, ofSigned 16 (clampInt (-32768) 32767 v))
  let pmMin := s.get F.SND_CFG_PM_MIN
  let low := decide (pmMin ≠ 0 ∧ count ≠ 0 ∧ pm < 10 * (pmMin : Int))
  let capped := r.capped || r.pts.any (·.capped)
  let b (c : Bool) (k : Nat) : Nat := if c then 2 ^ k else 0
  let s := ((s.setReg (R.sndSum n 0) h0).setReg (R.sndSum n 1) xover).setReg (R.sndSum n 2) (ofSigned 16 pm * 65536 + peak)
  let s := s.setReg (R.sndSum n 3)
    (1 + b (count = 0) 1 + b (decide (1 < count)) 2 + b r.reduced 3 + b capped 4 + b (r.pts.any lowSnr) 5 +
      b (r.pts.any (·.near)) 6 + b (r.pts.any (·.hold)) 7 + b low 9 + b wasPaused 11)
  let s := s.endCond 25 n
  let s := if capped then s else s.endCond 27 n
  if low then (sndEvent s F.SND_EVT_PM_LOW 2).raiseOnce 28 0 0 n n
  else if count ≠ 0 && decide (10 * (pmMin : Int) ≤ pm) then s.endCond 28 n else s

/-! ### The archive (R217, R218) -/

/-- The 28 bytes of a trend record before its CRC. -/
def trendBytes (s : State) (r : SndRail) (w : Sounding) : List Nat :=
  let n := r.rail
  let pm := s.reg (R.sndSum n 2)
  beBytes 6 w.start.toNat ++
    beBytes 2 (s.get (F.RAILn_GUARD_STATUS_SLICE n) * 4096 + s.reg (R.sndSum n 3) % 4096) ++
    beBytes 4 w.tag ++ beBytes 4 (s.reg (R.sndSum n 1)) ++ beBytes 2 (pm / 65536) ++ beBytes 2 (pm % 65536) ++
    beBytes 4 (s.reg (R.sndSum n 0)) ++ [r.dcAmp % 256, r.pts.length % 256] ++ beBytes 2 (vget s.marg.archive n).seq

/-- The 8 bytes of a point in a full record. -/
def pointBytes (s : State) (r : SndRail) (k : Nat) : List Nat :=
  if r.pts.any (·.k == k) then
    beBytes 3 (s.reg (R.sndRes r.rail k 0) * 100 / 256) ++ beBytes 3 (min (2 ^ 24 - 1) (s.reg (R.sndRes r.rail k 1) / 16)) ++
      beBytes 2 (s.reg (R.sndRes r.rail k 2) / 65536)
  else beBytes 8 0

/-- The trend record and the full record of a rail. -/
def archiveRecords (s : State) (r : SndRail) (w : Sounding) : Nat × List Word × List Word :=
  let head := trendBytes s r w
  let body := (below 32).flatMap (pointBytes s r)
  (r.rail, wordsOf 8 (head ++ beBytes 4 (crc32 head)), wordsOf 72 (head ++ beBytes 4 (crc32 (head ++ body)) ++ body))

/-- R218: a full trend store is compacted: record 0, the odd ones up to 191, and the rest. -/
def compactTrend (l : List (List Word)) : List (List Word) :=
  if l.length < 384 then l
  else
    (l.zip (below l.length)).filterMap fun (x, i) => if i = 0 || i % 2 = 1 || decide (192 ≤ i) then some x else none

/-- The counts that SND_ARC_CNT shows. -/
def syncArchive (s : State) (n : Nat) : State :=
  let a := vget s.marg.archive n
  let held (l : List (List Word)) : Nat := (l.filter (!·.isEmpty)).length
  s.setReg (R.sndSum n 4) (held a.full * 65536 + held a.trend)

/-- The sector of trend record `k` of a rail: 30 pages per rail from page 1,344, 32 bytes each (R217). -/
def trendSector (n k : Nat) : Nat := (1344 + 30 * n + k / 16) / 8

/-- R343: a record falls in a retired sector: trend record `k`, or, with `full`, a full record. -/
def archiveDead (s : State) (n k : Nat) (full : Bool) : Bool :=
  s.nvm.retired.contains (if full then (1344 + 30 * n + 24 + k * 288 / 512) / 8 else trendSector n k)

/-- ARCHIVE_WRITE_DONE, R218: the records of the rail at the head are written, those in a retired sector not (R343); a
compaction, and a full record in the place of the oldest, erase their pages (R351). -/
def archiveDone (s : State) : State :=
  match s.marg.arcQueue with
  | [] => s
  | (n, t, f) :: rest =>
    let put (a : SndArchive) : SndArchive :=
      let tr := compactTrend a.trend
      { a with trend := tr ++ [if archiveDead s n tr.length false then [] else t]
               full := ((if archiveDead s n (a.seq % 10) true then [] else f) :: a.full).take 10 }
    let a := vget s.marg.archive n
    let base := 1344 + 30 * n
    let erased := (if a.trend.length < 384 then [] else (below 24).map (base + ·)) ++
      (if a.full.length < 10 then [] else [base + 24 + a.seq % 10 * 288 / 512, base + 24 + (a.seq % 10 * 288 + 287) / 512])
    let s := s.endConds 62 erased
    let s := { s with nvm := { s.nvm with unit := none } }
    let s := s.modMarg fun m => { m with arcQueue := rest, archive := vmod m.archive n put }
    let s := syncArchive (s.put (sumFlag n 10) 1) n
    if rest.isEmpty then sndEvent (s.put F.SND_STATUS_ARC_BUSY 0) F.SND_EVT_ARCHIVED 3 else s

/-- R218: an archive write is cut: the record in progress is left with a failing CRC, so that reads skip it and its position is
used again. Which record that is, and whether a compaction has run, is a free value: the trend record is written first, and the
full record overwrites the oldest of a full store (log entry 102). -/
def archiveCut (s : State) : State :=
  let s := match s.marg.arcQueue with
    | [] => s
    | (n, t, _) :: _ =>
      let (s, v) := s.unstated 2
      syncArchive (s.modMarg fun m => { m with
        archive := vmod m.archive n fun a =>
          if v % 2 = 1 then { a with trend := compactTrend a.trend ++ [t], full := a.full.take 9 }
          else { a with trend := if v = 2 then compactTrend a.trend else a.trend } }) n
  (s.modMarg fun m => { m with arcQueue := [] }).put F.SND_STATUS_ARC_BUSY 0

/-- SOUNDING_COMPLETE, R215. -/
def soundingComplete (s : State) : State :=
  match s.marg.snd with
  | none => s
  | some w =>
    if w.part != .complete then s
    else
      let s := s.live.foldl (fun s r => summarise s r w.wasPaused) s
      let s := if s.flag F.SND_CFG_ARCHIVE && !s.live.isEmpty then
          (s.modMarg fun m => { m with arcQueue := m.arcQueue ++ s.live.map fun r => archiveRecords s r w }).put
            F.SND_STATUS_ARC_BUSY 1
        else s
      endSounding s

/-! ### Pauses (R216) -/

/-- The part that a pause discards starts again. -/
def restartPart (s : State) : State :=
  match s.marg.snd with
  | none => s
  | some w =>
    let s := s.modLive fun r => { r.fresh with marks := 4, taps := [], ran := false }
    match w.part with
    | .base | .plus | .minus => (s.modLive fun r => { r with dcDone := false }).modSnd fun w => { w with part := .base }
    | .settle k | .integ k => s.modSnd fun w => { w with part := .settle k }
    | .mls =>
      let n := mlsOrder s
      mlsAll ((s.modLive fun r => if r.done then r else { r with period := 0, devSeen := false }).modSnd fun w =>
        { w with lfsr := mlsStart n, chip := 0, chipT := 0 })
    | _ => s

/-- The sweep pauses, on fallback or on Halt: the stimulus stops, at 16 codes per µs (R196). -/
def pauseSounding (s : State) (halt : Bool) : State :=
  match s.marg.snd with
  | none => s
  | some _ =>
    let s := s.modSnd fun w => { w with pausedFb := w.pausedFb || !halt, pausedHalt := w.pausedHalt || halt, wasPaused := true }
    syncSnd (restartPart s)

/-- The sweep goes on when nothing pauses it any more. -/
def resumeSounding (s : State) (halt : Bool) : State :=
  if s.marg.snd.isSome then
    syncSnd (restartPart (s.modSnd fun w => { w with pausedFb := w.pausedFb && halt, pausedHalt := w.pausedHalt && !halt }))
  else s

/-- SOUNDING_PAUSE_TIMEOUT, R216: a second on fallback. -/
def pauseTimeout (s : State) : State :=
  match s.marg.snd with
  | some w => if w.pausedFb then abortSounding s else s
  | none => s

/-! ### Interruptions of both kinds of work (R216, R195, R199) -/

/-- R195: MRGn has lost compliance. -/
def complianceLoss (s : State) (n : Nat) : State :=
  if !mrgDrives s n then s
  else
    let s := (margEvent (s.put F.MARG_EVT_RAIL n) F.MARG_EVT_COMPLIANCE 3).raiseOnce 25 0 0 n n
    leaveSweep (abortTest s n 5 false false) n false

/-- Every margin test and the Sounding are aborted. -/
def abortWork (s : State) (reason : Nat) (forced : Bool) : State :=
  abortSounding (s.forEach (below 64) fun s n => abortTest s n reason forced forced)

/-- A margin test or a Sounding, or the return of either, is at work. -/
def workAtAll (s : State) : Bool := s.marg.snd.isSome || (below 64).any (workOwns s)

/-- R216: the outgoing twin: the outputs are high impedance at once, and the work ends. -/
def workRoleOut (s : State) : State :=
  let (s, r) := s.unstated 4
  let s := abortWork s r true
  s.forEach (below 64) fun s n => setCode (dropTest s n) n 0

/-- R199: a substitution of the rail's slice starts. The code is held, and returns after step 7 at 16 codes per µs. -/
def workSubst (s : State) (n : Nat) : State := leaveSweep (abortTest s n 7 true false) n false

/-- R216: a fine path is declared out of service; the manual names no reason for the test that ends. -/
def workOos (s : State) (n : Nat) : State :=
  let (s, r) := s.unstated 4
  leaveSweep (abortTest s n r false false) n false

end Sys2Proof.Machine
end

