-- ==== Sys2Proof/Machine/Folio.lean ====
section
/-! DEFINITION. Folios: triggers, the latch, the four buffers (spec/13_folio_ledger_nvm.md R325 to R333). -/

namespace Sys2Proof.Machine

def State.modFolio (s : State) (f : FolioState → FolioState) : State := { s with folio := f s.folio }

/-- FOLIO_EVT bit b is EV160 + b (R352). -/
def folioEvent (s : State) (f : Field) (bit : Nat) : State := s.evtBit f (160 + bit)

/-! ### Triggers (R325, R328) -/

/-- R325: a trigger is presented: mask bit `bit`. -/
def folioTrigger (s : State) (bit : Nat) : State :=
  s.modFolio fun f => { f with trig := Nat.lor f.trig (2 ^ bit) }

/-- Bit [6]: a fault episode opens with a message. -/
def folioEpisode (s : State) (m : FaultMsg) : State :=
  (folioTrigger s 6).modFolio fun f => { f with trigMsg := f.trigMsg <|> some (m, s.ang.stamp) }

/-- SNAP_EDGE, R325: SNAP takes a level. -/
def snapEdge (s : State) (level : Bool) : State :=
  if s.folio.snap == level then s
  else
    let s := s.modFolio fun f => { f with snap := level }
    if bitOf (s.get F.FOLIO_CFG_SNAP_EDGE) (if level then 0 else 1) then folioTrigger s 0 else s

/-- R328: a target is armed; one that has passed raises the late target event. -/
def armTarget (s : State) (t : Stamp) (ring : Bool) (id : Nat) : State :=
  let s := ((s.put F.FOLIO_STATUS_ARMED 1).putB F.FOLIO_STATUS_RING ring).put F.FOLIO_AT_ID_ID id
  let s := s.modFolio fun f => { f with target := t }
  if s.angRun && stampReached s.ang.stamp t then folioEvent s F.FOLIO_EVT_AT_LATE 3 else s

/-- FOLIO_CTRL_ARM, R328: refused while a target is armed. -/
def folioArm (s : State) : State :=
  if s.flag F.FOLIO_STATUS_ARMED then s else armTarget s (stampOf (s.reg R.FOLIO_AT_HI) (s.reg R.FOLIO_AT_LO)) false 0

/-- FOLIO_DISARM, R328. With no target armed FOLIO_AT_ID shows none. -/
def folioDisarm (s : State) : State :=
  ((s.put F.FOLIO_STATUS_ARMED 0).put F.FOLIO_STATUS_RING 0).put F.FOLIO_AT_ID_ID 0

/-- R329: a ring-wide request; whether it was refused. -/
def folioRingArm (s : State) (t : Stamp) (id : Nat) : State × Bool :=
  if s.flag F.FOLIO_STATUS_ARMED then (folioEvent s F.FOLIO_EVT_AT_REFUSED 4, true) else (armTarget s t true id, false)

/-- FOLIO_TARGET_MATCH, R328. -/
def folioMatch (s : State) : State :=
  if s.flag F.FOLIO_STATUS_ARMED && s.angRun && stampReached s.ang.stamp s.folio.target then
    let ring := s.flag F.FOLIO_STATUS_RING
    let s := if ring then s.modFolio fun f => { f with trigId := s.get F.FOLIO_AT_ID_ID } else s
    folioTrigger (folioDisarm s) (if ring then 5 else 4)
  else s

/-! ### Contents (R333) -/

/-- R272, R492: FAULT_N is driven low: from POR, or the edge of a DEVICE reset, until the collector starts, and then as the
faults call for. -/
def faultLow (s : State) : Bool :=
  s.rst.phase == .por || s.rst.phase == .work || s.rst.phase == .fuses || s.flag F.FLT_STATUS_FAULT_N

/-- Byte 504 of R336: mode, security, debug, FAULT_N. -/
def stateByte (s : State) : Nat :=
  s.mode * 32 + s.security * 8 + s.get F.SEC_STATE_DEBUG * 2 + (if faultLow s then 1 else 0)

/-- Byte 505. -/
def roleByte (s : State) : Nat := s.get F.TWIN_STATUS_ROLE * 64

/-- R257: the carry-pending bits. -/
def carryBits (s : State) : Nat :=
  (below 31).foldl (fun m n => if s.tally.carry.getLsbD n && tSource s (n + 1) == 4 then m + 2 ^ (n + 1) else m) 0

/-- A reaction of source `i` is queued or dispatching. -/
def sourceQueued (s : State) (i : Nat) : Bool := (s.flt.ahead ++ s.flt.queue).any fun r => r.msg.source == i

/-- `FLT_SRCs_STAT` shows the condition level and whether a reaction is queued as they stand. -/
def sourceStatWord (s : State) (i : Nat) : Nat :=
  (F.FLT_SRCs_STAT_COND i).insert ((F.FLT_SRCs_STAT_QUEUED i).insert (s.reg (R.FLT_SRCs_STAT i)) (sourceQueued s i).toNat)
    (s.condLevel i).toNat

/-- R333: the 512 words of a Folio. -/
def folioWords (s : State) (mask id : Nat) : List Word :=
  let r (l : List Nat) : List Word := l.map fun a => BitVec.ofNat 32 (s.reg a)
  [BitVec.ofNat 32 (id * 65536 + mask), BitVec.ofNat 32 (stampHiWord s), BitVec.ofNat 32 (stampLo s.ang.stamp)] ++
    r [R.LDG_SEC, R.LDG_USEC] ++
    [BitVec.ofNat 32 (s.folio.latches % 256 * 2 ^ 24 + stateByte s * 256 + roleByte s)] ++
    r [R.FLT_STICKY0, R.FLT_STICKY1, R.FLT_STICKY2, R.FLT_STATUS] ++
    (quires.map fun q => BitVec.ofNat 32 (quireStatusWord s q)) ++ [BitVec.ofNat 32 (seqStatusWord s)] ++ r [R.TWIN_STATUS, R.ANG_STATUS, R.CLK_STATUS] ++
    [BitVec.ofNat 32 (carryBits s)] ++ r [R.BENCH_MAP] ++ r ((below 64).map R.RAILn_GUARD_STATUS) ++
    r ((below 64).map R.RAILn_FINE_RESULT) ++ (below 64).map (fun n => (s.fr n).latest.tag) ++ r ((below 32).map R.Tn_COUNT) ++
    r ((below 48).map R.BENCH_REGk_RES) ++ r ((below 32).map fun i => R.BENCHb_INJj_RES (i / 4) (i % 4)) ++
    r [R.POOL_HU_RES] ++ ((below 96).map fun i => BitVec.ofNat 32 (sourceStatWord s i)) ++ r ((below 8).map R.EVT_Gg_STATUS) ++ r [R.ASSAY_STATUS] ++
    r ((below 64).map R.MARGn_STATUS) ++ List.replicate 6 0

/-- R327: a result delivered within 2 TCLK periods before the latch edge is in the Folio, or the one before it is: no rule fixes
which (log entry 104). -/
def crossResults (s : State) (words : List Word) : State × List Word :=
  (s.folio.fresh.filter fun r => decide (s.tclk < r.at' + 2)).foldl (fun (s, w) r =>
    let (s, v) := s.unstated 1
    (s, if v = 0 then w else r.words.foldl (fun w x => w.set x.1 x.2) w)) (s, words)

/-! ### The latch and the buffers (R326, R330, R331) -/

def bufState (s : State) (k : Nat) : Nat := s.get (F.FOLIO_STATUS_BUF k)

/-- R331: the buffer a Folio takes: the lowest FREE one, else for an episode or a hold-up the FILLED one of the oldest
latch. -/
def folioBuffer (s : State) (mask : Nat) : Option Nat :=
  match (below 4).find? fun k => bufState s k == 0 with
  | some k => some k
  | none =>
    if bitOf mask 6 || bitOf mask 7 then
      ((below 4).filter fun k => bufState s k == 1).foldl (fun m k => match m with
        | some j => if vget s.folio.age k < vget s.folio.age j then some k else some j
        | none => some k) none
    else none

/-- A Ledger record is lost (R335). -/
def recordLost (s : State) : State :=
  let s := s.addSat F.NVM_CNT_LOST
  let s := (s.evtBit F.NVM_EVT_RECORD_LOST 169).raise 59 0 0 0 (s.get F.NVM_CNT_LOST)
  { s with nvm := { s.nvm with lostFlag := true } }

/-- FOLIO_LATCH, R326, R330, R331: the presented triggers latch one Folio; the buffer it took. -/
def folioLatch (s : State) : State × Option Nat :=
  let mask := s.folio.trig
  if mask = 0 then (s, none)
  else
    let id := if bitOf mask 5 then s.folio.trigId else 0
    let msg := s.folio.trigMsg
    let ledger := bitOf mask 6 || bitOf mask 7
    let s := s.modFolio fun f => { f with trig := 0, trigId := 0, trigMsg := none }
    match folioBuffer s mask with
    | none =>
      let s := folioEvent (s.addSat F.FOLIO_STATUS_DROPPED) F.FOLIO_EVT_DROPPED 1
      let s := if bitOf mask 5 then s.put F.FOLIO_STATUS_LAST_DROP_ID id else s
      (if ledger then recordLost s else s, none)
    | some k =>
      let (s, words) := crossResults s (folioWords s mask id)
      let s := if bufState s k = 1 then folioEvent s F.FOLIO_EVT_OVERWRITTEN 2 else s
      let s := s.modFolio fun f => { f with
        buf := vmod f.buf k (fun _ => words), latches := f.latches + 1, age := vmod f.age k (fun _ => f.latches)
        copies := f.copies ++
          (if ledger then [⟨k, words, msg.map (·.1), match msg with | some (_, t) => t | none => 0⟩] else []) }
      let s := (s.put (F.FOLIO_STATUS_BUF k) (if mask = 64 || mask = 128 then 2 else 1)).put F.FOLIO_STATUS_NEWEST k
      (folioEvent s F.FOLIO_EVT_TAKEN 0, some k)

/-- FOLIO_CTRL_RELEASE, R330: the named FILLED buffers become FREE. -/
def folioRelease (s : State) (bits : Nat) : State :=
  s.forEach (below 4) fun s k => if bitOf bits k && bufState s k == 1 then s.put (F.FOLIO_STATUS_BUF k) 0 else s

/-- A word of a buffer. -/
def folioWord (s : State) (k i : Nat) : Nat := ((vget s.folio.buf k).getD i 0).toNat

/-- FOLIO_DATA_READ, R332. -/
def folioDataRead (s : State) : State × Nat :=
  let w := s.get F.FOLIO_IDX_WORD
  (s.put F.FOLIO_IDX_WORD (w + 1), folioWord s (s.get F.FOLIO_IDX_BUF) w)

end Sys2Proof.Machine
end

