-- ==== Sys2Proof/Machine/Tally.lean ====
section
/-! DEFINITION. The Tally counters and the EVT_OUT outputs (spec/10_tally.md). -/

namespace Sys2Proof.Machine

def State.modTally (s : State) (f : TallyState → TallyState) : State := { s with tally := f s.tally }

def tCount (s : State) (n : Nat) : Nat := s.reg (R.Tn_COUNT n)
def tCmp (s : State) (n : Nat) : Nat := s.reg (R.Tn_CMP n)

/-! ### Outputs (R259) -/

/-- The width of a pulse in TCLK periods. -/
def outWidth (s : State) (k : Nat) : Nat := s.get (F.TALLY_OUTk_PW k) + 1

/-- A match of counter `n` reaches the outputs that follow it. -/
def outMatch (s : State) (n : Nat) : State :=
  s.forEach (below 4) fun s k =>
    if s.get (F.TALLY_OUTk_SEL k) != n then s
    else
      match s.get (F.TALLY_OUTk_MODE k) with
      | 1 => s.modTally fun t => { t with out := t.out ||| (1#4 <<< k), width := vmod t.width k (fun _ => outWidth s k) }
      | 2 => s.modTally fun t => { t with out := t.out ^^^ (1#4 <<< k) }
      | _ => s

/-- EVT_OUT_PULSE_END. -/
def outPulseEnd (s : State) (k : Nat) : State :=
  if s.get (F.TALLY_OUTk_MODE k) == 1 then
    s.modTally fun t => { t with out := t.out &&& ~~~(1#4 <<< k), width := vmod t.width k (fun _ => 0) }
  else s

/-- A write of `TALLY_OUTk` has been stored: a new mode, and every write that makes the mode 0b10, starts at the inactive level. -/
def outCfgWritten (s : State) (k old : Nat) : State :=
  let mode := s.get (F.TALLY_OUTk_MODE k)
  if (F.TALLY_OUTk_MODE k).extract old == mode && mode != 2 then s
  else s.modTally fun t => { t with out := t.out &&& ~~~(1#4 <<< k), width := vmod t.width k (fun _ => 0) }

/-- The level on the ball EVT_OUTk: POL = 1 makes the active level low; from power-on until the configuration load it is
driven low (R491), and a DEVICE reset keeps it (R478). -/
def outLevel (s : State) (k : Nat) : Bool :=
  if s.rst.phase == .por || (s.rst.power && s.rst.phase != .engine && s.rst.phase != .up) then false
  else s.tally.out.getLsbD k != s.flag (F.TALLY_OUTk_POL k)

/-! ### Steps and matches (R243, R247, R248, R255) -/

/-- R247, R248: what a match of counter `n` at `cmp` does. R258: its event is told to every user, whether or not MATCH was set. -/
def tallyMatch (s : State) (n cmp : Nat) : State :=
  let s := (s.put (F.Tn_STATUS_MATCH n) 1).event (32 + n)
  let s := (s.setReg (R.Tn_MATCHED n) cmp).addWrap (F.Tn_STATUS_MCOUNT n)
  let s := if s.flag (F.Tn_CFG_AUTO n) then s.setReg (R.Tn_CMP n) ((cmp + s.reg (R.Tn_INTV n)) % 2 ^ 32) else s
  let s := sourceTrigger s 1 n fun _ => true
  let s := if s.flag F.FOLIO_CFG_TALLY_EN && s.get F.FOLIO_CFG_TALLY_SEL == n then folioTrigger s 3 else s
  outMatch s n

/-- R247: a counter adds its step on a TCLK edge, and matches when it steps onto or past CMP. -/
def tallyStep (s : State) (n step : Nat) : State :=
  let c := tCount s n
  let cmp := tCmp s n
  let s := s.setReg (R.Tn_COUNT n) ((c + step) % 2 ^ 32)
  let s := if 2 ^ 32 ≤ c + step then s.modTally fun t => { t with carry := t.carry ||| (1#32 <<< n) } else s
  let d := (cmp + 2 ^ 32 - c) % 2 ^ 32
  if 1 ≤ d ∧ d ≤ step then tallyMatch s n cmp else s

/-! ### Writes (R245, R246, R249) -/

/-- TALLY_REG_WRITE: a write reaches the Tally; its effect edge is three edges on. -/
def tallyWrite (s : State) (n which v : Nat) : State :=
  s.modTally fun t => { t with writes := t.writes ++ [⟨n, which, BitVec.ofNat 32 v, 3⟩] }

/-- A written value takes effect, and is judged from this edge on (R250, R251); R249: CMP_PAST when it is at or behind the count held before the edge. -/
def tallyApply (s : State) (w : TallyWrite) : State :=
  match w.which with
  | 0 =>
    let d := (w.value.toNat + 2 ^ 32 - tCount s w.n) % 2 ^ 32
    let s := s.setReg (R.Tn_CMP w.n) w.value.toNat
    if d = 0 ∨ 2 ^ 31 < d then (s.put (F.Tn_STATUS_CMP_PAST w.n) 1).event 26 else s
  | 1 => s.setReg (R.Tn_INTV w.n) w.value.toNat
  | _ => s.setReg (R.Tn_CFG w.n) (Nat.land w.value.toNat 0x87370037)

/-! ### Captures (R252 to R254) -/

/-- `Tn_CAP` and LEVEL show the queue. -/
def syncCap (s : State) (n : Nat) : State :=
  let q := vget s.tally.caps n
  (s.setReg (R.Tn_CAP n) (q.headD 0)).put (F.Tn_STATUS_LEVEL n) q.length

/-- R254: a counter captures its count. -/
def tallyCapture (s : State) (n : Nat) : State :=
  let s := (s.put (F.Tn_STATUS_CAP_SEEN n) 1).event 24
  if (vget s.tally.caps n).length < 4 then
    syncCap (s.modTally fun t => { t with caps := vmod t.caps n (· ++ [tCount s n]) }) n
  else (s.put (F.Tn_STATUS_CAP_OVF n) 1).event 25

/-- R252: an edge kind includes an edge to `level`. -/
def edgeKind (kind : Nat) (level : Bool) : Bool := bitOf kind (if level then 0 else 1)

/-- R243: counter `n` counts the edge of input `cap` to `level`. -/
def capCounts (s : State) (n cap : Nat) (level : Bool) : Bool :=
  s.get (F.Tn_CFG_SRC_CAP n) == cap && edgeKind (s.get (F.Tn_CFG_SRC_EDGE n)) level

/-- R253: after the steps of the edge, every counter that selects the input's edge captures. -/
def capCaptures (s : State) (cap : Nat) (level : Bool) : State :=
  s.forEach (below 32) fun s n =>
    if s.get (F.Tn_CFG_CAP_SEL n) == cap && edgeKind (s.get (F.Tn_CFG_CAP_EDGE n)) level then tallyCapture s n else s

/-- TALLY_CAP_READ: a read of `Tn_CAP` removes the oldest value. -/
def capRead (s : State) (n : Nat) : State × Nat :=
  let q := vget s.tally.caps n
  (syncCap (s.modTally fun t => { t with caps := vmod t.caps n (·.drop 1) }) n, q.headD 0)

/-! ### A TCLK edge -/

/-- R246: of the writes of one register whose effect edges coincide, the later-issued. -/
def lastWrites : List TallyWrite → List TallyWrite
  | [] => []
  | w :: rest => if rest.any fun x => x.n == w.n && x.which == w.which then lastWrites rest else w :: lastWrites rest

/-- Writes whose effect edge this is take effect. -/
def tallyWritesDue (s : State) : State :=
  let due := lastWrites (s.tally.writes.filter fun w => decide (w.left ≤ 1))
  let s := s.modTally fun t =>
    { t with writes := (t.writes.filter fun w => decide (1 < w.left)).map fun w => { w with left := w.left - 1 } }
  due.foldl tallyApply s

/-- R243: the step of counter `n` on a TCLK edge, by its source; `t` is the Tally before the edge. -/
def tickStep (s : State) (t : TallyState) (n : Nat) : Nat :=
  match tSource s n with
  | 0 => 1
  | 1 => t.adv
  | 2 => if t.refEdge then 1 else 0
  | 3 => match t.cap with | some (c, l) => if capCounts s n c l then 1 else 0 | none => 0
  | _ => if t.carry.getLsbD (n - 1) then 1 else 0

/-- R242: in every mode, state and level the counters run. Writes whose effect edge this is take effect; then every counter steps; then the captures are made. -/
def tallyTick (s : State) : State :=
  let t := s.tally
  let s := tallyWritesDue (s.modTally fun t => { t with carry := 0, adv := 0, cap := none, refEdge := false })
  let s := s.forEach (below 32) fun s n => tallyStep s n (tickStep s t n)
  let s := match t.cap with | some (c, l) => capCaptures s c l | none => s
  s.forEach (below 4) fun s k =>
    match vget s.tally.width k with
    | 0 => s
    | 1 => outPulseEnd s k
    | w + 1 => s.modTally fun t => { t with width := vmod t.width k (fun _ => w) }

end Sys2Proof.Machine
end

