-- ==== Sys2Proof/Machine/Nvm.lean ====
section
/-! DEFINITION. The Ledger, the device log, `STORE` and the NVM controller (spec/13_folio_ledger_nvm.md R334 to R349). -/

namespace Sys2Proof.Machine

def State.modNvm (s : State) (f : NvmState → NvmState) : State := { s with nvm := f s.nvm }

/-- NVM_EVT bit b is EV168 + b (R352). -/
def nvmEvent (s : State) (f : Field) (bit : Nat) : State := s.evtBit f (168 + bit)

/-- R262: a message as a 32-bit word. -/
def msgWord (m : FaultMsg) : Nat :=
  let v := m.source * 2 ^ 25 + m.kind * 2 ^ 20 + m.cls * 2 ^ 18 + m.detail % 2 ^ 16 * 4 + (if m.inj then 2 else 0)
  if ((below 32).filter (bitOf v)).length % 2 = 0 then v + 1 else v

/-! ### The controller (R338, R342) -/

/-- R342: the class of a job. -/
def jobClass : NvmJob → Nat
  | .record => 0 | .logMap _ | .logCnt _ => 1 | .store _ | .image _ | .patch => 3 | .erase _ => 4

/-- The job that is next: of the highest class, the oldest. -/
def firstOp (s : State) : Option NvmOp :=
  s.nvm.ops.foldl (fun m o => match m with
    | some b => if jobClass o.job < jobClass b.job then some o else some b
    | none => some o) none

/-- The job the controller works on: the one whose program unit is in progress, or the next. -/
def curOp (s : State) : Option NvmOp :=
  match s.nvm.unit with
  | some (some j) => (s.nvm.ops.find? fun o => o.job == j) <|> firstOp s
  | _ => firstOp s

/-- OP of `NVM_STATUS`, by the job. -/
def jobCode : NvmJob → Nat
  | .record => 1 | .logMap _ | .logCnt _ => 2 | .store _ => 4 | .image _ | .patch => 5 | .erase _ => 6

/-- OP of `NVM_STATUS`. -/
def opCode (s : State) : Nat :=
  match s.nvm.unit with
  | some none => 3
  | some (some j) => jobCode j
  | none =>
    match firstOp s with
    | some o => if 2 ≤ jobClass o.job && !s.marg.arcQueue.isEmpty then 3 else jobCode o.job
    | none => if s.marg.arcQueue.isEmpty then 0 else 3

/-- The program unit in progress has ended. -/
def endUnit (s : State) : State := s.modNvm fun v => { v with unit := none }

/-- The unit in progress is of the archive, or of a job, that is still there. -/
def unitLive (s : State) : Bool :=
  match s.nvm.unit with
  | some none => !s.marg.arcQueue.isEmpty
  | some (some j) => s.nvm.ops.any fun o => o.job == j
  | none => false

/-- R342: with no unit in progress the next operation begins one, unless it erases first. -/
def takeUnit (s : State) : State :=
  if unitLive s then s
  else
    let s := endUnit s
    if opCode s = 3 then s.modNvm fun v => { v with unit := some none }
    else match firstOp s with
      | some o => if o.erases = 0 && o.units != 0 then s.modNvm fun v => { v with unit := some (some o.job) } else s
      | none => s

/-- The controller takes what is next, and its registers show it. -/
def syncNvm (s : State) : State :=
  let s := takeUnit s
  let op := opCode s
  let s := (s.putB F.NVM_STATUS_BUSY (op != 0)).put F.NVM_STATUS_OP op
  let s := s.putB F.LDG_STATUS_WRITING (s.nvm.ops.any fun o => o.job == .record)
  (s.put F.LDG_STATUS_STAGED s.nvm.stage.length).put F.LDG_STATUS_HELD s.nvm.slots.length

/-- A job joins those that wait; what is in progress goes on (R342). -/
def addOp (s : State) (job : NvmJob) (erases units : Nat) : State :=
  syncNvm ((takeUnit s).modNvm fun v => { v with ops := v.ops ++ [⟨job, erases, units, false⟩] })

/-- The current job changes, or ends. -/
def setCur (s : State) (o : NvmOp) (new : Option NvmOp) : State :=
  s.modNvm fun v => { v with ops := match new with
    | some n => v.ops.map fun x => if x == o then n else x
    | none => v.ops.erase o }

/-! ### Sectors (R341, R343) -/

/-- The sector a job writes; of a copy or a log, its first. -/
def ledgerSector (slot : Nat) : Nat := 40 + slot / 8
def copySector (i : Nat) : Nat := match i with | 0 => 0 | 1 => 16 | 2 => 32 | _ => 36
/-- The first page of a copy (R341). -/
def copyPage (i : Nat) : Nat := 8 * copySector i

/-- Whether a copy lies in a retired sector. -/
def copyDead (s : State) (i : Nat) : Bool :=
  s.nvm.retired.any fun x => decide (copySector i ≤ x) && decide (x < copySector i + (if i < 2 then 16 else 2))

def copyOkField (i : Nat) : Field :=
  match i with | 0 => F.NVM_STATUS_CFG_A_OK | 1 => F.NVM_STATUS_CFG_B_OK | 2 => F.NVM_STATUS_CAL_A_OK | _ => F.NVM_STATUS_CAL_B_OK

/-! ### Copies (R347, R348) -/

/-- Register addresses that are windows of R529 with elements in the copies. -/
def isWindowAddr (a : Nat) : Bool :=
  (decide (0x2400 ≤ a) && decide (a < 0x2800) && (below 16).any fun q => [R.QUIREq_STEP0 q, R.QUIREq_STEP1 q, R.QUIREq_STEP2 q,
      R.QUIREq_STEP3 q, R.QUIREq_STEP4 q, R.QUIREq_STEP5 q].contains a) ||
    [R.POOL_CAL_OFFSET, R.POOL_CAL_GAIN, R.POOL_CAL_STATUS, R.ASSAY_SF_GAIN, R.ASSAY_SF_OFFSET].contains a

/-- The elements of the windows of a kind: INDEX, window register, where the element is held. -/
def windowElems (cal : Bool) : List (Nat × Nat × Nat) :=
  if cal then
    ((below 3).flatMap fun g => (below 32).flatMap fun a =>
      [(g * 256 + a, R.POOL_CAL_OFFSET, R.poolPair g a 0), (g * 256 + a, R.POOL_CAL_GAIN, R.poolPair g a 1),
       (g * 256 + a, R.POOL_CAL_STATUS, R.poolPair g a 2)]) ++
    (below 72).flatMap fun k => [(k, R.ASSAY_SF_GAIN, R.sliceFactor k 0), (k, R.ASSAY_SF_OFFSET, R.sliceFactor k 1)]
  else
    (below 16).flatMap fun q => (below 32).flatMap fun i =>
      [(i, R.QUIREq_STEP0 q, R.quireStep q i 0), (i, R.QUIREq_STEP1 q, R.quireStep q i 1), (i, R.QUIREq_STEP2 q, R.quireStep q i 2),
       (i, R.QUIREq_STEP3 q, R.quireStep q i 3), (i, R.QUIREq_STEP4 q, R.quireStep q i 4), (i, R.QUIREq_STEP5 q, R.quireStep q i 5)]

/-- The mask of the fields of a kind in a register. -/
def kindMask (cal : Bool) (a : Nat) : Nat := match regDefAt a with | some d => if cal then d.cal else d.cfg | none => 0

/-- R348: where the element of an address word is held, with the mask of the fields of the kind; none where it names
none. -/
def entryPlace (cal : Bool) (w : Nat) : Option (Nat × Nat) :=
  let a := w % 2 ^ 15
  let i := w / 2 ^ 16 % 2 ^ 15
  if bitOf w 15 then none
  else if bitOf w 31 then ((windowElems cal).find? fun e => e.1 == i && e.2.1 == a).map fun e => (e.2.2, kindMask cal a)
  else if i ≠ 0 ∨ isWindowAddr a ∨ kindMask cal a = 0 then none else some (a, kindMask cal a)

/-- R347: a copy is valid, its names included. -/
def copyGood (cal : Bool) (c : NvmCopy) : Bool :=
  c.valid && c.seq != 0xFFFFFFFF && decide (8 * c.entries.length ≤ (if cal then 8176 else 65520)) &&
    c.entries.all fun e => (entryPlace cal e.1.toNat).isSome

/-- A copy becomes invalid, or takes a content. -/
def setCopy (s : State) (i : Nat) (c : NvmCopy) : State :=
  (s.modNvm fun v => { v with copies := vmod v.copies i (fun _ => c) }).putB (copyOkField i) (copyGood (decide (2 ≤ i)) c)

/-- R343: a page of a sector is worn: the sector is remapped, or retired when no spare is left. -/
def wornSector (s : State) (sector : Nat) : State :=
  let s := s.raiseMomentary 60 0 0 sector
  if s.nvm.remaps.length < 72 then
    let s := s.modNvm fun v => { v with remaps := v.remaps ++ [sector] }
    mapChanged (((nvmEvent s F.NVM_EVT_REMAP 5).put F.NVM_STATUS_SPARES_USED s.nvm.remaps.length).put
      F.SPR_STATUS_NVM_USED s.nvm.remaps.length)
  else
    let s := s.modNvm fun v => { v with retired := v.retired ++ [sector], slots := v.slots.filter fun x => ledgerSector x.1 != sector }
    let s := (nvmEvent s F.NVM_EVT_REDUCED 6).raise 61 0 1 sector sector
    s.forEach (below 4) fun s i => if copyDead s i then setCopy s i { (vget s.nvm.copies i) with valid := false } else s

/-! ### Ledger records (R336, R337) -/

/-- The slot after `k` that is not retired. -/
def slotAfter : Nat → State → Nat → Nat
  | 0, _, k => k
  | fuel + 1, s, k =>
    let j := (k + 1) % 1024
    if s.nvm.retired.contains (ledgerSector j) then slotAfter fuel s j else j

/-- R337: the slot the next record goes into; an empty Ledger begins at slot 0. -/
def nextSlot (s : State) : Nat :=
  if s.nvm.junk.isEmpty && s.get F.LDG_STATUS_LAST_SLOT = 0 && s.nvm.slots.isEmpty then slotAfter 1024 s 1023
  else slotAfter 1024 s (s.get F.LDG_STATUS_LAST_SLOT)

/-- A slot's page is not erased. -/
def slotUsed (s : State) (k : Nat) : Bool := s.nvm.slots.any (·.1 == k) || s.nvm.junk.contains k

/-- R336: the bytes of the record being written, whose sequence is the last one taken. -/
def recordBytes (s : State) (e : LdgEntry) : List Nat :=
  let w (i : Nat) : Nat := (e.words.getD i 0).toNat
  let f (fl : Field) (i : Nat) : Nat := fl.extract (w i)
  let hi := w 1
  let flags := (if bitOf hi 31 then 1 else 0) + 2 * f F.CLK_STATUS_FALLBACK 29 +
    (if e.holdup || s.mode == mHoldup then 4 else 0) + (match e.msg with | some m => if m.inj then 8 else 0 | none => 0) +
    (if e.secSet then 16 else 0) + (if e.lost then 32 else 0) + (if e.again then 64 else 0)
  let fineByte (n : Nat) : Nat :=
    let t := w (160 + n)
    let b (i : Nat) : Nat := if bitOf t i then 1 else 0
    (if b 28 + b 27 + b 26 + b 25 + b 23 = 0 then 128 else 0) + 64 * b 28 + 32 * b 27 + 16 * b 26 + 8 * b 25 + 4 * b 23 +
      2 * b 24 + b 22
  let guardByte (n : Nat) : Nat :=
    128 * f (F.RAILn_GUARD_STATUS_EN_LATCH n) (32 + n) + 64 * f (F.RAILn_GUARD_STATUS_PG_GOOD n) (32 + n) +
      32 * f (F.RAILn_GUARD_STATUS_OV_OUT n) (32 + n) + 16 * f (F.RAILn_GUARD_STATUS_UV_OUT n) (32 + n) +
      f (F.RAILn_GUARD_STATUS_SLICE n) (32 + n)
  let body := beBytes 4 ((s.reg R.LDG_SEQ + (2 ^ 32 - 1)) % 2 ^ 32) ++ [1, flags] ++ beBytes 2 (w 0 % 65536) ++
    beBytes 4 (match e.msg with | some m => msgWord m | none => 0) ++ beBytes 6 e.stamp.toNat ++
    beBytes 2 (hi % 65536) ++ beBytes 4 (w 2) ++ beBytes 4 (w 3) ++ beBytes 4 (w 4) ++
    (below 64).flatMap (fun n => beBytes 3 (w (96 + n)) ++ [fineByte n]) ++ (below 64).map guardByte ++
    (below 32).flatMap (fun n => beBytes 4 (w (224 + n))) ++ beBytes 4 (w 30) ++
    beBytes 4 (w 6) ++ beBytes 4 (w 7) ++ beBytes 4 (w 8) ++
    (below 8).map (fun k => f (F.QUIREq_STATUS_STATE (2 * k)) (10 + 2 * k) * 16 +
      f (F.QUIREq_STATUS_STATE (2 * k + 1)) (11 + 2 * k)) ++
    beBytes 2 (w 5 % 65536) ++ [0, 0]
  body ++ beBytes 4 (crc32 body)

/-- R336: a record that begins, or is written again, takes the next sequence. -/
def takeSeq (s : State) : State := s.setReg R.LDG_SEQ ((s.reg R.LDG_SEQ + 1) % 2 ^ 32)

/-- R335: the next record written after a loss says so. -/
def takeLost (s : State) : State :=
  s.modNvm fun v => { v with lostFlag := false, stage := match v.stage with
    | e :: rest => { e with lost := v.lostFlag } :: rest | [] => [] }

/-- The record at the head of staging is taken up; a slot that is not erased is erased with it (R337). -/
def recordFill (s : State) : State :=
  if s.nvm.ready && !s.nvm.stage.isEmpty && !s.nvm.ops.any (fun o => o.job == .record) then
    addOp (takeLost (takeSeq s)) .record (if slotUsed s (nextSlot s) then 1 else 0) 8
  else syncNvm s

/-- LEDGER_STAGE, R335: the oldest Folio that calls for a record is copied into staging, or its record is lost. -/
def ledgerStage (s : State) : State :=
  match s.folio.copies with
  | [] => s
  | c :: rest =>
    let s := s.modFolio fun f => { f with copies := rest }
    let s := if bufState s c.buf = 2 then s.put (F.FOLIO_STATUS_BUF c.buf) 0 else s
    if 2 ≤ s.nvm.stage.length then recordLost s
    else
      recordFill (s.modNvm fun v =>
        { v with stage := v.stage ++ [⟨c.words, c.msg, c.stamp, v.secSet, c.msg.isNone, false, false⟩] })

/-- R337: a page two slots ahead is erased after each record, and after HOLDUP any of the next two. -/
def eraseAhead (s : State) (k : Nat) : State :=
  if s.mode != mHoldup && slotUsed s k && !s.nvm.ops.any (fun o => o.job == .erase k) then addOp s (.erase k) 1 0 else s

def slotInsert (k : Nat) (w : List Word) : List (Nat × List Word) → List (Nat × List Word)
  | [] => [(k, w)]
  | (j, v) :: rest => if k < j then (k, w) :: (j, v) :: rest else if j = k then (k, w) :: rest else (j, v) :: slotInsert k w rest

def isStoreCmd (c : Cmd) : Bool := c.opcode == 0x0202
def isImageCmd (c : Cmd) : Bool := c.opcode == 0x0203
def isPatchCmd (c : Cmd) : Bool := c.opcode == 0x0204

/-- R406: a Ledger record written meanwhile adds 2.2 ms to the declared maximum of a `STORE`. -/
def extendStores (s : State) : State :=
  s.modEng fun e => { e with cmds := e.cmds.map fun c =>
    if c.phase == .running && isStoreCmd c then { c with bound := c.bound + 22528 } else c }

/-- LEDGER_RECORD_COMPLETE, R338. -/
def recordDone (s : State) : State :=
  match s.nvm.stage with
  | [] => s
  | e :: rest =>
    let k := nextSlot s
    let words := wordsOf 128 (recordBytes s e)
    let s := s.modNvm fun v =>
      { v with stage := rest, slots := slotInsert k words v.slots, junk := v.junk.filter (· != k), cntPend := true }
    let s := s.put F.LDG_STATUS_LAST_SLOT k
    let s := (nvmEvent s F.NVM_EVT_RECORD 0).endCond 59 0
    recordFill (eraseAhead (extendStores s) (slotAfter 1024 s (slotAfter 1024 s k)))

/-- R338: a unit of a record has failed twice: the page is worn and the whole record is written again. -/
def recordAgain (s : State) (o : NvmOp) : State :=
  let k := nextSlot s
  let s := s.modNvm fun v => { v with junk := v.junk ++ [k], stage := match v.stage with
    | e :: rest => { e with again := true } :: rest | [] => [] }
  let s := wornSector (takeSeq (s.put F.LDG_STATUS_LAST_SLOT k)) (ledgerSector k)
  syncNvm (setCur s o (some { o with erases := if slotUsed s (nextSlot s) then 1 else 0, units := 8, retry := false }))

/-! ### STORE (R346 to R348) -/

/-- The addresses of a register array. -/
def RegDef.addrs (d : RegDef) : List Nat :=
  (below d.n1).flatMap fun i => (below d.n2).map fun j => d.base + i * d.s1 + j * d.s2

/-- What a `STORE` takes of a register: its value, but the delivery mode in force (R379). -/
def storedWord (s : State) (a : Nat) : Nat :=
  match [0, 1].find? fun k => a == (F.CMD_Pp_CFG_MODE k).addr with
  | some k => (F.CMD_Pp_CFG_MODE k).insert (s.reg a) (s.get (F.CMD_Pp_STATUS_MODE_ACTIVE k))
  | none => s.reg a

/-- R346: the entries a copy takes from the registers. -/
def copyEntries (s : State) (cal : Bool) : List (Word × Word) :=
  let w (v : Nat) : Word := BitVec.ofNat 32 v
  (regDefs.flatMap fun d =>
    let mask := if cal then d.cal else d.cfg
    if mask = 0 then []
    else d.addrs.filterMap fun a => if isWindowAddr a then none else some (w a, w (Nat.land (storedWord s a) mask))) ++
  (windowElems cal).map fun (i, a, e) => (w (2 ^ 31 + i * 2 ^ 16 + a), w (s.reg e))

/-- R346: the copy of a region that a `STORE` writes: 0 A, 1 B; none when neither can be written. -/
def storeTarget (s : State) (cal : Bool) : Option Nat :=
  let i := if cal then 2 else 0
  let a := vget s.nvm.copies i
  let b := vget s.nvm.copies (i + 1)
  let ok := copyGood cal
  if copyDead s i then (if copyDead s (i + 1) then none else some (i + 1))
  else if copyDead s (i + 1) || !ok a then some i
  else if !ok b then some (i + 1)
  else if a.seq ≤ b.seq then some i else some (i + 1)

/-- The sequence of the next copy of a region. -/
def storeSeq (s : State) (cal : Bool) : Nat :=
  let i := if cal then 2 else 0
  let q (c : NvmCopy) : Nat := if copyGood cal c then c.seq else 0
  max (q (vget s.nvm.copies i)) (q (vget s.nvm.copies (i + 1))) + 1

/-- Pages and program units of a copy. -/
def copyPages (c : NvmCopy) : Nat := (16 + 8 * c.entries.length + 511) / 512
def copyUnits (c : NvmCopy) : Nat := (16 + 8 * c.entries.length + 63) / 64

/-- A `STORE` ends (R346): LAST, its event, its reply. -/
def storeEnd (s : State) (last status : Nat) (parts : List (Nat × NvmCopy)) : State :=
  let s := (s.put F.NVM_STORE_BUSY 0).put F.NVM_STORE_LAST last
  let s := if last = 1 then nvmEvent s F.NVM_EVT_STORE_DONE 2 else nvmEvent s F.NVM_EVT_STORE_FAIL 3
  let seq (cal : Bool) : Nat := ((parts.find? fun p => decide (2 ≤ p.1) == cal).map (·.2.seq)).getD 0
  finishC s isStoreCmd status
    (if last = 1 then [BitVec.ofNat 32 (4 * last), BitVec.ofNat 32 (seq false), BitVec.ofNat 32 (seq true)]
     else refusalWords noWord 0)

/-- R346: a `STORE` starts: the snapshot, and the copies it writes. -/
def startStore (s : State) (cfg cal : Bool) : State :=
  let part (c : Bool) : Option (Nat × NvmCopy) :=
    (storeTarget s c).map fun i => (i, ⟨true, storeSeq s c, copyEntries s c⟩)
  let want := (if cfg then [part false] else []) ++ (if cal then [part true] else [])
  let s := s.put F.NVM_STORE_BUSY 1
  if want.any (·.isNone) then storeEnd s 3 stNvmFail []
  else
    let parts := want.filterMap id
    let s := parts.foldl (fun s p => setCopy s p.1 { (vget s.nvm.copies p.1) with valid := false }) s
    addOp s (.store parts) ((parts.map fun p => copyPages p.2).foldl (· + ·) 0) ((parts.map fun p => copyUnits p.2).foldl (· + ·) 0)

/-- A `STORE` has made a copy valid: the conditions of R351 end with it. -/
def copyWritten (s : State) (p : Nat × NvmCopy) : State :=
  let s := setCopy s p.1 p.2
  if p.1 < 2 then ((s.endCond 56 p.1).endCond 57 0) else s.endCond 58 (p.1 - 2)

/-! ### The device log (R320, R345) -/

/-- The kind of an entry, 1 a spare-use map and 2 recovery counters, and its sequence. -/
def logKind (e : List Nat) : Nat := ofBytes (e.take 4)
def logSeq (e : List Nat) : Nat := ofBytes ((e.drop 4).take 4)

/-- R345: the newest entry of a kind found in either log. -/
def newestEntry (v : NvmState) (kind : Nat) : Option (List Nat) :=
  ((vget v.log 0 ++ vget v.log 1).map (·.2)).foldl (fun m e =>
    if logKind e ≠ kind then m
    else match m with
      | some b => if logSeq b ≤ logSeq e then some e else m
      | none => some e) none

/-- The sector of a place of log A or B. -/
def logSector (b : Bool) (pos : Nat) : Nat := ((if b then 304 else 272) + pos / 4) / 8

/-- Where an entry of so many units goes: the write position, or the next page where the page has no room; the pages of a
retired sector are skipped (R343). -/
def logPlace (v : NvmState) (b : Bool) (pos units : Nat) : Nat :=
  let at' := if 4 < pos % 4 + units then (pos / 4 + 1) * 4 % 64 else pos
  if v.retired.contains (logSector b at') then (at' / 32 + 1) * 32 % 64 else at'

/-- An entry is put at the write position of a log. -/
def logPut (v : NvmState) (b : Bool) (e : List Nat) : NvmState :=
  let i := if b then 1 else 0
  let at' := logPlace v b (vget v.logPos i) (e.length / 128)
  if v.retired.contains (logSector b at') then v
  else { v with log := vmod v.log i (· ++ [(at', e)]), logPos := vmod v.logPos i fun _ => (at' + e.length / 128) % 64 }

/-- R345: the two pages after the write position are erased, and what was the newest of its kind there is copied first. -/
def logTidy (v : NvmState) (b : Bool) : NvmState :=
  let i := if b then 1 else 0
  let l := vget v.log i
  let page := vget v.logPos i / 4
  let ahead (pos : Nat) : Bool := let d := (pos / 4 + 16 - page) % 16; d == 1 || d == 2
  let newest (e : Nat × List Nat) : Bool := (l.filter fun x => logKind x.2 == logKind e.2).getLast? == some e
  let keep := l.filter fun e => ahead e.1 && newest e
  keep.foldl (fun v e => logPut v b e.2) { v with log := vmod v.log i (·.filter fun e => !ahead e.1) }

/-- R351: the pages that `logTidy` keeps erased hold no uncorrectable word any longer. -/
def endTidied (s : State) (b : Bool) : State :=
  let i := if b then 1 else 0
  let page := vget s.nvm.logPos i / 4
  s.endConds 62 ([1, 2].map fun d => (if b then 304 else 272) + (page + d) % 16)

/-- R320: the sequence of the map last written, 0 before the first. -/
def mapSeq (s : State) : Nat := match newestEntry s.nvm 1 with | some e => logSeq e | none => 0

/-- R320: the 80 bytes of the spare-use map under a sequence. -/
def spareMapBytes (s : State) (seq : Nat) : List Nat :=
  let slice (n : Nat) : Nat := s.get (F.RAILn_GUARD_STATUS_SLICE n)
  let body := beBytes 4 seq ++ (below 32).map (fun k => slice (2 * k) * 16 + slice (2 * k + 1)) ++
    beBytes 2 ((below 8).foldl (fun a k => a * 4 + s.get (F.SPAREk_STATUS_STATE k)) 0) ++
    beBytes 8 s.spare.wornRails.toNat ++ beBytes 8 s.spare.guardOnly.toNat ++ beBytes 4 (s.reg R.BENCH_MAP) ++
    beBytes 2 s.spare.wornConvs.toNat ++ [s.spare.vrefRole + s.spare.vrefWorn.toNat * 4, s.spare.wornPorts.toNat,
      s.nvm.remaps.length, s.get F.SPR_STATUS_SRAM_USED] ++ List.replicate 12 0
  body ++ beBytes 4 (crc32 body)

/-- R345: the slot of a spare-use map. -/
def mapEntry (s : State) : List Nat := [0, 0, 0, 1] ++ spareMapBytes s (mapSeq s + 1) ++ List.replicate 44 0

/-- R345: the slot of the recovery counters, whose log sequence is one more than the last (DEDUCED, log entry 105). -/
def cntEntry (s : State) : List Nat :=
  let seq := match newestEntry s.nvm 2 with | some e => logSeq e + 1 | none => 1
  let body := [0, 0, 0, 2] ++ beBytes 4 seq ++ (below 96).flatMap fun i => beBytes 2 (s.get (F.FLT_SRCs_STAT_RECOV i))
  body ++ beBytes 4 (crc32 body) ++ List.replicate 52 0

/-- DEVICE_LOG_WRITE, R345: an entry that is due is put together and appended. In HOLDUP and for a DEVICE reset only the
counters are (R320, R481), and before a DEVICE reset only after the records. -/
def deviceLogWrite (s : State) : State :=
  if !s.nvm.ready || (s.rst.phase == .work && !s.nvm.stage.isEmpty) || s.nvm.ops.any (fun o => jobClass o.job == 1) then s
  else if s.spare.mapPend && s.mode != mHoldup && s.rst.phase != .work then
    addOp (s.modSpare fun p => { p with mapPend := false }) (.logMap (mapEntry s)) 0 2
  else if s.nvm.cntPend then
    addOp (s.modNvm fun v => { v with cntPend := false, cntDirty := false }) (.logCnt (cntEntry s)) 0 4
  else s

/-- R345: an entry of the device log has been written; HOLDUP starts no erase (R339). -/
def logDone (s : State) (job : NvmJob) : State :=
  let s := s.modNvm fun v => match job with
    | .logMap e | .logCnt e =>
      let w := { logPut v v.logB e with logB := !v.logB }
      if s.mode = mHoldup then w else logTidy w v.logB
    | _ => v
  let s := if s.mode = mHoldup then s else endTidied s (!s.nvm.logB)
  let s := match job with | .logMap _ => s.evtBit F.TWIN_EVT_MAP_WRITTEN 144 | _ => s
  nvmEvent s F.NVM_EVT_LOG_WRITTEN 4

/-- RECOVERY_COUNTER_WRITE, R269: every 24 h when a counter has changed. -/
def recoveryWrite (s : State) : State := if s.nvm.cntDirty then s.modNvm fun v => { v with cntPend := true } else s

/-! ### Units and erases (R338, R341) -/

/-- R400: A0 of a chunk's reply, the next offset expected. -/
def nextOffset (x : Option (List Nat × Nat × Nat)) : List Word :=
  match x with | some (_, next, _) => [BitVec.ofNat 32 next] | none => []

/-- A job has made its last unit. -/
def jobDone (s : State) (o : NvmOp) : State :=
  let s := setCur s o none
  match o.job with
  | .record => recordDone s
  | .logMap _ | .logCnt _ => syncNvm (logDone s o.job)
  | .store parts => syncNvm (storeEnd (parts.foldl copyWritten s) 1 stOk parts)
  | .image none => syncNvm (finishC s isImageCmd stOk (nextOffset s.nvm.image))
  | .image (some p) => syncNvm (finishC (setCopy s p.1 p.2) isImageCmd stOk (nextOffset s.nvm.image))
  | .patch => syncNvm (finishC s isPatchCmd stOk (nextOffset s.nvm.patchIn))
  | .erase _ => syncNvm s

/-- The copy that an image transfer writes. -/
def imageTarget (s : State) : Nat := match s.nvm.image with | some (_, _, t) => t | none => 0

/-- R343: a page of the sector that a job writes is worn: the job goes on as `o'`, or ends failed when its copy is lost. -/
def jobOnWorn (s : State) (o o' : NvmOp) (sector : Nat) : State :=
  let s := wornSector s sector
  match o.job with
  | .store parts =>
    if parts.any fun p => copyDead s p.1 then syncNvm (storeEnd (setCur s o none) 3 stNvmFail []) else syncNvm (setCur s o (some o'))
  | .image _ =>
    if copyDead s (imageTarget s) then syncNvm (finishC (setCur s o none) isImageCmd stNvmFail (refusalWords noWord 0))
    else syncNvm (setCur s o (some o'))
  | _ => syncNvm (setCur s o (some o'))

/-- R343: the page of a job's program unit is worn. -/
def jobWorn (s : State) (o : NvmOp) : State :=
  let o' := { o with retry := false }
  match o.job with
  | .record => recordAgain s o
  | .logMap _ | .logCnt _ => jobOnWorn s o o' (logSector s.nvm.logB (vget s.nvm.logPos (if s.nvm.logB then 1 else 0)))
  | .store parts => jobOnWorn s o o' (copySector ((parts.head?.map (·.1)).getD 0))
  | .image _ => jobOnWorn s o o' (copySector (imageTarget s))
  | .patch => jobOnWorn s o o' 408
  | .erase _ => syncNvm s

/-- R342: the controller works on the Sounding archive, whose end is a command of its own. -/
def archiving (s : State) : Bool := opCode s == 3

/-- R218, R343: a program unit of the archive fails: at the second failure its sector is worn. -/
def archiveUnitFailed (s : State) : State :=
  let s := s.addSat F.NVM_CNT_PFAIL
  if s.nvm.arcRetry then
    let s := s.modNvm fun v => { v with arcRetry := false }
    match s.marg.arcQueue.head? with
    | some (n, _, _) => syncNvm (wornSector s (trendSector n (vget s.marg.archive n).trend.length))
    | none => s
  else s.modNvm fun v => { v with arcRetry := true }

/-- NVM_PROGRAM_UNIT_DONE, R338: the current job's program unit verifies or fails. -/
def unitDone (s : State) (ok : Bool) : State :=
  if archiving s then (if ok then syncNvm (endUnit (s.modNvm fun v => { v with arcRetry := false })) else archiveUnitFailed s)
  else
  match curOp s with
  | none => s
  | some o =>
    if 0 < o.erases || o.units = 0 then s
    else if ok then
      if o.units = 1 then jobDone s o
      else syncNvm (endUnit (setCur s o (some { o with units := o.units - 1, retry := false })))
    else
      let s := s.addSat F.NVM_CNT_PFAIL
      if o.retry then jobWorn s o else setCur s o (some { o with retry := true })

/-- The page that a job erases: of a copy or a transfer, the first not yet erased. -/
def erasePage (s : State) (o : NvmOp) : Nat :=
  match o.job with
  | .erase k => 320 + k
  | .record => 320 + nextSlot s
  | .store parts =>
    let pages := parts.flatMap fun p => (below (copyPages p.2)).map (copyPage p.1 + ·)
    pages.getD (pages.length - o.erases) 0
  | .image _ => copyPage (imageTarget s) + ((match s.nvm.image with | some (_, n, _) => n | none => 0) + 511) / 512 - o.erases
  | .patch => 3264 + ((match s.nvm.patchIn with | some (_, n, _) => n | none => 0) + 511) / 512 - o.erases
  | .logMap _ | .logCnt _ => 272

/-- NVM_ERASE_DONE, R341, R343: the current job's page erase completes, or fails verify. -/
def eraseDone (s : State) (ok : Bool) : State :=
  match curOp s with
  | none => s
  | some o =>
    if o.erases = 0 || archiving s then s
    else
      let page := erasePage s o
      let s := if 320 ≤ page && decide (page < 1344) then
          s.modNvm fun v => { v with slots := v.slots.filter (·.1 != page - 320), junk := v.junk.filter (· != page - 320) }
        else s
      let s := s.endCond 62 page
      match o.job with
      | .erase _ => syncNvm (if ok then setCur s o none else wornSector (setCur s o none) (page / 8))
      | _ =>
        let o' := { o with erases := o.erases - 1 }
        if ok then syncNvm (setCur s o (some o')) else jobOnWorn s o o' (page / 8)

/-! ### Reads (R332, R337, R344) -/

/-- NVM_UNCORRECTABLE_READ, R344: what lies at the byte address is invalid. -/
def uncorrectable (s : State) (addr : Nat) : State :=
  let page := addr / 512
  let s := (nvmEvent s F.NVM_EVT_UNCORR 7).raise 62 0 0 page page
  let dropLog (i p : Nat) : State := s.modNvm fun v => { v with log := vmod v.log i (·.filter fun e => e.1 / 4 != p) }
  let bad (i : Nat) : State := setCopy s i { (vget s.nvm.copies i) with valid := false }
  if page < 128 then bad 0
  else if page < 256 then bad 1
  else if page < 272 then bad 2
  else if page < 288 then dropLog 0 (page - 272)
  else if page < 304 then bad 3
  else if page < 320 then dropLog 1 (page - 304)
  else if page < 1344 then
    syncNvm (s.modNvm fun v => { v with slots := v.slots.filter (·.1 != page - 320), junk := v.junk.filter (· != page - 320) ++ [page - 320] })
  else if page < 3264 then
    let off := addr - 0x0A8000
    let n := off / 15360
    let r := off % 15360
    s.modMarg fun m => { m with archive := vmod m.archive n fun a =>
      if r < 12288 then { a with trend := (a.trend.zip (below a.trend.length)).map fun x => if x.2 = r / 32 then [] else x.1 }
      else { a with full := (a.full.zip (below a.full.length)).map fun x => if x.2 = (r - 12288) / 288 then [] else x.1 } }
  else if page < 3520 then s.modNvm fun v => { v with patch := [] }
  else s

/-- A word of a Ledger slot; none where the slot holds no record. -/
def ledgerWord (s : State) (slot i : Nat) : Option Nat :=
  match s.nvm.slots.find? (·.1 == slot) with
  | some (_, w) => some (w.getD i 0).toNat
  | none => none

/-- LDG_RD_DATA_READ, R354. What an empty slot reads as is not stated. -/
def ledgerDataRead (s : State) : State × Nat :=
  let i := s.get F.LDG_RD_IDX_WORD
  match ledgerWord s (s.get F.LDG_RD_IDX_SLOT) i with
  | some v => (s.put F.LDG_RD_IDX_WORD (i + 1), v)
  | none => (s.put F.LDG_RD_IDX_WORD (i + 1)).unstated 32

/-- LDG_SEC_WRITE, R354. -/
def secWrite (s : State) (v : Nat) : State :=
  ((s.setReg R.LDG_SEC v).setReg R.LDG_USEC 0).modNvm fun n => { n with secTicks := 0, secSet := true }

/-- R354: a TCLK edge counts for the seconds. -/
def tickSeconds (s : State) : State :=
  let t := s.nvm.secTicks + 1
  if t = 10240000 then
    ((s.setReg R.LDG_SEC ((s.reg R.LDG_SEC + 1) % 2 ^ 32)).setReg R.LDG_USEC 0).modNvm fun n => { n with secTicks := 0 }
  else (s.modNvm fun n => { n with secTicks := t }).setReg R.LDG_USEC (t * 25 / 256)

/-! ### HOLDUP (R339) -/

/-- HOLDUP entry: what is abandoned, and the hold-up record when none is in progress or staged. -/
def nvmHoldup (s : State) : State :=
  let storing := s.nvm.ops.any fun o => match o.job with | .store _ => true | _ => false
  let imaging := s.nvm.ops.any fun o => match o.job with | .image _ => true | _ => false
  let patching := s.nvm.ops.any fun o => match o.job with | .patch => true | _ => false
  let cut := s.nvm.ops.filterMap fun o => match o.job with | .erase k => some k | _ => none
  let s := s.modNvm fun v =>
    { v with ops := v.ops.filter fun o => decide (jobClass o.job < 2)
             slots := v.slots.filter fun x => !cut.contains x.1, junk := v.junk ++ cut.filter fun k => !v.junk.contains k
             cntPend := true, image := none, patchIn := none }
  let s := if storing then storeEnd s 2 stAbandoned [] else s
  let s := if imaging then finishC s isImageCmd stAbandoned (refusalWords noWord 0) else s
  let s := if patching then finishC s isPatchCmd stAbandoned (refusalWords noWord 0) else s
  let s := archiveCut s
  let s := if s.nvm.stage.isEmpty && s.folio.copies.isEmpty && !bitOf s.folio.trig 6 then folioTrigger s 7 else s
  syncNvm s

/-- R447: the NVM work of HOLDUP is complete. -/
def nvmHoldupDone (s : State) : Bool :=
  s.nvm.stage.isEmpty && s.folio.copies.isEmpty && s.folio.trig == 0 && s.nvm.ops.isEmpty && !s.nvm.cntPend

/-- R337: on leaving HOLDUP, and at the configuration load, any of the next two slots not erased is erased. -/
def eraseNextTwo (s : State) : State :=
  let a := nextSlot s
  eraseAhead (eraseAhead s a) (slotAfter 1024 s a)

/-- R335: the configuration load makes the NVM ready; staged records are written. -/
def nvmReady (s : State) : State := recordFill (eraseNextTwo (s.modNvm fun v => { v with ready := true }))

end Sys2Proof.Machine
end

