-- ==== Sys2Proof/Machine/Faults.lean ====
section
/-! DEFINITION. The fault collector: messages, states, episodes, the reaction queue, shadows, clears and injection
(spec/11_fault_collection.md R262 to R284). Dispatch of a reaction's action is in `Twin`. -/

namespace Sys2Proof.Machine

/-! ### What the collector shows (R267, R272, R273) -/

def fltState (s : State) (i : Nat) : Nat := s.get (F.FLT_SRCs_STAT_STATE i)
def fltClass (s : State) (i : Nat) : Nat := s.get (F.FLT_SRCs_STAT_CLASS i)
def sources : List Nat := below 96

/-- R268: a source is uncleared in a class. -/
def uncleared (s : State) (cls : Nat) : Bool := sources.any fun i => fltState s i != 0 && fltClass s i == cls

/-- R273: the device is in fault. -/
def inFault (s : State) : Bool := uncleared s 1 || uncleared s 2

/-- FLT_STATUS and FATAL_BLOCK follow the collector; an episode ends when the device leaves fault. -/
def syncFaults (s : State) : State :=
  let mask := s.get F.FLT_FATAL_CFG_FN_MASK
  let fatal := uncleared s 2
  let s := s.putB F.FLT_STATUS_FAULT_N ((bitOf mask 0 && uncleared s 0) || (bitOf mask 1 && uncleared s 1) || (bitOf mask 2 && fatal))
  let anyFatal := sources.any fun i => fltState s i == 3
  let s := (s.putB F.FLT_STATUS_ANY_FATAL anyFatal).putB F.SEQ_STATUS_FATAL_BLOCK anyFatal
  let s := if s.flt.episode && !inFault s then (s.modFlt fun f => { f with episode := false }).event 7 else s
  let s := s.putB F.FLT_STATUS_IN_FAULT s.flt.episode
  let q := s.flt.queue
  let s := s.put F.FLT_STATUS_QLEVEL q.length
  let s := s.put F.FLT_QSTAT_HIGH (max (s.get F.FLT_QSTAT_HIGH) q.length)
  let busy := (s.flt.ahead ++ q).find? fun r => r.stage != 0
  (s.putB F.FLT_STATUS_DISPATCH busy.isSome).put F.FLT_STATUS_DSRC ((busy.map fun r => r.msg.source).getD 0)

/-! ### Reactions (R274 to R278) -/

/-- R274: the action of a Corrected or Contained message. -/
def actionOf (s : State) (m : FaultMsg) : FltAction :=
  let n := m.detail % 64
  if (m.source == 0 || m.source == 2 || m.source == 3) && enLatch s n then .rail n
  else if m.source == 29 then
    let k := m.detail % 128
    let r := s.get (F.PMPk_CFG_RAIL k)
    if s.flag (F.PMPk_CFG_LINK k) && enLatch s r then .rail r else .none
  else
    match s.get (F.FLT_SRCs_CFG_ACT m.source) with
    | 1 => .rail n | 2 => .shutQuire n | 3 => .shutAll | 4 => .hallmark | 5 => .warden n false
    | 6 => .bench (m.detail / 16 % 16 % 8) | _ => .none

/-- R274: the fused action of a Fatal message. -/
def fatalAction (s : State) (m : FaultMsg) : FltAction :=
  match s.get F.FLT_FATAL_CFG_FATAL_ACT with | 0 => .none | 2 => .warden (m.detail % 64) true | _ => .hallmark

/-- R276: a place in the queue: behind every reaction of the same or a higher class. -/
def insertReaction (r : Reaction) : List Reaction → List Reaction
  | [] => [r]
  | x :: rest => if x.msg.cls < r.msg.cls then r :: x :: rest else x :: insertReaction r rest

/-- R277: a queued reaction, not yet at D1, into which the message merges. -/
def mergesInto (m : FaultMsg) (r : Reaction) : Bool :=
  r.stage == 0 && r.msg.source == m.source && r.msg.kind == m.kind && r.msg.detail == m.detail && r.msg.cls == m.cls

/-- Merges a message into the last entry that satisfies `p`: a real message makes it real. -/
def mergeLast (p : Reaction → Bool) (m : FaultMsg) (l : List Reaction) : List Reaction :=
  let real (r : Reaction) : Reaction := { r with msg := { r.msg with inj := r.msg.inj && m.inj } }
  match l.reverse.findIdx? p with
  | some i => (l.reverse.modify i real).reverse
  | none => l

/-- R278: the queue is full: a reaction is dropped, or merged when all are Fatal; the overrun fault. -/
def queueOverrun (s : State) (r : Reaction) : State :=
  let all := insertReaction r s.flt.queue
  if s.flt.queue.all (fun x => x.msg.cls == 2) && r.msg.cls == 2 then
    let s := s.modFlt fun f => { f with queue := mergeLast (fun x => x.stage == 0) r.msg f.queue }
    (s.addSat F.FLT_QSTAT_MERGED).raiseMomentary 39 0 2 r.msg.source
  else
    let dropped := (all.getLast?.map fun x => x.msg.source).getD r.msg.source
    let s := s.modFlt fun f => { f with queue := all.take 16 }
    (s.addSat F.FLT_QSTAT_DROPPED).raiseMomentary 39 0 2 dropped

/-- R277, R278: a reaction enters the queue. -/
def queueReaction (s : State) (r : Reaction) : State :=
  if r.msg.source == 39 && r.msg.cls == 2 then s.modFlt fun f => { f with ahead := f.ahead ++ [r] }
  else if s.flt.queue.any (mergesInto r.msg) then
    (s.modFlt fun f => { f with queue := mergeLast (mergesInto r.msg) r.msg f.queue }).addSat F.FLT_QSTAT_MERGED
  else if s.flt.queue.length < 16 then s.modFlt fun f => { f with queue := insertReaction r f.queue }
  else queueOverrun s r

/-- R274: the reaction a message makes. -/
def makeReaction (s : State) (m : FaultMsg) (action : FltAction) : State :=
  if m.cls == 3 then s
  else if m.cls == 2 then queueReaction s ⟨m, action, 0⟩
  else if action != .none || s.flag (F.FLT_SRCs_CFG_FOLIO m.source) || s.flag (F.FLT_SRCs_CFG_SHADOW_EN m.source) then
    queueReaction s ⟨m, action, 0⟩
  else s

/-! ### Messages (R263, R267, R268, R273, R279, R280) -/

/-- R279: list `l` names a source. -/
def listNames (s : State) (l src : Nat) : Bool :=
  bitOf (s.reg (match src / 32 with | 0 => R.FLT_SHl_MASK0 l | 1 => R.FLT_SHl_MASK1 l | _ => R.FLT_SHl_MASK2 l)) (src % 32)

/-- R280: an open list names the source. -/
def shadowed (s : State) (src : Nat) : Bool :=
  (below 8).any fun l => bitOf (s.get F.FLT_STATUS_SH_OPEN) l && listNames s l src

def stickyField (src : Nat) : Field :=
  ⟨match src / 32 with | 0 => R.FLT_STICKY0 | 1 => R.FLT_STICKY1 | _ => R.FLT_STICKY2, src % 32, 1⟩

/-- R267: the state of a source takes a message. -/
def stateMessage (s : State) (m : FaultMsg) : State :=
  let i := m.source
  let cls := if m.cls == 3 then 0 else m.cls
  let s := if fltState s i = 0 && m.inj then s.modFlt fun f => { f with openInj := i :: f.openInj.filter (· != i) }
    else if fltState s i = 0 then s.modFlt fun f => { f with openInj := f.openInj.filter (· != i) } else s
  let s := s.put (F.FLT_SRCs_STAT_CLASS i) (if fltState s i = 0 then cls else max cls (fltClass s i))
  if cls = 2 || fltState s i = 3 then s.put (F.FLT_SRCs_STAT_STATE i) 3
  else s.put (F.FLT_SRCs_STAT_STATE i) (if s.condLevel i then 1 else 2)

/-- The collector takes a message: sticky bit, counter, event, state, episode, reaction. -/
def takeMessage (s : State) (m : FaultMsg) (action : FltAction) : State :=
  let m := if m.cls < 2 && shadowed s m.source then { m with cls := 3 } else m
  let s := s.put (stickyField m.source) 1
  let s := s.addSat ⟨R.FLT_CNT_x (2 * m.cls + (if m.inj then 1 else 0)), 0, 32⟩
  let s := stateMessage (s.event m.cls) m
  let s := if (m.cls == 1 || m.cls == 2) && !s.flt.episode then
      folioEpisode ((s.modFlt fun f => { f with episode := true }).event 6) m
    else s
  syncFaults (makeReaction s m action)

/-- R265, R266: the highest class a source can raise. -/
def highestClass (s : State) (src : Nat) : Nat :=
  if [8, 39, 64].contains src then 2
  else if src == 0 && (rails64 (s.reg R.HM_FATAL_OV_LO) (s.reg R.HM_FATAL_OV_HI)) != 0 then 2
  else if src == 2 && (rails64 (s.reg R.HM_FATAL_UV_LO) (s.reg R.HM_FATAL_UV_HI)) != 0 then 2
  else if src == 3 && (rails64 (s.reg R.HM_FATAL_PG_LO) (s.reg R.HM_FATAL_PG_HI)) != 0 then 2
  else if [0, 1, 2, 3, 4, 5, 14, 18, 19, 20, 22, 24, 26, 29, 30, 31, 33, 34, 35, 36, 37, 40, 48, 50, 51, 52, 54, 57, 61,
      65, 68, 75, 80, 82, 84, 85, 86, 87].contains src then 1
  else 0

/-- The action of a message by its class. -/
def messageAction (s : State) (m : FaultMsg) : FltAction := if m.cls == 2 then fatalAction s m else actionOf s m

/-- R263: a message that fails its parity check. -/
def corruptMessage (s : State) (m : FaultMsg) : State :=
  let s := s.raiseMomentary 40 0 1 m.source
  let m := { m with kind := 0x1E, detail := 0, cls := highestClass s m.source }
  let act := match messageAction s m with
    | .rail _ | .shutQuire _ => .shutAll
    | a => a
  takeMessage s m (if m.cls < 2 && (m.source == 0 || m.source == 2 || m.source == 3 || m.source == 29) then .shutAll else act)

/-- FAULT_MESSAGE, R267: the collector takes the oldest message; `corrupt`: it arrives with a parity error. -/
def faultMessage (s : State) (corrupt : Bool) : State :=
  match s.flt.msgs with
  | [] => s
  | m :: rest =>
    let s := s.modFlt fun f => { f with msgs := rest }
    if corrupt then corruptMessage s m else takeMessage s m (messageAction s m)

/-! ### Conditions, quiet periods, escalation, shadows (R267, R269, R270, R279) -/

/-- COND_CHANGE, R267: the condition level of a source. -/
def condChange (s : State) (src : Nat) : State :=
  let up := s.condLevel src
  let st := fltState s src
  let s := if up && st = 2 then s.put (F.FLT_SRCs_STAT_STATE src) 1
    else if !up && st = 1 && fltClass s src < 2 then s.put (F.FLT_SRCs_STAT_STATE src) 2
    else s
  syncFaults s

/-- R270: an expiry beyond the limit. -/
def escalate (s : State) (src : Nat) : State :=
  let m : FaultMsg := ⟨src, 0x1F, 2, s.get (F.FLT_SRCs_STAT_WCNT src), s.flt.openInj.contains src⟩
  (takeMessage s m (fatalAction s m)).event 5

/-- QUIET_EXPIRY, R269, R270. CLASS keeps its value until the state next leaves CLEAR (R268; DEDUCED, log entry 67). -/
def quietExpiry (s : State) (src : Nat) : State :=
  if fltState s src ≠ 2 then s
  else
    let s := s.addSat (F.FLT_SRCs_STAT_WCNT src)
    let limit := s.get (F.FLT_SRCs_CFG_ESC_LIMIT src)
    if limit ≠ 0 ∧ limit < s.get (F.FLT_SRCs_STAT_WCNT src) then escalate s src
    else
      let s := s.put (F.FLT_SRCs_STAT_STATE src) 0
      let s := ((s.addSat (F.FLT_SRCs_STAT_RECOV src)).modNvm fun v => { v with cntDirty := true }).event 4
      syncFaults s

/-- ESCALATION_WINDOW_END, R270. -/
def escWindowEnd (s : State) (src : Nat) : State := s.put (F.FLT_SRCs_STAT_WCNT src) 0

/-- SHADOW_EXPIRY, R279. -/
def shadowExpiry (s : State) (l : Nat) : State := s.put ⟨R.FLT_STATUS, l, 1⟩ 0

/-! ### Host clears and injection (R271, R281) -/

/-- The state of one source is cleared, its class with it; a condition that stands is raised again. -/
def clearSource (s : State) (src : Nat) : State :=
  let s := (s.put (F.FLT_SRCs_STAT_STATE src) 0).put (F.FLT_SRCs_STAT_CLASS src) 0
  match s.flt.conds.find? fun c => c.msg.source == src with
  | some c => s.send c.msg
  | none => s

/-- FLT_CLEAR_WRITE, R271: a host clear, laid out as `FLT_CLEAR`. -/
def hostClear (s : State) (v : Nat) : State :=
  let named := if bitOf v 31 then sources else sources.filter (· == v % 128)
  let s := if bitOf v 7 then s.forEach named clearSource else s
  let s := if bitOf v 8 then s.forEach named fun s i => s.put (stickyField i) 0 else s
  let s := if bitOf v 9 then s.forEach (below 8) fun s x => s.setReg (R.FLT_CNT_x x) 0 else s
  let s := if bitOf v 10 then
      (s.forEach named fun s i => (s.put (F.FLT_SRCs_STAT_RECOV i) 0).put (F.FLT_SRCs_STAT_WCNT i) 0).modNvm
        fun n => { n with cntDirty := true }
    else s
  syncFaults (s.event 8)

/-- R469: factory test mode. -/
def factoryTest (s : State) : Bool := s.flag F.SEC_STATE_FACTORY

/-- FLT_INJ_GO, R281: a write of `FLT_INJ`. -/
def injectWrite (s : State) (v : Nat) : State :=
  let src := F.FLT_INJ_SRC.extract v
  if factoryTest s && F.FLT_INJ_GO.extract v == 1 && decide (src < 96) then
    let cls := F.FLT_INJ_CLASS.extract v
    s.send ⟨src, F.FLT_INJ_KIND.extract v, if cls = 3 then 0 else cls, F.FLT_INJ_DETAIL.extract v, true⟩
  else s

/-! ### The event controller's outputs (R286) -/

/-- Group `g` has an enabled status bit routed as register `route` says. -/
def evtPend (s : State) (route : Nat → Nat) (g : Nat) : Bool :=
  Nat.land (Nat.land (s.reg (R.EVT_Gg_STATUS g)) (s.reg (R.EVT_Gg_EN g))) (s.reg (route g)) != 0

/-- `EVT_SUMMARY`; `hostSignal` is what the host port adds to HOST_IRQ_N. -/
def evtSummary (s : State) (hostSignal : Bool) : Nat :=
  let bits (route : Nat → Nat) : Nat := (below 8).foldl (fun m g => if evtPend s route g then m + 2 ^ g else m) 0
  let irq := bits R.EVT_Gg_ROUTE_IRQ
  let host := bits R.EVT_Gg_ROUTE_HOST
  (if host ≠ 0 || hostSignal then 2 ^ 25 else 0) + (if irq ≠ 0 then 2 ^ 24 else 0) + bits R.EVT_Gg_ROUTE_RING * 2 ^ 16 +
    host * 2 ^ 8 + irq

end Sys2Proof.Machine
end

