-- ==== Sys2Proof/Machine/Ring.lean ====
section
/-! DEFINITION. The Hexip ring of one node (spec/16_hexip_ring.md): ports, cells, discovery, marks, admission, the
master's barriers and ring-wide Folios. Side 0 is EAST, side 1 WEST; port 2 is SPARE. -/

namespace Sys2Proof.Machine

def State.modRing (s : State) (f : RingState → RingState) : State := { s with ring := f s.ring }
def rside (s : State) (i : Nat) : RingSide := vget s.ring.side i
def State.modSide (s : State) (i : Nat) (f : RingSide → RingSide) : State :=
  s.modRing fun r => { r with side := vmod r.side i f }

/-- RING_EVT bit b is EV224 + b (R442). -/
def ringEvt (s : State) (f : Field) (bit : Nat) : State := s.evtBit f (224 + bit)

def portNum : RingPort → Nat
  | .east => 0
  | .west => 1
  | .spare => 2

/-! ### Ports and sides (R408 to R410, R434 to R437) -/

/-- RING_STATUS.S_STATE: 0 idle, 1 serving EAST, 2 serving WEST, 3 worn. -/
def spareState (s : State) : Nat := s.get F.RING_STATUS_S_STATE

/-- The port that serves a side. -/
def portOfSide (s : State) (i : Nat) : Nat := if spareState s = i + 1 then 2 else i

/-- The side a port serves. -/
def sideOfPort (s : State) (p : Nat) : Option Nat :=
  if p = 2 then (match spareState s with | 1 => some 0 | 2 => some 1 | _ => none)
  else if spareState s = p + 1 then none else some p

def upField (p : Nat) : Field := match p with | 0 => F.RING_STATUS_E_UP | 1 => F.RING_STATUS_W_UP | _ => F.RING_STATUS_S_UP
def wrapField (i : Nat) : Field := if i = 0 then F.RING_STATUS_WRAP_E else F.RING_STATUS_WRAP_W
def sideUp (s : State) (i : Nat) : Bool := s.flag (upField (portOfSide s i))
def wrapped (s : State) (i : Nat) : Bool := s.flag (wrapField i)

/-- The port faces down: worn. -/
def portWorn (s : State) (p : Nat) : Bool :=
  match p with
  | 0 => s.flag F.RING_STATUS_E_WORN
  | 1 => s.flag F.RING_STATUS_W_WORN
  | _ => spareState s == 3

/-- R419: the side of HOME. -/
def homeSide (s : State) : Nat := if s.flag F.RING_STATUS_HOME then 0 else 1

/-- R437: in HOLDUP one side lives: HOME if it is up, else the other. -/
def liveSide (s : State) : Nat := if sideUp s (homeSide s) then homeSide s else 1 - homeSide s

/-- R409, R436, R437: the TXDIS outputs follow. -/
def syncTxdis (s : State) : State :=
  let dark (p : Nat) : Bool :=
    !s.flag F.CLK_STATUS_SERDES_LOCK ||
      (match sideOfPort s p with
       | none => true
       | some i => s.flag F.RING_STATUS_HU_SINGLE && i != liveSide s)
  s.modRing fun r => { r with txdis := BitVec.ofNat 3 ((below 3).foldl (fun m p => if dark p then m + 2 ^ p else m) 0) }

/-- A side can send. -/
def txReady (s : State) (i : Nat) : Bool := sideUp s i && s.flag F.CLK_STATUS_SERDES_LOCK

/-- R434: the side that an item for side `i` leaves by; none when it can leave by neither. -/
def outSide (s : State) (i : Nat) : Option Nat :=
  let j := if wrapped s i then 1 - i else i
  if txReady s j && !wrapped s j then some j else none

/-- The place of an item in the node's own queue. R412: an ordered set goes into the next gap, /M/ before /P/ before /Q/; R413,
R414: a cell follows by its class, and the classes 6 and 7 act as 5. -/
def itemClass : RingItem → Nat
  | .mark .. => 0
  | .echoRep .. => 1
  | .echoReq _ => 2
  | .cell c _ => 3 + min 5 c.cls.toNat

/-- R412, R414, R428: an item takes its place in the queue. -/
def insertItem (x : RingItem) : List RingItem → List RingItem
  | [] => [x]
  | y :: rest => if itemClass x < itemClass y then x :: y :: rest else y :: insertItem x rest

/-- An item of the node's own joins the queue of a side. -/
def sendOwn (s : State) (i : Nat) (x : RingItem) : State :=
  match outSide s i with
  | some j => s.modSide j fun r => { r with tx := insertItem x r.tx }
  | none => s

/-- R411: an echo set is link-local: it leaves by the port of its side, which no wrap turns. R437: a dark port sends nothing. -/
def sendLink (s : State) (i : Nat) (x : RingItem) : State :=
  if txReady s i && !(s.flag F.RING_STATUS_HU_SINGLE && i != liveSide s) then
    s.modSide i fun r => { r with tx := insertItem x r.tx }
  else s

/-- R415: an item is forwarded, cut-through, on a side. R437: in HOLDUP the wrap on the live port turns it back, and nothing
else is forwarded. -/
def forwardOn (s : State) (i : Nat) (x : RingItem) : State :=
  match outSide s i with
  | some j => s.modSide j fun r => { r with line := some x }
  | none => s

/-- The transmitter of a side puts the item at the head of its queue on the line. -/
def ringDrain (s : State) (i : Nat) : State :=
  match (rside s i).tx, txReady s i with
  | x :: rest, true => s.modSide i fun r => { r with tx := rest, line := some x }
  | _, _ => s

/-! ### Cells (R413 to R416, R427) -/

def ringAddr (s : State) : Nat := s.get F.RING_STATUS_ADDR
def isMaster (s : State) : Bool := s.flag F.RING_STATUS_MASTER

/-- R419, R478: the node may send cells of its own. -/
def mayOriginate (s : State) : Bool := ringAddr s != 0xFFFF && s.rst.phase == .up

def toBytes (l : List Nat) : List Byte := l.map (BitVec.ofNat 8)
def natBytes (l : List Byte) : List Nat := l.map (·.toNat)

/-- A payload's 56 bytes; unnamed ones are 0. -/
def payload (l : List Nat) : List Byte := toBytes ((l ++ List.replicate 56 0).take 56)

/-- A number within a payload: `n` bytes from byte `i`. -/
def payNat (c : RingCell) (i n : Nat) : Nat := ofBytes (natBytes ((c.payload.drop i).take n))

/-- A stamp in a payload. -/
def payStamp (c : RingCell) (i : Nat) : Stamp := BitVec.ofNat 48 (payNat c i 6)
def stampBytes (t : Stamp) : List Nat := beBytes 6 t.toNat

/-- Bytes 2 to 65 of a cell, R413, most significant byte first (R7). -/
def cellBody (c : RingCell) : List Nat :=
  beBytes 2 c.dest.toNat ++ beBytes 2 c.src.toNat ++ [c.kind.toNat * 16 + (if c.m then 8 else 0) + c.cls.toNat, c.hop.toNat] ++
    beBytes 2 c.seq.toNat ++ natBytes c.payload

/-- A code group of the line: control (K) or data (D), and its octet. -/
def kCode (n : Nat) : Bool × Nat := (true, n)
def dCode (n : Nat) : Bool × Nat := (false, n)

/-- R411, R413: the code groups of an item, in the octets of IEEE 802.3 Clause 36: K28.1 is 0x3C, K28.2 0x5C, K28.6 0xDC,
K27.7 0xFB, K29.7 0xFD, K23.7 0xF7, K30.7 0xFE, and D21.5 0xB5 (PRESUMED, log entry 106). -/
def itemGroups : RingItem → List (Bool × Nat)
  | .cell c good =>
    let body := cellBody c
    [kCode 0xFB, dCode 0xB5] ++ (body ++ beBytes 4 (crc32 body)).map dCode ++ [kCode 0xFD, kCode (if good then 0xF7 else 0xFE)]
  | .mark index elapsed => kCode 0x3C :: (beBytes 1 index ++ beBytes 4 elapsed).map dCode
  | .echoReq token => kCode 0x5C :: (beBytes 3 token).map dCode
  | .echoRep token turn => kCode 0xDC :: (beBytes 1 token ++ beBytes 4 turn).map dCode

/-- The code groups that TX of a side carried last; /I/ sets, K28.5 D16.2, fill the rest of the line (R411, R412). -/
def lineGroups (s : State) (i : Nat) : List (Bool × Nat) :=
  match (rside s i).line with
  | some x => itemGroups x
  | none => [kCode 0xBC, dCode 0x50]

/-- A cell of the node's own, with the next sequence. -/
def newCell (s : State) (dest kind cls : Nat) (bytes : List Nat) : State × RingCell :=
  (s.modRing (fun r => { r with seq := (r.seq + 1) % 65536 }),
   ⟨BitVec.ofNat 16 dest, BitVec.ofNat 16 (ringAddr s), BitVec.ofNat 4 kind, false, BitVec.ofNat 3 cls, 0,
    BitVec.ofNat 16 s.ring.seq, payload bytes⟩)

/-- R427: the side with fewer hops to a destination: EAST when d ≤ N + 1 - d. -/
def pathTo (s : State) (dest : Nat) : Nat :=
  if dest = 0 && ringAddr s != 0 then homeSide s
  else
    let m := s.ring.nodes + 1
    let d := (dest + m - ringAddr s % m) % m
    if d ≤ m - d then 0 else 1

/-- A cell is originated to one destination. -/
def originate (s : State) (dest kind cls : Nat) (bytes : List Nat) : State :=
  if mayOriginate s then
    let (s, c) := newCell s dest kind cls bytes
    sendOwn s (pathTo s dest) (.cell c true)
  else s

/-- Cells to the master can leave: by HOME, or turned at a wrap. -/
def canSend (s : State) : Bool := (outSide s (pathTo s 0)).isSome

/-- R416: a cell is originated on both paths with one sequence number. -/
def originateBoth (s : State) (dest kind cls : Nat) (bytes : List Nat) : State :=
  if mayOriginate s then
    let (s, c) := newCell s dest kind cls bytes
    sendOwn (sendOwn s 0 (.cell c true)) 1 (.cell c true)
  else s

/-- R441: a cell or mark of the master has arrived. -/
def masterSeen (s : State) : State :=
  if isMaster s then s
  else
    let s := if s.flag F.RING_STATUS_MASTER_SEEN then s else ringEvt (s.put F.RING_STATUS_MASTER_SEEN 1) F.RING_EVT_MASTER_BACK 12
    s.endCond 84 0

/-- The cell as this node forwards it. -/
def forwarded (s : State) (c : RingCell) : RingCell :=
  { c with hop := BitVec.ofNat 8 (min 255 (c.hop.toNat + 1)), m := c.m || isMaster s }

/-- R415, R416: a good cell of type `kind` has arrived at a port. The state after forwarding or stripping it, and whether
this node takes it. -/
def receiveCell (s : State) (p : RingPort) (c : RingCell) (kind : Nat) : State × Bool :=
  match sideOfPort s (portNum p) with
  | none => (s, false)
  | some i =>
    if !sideUp s i || wrapped s i then (s, false)
    else
      let c := { c with kind := BitVec.ofNat 4 kind }
      let own := c.src.toNat == ringAddr s && ringAddr s != 0xFFFF
      let bcast := c.dest.toNat == 0xFFFF
      let s := if c.src.toNat == 0 then masterSeen s else s
      if own || (isMaster s && c.m && c.dest.toNat != ringAddr s) then (s, false)
      else if !bcast && c.dest.toNat != ringAddr s then (forwardOn s (1 - i) (.cell (forwarded s c) true), false)
      else
        let s := if bcast then forwardOn s (1 - i) (.cell (forwarded s c) true) else s
        let key := (c.src.toNat, c.seq.toNat)
        if bcast || kind == 8 || kind == 0xB then
          if s.ring.taken.contains key then (s, false)
          else (s.modRing fun r => { r with taken := (key :: r.taken).take 16 }, true)
        else (s, true)

/-! ### Line errors (R410, R416, source 83) -/

def errCrc (p : Nat) : Field := match p with | 0 => F.RING_ERR_E_CRC | 1 => F.RING_ERR_W_CRC | _ => F.RING_ERR_S_CRC

/-! ### Ring-wide Folios on the master: distribution (R432) -/

def folioCell (s : State) : State :=
  originateBoth s 0xFFFF 9 0 (beBytes 2 (s.get F.RING_RF_STATUS_ID) ++ stampBytes s.ring.rfTarget)

/-- R432: FOLIO is broadcast again on each wrap and on each port coming up, before the target. -/
def folioAgain (s : State) : State :=
  if isMaster s && s.flag F.RING_RF_STATUS_ACTIVE then folioCell s else s

/-! ### Discovery (R418, R439) -/

def rttMaxPs (s : State) : Nat := min 4000 (max 1 (s.get F.RING_MCFG_RTT_MAX)) * 1000000

/-- Discovery ends: DISC_DONE, and the command's reply. -/
def endDiscovery (s : State) (status : Nat) (results : List Word) : State :=
  if s.ring.disc.isSome then
    let s := (s.modRing fun r => { r with disc := none }).put F.RING_MSTATUS_DISC_BUSY 0
    finishC (ringEvt s F.RING_EVT_DISC_DONE 13) (fun c => c.opcode == 0x0501) status results
  else s

def abortDiscovery (s : State) (reason : Nat) : State := endDiscovery s stAborted (refusalWords noWord reason)

/-- R418 step 1. R439: on a wrapped ring discovery is refused with reason 1. -/
def startDiscovery (s : State) : State :=
  let s := (s.modRing fun r => { r with disc := some (0, 0) }).put F.RING_MSTATUS_DISC_BUSY 1
  if wrapped s 0 || wrapped s 1 || s.flag F.RING_MSTATUS_WRAPPED then abortDiscovery s 1
  else
    let (s, c) := newCell s 0xFFFF 1 1 ([0, 0] ++ beBytes 2 1 ++ beBytes 4 (s.get F.RING_MID_ID))
    sendOwn s 0 (.cell c true)

/-! ### Admission (R429) -/

def period (v : Nat) : Nat := max 1 v

/-- Cells per second of the node's heartbeat part: its own heartbeats, and a Warden's acknowledgements. -/
def hbCells (s : State) : State × Nat :=
  let side := s.get F.TWIN_CFG_SIDE
  let (s, a) := if side == 1 || side == 2 then s.approx 1000 (period (s.get F.TWIN_CFG_HB_PER)) else (s, 0)
  let pairs := ((below 8).filter fun k => s.flag (F.WDN_PAIRk_CFG_VALID k)).length
  let (s, b) :=
    if s.flag F.WDN_CFG_EN then s.approx (2000 * pairs) (period (s.get F.WDN_CFG_HB_PER)) else (s, 0)
  (s, (a + b).toNat)

/-- R426: the publication period, in ms. -/
def pubPeriod (s : State) : Nat := min 1000 (period (s.get F.RING_PUB_CFG_PER))

def pubCells (s : State) : State × Nat :=
  if s.flag F.RING_PUB_CFG_EN then
    let (s, a) := s.approx 1000 (pubPeriod s)
    (s, a.toNat)
  else (s, 0)

def budgetLimit : Nat := 2457600

/-- The direction in which a node's traffic leaves, 0 eastbound: HOME of R419. -/
def homeOf (n k : Nat) : Nat := if k ≤ n + 1 - k then 1 else 0

def addTo (i v : Nat) (b : Nat × Nat) : Nat × Nat := if i = 0 then (b.1 + v, b.2) else (b.1, b.2 + v)
def budgetOf (i : Nat) (b : Nat × Nat) : Nat := if i = 0 then b.1 else b.2

/-- The heartbeat parts are admitted, in address order. -/
def admitHb (n : Nat) : List RingReq → Nat × Nat → List RingReq × (Nat × Nat)
  | [], b => ([], b)
  | r :: rest, b =>
    let i := homeOf n r.addr
    let ok := decide (budgetOf i b + r.hb ≤ budgetLimit)
    let (l, b) := admitHb n rest (if ok then addTo i r.hb b else b)
    ({ r with hbOk := ok } :: l, b)

/-- Then the publication parts. -/
def admitPub (n : Nat) : List RingReq → Nat × Nat → List RingReq × (Nat × Nat)
  | [], b => ([], b)
  | r :: rest, b =>
    let i := homeOf n r.addr
    let ok := decide (budgetOf i b + r.pub ≤ budgetLimit)
    let (l, b) := admitPub n rest (if ok then addTo i r.pub b else b)
    ({ r with pubOk := ok } :: l, b)

def insertReq (x : RingReq) : List RingReq → List RingReq
  | [] => [x]
  | y :: rest => if x.addr < y.addr then x :: y :: rest else if x.addr = y.addr then x :: rest else y :: insertReq x rest

def granted (r : RingReq) : Nat := (if r.hbOk then r.hb else 0) + (if r.pubOk then r.pub else 0)

/-- A part's fault (source 87) follows its refusal. -/
def refusedPart (s : State) (kind : Nat) (refused : Bool) : State :=
  if refused then s.raiseOnce 87 kind 1 kind 0 else s.endCond 87 kind

/-- A grant reaches the node. -/
def takeGrant (s : State) (hbOk pubOk : Bool) (cells : Nat) : State :=
  let (s, hb) := hbCells s
  let (s, pub) := pubCells s
  let hbRef := !hbOk && hb != 0
  let pubRef := !pubOk && pub != 0
  let s := (s.putB F.RING_GRANT_HB_OK hbOk).putB F.RING_GRANT_PUB_OK pubOk
  let s := (s.putB F.RING_GRANT_HB_REF hbRef).putB F.RING_GRANT_PUB_REF pubRef
  let s := s.put F.RING_GRANT_CELLS cells
  refusedPart (refusedPart (ringEvt s F.RING_EVT_GRANT 6) 0 hbRef) 1 pubRef

/-- The master's grant goes out: to itself at once. -/
def sendGrant (s : State) (r : RingReq) : State :=
  if r.addr = ringAddr s then takeGrant s r.hbOk r.pubOk (granted r)
  else originate s r.addr 0xE 3
    ([(if r.hbOk then 1 else 0) + (if r.pubOk then 2 else 0), 0, 0, 0] ++ beBytes 4 (granted r))

/-- The master reckons a request; a grant goes to its node, and to every node whose parts come out otherwise. -/
def masterAdmit (s : State) (addr hb pub : Nat) : State :=
  let old := s.ring.reqs
  let n := s.get F.RING_MSTATUS_NODES
  let (l, b) := admitHb n (insertReq ⟨addr, hb, pub, false, false⟩ old) (0, 0)
  let (l, b) := admitPub n l b
  let s := s.modRing fun r => { r with reqs := l }
  let s := (s.put F.RING_BUDGET_E_CELLS b.1).put F.RING_BUDGET_W_CELLS b.2
  l.foldl (fun s r =>
    if r.addr = addr || !old.any (fun o => o.addr == r.addr && o.hbOk == r.hbOk && o.pubOk == r.pubOk) then sendGrant s r
    else s) s

/-- R429, R452: the node sends a new request. -/
def admitRequest (s : State) : State :=
  if !mayOriginate s || s.get F.SEC_STATE_SECURITY == 3 then s
  else
    let (s, hb) := hbCells s
    let (s, pub) := pubCells s
    if isMaster s then masterAdmit s 0 hb pub else originate s 0 0xE 3 (beBytes 4 hb ++ beBytes 4 pub)

/-! ### Wraps and ports -/

/-- R434: what waits to leave on the down port's TX leaves on the other one instead; its link-local sets are dropped (R411). -/
def turnQueue (s : State) (i : Nat) : State :=
  let l := (rside s i).tx
  l.foldl (fun s x => match x with
    | .echoReq _ | .echoRep .. => s
    | _ => sendOwn s i x) (s.modSide i fun r => { r with tx := [] })

/-- R434: the node wraps at a side. -/
def wrapSide (s : State) (i : Nat) : State :=
  if wrapped s i then s
  else folioAgain (ringEvt (turnQueue (s.put (wrapField i) 1) i) F.RING_EVT_WRAP 2)

/-- RING_PORT_UP, R410: a port comes up; not while its loopback runs. -/
def portUp (s : State) (p : Nat) : State :=
  if !s.flag F.CLK_STATUS_SERDES_LOCK || portWorn s p || s.ring.loop.getLsbD p || s.flag (upField p) || s.rst.phase == .por then s
  else
    let s := ringEvt (s.put (upField p) 1) F.RING_EVT_LINK_UP 0
    folioAgain (syncTxdis (s.endCond 80 p))

/-- RING_PORT_DOWN, R410, R434, R438: a port goes down; its loopback starts, and its side wraps. -/
def portDown (s : State) (p : Nat) : State :=
  if !s.flag (upField p) then s
  else
    let s := ringEvt (s.put (upField p) 0) F.RING_EVT_LINK_DOWN 1
    let s := s.modRing fun r => { r with loop := r.loop ||| (1#3 <<< p) }
    match sideOfPort s p with
    | some i => syncTxdis (abortDiscovery (wrapSide (s.raise 80 p 1 p 0) i) 1)
    | none => s

/-- R410, R416: a CRC error is counted; WEAR_LIM of them within a second take the port down. -/
def crcError (s : State) (p : Nat) : State :=
  let s := s.addSat (errCrc p)
  let s := s.modRing fun r => { r with errs := vmod r.errs p (· + 1) }
  let s := s.raiseOnce 83 p 0 p 0
  let lim := s.get F.RING_CFG_WEAR_LIM
  if lim ≠ 0 ∧ lim ≤ vget s.ring.errs p then portDown s p else s

/-- Once per second: source 83 ends for a port whose second passed without an error. -/
def ringSecond (s : State) : State :=
  let s := s.forEach (below 3) fun s p => if vget s.ring.errs p = 0 then s.endCond 83 p else s
  s.modRing fun r => { r with errs := Vector.replicate 3 0 }

/-- PORT_LOOPBACK_DONE, R410, R436: a port that fails its loopback is worn; SPARE takes its place or it is lost. -/
def loopbackDone (s : State) (p : Nat) (pass : Bool) : State :=
  if !s.ring.loop.getLsbD p then s
  else
    let s := s.modRing fun r => { r with loop := r.loop &&& ~~~(1#3 <<< p) }
    if pass then s
    else
      let s := s.modSpare fun t => { t with wornPorts := t.wornPorts ||| (1#3 <<< p) }
      if p = 2 then
        let serving := (sideOfPort s 2).isSome
        let s := (s.put F.RING_STATUS_S_STATE 3).put F.RING_STATUS_S_UP 0
        let s := if serving then (s.raise 81 2 0 2 0).raiseOnce 82 2 1 2 0 else s.raiseMomentary 81 2 0 0
        syncTxdis (mapChanged s)
      else
        let s := s.put (if p = 0 then F.RING_STATUS_E_WORN else F.RING_STATUS_W_WORN) 1
        let s := s.raise 81 p 0 p 0
        if s.get F.RING_CFG_SPARE_SIDE = p + 1 ∧ spareState s = 0 ∧ s.flag F.RING_STATUS_S_UP then
          let s := ringEvt (s.put F.RING_STATUS_S_STATE (p + 1)) F.RING_EVT_SPARE_IN 4
          syncTxdis (mapChanged ((s.endCond 81 p).endCond 80 p))
        else mapChanged (s.raiseOnce 82 p 1 p 0)

/-- SPARE_PORT_DAILY_LOOPBACK, R410. -/
def spareLoopback (s : State) : State :=
  if spareState s = 0 then s.modRing fun r => { r with loop := r.loop ||| 4 } else s

/-- WRAP_END, R435: a side has been up for 10 ms; a master discovers when the ring has closed. -/
def wrapEnd (s : State) (p : Nat) : State :=
  match sideOfPort s p with
  | some i =>
    if !sideUp s i || s.flag F.RING_STATUS_HU_SINGLE then s
    else
      let s := if wrapped s i then ringEvt (s.put (wrapField i) 0) F.RING_EVT_UNWRAP 3 else s
      if isMaster s && s.flag F.RING_MCFG_AUTO_DISC && sideUp s 0 && sideUp s 1 && !wrapped s 0 && !wrapped s 1 &&
          s.ring.disc.isNone then startDiscovery (s.put F.RING_MSTATUS_WRAPPED 0)
      else s
  | none => s

/-- R437: HOLDUP keeps one port alive. -/
def ringHoldup (s : State) : State :=
  let live := liveSide s
  syncTxdis (wrapSide (s.put F.RING_STATUS_HU_SINGLE 1) (1 - live))

/-- R447: the ports start again under their own rules. -/
def ringResume (s : State) : State := syncTxdis (s.put F.RING_STATUS_HU_SINGLE 0)

/-! ### Link delays (R417) -/

/-- ECHO_REQUEST_SEND. The token's value is not stated. -/
def echoSend (s : State) : State :=
  s.forEach [0, 1] fun s i =>
    if sideUp s i then
      let (s, t) := s.unstated 24
      (sendLink s i (.echoReq t)).modSide i fun r => { r with token := some t }
    else s

/-- ECHO_REQUEST. -/
def echoAnswer (s : State) (p token turn : Nat) : State :=
  match sideOfPort s p with
  | some i => if sideUp s i then sendLink s i (.echoRep (token % 256) turn) else s
  | none => s

/-- A measurement of R417, (round trip - turnaround) / 2 + `RING_ASYM` / 2, in units of 1/6,144 ps: 1/16 of a bit time is
78,125 / 3,072 ps. -/
def measured (s : State) (i turn trip : Nat) : Int :=
  (((trip : Nat) : Int) - ((turn : Nat) : Int)) * 78125 +
    toSigned 16 (s.get (if i = 0 then F.RING_ASYM_E else F.RING_ASYM_W)) * 3072

/-- ECHO_REPLY: the mean of the last 16 measurements. -/
def echoReply (s : State) (p low turn trip : Nat) : State :=
  match sideOfPort s p with
  | none => s
  | some i =>
    match (rside s i).token with
    | none => s
    | some t =>
      if t % 256 ≠ low % 256 then s
      else
        let s := s.modSide i fun r =>
          { r with token := none, delays := (measured s i turn trip :: r.delays).take 16 }
        let l := (rside s i).delays
        let (s, d) := s.approx (l.foldl (· + ·) 0) (2 * 3072 * l.length)
        s.put (if i = 0 then F.RING_LINK_E_DELAY else F.RING_LINK_W_DELAY) d.toNat

/-! ### Barrier entries (R431) -/

def rbar (s : State) (k : Nat) : RingBar := vget s.ring.bar k
def State.modBar (s : State) (k : Nat) (f : RingBar → RingBar) : State :=
  s.modRing fun r => { r with bar := vmod r.bar k f }
def barState (s : State) (k : Nat) : Nat := s.get (F.RING_BARk_STATUS_STATE k)
def barStamp (s : State) (k : Nat) : Stamp := stampOf (s.reg (R.RING_BARk_REL_HI k)) (s.reg (R.RING_BARk_REL_LO k))

/-- The payload of a RELEASE. -/
def releaseBytes (s : State) (k : Nat) : List Nat :=
  [s.get (F.RING_BARk_CFG_BAR_ID k), s.get (F.RING_BARk_STATUS_HOLD_SEEN k) + 2 * s.get (F.RING_BARk_STATUS_FORCED k)] ++
    stampBytes (barStamp s k)

/-- The angle of a time in ANG clocks, at the tracked increment, rounded up. -/
def clocksToUnits (s : State) (clocks : Nat) : Nat := (clocks * s.ang.base + 2 ^ 22 - 1) / 2 ^ 22

/-- The larger live loop, in ANG clocks, rounded up: 153.6 MHz is 12 clocks in 78,125 ps. -/
def loopClocks (s : State) : Nat :=
  (max (s.get F.RING_LOOP_E_LOOP) (s.get F.RING_LOOP_W_LOOP) * 12 + 78124) / 78125

/-- R431: an entry becomes RELEASED. 10 µs are 1,536 ANG clocks, 100 µs are 15,360. -/
def releaseEntry (s : State) (k : Nat) (forced : Bool) : State :=
  if !s.angRun then s
  else
    let lead := max (period (s.get (F.RING_BARk_CFG_LEAD k)) * 1536) (loopClocks s + 15360)
    let t : Nat := (s.ang.stamp.toNat + clocksToUnits s lead + 2 ^ 20 - 1) / 2 ^ 20 * 2 ^ 20 % 2 ^ 48
    let s := (s.setReg (R.RING_BARk_REL_HI k) (t / 2 ^ 32)).setReg (R.RING_BARk_REL_LO k) (t % 2 ^ 32)
    let s := (s.put (F.RING_BARk_STATUS_STATE k) 2).putB (F.RING_BARk_STATUS_FORCED k) forced
    let s := s.putB (F.RING_BARk_STATUS_HOLD_SEEN k) ((rbar s k).hold || s.holdover)
    let s := originateBoth (ringEvt s F.RING_EVT_BAR_RELEASE 14) 0xFFFF 8 0 (releaseBytes s k)
    releaseBarrier s (s.get (F.RING_BARk_CFG_BAR_ID k)) (BitVec.ofNat 48 t)

/-- R431: the count of a collecting entry has reached EXPECT. While RUN is 0 the entry keeps it; the first mark sent
afterwards finds it. -/
def releaseDue (s : State) (k : Nat) : State :=
  let want := s.get (F.RING_BARk_EXPECT_COUNT k)
  if barState s k = 1 ∧ want ≠ 0 ∧ want ≤ (rbar s k).keys.length then releaseEntry s k false else s

/-- FORCE acts on a collecting entry; while RUN is 0 no release is sent, and it does nothing (DESIGN CHOICE, log entry 108). -/
def forceEntry (s : State) (k : Nat) : State := if barState s k = 1 then releaseEntry s k true else s

/-! ### Angle over the ring (R420 to R423) -/

/-- The delay of the link at a side, in 1/16 bit times. -/
def linkUnits (s : State) (i : Nat) : State × Nat :=
  let (s, u) := s.approx ((s.get (if i = 0 then F.RING_LINK_E_DELAY else F.RING_LINK_W_DELAY) : Nat) * 3072) 78125
  (s, u.toNat)

/-- The payload of an ANGLE cell. -/
def angleBytes (s : State) : List Nat :=
  stampBytes (BitVec.ofNat 48 (s.ang.stamp.toNat / 2 ^ 20 * 2 ^ 20)) ++ beBytes 4 (s.reg R.ANG_PERIOD) ++
    [(if s.holdover then 1 else 0) + (if s.locked then 2 else 0) + (if s.angRun then 4 else 0), 0] ++
    beBytes 4 (s.get F.RING_MID_ID)

/-- MARK_SEND, R420: a mark on both TX; after index 0 an ANGLE cell. -/
def markSend (s : State) (elapsed : Nat) : State :=
  if isMaster s && s.angRun then
    let idx := angleOf s.ang.stamp / 2 ^ 16
    let s := sendOwn (sendOwn s 0 (.mark idx elapsed)) 1 (.mark idx elapsed)
    let s := if idx = 0 then originateBoth s 0xFFFF 2 0 (angleBytes s) else s
    s.forEach (below 4) releaseDue
  else s

/-- ANGLE_IDLE_SEND. -/
def angleIdleSend (s : State) : State :=
  if isMaster s && !s.angRun then originateBoth s 0xFFFF 2 0 (angleBytes s) else s

/-- The side whose marks the node follows. -/
def markSide (s : State) : Nat := if s.flag F.RING_STATUS_MARK_OTHER then 1 - homeSide s else homeSide s

/-- R422: the node returns to HOME after 16 consecutive home marks. -/
def homeMark (s : State) (i : Nat) : State :=
  if s.flag F.RING_STATUS_MARK_OTHER && i == homeSide s then
    let s := s.modRing fun r => { r with homeRun := r.homeRun + 1 }
    if 16 ≤ s.ring.homeRun then ringEvt (s.put F.RING_STATUS_MARK_OTHER 0) F.RING_EVT_MARK_PATH 8 else s
  else s

/-- MARK_PATH_SWITCH, R422. -/
def markSwitch (s : State) : State :=
  if s.get F.ANG_CFG_SRC == 2 && !isMaster s && !s.flag F.RING_STATUS_MARK_OTHER then
    ringEvt ((s.put F.RING_STATUS_MARK_OTHER 1).modRing fun r => { r with homeRun := 0 }) F.RING_EVT_MARK_PATH 8
  else s.modRing fun r => { r with homeRun := 0 }

/-- R421: an acquisition that has just completed makes the next ANGLE cell set the stamp. -/
def edgeAndSet (s : State) (f : State → State) : State :=
  let t := f s
  if s.flag F.ANG_STATUS_ACQUIRE && !t.flag F.ANG_STATUS_ACQUIRE then t.modRing (fun r => { r with needSet := true }) else t

/-- R243, R244: a reference edge of a pin, which the counters of accepted edges step for on the next TCLK edge. An edge that
no gate rejects, and none that an acquisition counts as a stray, is accepted; nothing is while SRC is RING or FREE. -/
def edgeAndTally (s : State) (f : State → State) : State :=
  let t := edgeAndSet (s.modAng fun a => { a with took := false }) f
  if t.ang.took && decide (t.get F.ANG_CFG_SRC < 2) then t.modTally fun y => { y with refEdge := true } else t

/-- ANGLE_MARK, R420, R421. `turned`: on the master, a mark of its own has returned on the port it left. -/
def angleMark (s : State) (p index elapsed residence spacing : Nat) (turned : Bool) : State :=
  match sideOfPort s p with
  | none => s
  | some i =>
    if !sideUp s i || wrapped s i then s
    else if isMaster s then
      let (s, ps) := s.approx (elapsed * 78125) 3072
      let s := s.putB F.RING_MSTATUS_WRAPPED turned
      let s := if turned then abortDiscovery s 1 else s
      let east := (i == 1) != turned
      s.put (if east then F.RING_LOOP_E_LOOP else F.RING_LOOP_W_LOOP) (min 0xFFFFFFFF ps.toNat)
    else
      let s := masterSeen s
      let (s, link) := linkUnits s i
      let s := forwardOn s (1 - i) (.mark index (elapsed + link + residence))
      if s.get F.ANG_CFG_SRC ≠ 2 then s
      else
        let follow := i == markSide s
        let s := homeMark s i
        if follow then
          let back := (elapsed + link) * s.get F.ANG_INC_INC / (256 * 2 ^ 22)
          let s := s.modAng fun a => { a with edgeBack := back }
          (edgeAndSet s (referenceEdge · spacing)).modAng fun a => { a with edgeBack := 0 }
        else s

/-- R421: |RING_ANG_ERR| ≤ 256 and no holdover. -/
def syncAligned (s : State) : State :=
  let e := s.getS F.RING_ANG_ERR_ERR
  if s.get F.ANG_CFG_SRC == 2 && !isMaster s && !s.holdover && decide (e.natAbs ≤ 256) then
    if s.flag F.ANG_STATUS_ALIGNED then s else ringEvt (s.put F.ANG_STATUS_ALIGNED 1) F.RING_EVT_ALIGN 9
  else s.put F.ANG_STATUS_ALIGNED 0

/-- R421, R530: the node has become, or is no longer, the master: with SRC = RING its source is another one now. -/
def masterSource (s : State) : State := if s.get F.ANG_CFG_SRC == 2 then selectSource s else s

/-- R423: another master has been heard. The one with the higher RING_MID yields. -/
def twoMasters (s : State) (mid : Nat) : State :=
  let s := ringEvt (s.put F.RING_MSTATUS_TWO_MASTERS 1) F.RING_EVT_TWO_MASTERS 17
  let s := s.raiseOnce 85 0 1 0 0
  if mid < s.get F.RING_MID_ID then
    let s := abortDiscovery s 3
    masterSource (((s.put F.RING_STATUS_MASTER 0).put F.RING_STATUS_ADDR 0xFFFF).modRing fun r => { r with yielded := true })
  else s

/-- R415, R423: a master has received an ANGLE or DISCOVER cell of another one: a broadcast that it has not sent itself, which
goes on unless it carries M. -/
def foreignMaster (s : State) (i : Nat) (c : RingCell) (mid : Nat) : State :=
  let s := if c.m then s else forwardOn s (1 - i) (.cell (forwarded s c) true)
  twoMasters s mid

/-- ANGLE, R421: `age` is the time from the index-0 mark to now, in ANG clocks. R22: a node ahead of the master is never set
back; what the first cell after an acquisition finds it ahead by is slewed out whole (log entry 79). -/
def angleCell (s : State) (c : RingCell) (age : Nat) : State :=
  if isMaster s then s
  else
    let flags := payNat c 10 1
    let s := s.putB F.RING_STATUS_MASTER_HOLD (bitOf flags 0)
    if !bitOf flags 2 || s.get F.ANG_CFG_SRC ≠ 2 then s
    else
      let acc := (payStamp c 0).toNat * 2 ^ 22 + age * s.get F.ANG_INC_INC
      let there : Stamp := BitVec.ofNat 48 (acc / 2 ^ 22)
      let err := toSigned 48 (ofSigned 48 ((s.ang.stamp.toNat : Int) - (there.toNat : Int)))
      let first := (s.ring.needSet || !s.angRun) && !s.flag F.ANG_STATUS_ACQUIRE
      let s := s.modRing fun r => { r with needSet := r.needSet && !first }
      if (first && (decide (err < 0) || !s.angRun)) || (s.angRun && decide (err < -65536)) then
        let s := s.modAng fun a => { a with stamp := there, frac := BitVec.ofNat 22 acc, prev := there, phaseErr := 0 }
        syncAligned (syncPhaseOk (syncInc ((s.put F.ANG_STATUS_RUN 1).put F.RING_ANG_ERR_ERR 0)))
      else
        let s := if first && s.locked then syncPhaseOk (syncInc (s.modAng fun a => { a with phaseErr := err * 2 ^ 22 })) else s
        syncAligned (s.putS F.RING_ANG_ERR_ERR (clampInt (-524288) 524287 err))

/-- ANGLE at a port. Every master's address is 0x0000, so on a master `RING_MID` tells another one's cell from its own. -/
def angleArrives (s : State) (p : RingPort) (c : RingCell) (age : Nat) : State :=
  match sideOfPort s (portNum p) with
  | none => s
  | some i =>
    if !sideUp s i || wrapped s i then s
    else if isMaster s && payNat c 12 4 != s.get F.RING_MID_ID then foreignMaster s i { c with kind := 2 } (payNat c 12 4)
    else
      let (s, took) := receiveCell s p c 2
      if took then angleCell s c age else s

/-- MASTER_LOST, R441. -/
def masterLost (s : State) : State :=
  if isMaster s then s
  else
    let s := if s.flag F.RING_STATUS_MASTER_SEEN then ringEvt (s.put F.RING_STATUS_MASTER_SEEN 0) F.RING_EVT_MASTER_LOST 11 else s
    s.raiseOnce 84 0 1 0 0

/-! ### Discovery cells (R418, R419) -/

/-- R419: an address is assigned. -/
def assignAddr (s : State) (a : Nat) : State :=
  let s := if ringAddr s = a then s else ringEvt (s.put F.RING_STATUS_ADDR a) F.RING_EVT_ADDR_SET 5
  let exp := s.get F.RING_CFG_EXP_ADDR
  if exp ≠ 0 ∧ exp ≠ a then s.raiseOnce 86 0 1 0 a else s.endCond 86 0

/-- The master's own DISCOVER returns: phase 0 at WEST RX, phase 1 at EAST RX. -/
def discoverBack (s : State) (i : Nat) (c : RingCell) (loopPs : Nat) : State :=
  match s.ring.disc with
  | some (0, _) =>
    if payNat c 0 1 ≠ 0 ∨ i ≠ 1 then s
    else
      let n := (payNat c 2 2 + 65535) % 65536
      if 65534 < n then abortDiscovery s 4
      else if rttMaxPs s < loopPs then abortDiscovery s 2
      else
        let s := (s.put F.RING_MSTATUS_NODES n).put F.RING_LOOP_E_LOOP loopPs
        let s := s.modRing fun r => { r with nodes := n, disc := some (1, loopPs), reqs := [] }
        originateBoth s 0xFFFF 1 1 ([1, 0] ++ beBytes 2 n ++ beBytes 4 (s.get F.RING_MID_ID))
  | some (1, east) =>
    if payNat c 0 1 ≠ 1 ∨ i ≠ 0 then s
    else if rttMaxPs s < loopPs then abortDiscovery s 2
    else
      let s := s.put F.RING_LOOP_W_LOOP loopPs
      let n := s.get F.RING_MSTATUS_NODES
      admitRequest (endDiscovery s stOk [BitVec.ofNat 32 n, BitVec.ofNat 32 east, BitVec.ofNat 32 loopPs])
  | _ => s

/-- DISCOVER. `loopPs` is, on the master, the time the cell took round the loop. -/
def discoverCell (s : State) (p : RingPort) (c : RingCell) (loopPs : Nat) : State :=
  match sideOfPort s (portNum p) with
  | none => s
  | some i =>
    if !sideUp s i || wrapped s i then s
    else
      let mid := payNat c 4 4
      if isMaster s then
        if mid ≠ s.get F.RING_MID_ID then foreignMaster s i { c with kind := 1 } mid
        else if c.src.toNat = ringAddr s then discoverBack s i c loopPs
        else s
      else if payNat c 0 1 = 0 then
        let s := masterSeen s
        let a := payNat c 2 2
        let c := { forwarded s c with kind := 1, payload := payload ([0, 0] ++ beBytes 2 (a + 1) ++ beBytes 4 mid) }
        assignAddr (forwardOn s (1 - i) (.cell c true)) a
      else
        let (s, took) := receiveCell s p c 1
        if took then
          let n := payNat c 2 2
          let k := ringAddr s
          let s := s.modRing fun r => { r with nodes := n }
          admitRequest (s.put F.RING_STATUS_HOME (if k ≤ n + 1 - k then 0 else 1))
        else s

/-- DISCOVERY_TIMEOUT, R418, R439. The copy of phase 1 that is lost ends discovery alike (DEDUCED, log entry 107). -/
def discoveryTimeout (s : State) : State := abortDiscovery s 3

/-! ### Barriers: clearing, arrivals, releases (R181, R430, R431) -/

/-- R431: an entry returns to IDLE. -/
def clearEntry (s : State) (k : Nat) : State :=
  (s.setReg (R.RING_BARk_STATUS k) 0).modBar k fun _ => ⟨[], false⟩

/-- BARRIER_AUTO_CLEAR. -/
def barAutoClear (s : State) (k : Nat) : State :=
  if isMaster s && barState s k == 2 && s.flag (F.RING_BARk_CFG_AUTO_CLR k) && stampReached s.ang.stamp (barStamp s k) then
    clearEntry s k
  else s

/-- ARRIVAL on the master: an arrival for `bar`, with its key and its sender. -/
def masterArrival (s : State) (bar : Nat) (hold twin : Bool) (pair addr : Nat) : State :=
  match (below 4).find? fun k => s.flag (F.RING_BARk_CFG_VALID k) && s.get (F.RING_BARk_CFG_BAR_ID k) == bar with
  | none => (ringEvt s F.RING_EVT_BAR_UNKNOWN 15).raiseMomentary 89 0 0 bar
  | some k =>
    if barState s k == 2 then
      if addr = ringAddr s then releaseBarrier s bar (barStamp s k) else originateBoth s addr 8 0 (releaseBytes s k)
    else
      let s := if barState s k == 0 then s.put (F.RING_BARk_STATUS_STATE k) 1 else s
      let key := if twin then (true, pair) else (false, addr)
      let s :=
        if hold && !s.flag (F.RING_BARk_CFG_HOLD_OK k) then s
        else
          let s := s.modBar k fun b =>
            if b.keys.contains key then b else { b with keys := b.keys ++ [key], hold := b.hold || hold }
          s.put (F.RING_BARk_STATUS_COUNT k) (rbar s k).keys.length
      releaseDue s k

/-- R430: the arrival of a Quire's standing step is sent. -/
def sendArrival (s : State) (q : Nat) : State :=
  let i := curStep s q
  let bar := stepGet s q (curDown s q) i 2 (F.QUIREq_STEP2_BAR_ID q)
  let side := s.get F.TWIN_CFG_SIDE
  let twin := side == 1 || side == 2
  let pair := if twin then s.get F.TWIN_PAIR_ID else 0
  if isMaster s then masterArrival s bar s.holdover twin pair (ringAddr s)
  else originate s 0 7 1
    ([bar, (if s.holdover then 1 else 0) + (if twin then 2 else 0)] ++ beBytes 2 pair ++ stampBytes s.ang.stamp ++
      [q * 16 + i, 0])

/-- The arrivals the sequencer has raised are sent (R181). -/
def flushArrivals (s : State) : State :=
  let l := s.seq.arrivals
  let s := s.modSeq fun t => { t with arrivals := [] }
  s.forEach quires fun s q =>
    match (s.qu q).phase with
    | .bar none =>
      if l.contains (stepGet s q (curDown s q) (curStep s q) 2 (F.QUIREq_STEP2_BAR_ID q)) then sendArrival s q else s
    | _ => s

/-- ARRIVAL_REPEAT, R430. -/
def arrivalRepeat (s : State) (q : Nat) : State :=
  match (s.qu q).phase with
  | .bar none => sendArrival s q
  | _ => s

/-- A step of this node waits on the barrier. -/
def waitsOn (s : State) (bar : Nat) : Bool :=
  quires.any fun q => match (s.qu q).phase with
    | .bar _ => stepGet s q (curDown s q) (curStep s q) 2 (F.QUIREq_STEP2_BAR_ID q) == bar
    | _ => false

/-- RELEASE, R181, R430. -/
def releaseCell (s : State) (c : RingCell) : State :=
  let bar := payNat c 0 1
  let t := payStamp c 2
  let s := if waitsOn s bar && s.angRun && stampReached s.ang.stamp t then ringEvt s F.RING_EVT_BAR_LATE 10 else s
  releaseBarrier s bar t

/-! ### Ring-wide Folios (R432, R433, R440) -/

/-- RING_FOLIO on the master: the status, and the nodes asked. -/
def ringFolio (s : State) (id : Nat) (t : Stamp) : State × Nat × Nat :=
  let ahead := (t - s.ang.stamp).toNat
  if id = 0 then (s, stBadParam, 0)
  else if 2 ^ 47 ≤ ahead ∨ ahead < clocksToUnits s (loopClocks s + 15360) then (s, stBadParam, 1)
  else if s.flag F.FOLIO_STATUS_ARMED then (s, stFolioArmed, 0)
  else
    let s := (folioRingArm s t id).1
    let n := s.get F.RING_MSTATUS_NODES
    let s := ((s.put F.RING_RF_STATUS_ID id).put F.RING_RF_STATUS_ACTIVE 1).setReg R.RING_RF_CNT 0
    let s := (s.setReg R.RING_RF_LATE 0).modRing fun r => { r with rfAsked := n, rfTarget := t, folioArmed := some (id, t) }
    (folioCell s, stOk, n)

/-- FOLIO, R433. -/
def folioRequest (s : State) (c : RingCell) : State :=
  let id := payNat c 0 2
  let t := payStamp c 2
  if (s.flag F.FOLIO_STATUS_ARMED && s.ring.folioArmed == some (id, t)) || s.ring.folioLast == some (id, t) then s
  else
    let (s, refused) := folioRingArm s t id
    let s := if refused then s else s.modRing fun r => { r with folioArmed := some (id, t) }
    let late := !refused && s.angRun && stampReached s.ang.stamp t
    originate s 0 0xA 1 (beBytes 2 id ++ [if refused then 2 else if late then 3 else 1])

/-- FOLIO_ACK on the master. -/
def folioAck (s : State) (c : RingCell) : State :=
  if isMaster s && s.flag F.RING_RF_STATUS_ACTIVE && payNat c 0 2 == s.get F.RING_RF_STATUS_ID then
    match payNat c 2 1 with
    | 1 => s.addSat F.RING_RF_CNT_ARMED
    | 2 => s.addSat F.RING_RF_CNT_REFUSED
    | 3 => s.addSat F.RING_RF_LATE_LATE
    | _ => s
  else s

/-- R432: the target of a ring-wide Folio has matched locally. -/
def ringFolioMatched (s : State) : State :=
  if isMaster s && s.flag F.RING_RF_STATUS_ACTIVE then
    let s := ringEvt (s.put F.RING_RF_STATUS_ACTIVE 0) F.RING_EVT_RF_DONE 16
    let acks := s.get F.RING_RF_CNT_ARMED + s.get F.RING_RF_CNT_REFUSED + s.get F.RING_RF_LATE_LATE
    if acks < s.ring.rfAsked then s.raiseOnce 90 0 0 0 (s.ring.rfAsked - acks) else s.endCond 90 0
  else s

/-! ### Events (R425) -/

/-- EVENT: the event cell at the head of the queue is sent; it waits while no port can send. -/
def eventSend (s : State) : State :=
  match s.evq with
  | [] => s
  | e :: rest =>
    if !mayOriginate s || !canSend s || s.get F.SEC_STATE_SECURITY == 3 then s
    else
      let s := { s with evq := rest }
      let s := originate s 0 5 4 ([e.ev, 0] ++ stampBytes e.stamp ++ (below 8).flatMap fun g => beBytes 4 (s.reg (R.EVT_Gg_STATUS g)))
      if rest.isEmpty then s.endCond 88 0 else s

/-- RING_CELL_FORWARD, R415, R416, R423: a cell that no other row takes. -/
def cellForward (s : State) (p : RingPort) (c : RingCell) (good : Bool) : State :=
  let kind := c.kind.toNat
  if good then
    let (s, took) := receiveCell s p c kind
    if !took then s
    else if kind = 0 ∨ kind = 0xF then crcError s (portNum p)
    else if isMaster s then
      match kind with
      | 5 => s.addWrap F.RING_MRX_CNT_EVENT
      | 6 => s.addWrap F.RING_MRX_CNT_TELEMETRY
      | _ => s
    else s
  else
    match sideOfPort s (portNum p) with
    | none => s
    | some i =>
      if !sideUp s i || wrapped s i then s
      else
        let own := c.src.toNat == ringAddr s && ringAddr s != 0xFFFF
        let s := if own || (isMaster s && c.m) || c.dest.toNat == ringAddr s then s
          else forwardOn s (1 - i) (.cell (forwarded s c) false)
        crcError s (portNum p)

end Sys2Proof.Machine
end

