-- ==== Sys2Proof/Machine/Clock.lean ====
section
/-! DEFINITION. The PLLs, fallback and TCLK (spec/02_angle_and_clocks.md R41 to R51). -/

namespace Sys2Proof.Machine

/-! ### The suspension of BOUNDED promises (R48; spec/14_command_engine.md R372) -/

/-- Every admitted command takes note of the suspension in force. -/
def markSuspended (s : State) : State :=
  let k := suspension s
  s.modEng fun e => { e with cmds := e.cmds.map fun c => { c with susp := max c.susp k } }

/-- A suspension that begins or ends is told by its event: `old` is the state before. -/
def suspensionEvents (old s : State) : State :=
  let s := if suspension old = 0 ∧ suspension s ≠ 0 then s.evtBit F.CMD_EVT_SUSP_START 193 else s
  let s := if suspension old ≠ 0 ∧ suspension s = 0 then s.evtBit F.CMD_EVT_SUSP_END 194 else s
  markSuspended s

/-! ### Fallback and re-lock (R43 to R46) -/

/-- Power-on reset holds the clock logic. -/
def clocksRun (s : State) : Bool := s.rst.phase != .por

/-- R44 steps 1 and 2: the domains run on fallback and the system PLL re-locks. R216: a Sounding pauses. -/
def enterFallback (s : State) : State :=
  let s := (s.put F.CLK_STATUS_SYS_LOCK 0).put F.CLK_STATUS_RETURN_WAIT 0
  let s := s.modAng fun a => { a with relocking := true }
  if s.flag F.CLK_STATUS_FALLBACK then s
  else pauseSounding ((s.put F.CLK_STATUS_FALLBACK 1).event 22) false

/-- R44: a write of 1 to `CLK_CTRL.RELOCK`. The bit reads 1 until the domains are back on the PLL. -/
def relock (s : State) : State := if clocksRun s then enterFallback (s.put F.CLK_CTRL_RELOCK 1) else s

/-- R42: a write of 1 to `CLK_CTRL.REF_RETURN`: without effect while XIN is not good or is in use. -/
def refReturn (s : State) : State :=
  if clocksRun s && s.flag F.CLK_STATUS_XIN_OK && s.flag F.CLK_STATUS_PLL_REF then
    enterFallback ((s.put F.CLK_STATUS_PLL_REF 0).put F.CLK_CTRL_REF_RETURN 1)
  else s

/-- PLL_LOSS_OF_LOCK, R45. -/
def lossOfLock (s : State) : State :=
  if s.flag F.CLK_STATUS_SYS_LOCK then
    enterFallback (((s.put F.CLK_STATUS_LOL_SEEN 1).addSat F.CLK_LOL_CNT_COUNT).raise 33 0 1 0 0)
  else s

/-- SYSTEM_CLOCK_OVERSPEED, R45: the period guard trips. On fallback no SYS period comes from the PLL. -/
def overspeed (s : State) : State :=
  if s.flag F.CLK_STATUS_FALLBACK then s else enterFallback ((s.put F.CLK_STATUS_OVERSPEED 1).raise 34 0 1 0 0)

/-- SYSTEM_PLL_LOCK, R41 and step 3 of R44. With no reference the PLL cannot lock (R42). -/
def pllLock (s : State) : State :=
  if clocksRun s && s.flag F.CLK_STATUS_FALLBACK && !s.flag F.CLK_STATUS_SYS_LOCK && s.get F.CLK_STATUS_PLL_REF != 4 then
    (s.put F.CLK_STATUS_SYS_LOCK 1).put F.CLK_STATUS_RETURN_WAIT 1
  else s

/-- R47, R90: after the switch-back the fine paths restart and mark samples as for a change of OSR, and so do the converters
at work. R87: the output period of the switch-back ran on fallback in part. -/
def markAfterReturn (s : State) : State :=
  let s := s.forEach (below 64) fun s n =>
    if fineRun s n then scheduleRestart (s.modFine n fun g => { g with fbNow := true }) n 4 else s
  let again (mult : Nat) (w : PcWork) : PcWork :=
    if w.through then w else { w with marks := max w.marks (firMarks w.fir * mult), fbNow := true }
  let s := s.forEach (below 10) fun s n => s.modPc n fun c => { c with work := c.work.map (again 1) }
  s.modPool fun p => { p with pipe := p.pipe.map (again 8) }

/-- FALLBACK_RETURN, step 4 of R44. At power-up no fallback was entered, and none is left (DEDUCED, log entry 64). -/
def fallbackReturn (s : State) : State :=
  if s.flag F.CLK_STATUS_RETURN_WAIT then
    let s := (s.put F.CLK_STATUS_RETURN_WAIT 0).put F.CLK_STATUS_FALLBACK 0
    let s := (s.put F.CLK_CTRL_RELOCK 0).put F.CLK_CTRL_REF_RETURN 0
    let s := (s.endCond 33 0).endCond 34 0
    let s := if s.ang.relocking then s.event 23 else s
    let s := syncInc (s.modAng fun a => { a with fbFreq := 0, relocking := false })
    resumeSounding (markAfterReturn s) false
  else s

/-- BAND_SEARCH_RETRY, R44: the re-lock has failed, or a window of step 3 found SYS off: step 2 starts again. -/
def bandSearchRetry (s : State) : State :=
  if s.flag F.CLK_STATUS_FALLBACK then (s.put F.CLK_STATUS_SYS_LOCK 0).put F.CLK_STATUS_RETURN_WAIT 0 else s

/-- FALLBACK_MEASURE, R46. -/
def fallbackMeasure (s : State) (freq : Nat) : State :=
  if clocksRun s && s.flag F.CLK_STATUS_FALLBACK then
    let s := s.put F.CLK_FB_MEAS_FREQ freq
    syncInc (s.modAng fun a => { a with fbFreq := freq })
  else s

/-! ### XIN, TCLK and the SerDes PLL (R42, R49, R50; spec/16_hexip_ring.md R437) -/

/-- SERDES_PLL_LOSS_OF_LOCK, R437: TXDIS on every port. -/
def serdesLoss (s : State) : State :=
  if s.flag F.CLK_STATUS_SERDES_LOCK then syncTxdis ((s.put F.CLK_STATUS_SERDES_LOCK 0).raise 35 0 1 0 0) else s

/-- R42: the PLLs lose XIN: the first ring port with symbol lock takes its place; with none, both PLLs are unlocked. -/
def loseReference (s : State) (symbols : BitVec 3) : State :=
  match (if s.flag F.CLK_CFG_RING_REF_EN then (below 3).find? fun i => symbols.getLsbD i else none) with
  | some i => enterFallback (s.put F.CLK_STATUS_PLL_REF (i + 1))
  | none => serdesLoss (enterFallback (s.put F.CLK_STATUS_PLL_REF 4))

/-- XIN_FAILURE, R49, R42. `symbols`: the ring ports with symbol lock, EAST bit 0, WEST bit 1, SPARE bit 2. R50: a failure
while TCLK still runs from the RC breaks the 1 ms of the return, and is the fault that already stands. -/
def xinFailure (s : State) (symbols : BitVec 3) : State :=
  if s.flag F.CLK_STATUS_XIN_OK then
    let s := s.put F.CLK_STATUS_XIN_OK 0
    let s := if s.flag F.CLK_STATUS_TCLK_ON_RC then s
      else (s.put F.CLK_STATUS_TCLK_ON_RC 1).put F.CLK_STATUS_TCLK_GAP 1
    let s := s.raiseOnce 36 0 1 0 0
    if s.get F.CLK_STATUS_PLL_REF = 0 then loseReference s symbols else s
  else s

/-- TCLK_RETURN, R50: XIN has been good for `us` microseconds without a break: XIN_OK is 1, and after 1 ms TCLK is back. -/
def tclkReturn (s : State) (us : Nat) : State :=
  if clocksRun s then
    let s := s.put F.CLK_STATUS_XIN_OK 1
    if 1000 ≤ us then (s.put F.CLK_STATUS_TCLK_ON_RC 0).endCond 36 0 else s
  else s

/-- SERDES_PLL_LOCK, R51. -/
def serdesLock (s : State) : State :=
  if clocksRun s && s.get F.CLK_STATUS_PLL_REF != 4 then syncTxdis ((s.put F.CLK_STATUS_SERDES_LOCK 1).endCond 35 0) else s

end Sys2Proof.Machine
end

