-- ==== Sys2Proof/Machine/Twin.lean ====
section
/-! DEFINITION. The twin link, the mirror, role changes and the Warden (spec/12_twins_spares.md R290 to R312). -/

namespace Sys2Proof.Machine

def State.modTwin (s : State) (f : TwinState → TwinState) : State := { s with twin := f s.twin }

/-- TWIN_EVT bit b is EV128 + b (R322). -/
def twinEvt (s : State) (f : Field) (bit : Nat) : State := s.evtBit f (128 + bit)

def twinRole (s : State) : Nat := s.get F.TWIN_STATUS_ROLE
def linkUp (s : State) : Bool := s.flag F.TWIN_STATUS_LINK_UP
def twinSide (s : State) : Nat := s.get F.TWIN_CFG_SIDE

/-- The device is one of a pair. -/
def isTwin (s : State) : Bool := twinSide s == 1 || twinSide s == 2

/-! ### Frames (R294) -/

/-- A frame is sent; HOLDUP stops the link (R446). -/
def sendFrame (s : State) (f : TwinFrame) : State :=
  if isTwin s && s.mode != mHoldup then s.modTwin fun t => { t with tx := t.tx ++ [f] } else s

/-- The transmitter puts the oldest frame on the line. -/
def twinDrain (s : State) : State :=
  match s.twin.tx with
  | f :: rest => s.modTwin fun t => { t with tx := rest, line := some f }
  | [] => s

/-- The latches as one word. -/
def latchWord (s : State) : BitVec 64 := BitVec.ofNat 64 ((enabledRails s).foldl (fun m n => m + 2 ^ n) 0)

/-- R300, R461: READY. -/
def twinReady (s : State) : Bool :=
  !s.flag F.FLT_STATUS_ANY_FATAL && linkUp s && (s.flag F.TWIN_STATUS_MIRROR_FRESH || twinRole s == 1) &&
    s.mode != mHoldup && s.get F.SEC_STATE_DEBUG != 2

def syncReady (s : State) : State := s.putB F.TWIN_STATUS_READY (twinReady s)

def engineDown (s : State) : Bool := !s.flag F.CMD_STATUS_ENGINE_UP || s.flag F.CMD_STATUS_RESTARTING

/-- TWIN_LINK_HEARTBEAT_SEND, R294. -/
def linkBeat (s : State) : State :=
  sendFrame s (.heartbeat (twinRole s) (twinReady s) (engineDown s) (s.get F.TWIN_TOKEN_SEQ))

/-- The rails whose filtered OV and UV are both deasserted (R300). -/
def goodMap (s : State) : Nat :=
  (below 64).foldl (fun m n =>
    if s.flag (F.RAILn_GUARD_STATUS_OV_OUT n) || s.flag (F.RAILn_GUARD_STATUS_UV_OUT n) then m else m + 2 ^ n) 0

/-- TWIN_RING_HEARTBEAT_SEND, R300, R414, R427, R429, R452: the heartbeat to the Warden. -/
def ringBeat (s : State) : State :=
  if isTwin s && s.flag F.RING_GRANT_HB_OK && s.security != secRetired then
    let b (x : Bool) (w : Nat) : Nat := if x then w else 0
    originate s (s.get F.TWIN_WARDEN_ADDR) 0xC 2
      ([twinRole s, b (twinReady s) 1 + b (inFault s) 2 + b (engineDown s) 4 + b (linkUp s) 8 +
          b (s.flag F.TWIN_STATUS_HO_PEND) 16 + 32 * s.get F.TWIN_STATUS_PEER_ROLE] ++
        beBytes 2 (s.get F.TWIN_STATUS_LINK_AGE) ++ beBytes 8 (goodMap s) ++ beBytes 4 (s.get F.TWIN_TOKEN_SEQ) ++
        stampBytes s.ang.stamp ++ beBytes 2 (s.get F.TWIN_PAIR_ID))
  else s

/-! ### Freshness and the link's state (R294, R297, R310) -/

/-- What the standby copies: it is neither ACTIVE nor SINGLE, and the link runs. A Retired twin copies nothing (R452: its
latches are held off). -/
def mirrors (s : State) : Bool :=
  isTwin s && 2 ≤ twinRole s && linkUp s && s.mode != mHoldup && s.security != secRetired

/-- R310: the link down fault ends when the link is up and, on the standby, the mirror is fresh. -/
def syncLinkCond (s : State) : State :=
  if linkUp s && (twinRole s < 2 || s.flag F.TWIN_STATUS_MIRROR_FRESH) then s.endCond 48 0 else s

def setFresh (s : State) (b : Bool) : State :=
  let was := s.flag F.TWIN_STATUS_MIRROR_FRESH
  let s := s.putB F.TWIN_STATUS_MIRROR_FRESH b
  let s := if b && !was then twinEvt s F.TWIN_EVT_FRESH 8 else if !b && was then twinEvt s F.TWIN_EVT_STALE 9 else s
  syncLinkCond s

/-- R297: MIRROR_FRESH follows its three conditions: the link, a dynamic image within 3 ms, and its CRC. -/
def syncFresh (s : State) : State :=
  setFresh s (mirrors s && s.twin.dynCrc.isSome && s.twin.dynCrc == s.twin.cfgCrc)

/-- The CRC-32 of a configuration image, over its addresses and values, four bytes each (log entry 9). -/
def imageCrc (c : CfgImage) : Nat := crc32 (c.entries.flatMap fun e => beBytes 4 e.1 ++ beBytes 4 e.2.toNat)

/-- The mirrored bits of a register (R295): none is 0. The steps of the Quires lie at their window addresses. -/
def mirrorMask (a : Nat) : Nat :=
  if 0x4000 ≤ a ∧ a < 0x6000 then
    match a % 0x80 with
    | 0x00 => 0x80F3EC00
    | 0x04 | 0x08 => 0xFFF
    | 0x0C => 0xFFFF
    | 0x40 => 0x01A00F0F
    | 0x50 | 0x54 => 0xFFFFFF
    | 0x58 => 0xFFFFFFFF
    | 0x5C => 0xF000FFFF
    | _ => 0
  else if 0x2400 ≤ a ∧ a < 0x2800 then
    match a % 0x40 with
    | 0x00 | 0x0C | 0x10 => 0xFFFFFFFF
    | _ => 0
  else if 0x0200 ≤ a ∧ a < 0x0240 then 0x07070707
  else if 0x10000 ≤ a ∧ a < 0x14000 then 0xFFFFFFFF
  else 0

/-- The registers of a configuration image, in address order. -/
def mirrorAddrs : List Nat :=
  (below 16).map R.SEQ_RAILk ++
  (below 16).flatMap (fun q => [R.QUIREq_CFG q, R.QUIREq_MEMBERS_LO q, R.QUIREq_MEMBERS_HI q]) ++
  (below 64).flatMap (fun n => [0x00, 0x04, 0x08, 0x0C, 0x40, 0x50, 0x54, 0x58, 0x5C].map fun o => 0x4000 + 0x80 * n + o) ++
  (below 512).flatMap fun i => (below 6).map fun w => R.quireStep (i / 32) (i % 32) w

/-- The active's configuration image. -/
def configImage (s : State) : CfgImage :=
  ⟨mirrorAddrs.map fun a => (a, BitVec.ofNat 32 (Nat.land (s.reg a) (mirrorMask a))),
   (below 64).map fun n => BitVec.ofNat 32 (railRatio s n)⟩

/-- CONFIG_IMAGE_SEND. -/
def configSend (s : State) : State := if twinRole s == 1 && linkUp s then sendFrame s (.config (configImage s)) else s

/-- The link comes up: the active sends the configuration image (R295). -/
def linkRises (s : State) : State :=
  configSend (syncLinkCond (twinEvt (s.put F.TWIN_STATUS_LINK_UP 1) F.TWIN_EVT_LINK_UP 6))

/-- A frame with a good CRC has arrived (R294): LINK_AGE restarts; a single device judges none (R495); with the link down, eight in a row bring it up. -/
def goodFrame (s : State) : State :=
  let s := (s.put F.TWIN_STATUS_LINK_AGE 0).modTwin fun t => { t with ageTicks := 0 }
  if linkUp s || !isTwin s then s
  else
    let s := s.modTwin fun t => { t with good := t.good + 1 }
    if 8 ≤ s.twin.good then linkRises (s.modTwin fun t => { t with good := 0 }) else s

/-- TWIN_LINK_DOWN, R294, R310: LINK_AGE has come to 500 µs. -/
def linkDown (s : State) : State :=
  if linkUp s && decide (5 ≤ s.get F.TWIN_STATUS_LINK_AGE) then
    let s := (s.put F.TWIN_STATUS_LINK_UP 0).modTwin fun t => { t with good := 0, dynCrc := none }
    let s := twinEvt (s.addSat F.TWIN_CNT_LINK_DROPS) F.TWIN_EVT_LINK_DOWN 7
    setFresh (s.raiseOnce 48 0 1 0 0) false
  else s

/-- TWIN_LINK_RETRAIN, R294: a down link retrains; the count of consecutive good frames restarts, and `frames` of them
follow. -/
def linkRetrain (s : State) (frames : Nat) : State :=
  if linkUp s || !isTwin s || s.mode == mHoldup then s
  else if 8 ≤ frames then linkRises ((s.put F.TWIN_STATUS_LINK_AGE 0).modTwin fun t => { t with ageTicks := 0, good := 0 })
  else s.modTwin fun t => { t with good := frames }

/-- A TCLK edge: LINK_AGE counts in 100 µs, 1,024 TCLK periods. -/
def tickTwin (s : State) : State :=
  let s := s.modTwin fun t => { t with ageTicks := t.ageTicks + 1 }
  let s := if s.twin.ageTicks % 1024 = 0 then s.addSat F.TWIN_STATUS_LINK_AGE else s
  twinDrain s

/-! ### Debug forced off (R463) -/

/-- The debug level becomes Off. -/
def forceDebugOff (s : State) : State :=
  let d := s.get F.SEC_STATE_DEBUG
  if d = 0 then s
  else
    let s := (s.put F.SEC_STATE_DEBUG 0).evtBit F.SEC_EVT_DEBUG_FORCED 218
    if d = 2 then resumeSounding (unhaltSeq (s.put F.CMD_STATUS_HALTED 0)) true else s

/-! ### Roles (R291, R292, R304, R308) -/

/-- The role's outputs: TWROLE, and ENn (R77). -/
def syncRole (s : State) : State :=
  let r := twinRole s
  let s := s.putB F.TWIN_STATUS_TWROLE_PIN (s.twin.loaded && r == 1)
  s.forEach (below 64) fun s n => setEnDrive s n (s.twin.loaded && decide (r < 2))

/-- The role changes. -/
def setRole (s : State) (r : Nat) : State :=
  if twinRole s = r then s
  else
    let s := (s.put F.TWIN_STATUS_ROLE r).addSat F.TWIN_CNT_CHANGES
    let s := match r with
      | 1 => twinEvt s F.TWIN_EVT_TO_ACTIVE 0
      | 2 => twinEvt s F.TWIN_EVT_TO_STANDBY 1
      | _ => s
    syncRole s

/-- The role change on this twin ends. -/
def changeOver (s : State) : State :=
  (s.put F.TWIN_STATUS_CHANGING 0).modTwin fun t => { t with change := .none, frozen := false }

/-- R304 step 4, R216, R238: the outgoing twin releases its outputs and becomes STANDBY. -/
def becomeStandby (s : State) : State :=
  let s := setRole (changeOver s) 2
  let s := (s.put F.TWIN_STATUS_HO_PEND 0).modSeq fun t => { t with hoRails := [] }
  ringBeat (linkBeat (pmStandby (workRoleOut (s.endCond 51 3))))

/-- R295: how many up-steps of a Quire have acted, as far as the mirror tells: all of them, but in a sequence still on its way
up, or stopped there, those to the current one, and that one too unless it waits for its first action. -/
def stepsActed (s : State) (q : Nat) : Nat :=
  let st := qState s q
  if !curDown s q && (st == qUpRun || st == qHeld || st == qStopped) then
    let first := ((s.qu q).phase == .gate || (s.qu q).phase == .action) && s.get (F.QUIREq_STATUS_ATTEMPT q) == 0
    if first then curStep s q else curStep s q + 1
  else 16

/-- R295, R175: the up-step that has enabled a rail, as far as the mirror tells: the last one of those that acted to name it
(DEDUCED, log entry 98). -/
def mirroredEnabler (s : State) (n : Nat) : Option (Nat × Nat) :=
  match quireOf s n with
  | none => none
  | some q =>
    ((((below (stepsActed s q)).takeWhile (stepValid s q false)).filter fun i => bitOf (stepRails s q false i) n).getLast?).map
      fun i => (q, i)

/-- R308: the new active continues the mirrored sequencing. -/
def continueMirrored (s : State) : State :=
  let s := s.forEach quires fun s q =>
    let s := s.modQ q fun u => { u with elapsed := 0 }
    let s := s.put (F.QUIREq_WAITING_ELAPSED q) 0
    match (s.qu q).phase with
    | .bar _ =>
      let b := stepGet s q (curDown s q) (curStep s q) 2 (F.QUIREq_STEP2_BAR_ID q)
      (s.modQ q fun u => { u with phase := .bar none }).modSeq fun t => { t with arrivals := t.arrivals ++ [b] }
    | _ => s
  let s := s.forEach (below 64) fun s n =>
    let c : RailCycle := if (s.rs n).cycle == .none then .none else .off
    s.modRs n fun r => { r with cycle := c, enabler := mirroredEnabler s n }
  let l := s.twin.returns
  let s := s.modTwin fun t => { t with returns := [] }
  l.foldl (fun s r => queueMargin s ⟨0, r.1, 1, 0x01, r.2.2, r.2.1, false⟩) s

/-- R304 step 3: the incoming twin becomes ACTIVE and sends DRIVING. -/
def becomeActive (s : State) : State :=
  let s := setRole (changeOver s) 1
  let s := if linkUp s then sendFrame s .driving else s
  let s := continueMirrored (forceDebugOff s)
  ringBeat (linkBeat (pmActive (syncLinkCond s)))

/-- R307: each rail's latch follows the incoming twin's own guard and PG; a Quire in which one turned off is STOPPED.
A rail not in use turns off. -/
def reconcile (s : State) : State :=
  let ok (n : Nat) : Bool :=
    railUse s n && !s.flag (F.RAILn_GUARD_STATUS_OV_OUT n) && !s.flag (F.RAILn_GUARD_STATUS_UV_OUT n) && pgGood s n
  let off := (enabledRails s).filter fun n => !ok n
  let s := s.forEach (below 64) fun s n => if ok n then latchOn s n else latchOff s n
  s.forEach quires fun s q =>
    if off.any (fun n => bitOf (members s q) n) then
      (s.put (F.QUIREq_STATUS_STATE q) qStopped).modQ q fun u => { u with phase := .idle }
    else s

/-- Steps 2 and 3 of R304. -/
def takeRole (s : State) (stale : Bool) : State := becomeActive (if stale then reconcile s else s)

/-- R304 step 1: the outgoing twin freezes its latches and sends its final image. -/
def freezeAndHand (s : State) : State :=
  let s := (s.put F.TWIN_STATUS_CHANGING 1).modTwin fun t => { t with change := .outgoing, frozen := true }
  twinEvt (sendFrame s (.handover (latchWord s))) F.TWIN_EVT_HO_SENT 4

/-- R311: the Warden is unreachable, and the role does not change: no change starts (log entry 114). -/
def roleFrozen (s : State) : Bool := s.flag F.TWIN_STATUS_FROZEN

/-- R305: the conditions of a direct handover. -/
def mayHandOver (s : State) : Bool :=
  twinRole s == 1 && linkUp s && s.flag F.TWIN_STATUS_PEER_READY && s.flag F.TWIN_STATUS_WARDEN_OK &&
    !roleFrozen s && s.twin.change == .none && s.mode != mHoldup

/-- R308: this twin, ACTIVE, has learnt that its peer is ACTIVE too: the lower sequence releases, at equal ones TWIN_B. -/
def twoActives (s : State) : State :=
  if twinRole s == 1 && s.twin.change == .none then
    let s := s.raiseOnce 51 0 1 3 3
    let mine := s.get F.TWIN_TOKEN_SEQ
    if !roleFrozen s && (mine < s.twin.peerSeq || (mine == s.twin.peerSeq && twinSide s == 2)) then becomeStandby s else s
  else s

/-- LINK_HEARTBEAT_FRAME, R294, R308. -/
def beatFrame (s : State) (role : Nat) (ready : Bool) (seq : Nat) : State :=
  if !isTwin s || s.mode == mHoldup then s
  else
    let s := goodFrame s
    let s := (s.put F.TWIN_STATUS_PEER_ROLE role).putB F.TWIN_STATUS_PEER_READY ready
    let s := s.modTwin fun t => { t with peerSeq := seq }
    if role = 1 then twoActives s else s.endCond 51 3

/-! ### The mirror (R295 to R298) -/

/-- LATCH_MIRROR_FRAME, R295: the active's latches are applied through R74. -/
def latchFrame (s : State) (l : BitVec 64) : State :=
  let s := if isTwin s && s.mode != mHoldup then goodFrame s else s
  if mirrors s then applyLatch s l.toNat (2 ^ 64 - 1 - l.toNat) else s

/-- What a Quire's step does, as a dynamic image carries it. -/
def quireDoing (s : State) (q : Nat) : Nat :=
  match (s.qu q).phase with | .idle => 0 | .gate => 1 | .action => 2 | .wait => 3 | .bar _ => 4 | .retryOff => 5

def doingPhase (d : Nat) : QPhase :=
  match d with | 1 => .gate | 2 => .action | 3 => .wait | 4 => .bar none | 5 => .retryOff | _ => .idle

def quireMirror (s : State) (q : Nat) : QuireMirror :=
  ⟨BitVec.ofNat 32 (s.reg (R.QUIREq_STATUS q)), BitVec.ofNat 32 (s.reg (R.QUIREq_DONE q)),
   BitVec.ofNat 32 (s.reg (R.QUIREq_WAITING q)), BitVec.ofNat 3 (quireDoing s q)⟩

/-- The latest fine sample of a rail is valid (R89). -/
def fineValid (s : State) (n : Nat) : Bool :=
  fineRun s n && (s.fr n).lastValid.isSome && Nat.land (s.fr n).latest.tag.toNat 0x1E800000 == 0

def railMirror (s : State) (n : Nat) : RailMirror :=
  ⟨fineValid s n, (s.fr n).latest.railv, BitVec.ofNat 2 (s.get (F.RAILn_CAL_STATUS_STATE n)),
   BitVec.ofNat 3 (s.get (F.SEQ_RAIL_RUSED n)), (s.rs n).cycle != .none⟩

/-- Partners whose OPERATION is to be written back. -/
def pendingReturns (s : State) : List (Fin 128 × Fin 64 × Byte) :=
  (List.finRange 64).filterMap fun n =>
    match (s.mr n.val).test with
    | some t =>
      if t.stepped then some (Fin.ofNat 128 (partner s n.val), n, BitVec.ofNat 8 t.oper) else none
    | none => none

def dynImage (s : State) : DynImage where
  latches := latchWord s
  quires := Vector.ofFn fun q : Fin 16 => quireMirror s q
  rails := Vector.ofFn fun n : Fin 64 => railMirror s n
  partners := Vector.ofFn fun k : Fin 128 =>
    (BitVec.ofNat 32 (s.reg (R.PMPk_STATUS k)), BitVec.ofNat 32 (s.reg (R.PMPk_READ k)))
  returns := pendingReturns s
  crc := BitVec.ofNat 32 (imageCrc (configImage s))

/-- DYNAMIC_IMAGE_SEND. -/
def dynSend (s : State) : State := if twinRole s == 1 && linkUp s then sendFrame s (.dynamic (dynImage s)) else s

/-- R297: a repair is raised, or its condition ends when the image matches. -/
def repaired (s : State) (kind : Nat) (differs : Bool) : State :=
  if differs then s.raise 49 kind 0 kind 0 else s.endCond 49 kind

/-- R298: the readings of a rail are compared; an image in which they are not breaks the row of images that differ. Full scale is 1.600 V × RATIO, 2/5 of RATIO in rail-volt units. -/
def diverge (s : State) (n : Nat) (m : RailMirror) : State :=
  let miss := s.get F.TWIN_DIV_MISS
  if miss = 0 then s
  else if !m.valid || !fineValid s n then s.modTwin fun t => { t with diverged := vmod t.diverged n (fun _ => 0) }
  else
    let own := (s.fr n).latest.railv.toNat
    let d := if own ≤ m.volts.toNat then m.volts.toNat - own else own - m.volts.toNat
    if s.get F.TWIN_DIV_TOL * railRatio s n < 25000 * d then
      let c := vget s.twin.diverged n + 1
      let s := s.modTwin fun t => { t with diverged := vmod t.diverged n (fun _ => c) }
      if miss ≤ c then s.raiseOnce 55 0 0 n n else s
    else (s.modTwin fun t => { t with diverged := vmod t.diverged n (fun _ => 0) }).endCond 55 n

/-- DYNAMIC_IMAGE, R295, R297. -/
def dynFrame (s : State) (d : DynImage) : State :=
  let s := if isTwin s && s.mode != mHoldup then goodFrame s else s
  if twinRole s == 1 && isTwin s && s.mode != mHoldup then twoActives s
  else if !mirrors s then s
  else
    let latchDiff := latchWord s != d.latches
    let same (q : Nat) : Bool :=
      let m := vget d.quires q
      s.reg (R.QUIREq_STATUS q) / 2 ^ 20 == m.status.toNat / 2 ^ 20 && s.reg (R.QUIREq_DONE q) == m.done.toNat
    let quireDiff := quires.any fun q => !same q
    let s := applyLatch s d.latches.toNat (2 ^ 64 - 1 - d.latches.toNat)
    let s := s.forEach quires fun s q =>
      let m := vget d.quires q
      let s := (s.setReg (R.QUIREq_STATUS q) m.status.toNat).setReg (R.QUIREq_DONE q) m.done.toNat
      ((s.setReg (R.QUIREq_WAITING q) m.waiting.toNat).setReg (R.QUIREq_CTRL q) 0).modQ q fun u =>
        { u with phase := doingPhase m.doing.toNat, elapsed := m.waiting.toNat / 65536 * 1024 }
    let s := s.forEach (below 64) fun s n =>
      let m := vget d.rails n
      let s := (s.put (F.SEQ_RAIL_RUSED n) m.rused.toNat).modRs n fun r => { r with cycle := if m.cycle then .off else .none }
      diverge s n m
    let s := s.forEach (below 128) fun s k =>
      let m := vget d.partners k
      (s.setReg (R.PMPk_STATUS k) m.1.toNat).setReg (R.PMPk_READ k) m.2.toNat
    let s := s.modTwin fun t => { t with returns := d.returns.map fun r => (r.1.val, r.2.1.val, r.2.2.toNat) }
    let s := repaired (repaired s 0 latchDiff) 1 quireDiff
    let ok := s.twin.cfgCrc == some d.crc.toNat
    let s := repaired (s.modTwin fun t => { t with dynCrc := some d.crc.toNat }) 2 (!ok)
    syncFresh (if ok then s else sendFrame s .configRequest)

/-- R296: a code times the ratio of the active's divider to the standby's, rounded down or up, within its field. -/
def translate (code : Int) (active own : Nat) (up : Bool) (lo hi : Int) : Int :=
  if own = 0 then code
  else clampInt lo hi (if up then -((-(code * active)) / own) else code * active / own)

/-- The value of a mirrored register on this twin, from the active's. -/
def mirrorValue (s : State) (ratios : List Word) (a v : Nat) : Nat :=
  let n := (a - 0x4000) / 0x80
  let active := (ratios.getD n 0).toNat
  let own := railRatio s n
  if 0x4000 ≤ a ∧ a < 0x6000 then
    match a % 0x80 with
    | 0x04 => (translate v active own false 0 4095).toNat
    | 0x08 => (translate v active own true 0 4095).toNat
    | 0x50 => ofSigned 24 (translate (toSigned 24 v) active own false (-8388608) 8388607)
    | 0x54 => ofSigned 24 (translate (toSigned 24 v) active own true (-8388608) 8388607)
    | _ => v
  else v

/-- What follows when a register has taken a new value from the mirror. -/
def mirrorHook (s : State) (a old : Nat) : State :=
  let n := (a - 0x4000) / 0x80
  if 0x4000 ≤ a ∧ a < 0x6000 then
    match a % 0x80 with
    | 0x00 => guardCfgWritten s n old
    | 0x04 | 0x08 | 0x0C => guardSettingWritten s n
    | 0x40 => fineCfgWritten s n old
    | 0x50 | 0x54 => fineWindowWritten s n
    | _ => s
  else s

def mirrorEntry (s : State) (ratios : List Word) (e : Nat × Word) : State :=
  let m := mirrorMask e.1
  let old := s.reg e.1
  let v := mirrorValue s ratios e.1 (Nat.land e.2.toNat m)
  let new := Nat.lor (Nat.land old (0xFFFFFFFF - m)) (Nat.land v m)
  if m = 0 ∨ new = old then s else mirrorHook (s.setReg e.1 new) e.1 old

/-- CONFIG_IMAGE, R295, R296. -/
def configFrame (s : State) (c : CfgImage) : State :=
  let s := if isTwin s && s.mode != mHoldup then goodFrame s else s
  if mirrors s then
    let s := c.entries.foldl (fun s e => mirrorEntry s c.ratios e) s
    syncFresh (s.modTwin fun t => { t with cfgCrc := some (imageCrc c) })
  else s

/-- MIRROR_STALE, R297. -/
def mirrorStale (s : State) : State :=
  if 2 ≤ twinRole s then syncFresh (s.modTwin fun t => { t with dynCrc := none }) else s

/-! ### Frames of a role change (R304) -/

/-- HANDOVER_FRAME. -/
def handoverFrame (s : State) (l : BitVec 64) : State :=
  let s := if isTwin s && s.mode != mHoldup then goodFrame s else s
  if !mirrors s then s
  else
    let s := twinEvt s F.TWIN_EVT_HO_RECV 5
    let s := applyLatch s l.toNat (2 ^ 64 - 1 - l.toNat)
    match s.twin.change with
    | .incoming stale => takeRole s stale
    | .none => if roleFrozen s then s else takeRole s false
    | .outgoing => s

/-- TAKEOVER_FRAME. -/
def takeoverFrame (s : State) : State :=
  let s := if isTwin s && s.mode != mHoldup then goodFrame s else s
  if twinRole s == 1 && isTwin s && !roleFrozen s && s.twin.change == .none && s.mode != mHoldup then freezeAndHand s else s

/-- TAKEOVER_WAIT_END. R312: HOLDUP lets no change start that has not reached step 3. -/
def takeoverWaitEnd (s : State) : State :=
  match s.twin.change with
  | .incoming stale => if s.mode == mHoldup then changeOver s else takeRole s stale
  | _ => s

/-- DRIVING_FRAME, step 4. -/
def drivingFrame (s : State) : State :=
  let s := if isTwin s && s.mode != mHoldup then goodFrame s else s
  if s.twin.change == .outgoing then becomeStandby s else s

/-- DRIVING_TIMEOUT. -/
def drivingTimeout (s : State) : State :=
  if s.twin.change == .outgoing then becomeStandby (s.raiseOnce 48 0 1 0 0) else s

/-! ### Tokens (R302, R303, R482) -/

/-- R293: the Hallmark permits the side. -/
def sidePermitted (s : State) : Bool := twinSide s == 0 || twinSide s == 3 || bitOf (s.get F.TWIN_CFG_PERM) (twinSide s - 1)

/-- R303, check 0x4: the stamp's age against 64 cycles or 20 ms behind, 8 cycles or 2 ms ahead. -/
def tokenTimely (s : State) (t : Stamp) : Bool :=
  let d := toSigned 48 (ofSigned 48 ((s.ang.stamp.toNat : Int) - (t.toNat : Int)))
  let behind := max (64 * 2 ^ 20) (clocksToUnits s 3072000)
  let ahead := max (8 * 2 ^ 20) (clocksToUnits s 307200)
  decide (d ≤ behind) && decide (-d ≤ ahead)

/-- R303, check 0x7, with R482 for RESET. -/
def roleAllows (s : State) (type : Nat) : Bool :=
  let r := twinRole s
  isTwin s && sidePermitted s &&
    (match type with
     | 1 => r == 1 || 2 ≤ r
     | 2 => r == 1 || r == 2
     | 3 => 2 ≤ r
     | _ => false)

/-- R303: the reason code that rejects a token; 0 accepts it. -/
def tokenReason (s : State) (c : RingCell) : Nat :=
  let b := natBytes c.payload
  if s.security == secRetired || cmac s.sec.key (b.take 24) != (b.drop 24).take 16 then 1
  else if payNat c 2 2 ≠ s.get F.TWIN_PAIR_ID ∨ payNat c 4 2 ≠ ringAddr s ∨ payNat c 6 2 ≠ s.get F.TWIN_PAIR_PEER then 2
  else if !s.angRun then 3
  else if !tokenTimely s (payStamp c 12) then 4
  else if payNat c 8 4 ≤ s.get F.TWIN_TOKEN_SEQ then 5
  else if s.mode == mHoldup || s.twin.change != .none then 6
  else if !roleAllows s (payNat c 0 1) then 7
  else 0

def rejectToken (s : State) (r : Nat) : State := (twinEvt s F.TWIN_EVT_TOKEN_REJ 3).raise 52 0 1 0 r

def acceptToken (s : State) (c : RingCell) : State :=
  twinEvt ((s.put F.TWIN_TOKEN_SEQ (payNat c 8 4)).endCond 52 0) F.TWIN_EVT_TOKEN_OK 2

/-- R303, R304: a TAKE. -/
def takeToken (s : State) (staleFlag : Bool) : State :=
  if twinRole s == 1 || roleFrozen s then s
  else
    let stale := staleFlag || !s.flag F.TWIN_STATUS_MIRROR_FRESH
    if linkUp s then
      sendFrame ((s.put F.TWIN_STATUS_CHANGING 1).modTwin fun t => { t with change := .incoming stale }) .takeover
    else takeRole s stale

/-- TOKEN, R303: TAKE or RELINQUISH. -/
def tokenCell (s : State) (c : RingCell) : State :=
  let r := tokenReason s c
  if r ≠ 0 then rejectToken s r
  else
    let s := acceptToken s c
    match payNat c 0 1 with
    | 1 => takeToken s (bitOf (payNat c 1 1) 0)
    | 2 => if twinRole s == 1 && !roleFrozen s then becomeStandby s else s
    | _ => s

/-- HANDOVER_TIMEOUT, R306. -/
def handoverTimeout (s : State) : State :=
  if s.flag F.TWIN_STATUS_HO_PEND then
    let l := s.seq.hoRails
    let s := (s.put F.TWIN_STATUS_HO_PEND 0).modSeq fun t => { t with hoRails := [] }
    let s := s.raiseMomentary 51 0 1 1
    l.foldl (fun s n => match quireOf s n with | some q => shutQuire s q | none => latchOff s n) s
  else s

/-- WARDEN_ACK_TIMEOUT, R311. -/
def ackTimeout (s : State) : State :=
  if isTwin s then
    let s := if s.flag F.TWIN_STATUS_WARDEN_OK then twinEvt (s.put F.TWIN_STATUS_WARDEN_OK 0) F.TWIN_EVT_WDN_LOST 10 else s
    (s.put F.TWIN_STATUS_FROZEN 1).raiseOnce 50 0 1 0 0
  else s

/-- HB_ACK, R311. -/
def ackCell (s : State) (c : RingCell) : State :=
  if isTwin s && payNat c 0 2 == s.get F.TWIN_PAIR_ID then
    let s := if s.flag F.TWIN_STATUS_WARDEN_OK then s else twinEvt (s.put F.TWIN_STATUS_WARDEN_OK 1) F.TWIN_EVT_WDN_BACK 11
    (s.put F.TWIN_STATUS_FROZEN 0).endCond 50 0
  else s

/-! ### The Warden (R300 to R302, R309) -/

def wpair (s : State) (k : Nat) : WdnPair := vget s.wdn k
def State.modPair (s : State) (k : Nat) (f : WdnPair → WdnPair) : State := { s with wdn := vmod s.wdn k f }

def isWarden (s : State) : Bool := s.flag F.WDN_CFG_EN && s.flag F.TWIN_CFG_WDN_PERM
def pairServed (s : State) (k : Nat) : Bool := isWarden s && s.flag (F.WDN_PAIRk_CFG_VALID k)
def hbMiss (s : State) (k : Nat) : Nat := max 2 (s.get (F.WDN_PAIRk_CFG_HB_MISS k))

/-- The side's heartbeat, `false` for TWIN_A. -/
def WdnPair.beat (p : WdnPair) (b : Bool) : WdnBeat := if b then p.b else p.a
def WdnPair.setBeat (p : WdnPair) (b : Bool) (x : WdnBeat) : WdnPair := if b then { p with b := x } else { p with a := x }

def nodeOf (s : State) (k : Nat) (b : Bool) : Nat := s.get (if b then F.WDN_PAIRk_NODES_B k else F.WDN_PAIRk_NODES_A k)

/-- R301: HB_MISS judgments in a row have passed without a heartbeat. -/
def silent (s : State) (k : Nat) (b : Bool) : Bool :=
  decide (hbMiss s k ≤ ((wpair s k).beat b).miss) && !((wpair s k).beat b).came
def sideReady (s : State) (k : Nat) (b : Bool) : Bool := ((wpair s k).beat b).ready && !silent s k b
def sideActive (s : State) (k : Nat) (b : Bool) : Bool := ((wpair s k).beat b).role == 1

/-- WDN_PAIRk_STATUS follows. -/
def syncPair (s : State) (k : Nat) : State :=
  let n (b : Bool) : Nat := if b then 1 else 0
  let s := s.put (F.WDN_PAIRk_STATUS_ACTIVE k) (n (sideActive s k false) + 2 * n (sideActive s k true))
  let s := (s.putB (F.WDN_PAIRk_STATUS_A_SILENT k) (silent s k false)).putB (F.WDN_PAIRk_STATUS_B_SILENT k) (silent s k true)
  (s.putB (F.WDN_PAIRk_STATUS_A_READY k) ((wpair s k).beat false).ready).putB (F.WDN_PAIRk_STATUS_B_READY k)
    ((wpair s k).beat true).ready

/-- HEARTBEAT, R300, R301. -/
def heartbeatCell (s : State) (c : RingCell) : State :=
  match (below 8).find? fun k => pairServed s k && s.get (F.WDN_PAIRk_CFG_ID k) == payNat c 22 2 &&
      (nodeOf s k false == c.src.toNat || nodeOf s k true == c.src.toNat) with
  | none => s
  | some k =>
    let b := nodeOf s k false != c.src.toNat
    let f := payNat c 1 1
    let beat : WdnBeat := ⟨((wpair s k).beat b).miss, true, true, payNat c 0 1 % 4, bitOf f 0, bitOf f 3, bitOf f 4, f / 32 % 4, payNat c 2 2, BitVec.ofNat 64 (payNat c 4 8)⟩
    let s := s.modPair k fun p => p.setBeat b beat
    let p := wpair s k
    let differ := if p.a.seen && p.b.seen && p.a.map != p.b.map then p.differ + 1 else 0
    let s := s.modPair k fun p => { p with differ := differ }
    let s := if differ = hbMiss s k then twinEvt s F.TWIN_EVT_WDN_DIVERGE 20 else s
    let s := syncPair s k
    if s.flag F.RING_GRANT_HB_OK then
      originate s c.src.toNat 0xD 2 (beBytes 2 (payNat c 22 2) ++ [0, 0] ++ beBytes 4 (s.get (F.WDN_PAIRk_SEQ_SEQ k)))
    else s

/-- R302: a token of a pair is issued to a side. -/
def issueToken (s : State) (k : Nat) (b : Bool) (type : Nat) (stale : Bool) : State :=
  let seq := (s.get (F.WDN_PAIRk_SEQ_SEQ k) + 1) % 2 ^ 32
  let s := s.put (F.WDN_PAIRk_SEQ_SEQ k) seq
  let body := [type, if stale then 1 else 0] ++ beBytes 2 (s.get (F.WDN_PAIRk_CFG_ID k)) ++ beBytes 2 (nodeOf s k b) ++
    beBytes 2 (nodeOf s k (!b)) ++ beBytes 4 seq ++ stampBytes s.ang.stamp ++ zeros 6
  let s := if type = 1 then s.modPair k fun p => { p with last := some b } else s
  originateBoth (twinEvt s F.TWIN_EVT_WDN_TOKEN 17) (nodeOf s k b) 0xB 1 (body ++ cmac s.sec.key body)

/-- A `SWITCH_BACK` of the pair completes once its TAKE is issued (R404). -/
def switchDone (s : State) (k : Nat) : State :=
  finishC (s.modPair k fun p => { p with back := false })
    (fun c => c.opcode == 0x0500 && (c.params.headD 0).toNat % 65536 == s.get (F.WDN_PAIRk_CFG_ID k)) stOk []

/-- R301: an event where a twin is silent. -/
def silentEvent (s : State) (k : Nat) : State :=
  if silent s k false || silent s k true then twinEvt s F.TWIN_EVT_WDN_SILENT 18 else s

/-- R301: the first row that holds decides, where neither twin is active. -/
def judgeNone (s : State) (k : Nat) : State :=
  let pref := s.flag (F.WDN_PAIRk_CFG_PREF k)
  let alone := !sideReady s k pref && sideReady s k (!pref)
  let s := s.modPair k fun p => { p with wait := if alone then p.wait + 1 else 0 }
  if sideReady s k pref then issueToken s k pref 1 false
  else if alone && decide (s.get (F.WDN_PAIRk_CFG_START_TO k) * 100 ≤ (wpair s k).wait * period (s.get F.WDN_CFG_HB_PER)) then
    issueToken s k (!pref) 1 false
  else silentEvent s k

/-- R301: the first row that holds decides, where one twin, `act`, is active. -/
def judgeOne (s : State) (k : Nat) (act : Bool) : State :=
  let p := wpair s k
  let sb := !act
  let x := p.beat act
  let y := p.beat sb
  let aged := decide (hbMiss s k * period (s.get F.WDN_CFG_HB_PER) * 10 ≤ y.linkAge)
  let takeAndRelease (s : State) : State := issueToken (s.modPair k fun p => { p with owed := some act }) k sb 1 false
  if x.hoReq && sideReady s k sb then takeAndRelease s
  else if silent s k act && sideReady s k sb && aged then issueToken s k sb 1 false
  else if silent s k act && !silent s k sb && !y.linkUp && s.flag (F.WDN_PAIRk_CFG_STALE_TAKE k) then issueToken s k sb 1 true
  else if p.back && sideReady s k sb then switchDone (takeAndRelease s) k
  else if y.role == 2 && p.last != some act then issueToken (issueToken s k act 1 false) k sb 2 false
  else if silent s k act && !silent s k sb && y.linkUp then twinEvt s F.TWIN_EVT_WDN_ISOLATED 19
  else silentEvent s k

/-- R301: a pair is judged. A RELINQUISH that is owed goes out once the other twin is active; until then the rows decide as
ever, and a TAKE is repeated (R312). -/
def judgePair (s : State) (k : Nat) : State :=
  let a := sideActive s k false
  let b := sideActive s k true
  let owed := match (wpair s k).owed with | some x => sideActive s k (!x) | none => false
  let idle (s : State) : State := s.modPair k fun p => { p with wait := 0 }
  if owed then
    match (wpair s k).owed with
    | some x => issueToken ((idle s).modPair k fun p => { p with owed := none }) k x 2 false
    | none => s
  else if !a && !b then judgeNone s k
  else if a && b then silentEvent (idle s) k
  else judgeOne (idle s) k b

/-- WARDEN_JUDGMENT, R301: a period has ended; a side without a heartbeat in it has missed one more judgment. -/
def judgeAll (s : State) : State :=
  s.forEach (below 8) fun s k =>
    if !pairServed s k then s
    else
      let count (x : WdnBeat) : WdnBeat := if x.came then { x with miss := 0, came := false } else { x with miss := x.miss + 1 }
      let s := s.modPair k fun p => { p with a := count p.a, b := count p.b }
      judgePair (syncPair s k) k

/-- SWITCH_BACK, R309: the status that refuses it, or none, the request waiting. -/
def switchBack (s : State) (pair : Nat) : State × Nat :=
  match (below 8).find? fun k => pairServed s k && s.get (F.WDN_PAIRk_CFG_ID k) == pair with
  | none => (s, stNotWarden)
  | some k =>
    let a := sideActive s k false
    let b := sideActive s k true
    if a == b || !sideReady s k (!b) then (s, stNotReady)
    else (s.modPair k fun p => { p with back := true }, stOk)

/-- R482: `RST_WDN.GO`: the status that refuses the order, or OK, the token sent. -/
def resetOrder (s : State) : State × Nat :=
  let k := s.get F.RST_WDN_PAIR
  let b := s.flag F.RST_WDN_SIDE
  if !pairServed s k then (s, stNotWarden)
  else if sideActive s k b then (s, stNotReady)
  else (issueToken s k b 3 false, stOk)

/-- R427: what changed in a step is told at once: a handover request to the Warden; to the standby, an item of
the configuration image, latches and Quire states (R295). -/
def twinFollow (old s : State) : State :=
  let s := syncReady s
  let s :=
    if !old.flag F.TWIN_STATUS_HO_PEND && s.flag F.TWIN_STATUS_HO_PEND then ringBeat s else s
  if twinRole s == 1 && linkUp s && twinRole old == 1 then
    let s := if old.regs == s.regs || configImage old == configImage s then s else sendFrame s (.config (configImage s))
    let s := if latchWord old == latchWord s then s else sendFrame s (.latches (latchWord s))
    s.forEach quires fun s q =>
      if old.reg (R.QUIREq_STATUS q) == s.reg (R.QUIREq_STATUS q) then s else sendFrame s (.quire q (quireMirror s q))
  else s

end Sys2Proof.Machine
end

