-- ==== Sys2Proof/Machine/Modes.lean ====
section
/-! DEFINITION. The operating mode, the security state and the debug level as they move (spec/01_cell_architecture.md
R17 to R19; spec/17_modes_security_debug.md R445 to R465), and what follows a command at once in other blocks. -/

namespace Sys2Proof.Machine

def State.modSec (s : State) (f : SecState → SecState) : State := { s with sec := f s.sec }

/-- SEC_EVT bit b is EV208 + b (R472). -/
def secEvent (s : State) (f : Field) (bit : Nat) : State := s.evtBit f (208 + bit)

/-! ### Calibrations (spec/04_rail_fine_path.md R106) -/

/-- A calibration runs. -/
def calsRun (s : State) : Bool := s.pool.cal.isSome || (below 64).any fun n => (s.fr n).cal.isSome

/-- Every calibration ends with `CAL_ABORTED`. -/
def abortCals (s : State) : State := abortPoolCal (s.forEach (below 64) abortRailCal)

/-! ### The mode (R18) -/

/-- The mode changes, with what each block does of itself at a change of mode: the fine paths (R86), the Benches
(R137), the calibrations (R106), the Assay. -/
def setMode (s : State) (m : Nat) : State :=
  if s.mode = m then s
  else
    let s := secEvent (s.put F.SEC_STATE_MODE m) F.SEC_EVT_MODE_CHANGED 0
    let s := s.modSec fun x => { x with autoRet := false, toGuard := false }
    let s := s.modMarg fun x => { x with svcWork := false }
    let s := if m = mCommission ∨ m = mService then s else abortCals s
    let s := if m = mQuiescent then poolQuiescent s else s
    syncAssay (syncAllFineRun s)

/-- A step of the Quire sequencer is in progress (R17). -/
def anyStep (s : State) : Bool := quires.any (stepInProgress s)

def anyEnabled (s : State) : Bool := (below 64).any (enLatch s)

/-- R18, R397, R457: the work of SERVICE has ended, and the mode is to be GUARD. -/
def serviceOver (s : State) : Bool :=
  s.mode == mService && !workAtAll s && !calsRun s && (s.sec.toGuard || (s.sec.autoRet && s.marg.svcWork))

/-- R17: QUIESCENT has no rail enabled. A twin whose latches follow its peer's (R295) may find one on: it passes RAMP to
GUARD, the way that R18 leaves open (DEDUCED, log entry 81). -/
def quiescentLit (s : State) : Bool := s.mode == mQuiescent && anyEnabled s

/-- R18: a Quire step that is, or in this step was, in progress: SERVICE, GUARD and QUIESCENT become RAMP, but never in
Retired. The Hallmark down-order of a Fatal reaction in COMMISSION leaves the mode, for R18 has no way from COMMISSION to
RAMP (DESIGN CHOICE, log entry 82). -/
def rampEnter (s : State) : State :=
  if anyStep s || s.seq.ran || quiescentLit s then
    let s := s.modSeq fun t => { t with ran := false }
    if s.security = secRetired then s
    else if s.mode = mService then setMode (abortWork s 6 true) mRamp
    else if s.mode = mGuard ∨ s.mode = mQuiescent then setMode s mRamp else s
  else s

/-- R18: no Quire step is in progress: RAMP becomes GUARD or QUIESCENT, and GUARD with no rail enabled QUIESCENT. -/
def rampLeave (s : State) : State :=
  if anyStep s then s
  else if s.mode = mRamp then setMode s (if anyEnabled s then mGuard else mQuiescent)
  else if s.mode = mGuard ∧ !anyEnabled s then setMode s mQuiescent
  else s

/-- R18: the transitions that need no command. -/
def modeSettle (s : State) : State := rampLeave (rampEnter (if serviceOver s then setMode s mGuard else s))

/-! ### Debug levels (R459, R461) -/

/-- `DEBUG_SET` changes the level. -/
def setDebug (s : State) (d : Nat) : State :=
  let was := s.get F.SEC_STATE_DEBUG
  if was = d then s
  else
    let s := secEvent (s.put F.SEC_STATE_DEBUG d) F.SEC_EVT_DEBUG_CHANGED 9
    if d = 2 then
      let s := haltSeq (s.put F.CMD_STATUS_HALTED 1)
      pauseSounding (s.forEach (below 64) fun s n => abortTest s n 9 false false) true
    else if was = 2 then resumeSounding (unhaltSeq (s.put F.CMD_STATUS_HALTED 0)) true
    else s

/-! ### Escorted sessions (R455 to R458) -/

/-- R457: the session ends. In SERVICE its work ends, and the mode becomes GUARD once every return has completed. -/
def endSession (s : State) : State :=
  if s.security = secEscorted then
    let s := secEvent (s.put F.SEC_STATE_SECURITY secSealed) F.SEC_EVT_ESC_END 6
    let s := (s.put F.SEC_ESC_STATUS_REMAIN 0).modSec fun x => { x with ks := [] }
    if s.mode = mService then
      (abortCals (abortWork s 8 false)).modSec fun x => { x with toGuard := true }
    else s
  else s

/-- SESSION_TIMEOUT, R457. -/
def sessionTimeout (s : State) : State :=
  if s.security = secEscorted then endSession (secEvent s F.SEC_EVT_ESC_TIMEOUT 7) else s

/-- The challenge is withdrawn. -/
def dropChallenge (s : State) : State := (s.put F.SEC_STATE_CHALLENGE 0).modSec fun x => { x with chal := none }

/-- ESCORT_LOCKOUT_END, R458. -/
def lockoutEnd (s : State) : State := s.put F.SEC_ESC_STATUS_LOCKOUT 0

/-- R457: the session's timeout, in seconds. -/
def escTimeout (s : State) : Nat :=
  let t := s.get F.SEC_ESC_CFG_TIMEOUT
  if t = 0 then 60 else t

/-- REMAIN and LOCKOUT count down once per second. The end of each is a command of its own. -/
def tickSec (s : State) : State :=
  let s := s.modSec fun x => { x with ticks := x.ticks + 1 }
  if s.sec.ticks < 10240000 then s
  else
    let s := s.modSec fun x => { x with ticks := 0 }
    let s := s.put F.SEC_ESC_STATUS_REMAIN (s.get F.SEC_ESC_STATUS_REMAIN - 1)
    s.put F.SEC_ESC_STATUS_LOCKOUT (s.get F.SEC_ESC_STATUS_LOCKOUT - 1)

/-! ### Fuses (R450, R451, R466, R468) -/

/-- The seal fuses are blown. -/
def blowSeal (s : State) : State := (s.put F.HM_STATUS_SEAL 1).modSec fun x => { x with sealed := true }

/-- The FACTORY_OPEN fuses are blown. -/
def blowOpen (s : State) : State := (s.put F.HM_STATUS_FACTORY_OPEN 0).modSec fun x => { x with open' := false }

def blowRetire (s : State) : State := (s.put F.HM_STATUS_RETIRE 1).modSec fun x => { x with retired := true }

/-- R451: every fuse of the command key and of the debug key digest is blown. -/
def blowKeys (s : State) : State :=
  let s := (s.put F.HM_STATUS_KEY_SET 1).modSec fun x => { x with keyBlown := true }
  s.forEach (below 8) fun s k => s.setReg (R.HM_DBG_DIGESTk k) 0xFFFFFFFF

/-- R467: CLOSE_FACTORY of a Hallmark image. -/
def closesFactory (image : List Nat) : Bool := bitOf (image.getD 171 0) 0

/-- R468: the image's bits and HM_VALID are blown. The values wait for the next fuse read. -/
def blowImage (s : State) : State :=
  match s.sec.imageIn with
  | some (bytes, _, _) =>
    ((s.put F.HM_STATUS_VALID 1).put F.HM_STATUS_PENDING 1).modSec fun x => { x with image := bytes, hmValid := true }
  | none => s

def blowImageOpen (s : State) : State := if closesFactory s.sec.image then blowOpen s else s

/-- The fuse groups of a job in the order in which they are blown. -/
def fuseGroups : FuseJob → List (State → State)
  | .seal => [blowSeal, blowOpen]
  | .retire => [blowRetire, fun s => blowOpen (blowSeal s), blowKeys]
  | .program => [blowImage, blowImageOpen]

def jobOpcode : FuseJob → Nat
  | .seal => 0x0603
  | .retire => 0x0604
  | .program => 0x0205

/-- R465: HOLDUP stops the fuse programming: the first `blown` groups stay blown, and the command ends. -/
def cutFuses (s : State) (blown : Nat) : State :=
  match s.sec.job with
  | none => s
  | some j =>
    let s := ((fuseGroups j).take blown).foldl (fun s f => f s) s
    finishC (s.modSec fun x => { x with job := none }) (fun c => c.opcode == jobOpcode j) stHoldup (refusalWords noWord 0)

/-- R451, R452: the device becomes Retired. Its role is UNASSIGNED, so a twin that was in service releases its work (R216) and its
ports fall silent (R238). -/
def becomeRetired (s : State) : State :=
  let s := ((fuseGroups .retire).foldl (fun s f => f s) s)
  let s := endSession s
  let s := secEvent (s.put F.SEC_STATE_SECURITY secRetired) F.SEC_EVT_RETIRED 4
  let s := allOff s
  if twinRole s < 2 then pmStandby (workRoleOut (setRole s 3)) else setRole s 3

/-- R450: the device becomes Sealed. -/
def becomeSealed (s : State) : State :=
  let s := ((fuseGroups .seal).foldl (fun s f => f s) s)
  setMode (secEvent (s.put F.SEC_STATE_SECURITY secSealed) F.SEC_EVT_SEALED 3) mQuiescent

/-- FUSE_BLOW_DONE, R450, R451, R468. `majority`: the fuses that decide are blown by majority; `weak`: fuses among them
that disagree. The manual gives RETIRE no failed verification (log entry 61). -/
def fuseBlowDone (s : State) (majority : Bool) (weak : Nat) : State :=
  match s.sec.job with
  | none => s
  | some j =>
    let s := s.modSec fun x => { x with job := none }
    let fin (s : State) (ok : Bool) (res : List Word) : State :=
      finishC s (fun c => c.opcode == jobOpcode j) (if ok then stOk else stFuseFail) (if ok then res else refusalWords noWord 0)
    match j, majority with
    | .seal, true => fin ((becomeSealed s).addSat F.HM_STATUS_WEAK weak) (weak == 0) []
    | .retire, true => fin (becomeRetired s) (weak == 0) []
    | .seal, false => fin (blowOpen s) false []
    | .retire, false => fin s false []
    | .program, true =>
      let n := match s.sec.imageIn with | some (b, _, _) => b.length | none => 0
      let s := secEvent (blowImageOpen (blowImage s)) F.SEC_EVT_FUSES_PROGRAMMED 11
      fin (s.modSec fun x => { x with imageIn := none }) true [BitVec.ofNat 32 n]
    | .program, false =>
      let s := (s.put F.HM_STATUS_FAIL 1).modSec fun x => { x with hmFail := true, imageIn := none }
      fin (s.raise 75 0 1 0 0) false []

/-! ### Hold-up (R446, R447, R532) -/

/-- R483: the pending auto-start ends: 1 started, 2 refused, 3 abandoned. -/
def endAuto (s : State) (result : Nat) : State :=
  if s.flag F.RST_STATUS_AUTO_PEND then (s.put F.RST_STATUS_AUTO_PEND 0).put F.RST_STATUS_AUTO_RESULT result else s

/-- A `MODE_SET` that waits for SERVICE to end. -/
def isModeSet (c : Cmd) : Bool := c.opcode == 0x0100

/-- R446: the device enters HOLDUP. -/
def enterHoldup (s : State) (blown : Nat) : State :=
  let s := cutFuses (endAuto (forceDebugOff s) 3) blown
  let s := finishC s isModeSet stHoldup (refusalWords noWord 0)
  let s := abortWork (hallmarkStart s) 6 true
  let s := assayHoldup (poolHoldup (abortCals s))
  let s := secEvent (setMode s mHoldup) F.SEC_EVT_HOLDUP_IN 1
  let s := ringHoldup (pmHoldup s)
  nvmHoldup (s.modTwin fun t => { t with tx := [], line := none })

/-- HOLDUP_ENTRY, R446, R532. `blown`: groups of fuses already blown of the job that HOLDUP stops. -/
def holdupEntry (s : State) (blown : Nat) : State :=
  let s := s.put F.SEC_STATE_HU_PRESENT 0
  if s.rst.phase = .por ∨ s.mode = mHoldup then s
  else if s.mode = mStartup then { s with rst := { s.rst with holdDet := true } }
  else enterHoldup s blown

/-- HU_POWER_RETURN, R447. -/
def powerReturn (s : State) : State := s.put F.SEC_STATE_HU_PRESENT 1

/-- R447: the three conditions for leaving HOLDUP. -/
def holdupOver (s : State) : Bool :=
  s.mode == mHoldup && !s.flag F.SEQ_STATUS_HM_RUN && nvmHoldupDone s && s.flag F.SEC_STATE_HU_PRESENT

/-- R447: the device leaves HOLDUP for QUIESCENT. -/
def leaveHoldup (s : State) : State :=
  eraseNextTwo (pmResume (ringResume (secEvent (setMode s mQuiescent) F.SEC_EVT_HOLDUP_OUT 2)))

/-! ### What follows at once (R18, R216, R292, R372, R430) -/

/-- R216: the guard faults of R69 on a rail that margining or a Sounding works on. -/
def guardFaultNew (old s : State) (n : Nat) : Bool :=
  [0, 2, 3].any fun k => s.condStands k n && !old.condStands k n

def workGuardFaults (old s : State) : State :=
  if workAtAll s && old.flt.msgs.length < s.flt.msgs.length then
    s.forEach ((below 64).filter fun n => workOwns s n && guardFaultNew old s n) fun s n =>
      leaveSweep (abortTest s n 4 false false) n false
  else s

/-- R199, R216: a slice substitution that starts, and a fine path declared out of service. -/
def workSpares (old s : State) : State :=
  let s := match old.spare.sub, s.spare.sub with
    | none, some b => if workOwns s b.rail then workSubst s b.rail else s
    | _, _ => s
  if old.spare.guardOnly = s.spare.guardOnly then s
  else
    s.forEach ((below 64).filter fun n =>
      workOwns s n && s.spare.guardOnly.getLsbD n && !old.spare.guardOnly.getLsbD n) workOos

/-- R397: a `MODE_SET` that waited for the returns has its final reply. -/
def modeReply (s : State) : State :=
  if s.mode != mService && !workAtAll s then finishAll s isModeSet stOk [BitVec.ofNat 32 s.mode] else s

/-- A message's place among those of its edge: before the first of a higher source. -/
def byPort (m : FaultMsg) : List FaultMsg → List FaultMsg
  | [] => [m]
  | x :: rest => if m.source < x.source then m :: x :: rest else x :: byPort m rest

/-- R276: the messages that one command sends are on one edge, and enter in ascending source order. -/
def portOrder (old s : State) : State :=
  let k := old.flt.msgs.length
  s.modFlt fun f => { f with msgs := f.msgs.take k ++ (f.msgs.drop k).foldl (fun l m => byPort m l) [] }

/-- What follows every command: R199 and R216 for work on a rail, the transitions of R18, barrier arrivals, the twin's
frames, the events of a suspension, and the order of the fault messages sent. `old` is the state before. -/
def settle (old s : State) : State :=
  let s := modeReply (modeSettle (workSpares old (workGuardFaults old s)))
  portOrder old (syncTxdis (suspensionEvents old (twinFollow old (flushArrivals s))))

/-- A command's effect, with what follows it. -/
def run (s : State) (f : State → State) : Host.Outcome State Fault Refusal := .next (settle s (f s))

end Sys2Proof.Machine
end

