-- ==== Sys2Proof/Machine/RegRead.lean ====
section
/-! DEFINITION. What a read of a register returns (spec/00_scope.md R2 to R4; spec/14_command_engine.md R376, R377),
with the registers that show what lives elsewhere in the state. -/

namespace Sys2Proof.Machine

/-! ### Addresses -/

/-- R4, R525, R526: the address lies in a block's range, on a word boundary. -/
def addrOk (a : Nat) : Bool := a % 4 == 0 && decide (a < 0x8000) && !(decide (0x6400 ≤ a) && decide (a < 0x6800))

/-- Where the element that a window register shows is held; the address itself for a register of its own. -/
def elementOf (s : State) (a : Nat) : Nat :=
  if 0x2400 ≤ a ∧ a < 0x2800 then
    let q := (a - 0x2400) / 0x40
    let w := (a - 0x2400) % 0x40
    if 0x18 ≤ w ∧ w < 0x30 then R.quireStep q (s.reg (R.QUIREq_STEP_IDX q) % 32) ((w - 0x18) / 4) else a
  else if a = R.POOL_CAL_OFFSET then let (g, x) := poolCalIdx s; R.poolPair g x 0
  else if a = R.POOL_CAL_GAIN then let (g, x) := poolCalIdx s; R.poolPair g x 1
  else if a = R.ASSAY_SF_GAIN then R.sliceFactor (s.get F.ASSAY_SF_IDX_SLICE) 0
  else if a = R.ASSAY_SF_OFFSET then R.sliceFactor (s.get F.ASSAY_SF_IDX_SLICE) 1
  else if a = R.MARG_CAP then R.margCap (s.get F.MARG_CAP_IDX_RAIL)
  else if a = R.HM_ORDER_LO then R.hmStage (s.get F.HM_ORDER_IDX_STAGE) 0
  else if a = R.HM_ORDER_HI then R.hmStage (s.get F.HM_ORDER_IDX_STAGE) 1
  else if a = R.HM_ORDER_CFG then R.hmStage (s.get F.HM_ORDER_IDX_STAGE) 2
  else if R.SND_RES_FREQ ≤ a ∧ a ≤ R.SND_RES_PHASE then
    R.sndRes (s.get F.SND_RES_IDX_RAIL) (s.get F.SND_RES_IDX_POINT) ((a - R.SND_RES_FREQ) / 4)
  else if R.SND_SUM_H0 ≤ a ∧ a ≤ R.SND_ARC_CNT then R.sndSum (s.get F.SND_RES_IDX_RAIL) ((a - R.SND_SUM_H0) / 4)
  else a

/-! ### Registers that show the state of the engine (spec/14_command_engine.md R388) -/

def slotted (c : Cmd) : Bool := match c.phase with | .waiting | .abandoned => false | _ => true

/-- Commands that hold a slot. -/
def slotsUsed (s : State) : Nat := (s.eng.cmds.filter slotted).length

def waitingCmds (s : State) : Nat := (s.eng.cmds.filter fun c => c.phase == .waiting).length

/-- Class C commands at work. -/
def classCRunning (s : State) : Nat := (s.eng.cmds.filter fun c => c.phase == .running && opClass c.opcode == some 2).length

def cmdStatusWord (s : State) : Nat :=
  let k := suspension s
  let keep := s.reg R.CMD_STATUS / 2 ^ 29 * 2 ^ 29
  let fb := s.ang.relocking
  keep + (if k = 0 then 0 else 2 ^ 28) + (if fb then 2 ^ 27 else 0) + (if k = 2 then 2 ^ 26 else 0) +
    min 127 (slotsUsed s) * 2 ^ 16 + min 255 (waitingCmds s) * 2 ^ 8 + min 15 (classCRunning s)

/-- R368: a tag is in use from acceptance until its final reply has left the queue. -/
def tagInUse (s : State) (p : Port) (t : Nat) : Bool :=
  (s.eng.cmds.any fun c => c.port == p && c.tag == t) ||
    (s.outQueue p).any fun i => !i.notice && i.final && i.tag == t

def tagCount (s : State) (p : Port) : Nat := ((below 128).filter (tagInUse s p)).length

def noticeCount (s : State) (p : Port) : Nat := ((s.outQueue p).filter (·.notice)).length

def portStatusWord (s : State) (p : Port) : Nat :=
  let keep := s.reg (R.CMD_Pp_STATUS (portIdx p)) / 2 ^ 29 * 2 ^ 29
  keep + min 31 (noticeCount s p) * 2 ^ 24 + min 255 ((s.outQueue p).length - noticeCount s p) * 2 ^ 16 + tagCount s p * 2 ^ 8

def tagWord (s : State) (p : Port) (k : Nat) : Nat :=
  (below 32).foldl (fun m b => if tagInUse s p (32 * k + b) then m + 2 ^ b else m) 0

/-- R455: the port of the session. -/
def sessionPort (s : State) : Port := if s.flag F.SEC_STATE_ESC_PORT then .ring else .host

/-- R453, R455: the last accepted sequence of the key in force on the port. -/
def authSeq (s : State) (p : Port) : Nat :=
  if s.security = secEscorted ∧ sessionPort s = p then s.sec.ksSeq else vget s.sec.kbSeq (portIdx p)

/-! ### The Colophon (R485) -/

/-- Colophon word `k`; words 8 to 10 and 12 to 31 follow their sources. -/
def colophonWord (s : State) (k : Nat) : Nat :=
  if k = 8 then s.reg R.RST_CAUSE
  else if k = 9 then s.reg R.RST_CNT
  else if k = 10 then s.reg (R.COL_Wk 10)
  else if 12 ≤ k ∧ k < 32 then ofBytes ((spareMapBytes s (mapSeq s)).drop (4 * (k - 12)) |>.take 4)
  else s.reg (R.COL_Wk k)

/-! ### Reads -/

/-- R356: the host port signals on HOST_IRQ_N. -/
def hostSignal (s : State) : Bool := s.flag (F.CMD_Pp_CFG_IRQ_REPLY 0) && !s.eng.outHost.isEmpty

/-- What a register shows, read without any effect. -/
def peek (s : State) (a : Nat) : Nat :=
  if a < 0x80 then colophonWord s (a / 4)
  else if a = R.EVT_SUMMARY then evtSummary s (hostSignal s)
  else if a = R.RING_EVQ then (F.RING_EVQ_LEVEL).insert (s.reg a) s.evq.length
  else if 0x6900 ≤ a ∧ a < 0x7000 ∧ !isMaster s then 0
  else if a = R.CMD_STATUS then cmdStatusWord s
  else if a = R.SEQ_STATUS then seqStatusWord s
  else if 0x2400 ≤ a ∧ a < 0x2800 ∧ (a % 64 = 0x08 ∨ a % 64 = 0x34) then
    (if a % 64 = 0x08 then quireStatusWord else quireWaitingWord) s ((a - 0x2400) / 64)
  else if 0x2400 ≤ a ∧ a < 0x2800 ∧ a % 64 = 0x04 then quireCtrlWord s ((a - 0x2400) / 64)
  else if a = R.PM_XFER_CTRL then (F.PM_XFER_CTRL_START).insert (s.reg a) (s.get F.PM_XFER_STATUS_BUSY)
  else if a = R.SND_CTRL then (if s.marg.snd.isSome then s.reg a % 2 else 0)
  else if a = R.CMD_Pp_STATUS 0 then portStatusWord s .host
  else if a = R.CMD_Pp_STATUS 1 then portStatusWord s .ring
  else if a = R.CMD_Pp_AUTHSEQ 0 then authSeq s .host
  else if a = R.CMD_Pp_AUTHSEQ 1 then authSeq s .ring
  else if a = R.LDG_RD_IDX then
    s.reg a % 2 ^ 31 + (if (ledgerWord s (s.get F.LDG_RD_IDX_SLOT) 0).isNone then 2 ^ 31 else 0)
  else if a = R.FOLIO_DATA then folioWord s (s.get F.FOLIO_IDX_BUF) (s.get F.FOLIO_IDX_WORD)
  else if a = R.LDG_RD_DATA then (ledgerWord s (s.get F.LDG_RD_IDX_SLOT) (s.get F.LDG_RD_IDX_WORD)).getD 0
  else if a = R.POOL_CAL_STATUS then
    let (g, x) := poolCalIdx s
    Nat.lor (s.reg a) (s.reg (R.poolPair g x 2))
  else
    match indexIn a (R.CMD_Pp_TAGk 0 0) 4 4, indexIn a (R.CMD_Pp_TAGk 1 0) 4 4, indexIn a (R.FLT_SRCs_STAT 0) 4 96 with
    | some k, _, _ => tagWord s .host k
    | _, some k, _ => tagWord s .ring k
    | _, _, some i => sourceStatWord s i
    | none, none, none => s.reg (elementOf s a)

/-- Whether a register belongs to the read latch of a port: the low stamp word, and what a result's read latches. -/
def latchReg (a : Nat) : Bool :=
  a == R.ANG_STAMP_LO || (decide (0x4000 ≤ a) && decide (a < 0x6000) &&
    [R.RAILn_FINE_TAG 0, R.RAILn_FINE_RAILV 0, R.RAILn_FINE_STAMP_HI 0, R.RAILn_FINE_STAMP_LO 0].contains (a % 0x80 + 0x4000)) ||
  (indexIn a (R.BENCHb_RTAG 0) 0x20 8).isSome || (indexIn a (R.BENCHb_RSTAMP_HI 0) 0x20 8).isSome ||
    (indexIn a (R.BENCHb_RSTAMP_LO 0) 0x20 8).isSome

/-- R122: a pool result register. -/
def isPoolResult (a : Nat) : Bool :=
  (indexIn a (R.BENCH_REGk_RES 0) 4 48).isSome || ((below 8).any fun b => (indexIn a (R.BENCHb_INJj_RES b 0) 4 4).isSome) ||
    a == R.POOL_HU_RES

/-- R377: the registers that every read takes live. -/
def readLive (a : Nat) : Bool :=
  latchReg a || isPoolResult a || a == R.ANG_STAMP_HI || (indexIn a (R.RAILn_FINE_RESULT 0) 0x80 64).isSome ||
    (indexIn a (R.Tn_COUNT 0) 0x20 32).isSome || (indexIn a (R.Tn_CAP 0) 0x20 32).isSome ||
    (indexIn a (R.Tn_STATUS 0) 0x20 32).isSome ||
    [R.FOLIO_DATA, R.LDG_RD_DATA, R.CMD_EPOCH, R.CMD_STATUS, R.CMD_Pp_STATUS 0, R.CMD_Pp_STATUS 1].contains a

/-- A read on a port, with the effect the register gives it. -/
def readReg (s : State) (p : Port) (a : Nat) : State × Nat :=
  if latchReg a then (s, s.latched p a)
  else if a = R.ANG_STAMP_HI then
    let s := angStampRead s p
    (s, s.latched p a)
  else if isPoolResult a then (poolResultRead s p a, peek s a)
  else if a = R.FOLIO_DATA then folioDataRead s
  else if a = R.LDG_RD_DATA then ledgerDataRead s
  else
    match indexIn a (R.RAILn_FINE_RESULT 0) 0x80 64, indexIn a (R.Tn_CAP 0) 0x20 32 with
    | some n, _ => (fineResultRead s p n, peek s a)
    | _, some n => capRead s n
    | none, none => (s, peek s a)

/-- A read row: the word goes back on the port. -/
def readRow (s : State) (p : Port) (a : Nat) : State :=
  let (s, v) := readReg s p a
  s.readBack p v

/-- R376: the registers of an image: every register as it stands, the shown ones with their values. -/
def shownRegs (s : State) : List Nat :=
  (below 32).map R.COL_Wk ++ [R.SEQ_STATUS, R.EVT_SUMMARY, R.RING_EVQ, R.CMD_Pp_AUTHSEQ 0, R.CMD_Pp_AUTHSEQ 1, R.LDG_RD_IDX] ++
    (below 4).map (R.CMD_Pp_TAGk 0) ++ (below 4).map (R.CMD_Pp_TAGk 1) ++
    [R.POOL_CAL_OFFSET, R.POOL_CAL_GAIN, R.POOL_CAL_STATUS, R.ASSAY_SF_GAIN, R.ASSAY_SF_OFFSET, R.MARG_CAP, R.HM_ORDER_LO,
      R.HM_ORDER_HI, R.HM_ORDER_CFG, R.SND_RES_FREQ, R.SND_RES_MAG, R.SND_RES_PHASE, R.SND_SUM_H0, R.SND_SUM_XOVER,
      R.SND_SUM_PM, R.SND_SUM_FLAGS, R.SND_ARC_CNT, R.SND_CTRL, R.PM_XFER_CTRL] ++
    (below 16).flatMap (fun q => [R.QUIREq_STEP0 q, R.QUIREq_STEP1 q, R.QUIREq_STEP2 q, R.QUIREq_STEP3 q, R.QUIREq_STEP4 q,
      R.QUIREq_STEP5 q, R.QUIREq_CTRL q, R.QUIREq_STATUS q, R.QUIREq_WAITING q]) ++
    (sources.filter fun i => s.condLevel i || sourceQueued s i).map R.FLT_SRCs_STAT ++
    (if isMaster s then [] else (s.regs.filter fun e => decide (0x6900 ≤ e.1) && decide (e.1 < 0x7000)).map (·.1))

def imageRegs (s : State) : RegStore := (shownRegs s).foldl (fun r a => storeSet r a (peek s a)) s.regs

end Sys2Proof.Machine
end

