-- ==== Sys2Proof/Machine/RegWrite.lean ====
section
/-! DEFINITION. What a write of a register does: the checks of spec/15_command_reference.md R394, the fields by their
types (spec/00_scope.md R2 to R4), and what each block does when one of its registers is written. -/

namespace Sys2Proof.Machine

/-! ### The register at an address -/

/-- R455: the column in which a command of a port is judged (R456). -/
def portSecurity (s : State) (p : Port) : Nat :=
  if s.security = secEscorted ∧ sessionPort s ≠ p then secSealed else s.security

/-! ### Refusals (R394) -/

/-- R299: the write is one a standby twin refuses. -/
def standbyRefuses (s : State) (a : Nat) : Bool :=
  decide (2 ≤ twinRole s) && (mirrorMask (elementOf s a) != 0 || (indexIn a (R.RAILn_EN_CTRL 0) 0x80 64).isSome ||
    (indexIn a (R.QUIREq_CTRL 0) 0x40 16).isSome || a == R.SEQ_CTRL)

/-- The Quires of a mask. -/
def quireList (m : Nat) : List Nat := quires.filter (bitOf m)

/-- The Quires a write would start: up, down. -/
def startsOf (a v : Nat) : List Nat × List Nat :=
  if a = R.SEQ_CTRL then (quireList (v % 65536), quireList (v / 65536))
  else
    match indexIn a (R.QUIREq_CTRL 0) 0x40 16 with
    | some q => (if bitOf v 0 then [q] else [], if bitOf v 1 then [q] else [])
    | none => ([], [])

/-- A work command's security, mode and role (R392, R401), as a register write meets them. -/
def workStartRefusal (s : State) (p : Port) (own : Option Nat) : Option Nat :=
  let sec := portSecurity s p
  if sec ≠ secUnsealed ∧ sec ≠ secEscorted then some stSecurityState
  else if s.mode ≠ mService then some stWrongMode
  else if 2 ≤ twinRole s then some stTwinStandby
  else own

/-- A rail would belong to two Quires (R162). -/
def memberConflict (s : State) (q a v : Nat) : Bool :=
  quires.any fun r => r != q && Nat.land (s.reg (R.QUIREq_MEMBERS_LO r + (a - R.QUIREq_MEMBERS_LO q))) v != 0

/-- R165: the refusals of a Quire's own registers. -/
def quireRefusal (s : State) (a v : Nat) : Option Nat :=
  let q := (a - 0x2400) / 0x40
  let w := (a - 0x2400) % 0x40
  let st := qState s q
  if w = 0x0C ∨ w = 0x10 then
    if memberConflict s q a v then some stMemberConflict else if st = qOff then none else some stQuireBusy
  else if 0x18 ≤ w ∧ w < 0x30 then
    if st = qOff ∨ st = qOn ∨ st = qStopped then none else some stQuireBusy
  else none

/-- The refusals of the registers of a rail. -/
def railWriteRefusal (s : State) (a : Nat) : Option Nat :=
  let n := (a - 0x4000) / 0x80
  let w := a % 0x80
  if w = 0x1C ∧ s.mode ≠ mCommission then some stWrongMode
  else if (w = 0x6C ∨ w = 0x70) ∧ (s.fr n).cal.isSome then some stCalBusy
  else none

/-- R166, R445: the refusals of the writes that start Quires. -/
def startRefusal (s : State) (a v : Nat) : Option Nat :=
  let (up, down) := startsOf a v
  if up.isEmpty && down.isEmpty then none
  else if s.get F.SEC_STATE_DEBUG = 2 then some stHalted
  else if (up.any fun q => startRefused s q false) || down.any (fun q => startRefused s q true) then some stQuireRefused
  else none

/-- The status with which a write ends unchanged; none where it is made. `a` is the register's own address. -/
def writeRefusal (s : State) (p : Port) (d : RegDef) (a v : Nat) : Option Nat :=
  let old := s.reg (elementOf s a)
  if s.security ≠ secUnsealed ∧ Nat.land d.rwh (Nat.xor old v) ≠ 0 then some stSealed
  else if standbyRefuses s a then some stTwinStandby
  else if 0x4000 ≤ a ∧ a < 0x6000 then railWriteRefusal s a
  else if a = R.SEQ_CTRL ∨ (indexIn a (R.QUIREq_CTRL 0) 0x40 16).isSome then startRefusal s a v
  else if 0x2400 ≤ a ∧ a < 0x2800 then quireRefusal s a v
  else if a = R.BENCH_LAYOUT then
    if layoutOk v && (below 8).all (benchStopped s) then none else some stLayoutInvalid
  else if a = R.POOL_CAL_OFFSET ∨ a = R.POOL_CAL_GAIN then if poolPairBusy s then some stCalBusy else none
  else if a = R.MARG_CTRL then
    if bitOf v 30 ∧ F.MARG_CTRL_DIR.extract v ≠ 0 then
      workStartRefusal s p (marginRefusal s (F.MARG_CTRL_RAIL.extract v) (F.MARG_CTRL_DIR.extract v))
    else none
  else if a = R.SND_CFG then if s.marg.snd.isSome then some stWorkBusy else none
  else if a = R.SND_CTRL then if bitOf v 0 then workStartRefusal s p (soundingRefusal s) else none
  else if a = R.FOLIO_CTRL then if bitOf v 30 && s.flag F.FOLIO_STATUS_ARMED then some stFolioArmed else none
  else if a = R.NVM_STORE then if s.flag F.NVM_STORE_BUSY then some stStoreBusy else none
  else if a = R.FLT_INJ then if factoryTest s then none else some stNotPermitted
  else if a = R.CMD_Pp_CFG 0 then if s.flag F.CMD_FUSE_LOCK0 then some stNotPermitted else none
  else if a = R.CMD_Pp_CFG 1 then if s.flag F.CMD_FUSE_LOCK1 then some stNotPermitted else none
  else if a = R.WDN_CFG then if bitOf v 0 && !s.flag F.TWIN_CFG_WDN_PERM then some stNotPermitted else none
  else if a = R.RST_WDN then
    if bitOf v 31 then
      let k := F.RST_WDN_PAIR.extract v
      if !isWarden s || !pairServed s k then some stNotWarden
      else if sideActive s k (bitOf v 8) then some stNotReady else none
    else none
  else
    match indexIn a (R.BENCHb_CTRL 0) 0x20 8, indexIn a (R.PMPk_CFG 0) 0x10 128, indexIn a (R.MARGn_CFG 0) 0x10 64,
      indexIn a (R.WDN_PAIRk_NODES 0) 0x10 8 with
    | some b, _, _, _ => if bitOf v 0 && benchStartRefused s b then some stBenchRefused else none
    | _, some k, _, _ => if partnerCfgOk s k v then none else some stPartnerInvalid
    | _, _, some n, _ => if testOwns s n then some stWorkBusy else none
    | _, _, _, some _ => if v / 65536 = ringAddr s ∨ v % 65536 = ringAddr s then some stWardenOwnPair else none
    | none, none, none, none => none

/-! ### What a block does when its register is written -/

/-- R379: `CMD_Pp_CFG.MODE` has been written. A change is pending while it differs from the mode in force. -/
def modeWritten (s : State) (k : Nat) : State :=
  s.putB (F.CMD_Pp_STATUS_CHANGING k) (s.get (F.CMD_Pp_CFG_MODE k) != s.get (F.CMD_Pp_STATUS_MODE_ACTIVE k))

/-- R423: `RING_CFG.MASTER` has been written. A master that yielded stays a node until the next configuration load. -/
def masterWritten (s : State) (old : Nat) : State :=
  if F.RING_CFG_MASTER.extract old == s.get F.RING_CFG_MASTER || !s.flag F.RING_FUSE_MASTER_PERM || s.ring.yielded then s
  else
    let m := s.flag F.RING_CFG_MASTER
    masterSource ((s.putB F.RING_STATUS_MASTER m).put F.RING_STATUS_ADDR (if m then 0 else 0xFFFF))

/-- R292: `TWIN_CFG.SIDE` has been written. A single device is SINGLE; a twin starts UNASSIGNED. -/
def sideWritten (s : State) : State :=
  if isTwin s then (if twinRole s = 0 then setRole s 3 else s) else setRole s 0

/-- Clocks and angle. One write of `ANG_CTRL` with RESEL and HOP_STORE reselects first, which clears LOCKED, so that nothing is
stored: the manual gives no order (DESIGN CHOICE, log entry 80). -/
def hookAngle (s : State) (a old v : Nat) : State :=
  if a = R.CLK_CTRL then
    let s := if bitOf v 0 then relock s else s
    if bitOf v 1 then refReturn s else s
  else if a = R.ANG_CFG then angCfgWritten s old
  else if a = R.ANG_CTRL then
    let s := if bitOf v 1 then angResel s else s
    if bitOf v 0 then hopStore s else s
  else if a = R.ANG_INC then angIncWrite s v
  else if a = R.ANG_FREE_INC then angFreeIncWrite s v
  else if a = R.ANG_PHASE then angPhaseWrite s v
  else s

/-- The pool and the Benches. START, STOP, ITRIG and TRIG of one write act in that order: R136 puts the injected trigger ahead
of the regular one. -/
def hookPool (s : State) (a v : Nat) : State :=
  if a = R.BENCH_LAYOUT then poolServe (syncAssay (syncPoolMap s))
  else if a = R.POOL_CAL_OFFSET then poolCoeffWrite s false v
  else if a = R.POOL_CAL_GAIN then poolCoeffWrite s true v
  else if a = R.ASSAY_CFG then poolServe (syncAssay s)
  else
    match indexIn a (R.BENCHb_CTRL 0) 0x20 8, indexIn a (R.PCn_CFG 0) 0x40 10, indexIn a (R.BENCHb_TRIG 0) 0x20 8,
      indexIn a (R.BENCHb_ITRIG 0) 0x20 8 with
    | some b, _, _, _ =>
      let s := if bitOf v 0 then benchStart s b else s
      let s := if bitOf v 1 then benchStop s b else s
      let s := if bitOf v 3 then poolServe (injTrigger s b) else s
      if bitOf v 2 then poolServe (regTrigger s b) else s
    | _, some n, _, _ =>
      if s.flag (F.PCn_CFG_KEEP_ON n) || s.flag (F.PCn_STATUS_CONVERTING n) then s else s.put (F.PCn_STATUS_POWERED n) 0
    | _, _, some b, _ => trigWritten s b false
    | _, _, _, some b => trigWritten s b true
    | none, none, none, none => s

/-- A rail's registers. -/
def hookRail (s : State) (a old v : Nat) : State :=
  let n := (a - 0x4000) / 0x80
  match a % 0x80 with
  | 0x00 => guardCfgWritten s n old
  | 0x04 | 0x08 | 0x0C => guardSettingWritten s n
  | 0x10 => s.put (F.RAILn_DIV_RATIO n) (railRatio s n)
  | 0x1C => if bitOf v 1 then latchOff s n else if bitOf v 0 then latchOn s n else s
  | 0x40 => fineCfgWritten s n old
  | 0x50 | 0x54 => fineWindowWritten s n
  | 0x6C => calCoeffWrite s n false v
  | 0x70 => calCoeffWrite s n true v
  | _ => s

/-- R166, R483: starts written to a register. -/
def hookStarts (s : State) (a v : Nat) : State :=
  let (up, down) := startsOf a v
  let s := endAuto s 3
  let s := down.foldl startDown (up.foldl startUp s)
  match indexIn a (R.QUIREq_CTRL 0) 0x40 16 with
  | some q =>
    let s := if up.isEmpty && down.isEmpty then s else s.setReg a (v % 4)
    if bitOf v 2 then resume s q else s
  | none => s

/-- Margining, Sounding, and the regulator ports. -/
def hookWork (s : State) (a old v : Nat) : State :=
  if a = R.MARG_CTRL then
    let n := F.MARG_CTRL_RAIL.extract v
    let s := if bitOf v 31 then abortTest s n 8 false false else s
    if bitOf v 30 ∧ F.MARG_CTRL_DIR.extract v ≠ 0 then startMargin s n (F.MARG_CTRL_DIR.extract v) else s
  else if a = R.SND_CTRL then
    let s := if bitOf v 1 then abortSounding s else s
    if bitOf v 0 then (startSounding s).setReg a 1 else s
  else if a = R.PM_XFER_CTRL then if bitOf v 31 then xferStart s else s
  else
    match indexIn a (R.PMp_CFG 0) 0x40 4, indexIn a (R.PMPk_CFG 0) 0x10 128 with
    | some p, _ => pmServe s p
    | _, some k => partnerCfgWritten s k old
    | none, none => s

/-- Faults, Folios, the Ledger, NVM and the Tally. -/
def hookRecord (s : State) (a old v : Nat) : State :=
  if a = R.FLT_CLEAR then hostClear s v
  else if a = R.FLT_INJ then injectWrite s v
  else if a = R.FOLIO_CTRL then
    let s := if bitOf v 29 then folioDisarm s else s
    let s := if bitOf v 30 then folioArm s else s
    let s := folioRelease s (v % 16)
    if bitOf v 31 then folioTrigger s 1 else s
  else if a = R.NVM_STORE then if v % 4 = 0 then s else startStore s (bitOf v 0) (bitOf v 1)
  else if a = R.LDG_SEC then secWrite s v
  else
    match indexIn a (R.Tn_CMP 0) 0x20 32, indexIn a (R.Tn_INTV 0) 0x20 32, indexIn a (R.Tn_CFG 0) 0x20 32,
      indexIn a (R.TALLY_OUTk 0) 4 4 with
    | some n, _, _, _ => tallyWrite s n 0 v
    | _, some n, _, _ => tallyWrite s n 1 v
    | _, _, some n, _ => tallyWrite s n 2 v
    | _, _, _, some k => outCfgWritten s k old
    | none, none, none, none => s

/-- The ring, the twins and the Warden, and the command ports. -/
def hookLink (s : State) (a old v : Nat) : State :=
  if a = R.RING_CFG then masterWritten s old
  else if a = R.RING_PUB_CFG then admitRequest s
  else if a = R.TWIN_CFG then
    let s := sideWritten s
    if F.TWIN_CFG_HB_PER.extract old == s.get F.TWIN_CFG_HB_PER then s else admitRequest s
  else if a = R.WDN_CFG then
    if F.WDN_CFG_HB_PER.extract old == s.get F.WDN_CFG_HB_PER then s else admitRequest s
  else if a = R.RST_WDN then if bitOf v 31 then (resetOrder s).1 else s
  else if a = R.CMD_Pp_CFG 0 then modeWritten s 0
  else if a = R.CMD_Pp_CFG 1 then modeWritten s 1
  else
    match indexIn a (R.RING_BARk_CFG 0) 0x20 4, indexIn a (R.RING_BARk_CTRL 0) 0x20 4, indexIn a (R.WDN_PAIRk_NODES 0) 0x10 8 with
    | some k, _, _ => clearEntry s k
    | _, some k, _ =>
      let s := if bitOf v 0 then clearEntry s k else s
      if bitOf v 1 then forceEntry s k else s
    | _, _, some k => syncPair (s.modPair k fun _ => default) k
    | none, none, none => s

/-- What follows the write of a register; `old` is its word before. -/
def regHook (s : State) (a old v : Nat) : State :=
  if 0x4000 ≤ a ∧ a < 0x6000 then hookRail s a old v
  else if a = R.SEQ_CTRL ∨ (indexIn a (R.QUIREq_CTRL 0) 0x40 16).isSome then hookStarts s a v
  else if 0x0400 ≤ a ∧ a < 0x0800 then hookAngle s a old v
  else if 0x1800 ≤ a ∧ a < 0x2400 then hookPool s a v
  else if 0x2800 ≤ a ∧ a < 0x4000 then hookWork s a old v
  else if 0x6800 ≤ a ∧ a < 0x7400 ∨ 0x7C00 ≤ a ∨ a = R.RST_WDN then hookLink s a old v
  else hookRecord s a old v

/-! ### The write -/

/-- Registers whose block takes the written value itself: at a later edge, or into another place. -/
def takenByBlock (a : Nat) : Bool :=
  [R.ANG_INC, R.ANG_FREE_INC, R.ANG_PHASE, R.POOL_CAL_OFFSET, R.POOL_CAL_GAIN, R.LDG_SEC].contains a ||
    (indexIn a (R.Tn_CMP 0) 0x20 32).isSome || (indexIn a (R.Tn_INTV 0) 0x20 32).isSome ||
    (indexIn a (R.Tn_CFG 0) 0x20 32).isSome || (indexIn a (R.RAILn_CAL_OFFSET 0) 0x80 64).isSome ||
    (indexIn a (R.RAILn_CAL_GAIN 0) 0x80 64).isSome

/-- The fields that store the written value. `CMD_P1_CFG.IRQ_REPLY` reads 0. -/
def storedMask (d : RegDef) (a : Nat) : Nat :=
  if takenByBlock a then 0
  else if a = R.CMD_Pp_CFG 1 then 0x80000000
  else if a = R.NVM_STORE then 0
  else d.rw

/-- R2: the word a register holds after a write: stored fields take the value, W1C bits written 1 clear. -/
def mergeWrite (d : RegDef) (a old v : Nat) : Nat :=
  let m := storedMask d a
  let kept := Nat.lor (Nat.land old (0xFFFFFFFF - m)) (Nat.land v m)
  Nat.land kept (0xFFFFFFFF - Nat.land d.w1c v)

/-- R434: the master's registers exist on the acting master only. -/
def absentHere (s : State) (a : Nat) : Bool := decide (0x6900 ≤ a) && decide (a < 0x7000) && !isMaster s

/-- A write without refusal. The change of a mirrored register is told to the standby with what follows the command (R295). -/
def regApply (s : State) (d : RegDef) (a v : Nat) : State :=
  let e := elementOf s a
  let old := s.reg e
  let new := mergeWrite d a old v
  regHook (s.setReg e new) a old v

/-- A register write on a port: the state after it, with its status. -/
def regWrite (s : State) (p : Port) (a v : Nat) : State × Nat :=
  match regDefAt a with
  | none => (s, stOk)
  | some d =>
    if absentHere s a then (s, stOk)
    else
      match writeRefusal s p d a v with
      | none => (regApply s d a v, stOk)
      | some st =>
        (match indexIn a (R.BENCHb_CTRL 0) 0x20 8 with
         | some b => if st = stBenchRefused then s.evtBit (F.BENCHb_STATUS_CFG_ERR b) 83 else s
         | none => s, st)

/-- R389: what a command meets before the accesses of a register write: the engine runs, the security state, the mode,
the address. -/
def writeAdmitted (s : State) (a : Nat) : Bool :=
  s.flag F.CMD_STATUS_ENGINE_UP && s.security != secRetired && s.mode != mHoldup && addrOk a

/-- A register write as a row of the table: a command on the port makes this access. -/
def writeRow (s : State) (p : Port) (a v : Nat) : State := if writeAdmitted s a then (regWrite s p a v).1 else s

end Sys2Proof.Machine
end

