-- ==== Sys2Proof/Machine/Commands.lean ====
section
/-! DEFINITION. The Fulon commands (spec/15_command_reference.md): the execution checks of R389, what each opcode does,
and its reply. -/

namespace Sys2Proof.Machine

/-! ### Ending a command (R370, R391) -/

/-- A command ends with its final reply. -/
def done (s : State) (c : Cmd) (status : Nat) (words : List Word) : State := pushReply (dropCmd s c) c true status words

def okReply (s : State) (c : Cmd) (words : List Word) : State := done s c stOk words

/-- A refusal: the word at fault, and the reason. -/
def refuse (s : State) (c : Cmd) (status : Nat) (bad : Nat := noWord) (reason : Nat := 0) : State :=
  done s c status (refusalWords bad reason)

def word (n : Nat) : Word := BitVec.ofNat 32 n

/-- Parameter word `k`. -/
def Cmd.p (c : Cmd) (k : Nat) : Nat := (c.params.getD k 0).toNat

def sameCmd (c d : Cmd) : Bool := d.port == c.port && d.tag == c.tag

/-- TCLK periods of a number of µs. -/
def usTicks (us : Nat) : Nat := us * 1024 / 100

/-- Milliseconds from now to an angle target, at the tracked period, rounded up; 0 once it has passed. -/
def msUntil (s : State) (t : Stamp) : Nat :=
  let d := (t - s.ang.stamp).toNat
  if 2 ^ 47 ≤ d then 0
  else
    let num := d * s.get F.ANG_PERIOD_PERIOD
    (num + 2 ^ 28 * 153600 - 1) / (2 ^ 28 * 153600)

/-- The maximum that a `SOUNDING_START` declares, in ms (R406). -/
def soundingMs (s : State) : Nat :=
  4 * planMs s + 600 + (if s.flag F.SND_CFG_AT_EN then msUntil s (stampOf (s.reg R.SND_AT_HI) (s.reg R.SND_AT_LO)) else 0)

/-- R406: the declared maximum of a class C command, in TCLK periods. -/
def declaredMax (s : State) (c : Cmd) : Nat :=
  match c.opcode with
  | 0x0100 => usTicks 160000
  | 0x0200 | 0x0201 =>
    if bitOf (c.p 0) 31 then
      -- T is 12.5 µs times 2^OSR.
      usTicks (9 * (calCount (s.get F.POOL_CAL_IDX_CAL_AVG) + 5) * (25 * 2 ^ s.get F.POOL_CAL_IDX_OSR) / 2 + 2000)
    else
      let n := c.p 0 % 64
      usTicks (9 * (calCount (s.get (F.RAILn_FINE_CFG_CAL_AVG n)) + 5) * ratePeriod (s.get (F.RAILn_FINE_CFG_RATE n)) + 2000)
  | 0x0202 => usTicks 1000000
  | 0x0203 | 0x0204 => usTicks 200000
  | 0x0300 =>
    let n := c.p 0 % 64
    let d := (margDirs (c.p 0 / 256 % 4)).length
    let slew := match s.get (F.MARGn_CFG_SLEW n) with | 0 => 40960 | 1 => 4096 | 2 => 1024 | _ => 256
    usTicks ((1 + 2 * d) * margAvg s n * ratePeriod (s.get (F.RAILn_FINE_CFG_RATE n)) +
      d * (slew + period (s.get (F.MARGn_CFG_DWELL n)) * 1000 + period (s.get (F.MARGn_CFG_RET_TO n)) * 10000) + 2000 +
      (if margSrc s n = 2 then 320000 else 0))
  | 0x0302 => usTicks (1000 * soundingMs s)
  | 0x0501 => usTicks (20000 + 4 * (rttMaxPs s / 1000000))
  | _ => usTicks 2000000

/-- R370: a class C command starts: its interim reply, and from then on the bound of its final reply. A class C command that
ends in the step that executes it sends its final reply alone (DEDUCED, log entry 62). -/
def begin' (s : State) (c : Cmd) (interim : List Word := []) : State :=
  let s := pushReply s c false stStarted interim
  let m := declaredMax s c
  s.modEng fun e => { e with cmds := e.cmds.map fun d => if sameCmd c d then { d with phase := .running, bound := m } else d }

/-! ### Security, modes and parameters (R389, R392 to R405) -/

/-- Check 1: the security state is listed for the opcode. -/
def opSecurity (op sec : Nat) : Bool :=
  match op with
  | 0x0002 | 0x0003 | 0x0405 => true
  | 0x0600 | 0x0601 => sec == secSealed
  | 0x0602 => sec == secEscorted
  | 0x0603 | 0x0203 | 0x0205 => sec == secUnsealed
  | 0x0604 | 0x0700 | 0x0701 | 0x0200 | 0x0201 | 0x0202 | 0x0204 | 0x0300 | 0x0302 | 0x0501 | 0x0502 =>
    sec == secUnsealed || sec == secEscorted
  | _ => sec != secRetired

/-- Check 3: the mode is listed for the opcode. -/
def opMode (op m : Nat) : Bool :=
  match op with
  | 0x0012 | 0x0013 | 0x0014 | 0x0701 | 0x0202 | 0x0304 | 0x0405 | 0x0500 | 0x0501 | 0x0502 => m != mHoldup
  | 0x0100 => m == mCommission || m == mGuard || m == mService || m == mQuiescent
  | 0x0101 | 0x0102 => m == mRamp || m == mGuard || m == mQuiescent
  | 0x0200 | 0x0201 => m == mCommission || m == mService
  | 0x0203 | 0x0205 | 0x0603 => m == mCommission
  | 0x0204 => m == mCommission || m == mService || m == mQuiescent
  | 0x0300 | 0x0302 => m == mService
  | 0x0604 => m == mQuiescent
  | _ => true

/-- The opcodes marked with a dagger (R299). -/
def opDagger (op : Nat) : Bool := op == 0x0101 || op == 0x0102 || op == 0x0300 || op == 0x0302

/-- The number of parameter words is one the opcode takes. -/
def lengthOk (op n : Nat) : Bool :=
  match op with
  | 0x0002 => decide (n ≤ 252)
  | 0x0010 => decide (1 ≤ n ∧ n ≤ 64)
  | 0x0011 | 0x0402 | 0x0403 => n == 2
  | 0x0012 => decide (2 ≤ n ∧ n ≤ 16 ∧ n % 2 = 0)
  | 0x0013 => decide (2 ≤ n ∧ n ≤ 252 ∧ n % 2 = 0)
  | 0x0014 => decide (3 ≤ n ∧ n ≤ 24 ∧ n % 3 = 0)
  | 0x0203 | 0x0204 | 0x0205 => decide (3 ≤ n ∧ n ≤ 249 ∧ n % 2 = 1)
  | 0x0100 | 0x0101 | 0x0102 | 0x0200 | 0x0201 | 0x0202 | 0x0300 | 0x0301 | 0x0304 | 0x0400 | 0x0404 | 0x0405 | 0x0500 =>
    n == 1
  | 0x0502 => n == 3
  | 0x0601 => n == 4
  | 0x0605 => n == 9
  | _ => n == 0

/-- The bits of a parameter word that the entry places in a field. -/
def paramMask (op w0 k : Nat) : Nat :=
  match op, k with
  | 0x0100, 0 => 0x107
  | 0x0101, 0 => 0x8000FFFF
  | 0x0102, 0 => 0xF
  | 0x0200, 0 | 0x0201, 0 => if bitOf w0 31 then 0x80F31F00 else 0x3F
  | 0x0202, 0 => 3
  | 0x0203, 0 | 0x0204, 0 | 0x0205, 0 => 0x8001FFFF
  | 0x0300, 0 => 0x33F
  | 0x0301, 0 => 0x3F
  | 0x0304, 0 => 0x81FF003F
  | 0x0400, 0 => 0x800007FF
  | 0x0402, 0 => 0xFFFF
  | 0x0403, 0 => 0x301FF
  | 0x0404, 0 => 0xF
  | 0x0405, 0 => 0x800003FF
  | 0x0500, 0 => 0xFFFF
  | 0x0502, 0 | 0x0502, 1 => 0xFFFF
  | 0x0605, 0 => 3
  | _, _ => 0xFFFFFFFF

/-- The largest size of an image in bytes: a Config copy, the patch region, a Hallmark image. -/
def imageRoom (op : Nat) : Nat := if op = 0x0203 then 65536 else if op = 0x0204 then 131072 else 680

/-- The values of the fields of word `k` lie within their ranges. -/
def fieldsOk (c : Cmd) (k : Nat) : Bool :=
  let v := c.p k
  match c.opcode, k with
  | 0x0011, 1 => decide (1 ≤ v ∧ v ≤ 252)
  | 0x0100, 0 => [0, 2, 3, 5].contains (v % 8)
  | 0x0101, 0 => v % 65536 != 0
  | 0x0200, 0 | 0x0201, 0 => !bitOf v 31 || (v / 65536 % 4 != 3 && decide (v / 2 ^ 20 % 16 < 8))
  | 0x0202, 0 => v != 0
  | 0x0203, 0 | 0x0204, 0 | 0x0205, 0 =>
    v % 8 == 0 && decide (v % 2 ^ 17 + 4 * (c.params.length - 1) ≤ imageRoom c.opcode)
  | 0x0300, 0 => v / 256 % 4 != 0
  | 0x0403, 1 => decide (1 ≤ v ∧ v ≤ 251 ∧ c.p 0 % 512 + v ≤ 512)
  | 0x0605, 0 => v != 3
  | _, _ => true

/-- Check 2: the first parameter word at fault; `noWord` for a wrong length. -/
def paramFault (c : Cmd) : Option Nat :=
  if !lengthOk c.opcode c.params.length then some noWord
  else (below c.params.length).find? fun k => Nat.land (c.p k) (0xFFFFFFFF - paramMask c.opcode (c.p 0) k) != 0 || !fieldsOk c k

/-- Check 5: the register addresses a command names, with their parameter words. -/
def namedAddrs (c : Cmd) : List (Nat × Nat) :=
  let n := c.params.length
  match c.opcode with
  | 0x0010 => (below n).map fun k => (k, c.p k)
  | 0x0011 => (below (c.p 1)).map fun k => (0, c.p 0 + 4 * k)
  | 0x0012 | 0x0013 => (below (n / 2)).map fun k => (2 * k, c.p (2 * k))
  | 0x0014 => (below (n / 3)).map fun k => (3 * k, c.p (3 * k))
  | _ => []

/-! ### Register access (R392 to R394) -/

/-- R376, R378: the image that a command on a COHERENT port reads. -/
def imageFor (s : State) (c : Cmd) : Option Image :=
  if coherent s c.port then
    match c.atEpoch with
    | some e => s.eng.images.find? (·.number == e)
    | none => s.eng.images.head?
  else none

/-- A register as a command reads it. -/
def readWord (s : State) (c : Cmd) (a : Nat) : State × Nat :=
  match imageFor s c with
  | some i => if readLive a then readReg s c.port a else (s, storeGet i.regs a)
  | none => readReg s c.port a

/-- Reads in order, with the values. -/
def readAll (s : State) (c : Cmd) : List Nat → State × List Word
  | [] => (s, [])
  | a :: rest =>
    let (s, v) := readWord s c a
    let (s, l) := readAll s c rest
    (s, word v :: l)

/-- R393: the word that `REG_MODIFY` writes: W1C, WO and SC fields take (value AND mask), every other field
(old AND NOT mask) OR (value AND mask). -/
def modifyWord (s : State) (a mask v : Nat) : Nat :=
  let clear := match regDefAt a with | some d => Nat.lor d.w1c d.act | none => 0
  Nat.lor (Nat.land (Nat.land (peek s a) (0xFFFFFFFF - mask)) (0xFFFFFFFF - clear)) (Nat.land v mask)

/-- The writes of a command: parameter word, address, value. -/
def namedWrites (s : State) (c : Cmd) : List (Nat × Nat × Nat) :=
  match c.opcode with
  | 0x0014 => (below (c.params.length / 3)).map fun k => (3 * k, c.p (3 * k), modifyWord s (c.p (3 * k)) (c.p (3 * k + 1)) (c.p (3 * k + 2)))
  | _ => (below (c.params.length / 2)).map fun k => (2 * k, c.p (2 * k), c.p (2 * k + 1))

/-- R367, R394: the first write that is refused, with its status; the checks come before every access. -/
def writeFault (s : State) (p : Port) (l : List (Nat × Nat × Nat)) : Option (Nat × Nat × Nat) :=
  l.findSome? fun w =>
    match regDefAt w.2.1 with
    | none => none
    | some d => if absentHere s w.2.1 then none else (writeRefusal s p d w.2.1 w.2.2).map fun st => (st, w.1, w.2.1)

/-- REG_WRITE, REG_WRITE_LIST. A refused start of a Bench sets its CFG_ERR (R127). -/
def runWrites (s : State) (c : Cmd) : State :=
  let l := namedWrites s c
  match writeFault s c.port l with
  | some (st, k, a) =>
    let s := if st = stBenchRefused then (regWrite s c.port a 1).1 else s
    refuse s c st k a
  | none => okReply (l.foldl (fun s w => (regWrite s c.port w.2.1 w.2.2).1) s) c []

/-- The accesses of `REG_MODIFY`, each on the register as it then stands, with the values after. -/
def modifyAll (s : State) (c : Cmd) : List Nat → State × List Word
  | [] => (s, [])
  | k :: rest =>
    let a := c.p (3 * k)
    let s := (regWrite s c.port a (modifyWord s a (c.p (3 * k + 1)) (c.p (3 * k + 2)))).1
    let v := peek s a
    let (s, l) := modifyAll s c rest
    (s, word v :: l)

def runModify (s : State) (c : Cmd) : State :=
  match writeFault s c.port (namedWrites s c) with
  | some (st, k, a) =>
    let s := if st = stBenchRefused then (regWrite s c.port a 1).1 else s
    refuse s c st k a
  | none =>
    let (s, l) := modifyAll s c (below (c.params.length / 3))
    okReply s c l

/-- A0 to A3 of `STATUS`, from the registers of a state. -/
def statusWords (s v : State) : List Word :=
  let b (f : Field) (k : Nat) : Nat := v.get f * 2 ^ k
  [word (v.reg R.SEC_STATE / 2 ^ 25 * 2 ^ 25 + b F.TWIN_STATUS_ROLE 23 + b F.FLT_STATUS_FAULT_N 22 + b F.FLT_STATUS_IN_FAULT 21 +
      b F.FLT_STATUS_ANY_FATAL 20 + b F.ANG_STATUS_HOLDOVER 19 + b F.ANG_STATUS_LOCKED 18 + b F.CLK_STATUS_FALLBACK 17 +
      (if suspension s = 0 then 0 else 2 ^ 16)),
   word (stampHiWord s), word (stampLo s.ang.stamp), word (v.reg R.LDG_SEC)]

/-- STATUS. -/
def runStatus (s : State) (c : Cmd) : State :=
  let v := match imageFor s c with | some i => { s with regs := i.regs } | none => s
  okReply s c (statusWords s v)

/-- COLOPHON_READ. -/
def runColophon (s : State) (c : Cmd) : State :=
  let (s, l) := readAll s c ((below 32).map fun k => 4 * k)
  okReply s c l

def runRegRead (s : State) (c : Cmd) : State :=
  let (s, l) := readAll s c ((namedAddrs c).map (·.2))
  okReply s c l

/-- R395: the reply is queued before the restart or the reset. -/
def runRestart (s : State) (c : Cmd) : State := (okReply s c []).modEng fun e => { e with restartPend := true }
def runReset (s : State) (c : Cmd) : State := (okReply s c []).modEng fun e => { e with resetPend := true }

/-! ### Modes and sequencing (R396 to R398) -/

/-- The transitions of R397: none where the change is made, else the status. -/
def modeSetRefusal (s : State) (sec target : Nat) : Option Nat :=
  let m := s.mode
  if m = mQuiescent ∧ target = mCommission then if sec = secUnsealed then none else some stSecurityState
  else if m = mCommission ∧ target = mQuiescent then
    if sec ≠ secUnsealed then some stSecurityState else if anyEnabled s then some stRailsEnabled else none
  else if m = mGuard ∧ target = mService then if sec = secUnsealed ∨ sec = secEscorted then none else some stSecurityState
  else if m = mService ∧ target = mGuard then none
  else some stWrongMode

/-- MODE_SET. A `FUSE_PROGRAM` that still programs when COMMISSION is left goes on (DESIGN CHOICE, log entry 92). -/
def runModeSet (s : State) (c : Cmd) : State :=
  let t := c.p 0 % 8
  if t = s.mode then okReply s c [word t]
  else
    match modeSetRefusal s (portSecurity s c.port) t with
    | some st => refuse s c st
    | none =>
      if t = mService then
        okReply ((setMode s mService).modSec fun x => { x with autoRet := bitOf (c.p 0) 8 }) c [word t]
      else if s.mode = mService then
        let s := abortCals (abortWork s 8 false)
        if workAtAll s then (begin' s c).modSec fun x => { x with toGuard := true } else okReply (setMode s mGuard) c [word t]
      else okReply (setMode s t) c [word t]

/-- SEQ_START. -/
def runSeqStart (s : State) (c : Cmd) : State :=
  let down := bitOf (c.p 0) 31
  let qs := quireList (c.p 0 % 65536)
  let bad := qs.filter fun q => startReason s q down != 0
  match bad with
  | q :: _ => refuse s c stQuireRefused (bad.foldl (fun m q => m + 2 ^ q) 0) (startReason s q down)
  | [] =>
    let s := endAuto s 3
    okReply (qs.foldl (if down then startDown else startUp) s) c [word (c.p 0 % 65536)]

/-- QUIRE_RESUME. -/
def runResume (s : State) (c : Cmd) : State :=
  let q := c.p 0 % 16
  if qState s q = qHeld then okReply (resume s q) c [] else refuse s c stQuireBusy

/-! ### Calibration, NVM and images (R399, R400) -/

/-- CAL_ZERO, CAL_FULL. A target out of range ends the command before any averaging (R104, R140). -/
def runCal (s : State) (c : Cmd) : State :=
  let v := c.p 0
  let full := c.opcode == 0x0201
  let work (s : State) : State := s.modMarg fun m => { m with svcWork := true }
  if bitOf v 31 then
    let b := v / 2 ^ 20 % 16
    match poolCalRefusal s b with
    | some st => refuse s c st
    | none =>
      if full && !poolTargetOk (s.getS F.POOL_CAL_TARGET_VOLTS) (v / 65536 % 4) then
        refuse (endPoolCal s 2 stCalRange []) c stCalRange
      else startPoolCal (work (begin' s c)) b (v / 65536 % 4) (v / 256 % 32) full
  else
    match railCalRefusal s (v % 64) with
    | some st => refuse s c st
    | none =>
      let n := v % 64
      if full && !railTargetOk (s.get (F.RAILn_CAL_TARGET_VOLTS n)) (railRatio s n) then
        refuse (endRailCal s n 2 stCalRange []) c stCalRange
      else startRailCal (work (begin' s c)) n full

/-- STORE. -/
def runStore (s : State) (c : Cmd) : State :=
  if s.flag F.NVM_STORE_BUSY then refuse s c stStoreBusy else startStore (begin' s c) (bitOf (c.p 0) 0) (bitOf (c.p 0) 1)

/-- The data bytes of a chunk. -/
def chunkBytes (c : Cmd) : List Nat := (c.params.drop 1).flatMap fun w => beBytes 4 w.toNat

/-- R400: a chunk joins the transfer of its kind: none where its offset is not the one expected. -/
def joinChunk (x : Option (List Nat × Nat × Nat)) (c : Cmd) (target : Nat) : Option (List Nat × Nat × Nat) :=
  let off := c.p 0 % 2 ^ 17
  let b := chunkBytes c
  if off = 0 then some (b, b.length, target)
  else
    match x with
    | some (bytes, next, t) => if off = next then some (bytes ++ b, next + b.length, t) else none
    | none => none

/-- R347: the copy that a Config image spells, when its length, format and CRC are good. -/
def parseCopy (bytes : List Nat) : Option NvmCopy :=
  let f (i n : Nat) : Nat := ofBytes ((bytes.drop i).take n)
  let len := f 4 4
  if bytes.length < 16 ∨ len % 8 ≠ 0 ∨ 65520 < len ∨ bytes.length < 16 + len ∨ f 8 2 ≠ 1 ∨ f 10 2 ≠ 0 then none
  else if crc32 (bytes.take 12 ++ (bytes.drop 16).take len) = f 12 4 then
    some ⟨true, f 0 4, (below (len / 8)).map fun k => (word (f (16 + 8 * k) 4), word (f (20 + 8 * k) 4))⟩
  else none

/-- R384: the format of a patch image. -/
def patchFormatOk (bytes : List Nat) : Bool :=
  let f (i n : Nat) : Nat := ofBytes ((bytes.drop i).take n)
  let len := f 4 4
  f 0 4 == 0x464C4E50 && len % 4 == 0 && decide (len ≤ 130816) && decide (256 + len ≤ bytes.length) &&
    ((bytes.drop 144).take 112).all (· == 0)

/-- R467: the format, the length and the CRC of a Hallmark image. -/
def hallmarkOk (bytes : List Nat) : Bool :=
  let f (i n : Nat) : Nat := ofBytes ((bytes.drop i).take n)
  bytes.length == 680 && f 0 4 == 0x484C4D4B && f 4 4 == 680 && f 8 2 == 1 && f 10 2 == 0 &&
    crc32 (bytes.take 12 ++ bytes.drop 16) == f 12 4

/-- The job of a chunk of a Config image. -/
def isImageJob : NvmJob → Bool
  | .image _ => true
  | _ => false

/-- A transfer's job under way, with its command, ends: a new transfer of its kind takes its place. -/
def dropTransfer (s : State) (c : Cmd) (pred : NvmJob → Bool) (cmds : Cmd → Bool) : State :=
  if c.p 0 % 2 ^ 17 = 0 && s.nvm.ops.any fun o => pred o.job then
    let s := s.modNvm fun v => { v with ops := v.ops.filter fun o => !pred o.job }
    finishC s cmds stAbandoned (refusalWords noWord 0)
  else s

/-- Program units of a chunk; the header's follow the last one. -/
def chunkUnits (c : Cmd) (header : Nat) : Nat := (4 * (c.params.length - 1) + 63) / 64 + (if bitOf (c.p 0) 31 then header else 0)

/-- Pages that a chunk is the first to reach. -/
def chunkPages (c : Cmd) : Nat :=
  let off := c.p 0 % 2 ^ 17
  (off + 4 * (c.params.length - 1) + 511) / 512 - (off + 511) / 512

/-- IMAGE_WRITE. -/
def runImageWrite (s : State) (c : Cmd) : State :=
  let last := bitOf (c.p 0) 31
  match storeTarget s false with
  | none => refuse s c stNvmFail
  | some i =>
    match joinChunk s.nvm.image c i with
    | none => refuse s c stBadParam 0
    | some (bytes, next, t) =>
      let s := dropTransfer s c isImageJob isImageCmd
      let s := setCopy s t { (vget s.nvm.copies t) with valid := false }
      let s := s.modNvm fun v => { v with image := some (bytes, next, t) }
      if !last then addOp (begin' s c) (.image none) (chunkPages c) (chunkUnits c 8)
      else
        match parseCopy bytes with
        | some x => addOp (begin' s c) (.image (some (t, x))) (chunkPages c) (chunkUnits c 8)
        | none => refuse (s.modNvm fun v => { v with image := none }) c stImageInvalid

/-- PATCH_WRITE. -/
def runPatchWrite (s : State) (c : Cmd) : State :=
  let last := bitOf (c.p 0) 31
  match joinChunk s.nvm.patchIn c 0 with
  | none => refuse s c stBadParam 0
  | some (bytes, next, t) =>
    let s := dropTransfer s c (fun j => j == .patch) isPatchCmd
    let s := s.modNvm fun v => { v with patch := [], patchIn := some (bytes, next, t) }
    if !last then addOp (begin' s c) .patch (chunkPages c) (chunkUnits c 4)
    else if patchFormatOk bytes then
      let s := (s.modNvm fun v => { v with patch := bytes }).put F.CMD_PATCH_STATE 5
      addOp (begin' s c) .patch (chunkPages c) (chunkUnits c 4)
    else refuse (s.modNvm fun v => { v with patchIn := none }) c stImageInvalid

/-- FUSE_PROGRAM, R468. A chunk other than the last one is taken at once. -/
def runFuseProgram (s : State) (c : Cmd) : State :=
  if s.sec.hmValid || s.sec.hmFail || s.sec.job.isSome then refuse s c stNotPermitted
  else
    match joinChunk s.sec.imageIn c 0 with
    | none => refuse s c stBadParam 0
    | some (bytes, next, t) =>
      let s := s.modSec fun x => { x with imageIn := some (bytes, next, t) }
      if !bitOf (c.p 0) 31 then okReply s c [word next]
      else if hallmarkOk bytes then (begin' s c).modSec fun x => { x with job := some .program }
      else refuse (s.modSec fun x => { x with imageIn := none }) c stImageInvalid

/-! ### Margining and Sounding (R401) -/

/-- MARGIN_TEST. -/
def runMarginTest (s : State) (c : Cmd) : State :=
  let n := c.p 0 % 64
  let dir := c.p 0 / 256 % 4
  match marginRefusal s n dir with
  | some st => refuse s c st
  | none => startMargin (begin' s c) n dir

/-- MARGIN_ABORT. -/
def runMarginAbort (s : State) (c : Cmd) : State :=
  let n := c.p 0 % 64
  if testOwns s n then okReply (abortTest s n 8 false false) c [word 1] else okReply s c [word 0]

/-- SOUNDING_START. -/
def runSoundingStart (s : State) (c : Cmd) : State :=
  match soundingRefusal s with
  | some st => refuse s c st
  | none => startSounding (begin' s c [word (soundingMs s)])

/-- SOUNDING_STOP. -/
def runSoundingStop (s : State) (c : Cmd) : State :=
  if s.marg.snd.isSome then okReply (abortSounding s) c [word 1] else okReply s c [word 0]

/-- SOUNDING_READ. A record whose CRC fails is held as no words. -/
def runSoundingRead (s : State) (c : Cmd) : State :=
  let a := vget s.marg.archive (c.p 0 % 64)
  let k := c.p 0 / 65536 % 512
  let l := if bitOf (c.p 0) 31 then (a.full.take 10).getD k [] else a.trend.getD k []
  if l.isEmpty then refuse s c stEmpty else okReply s c l

/-! ### Faults, Folios and the Ledger (R402, R403) -/

/-- FAULT_CLEAR. -/
def runFaultClear (s : State) (c : Cmd) : State :=
  if portSecurity s c.port = secSealed ∧ c.p 0 / 256 % 8 ≠ 0 then refuse s c stSecurityState
  else okReply (hostClear s (c.p 0)) c []

/-- FOLIO_LATCH, R326, R433: what has triggered latches; a ring-wide Folio among it becomes the last latched one. -/
def latchFolio (s : State) : State × Option Nat :=
  let ring := bitOf s.folio.trig 5
  let (s, k) := folioLatch s
  (if ring then s.modRing fun r => { r with folioLast := r.folioArmed, folioArmed := none } else s, k)

/-- FOLIO_TAKE: trigger bit [1], and the Folio it makes or joins. -/
def runFolioTake (s : State) (c : Cmd) : State :=
  match latchFolio (folioTrigger s 1) with
  | (s, some k) => okReply s c ([word k] ++ ((vget s.folio.buf k).drop 1).take 2)
  | (s, none) => refuse s c stFolioDropped

/-- FOLIO_ARM. -/
def runFolioArm (s : State) (c : Cmd) : State :=
  if s.flag F.FOLIO_STATUS_ARMED then refuse s c stFolioArmed
  else
    let t := stampOf (c.p 0) (c.p 1)
    let s := folioArm ((s.setReg R.FOLIO_AT_HI (c.p 0)).setReg R.FOLIO_AT_LO (c.p 1))
    okReply s c [word (if s.angRun && stampReached s.ang.stamp t then 1 else 0)]

/-- FOLIO_READ. -/
def runFolioRead (s : State) (c : Cmd) : State :=
  let k := c.p 0 / 65536 % 4
  let f := c.p 0 % 512
  okReply s c (word (bufState s k) :: (below (c.p 1)).map fun i => word (folioWord s k (f + i)))

/-- FOLIO_RELEASE. -/
def runFolioRelease (s : State) (c : Cmd) : State := okReply (folioRelease s (c.p 0 % 16)) c []

/-- LEDGER_READ. -/
def runLedgerRead (s : State) (c : Cmd) : State :=
  let slot := if bitOf (c.p 0) 31 then s.get F.LDG_STATUS_LAST_SLOT else c.p 0 % 1024
  match s.nvm.slots.find? (·.1 == slot) with
  | some (_, w) => okReply s c (word slot :: w)
  | none => refuse s c stEmpty

/-! ### Twins, the Warden and the ring (R404) -/

/-- SWITCH_BACK. The reply waits for the TAKE. -/
def runSwitchBack (s : State) (c : Cmd) : State :=
  let (t, st) := switchBack s (c.p 0 % 65536)
  if st = stOk then
    t.modEng fun e => { e with cmds := e.cmds.map fun d => if sameCmd c d then { d with phase := .running } else d }
  else refuse s c st

/-- RING_DISCOVER. A discovery of another command holds the ring (R368). -/
def runDiscover (s : State) (c : Cmd) : State :=
  if !isMaster s then refuse s c stNotMaster
  else if s.eng.cmds.any (fun d => d.opcode == 0x0501 && d.phase == .running) then refuse s c stBusy
  else startDiscovery (begin' s c)

/-- RING_FOLIO. -/
def runRingFolio (s : State) (c : Cmd) : State :=
  if !isMaster s then refuse s c stNotMaster
  else
    let (t, st, x) := ringFolio s (c.p 0 % 65536) (stampOf (c.p 1) (c.p 2))
    if st = stOk then okReply t c [word x]
    else if st = stBadParam then refuse s c st x x
    else refuse s c st

/-! ### Security and debug (R405, R450, R451, R456 to R459) -/

/-- Sixteen fresh random bytes. -/
def randomBytes (s : State) (n : Nat) : State × List Nat :=
  (s.drawn n, (below n).map fun k => (Config.randomByte (s.freeCount + k)).toNat)

/-- ESCORT_BEGIN. -/
def runEscortBegin (s : State) (c : Cmd) : State :=
  if s.get F.SEC_ESC_STATUS_LOCKOUT ≠ 0 then refuse s c stNotPermitted
  else
    let (s, b) := randomBytes s 16
    okReply ((s.put F.SEC_STATE_CHALLENGE 1).modSec fun x => { x with chal := some (c.port, b) }) c (wordsOf 4 b)

/-- R458: the lockout after `f` failures in a row, in s. -/
def lockoutOf (f : Nat) : Nat := min 1024 (2 ^ (f - 1))

/-- ESCORT_PROVE. -/
def runEscortProve (s : State) (c : Cmd) : State :=
  match s.sec.chal with
  | none => refuse s c stNoChallenge
  | some (p, ch) =>
    if p ≠ c.port then refuse s c stNoChallenge
    else
      let s := dropChallenge s
      if cmac s.sec.key (1 :: ch) = c.params.flatMap (fun w => beBytes 4 w.toNat) then
        let s := s.modSec fun x => { x with ks := cmac x.key (2 :: ch), ksSeq := 0 }
        let s := (s.put F.SEC_STATE_SECURITY secEscorted).put F.SEC_STATE_ESC_PORT (portIdx c.port)
        let s := (s.put F.SEC_ESC_STATUS_REMAIN (escTimeout s)).put F.SEC_ESC_STATUS_FAILS 0
        let s := ((s.endCond 72 0).endCond 72 1).put F.SEC_ESC_STATUS_LOCKOUT 0
        okReply (secEvent s F.SEC_EVT_ESC_OPEN 5) c []
      else
        let s := (s.addSat F.SEC_ESC_STATUS_FAILS).raise 72 0 0 (portIdx c.port) (portIdx c.port)
        let s := s.put F.SEC_ESC_STATUS_LOCKOUT (lockoutOf (s.get F.SEC_ESC_STATUS_FAILS))
        refuse (secEvent s F.SEC_EVT_ESC_FAIL 8) c stEscortFail

/-- ESCORT_END. -/
def runEscortEnd (s : State) (c : Cmd) : State := okReply (endSession s) c []

/-- SEAL: the conditions of R450. -/
def sealRefusal (s : State) : Option (Nat × Nat) :=
  if anyEnabled s then some (stRailsEnabled, 0)
  else if !s.flag F.HM_STATUS_VALID || s.flag F.HM_STATUS_PENDING then some (stNotPermitted, 1)
  else if s.get F.SEC_STATE_DEBUG ≠ 0 then some (stNotPermitted, 2)
  else if factoryTest s then some (stNotPermitted, 3)
  else if s.sec.job.isSome then some (stNotPermitted, 4)
  else none

def runSeal (s : State) (c : Cmd) : State :=
  match sealRefusal s with
  | some (st, r) => refuse s c st noWord r
  | none => (begin' s c).modSec fun x => { x with job := some .seal }

/-- RETIRE, R451. -/
def runRetire (s : State) (c : Cmd) : State :=
  if s.get F.SEC_STATE_DEBUG ≠ 0 then refuse s c stNotPermitted noWord 2
  else if s.sec.job.isSome then refuse s c stNotPermitted noWord 4
  else (begin' s c).modSec fun x => { x with job := some .retire }

/-- The debug-unlock key is right (R459). -/
def debugKeyOk (s : State) (c : Cmd) : Bool :=
  sha256 ((c.params.drop 1).flatMap fun w => beBytes 4 w.toNat) ==
    (below 8).flatMap fun k => beBytes 4 (s.reg (R.HM_DBG_DIGESTk k))

/-- DEBUG_SET. -/
def runDebugSet (s : State) (c : Cmd) : State :=
  let d := c.p 0 % 4
  let was := s.get F.SEC_STATE_DEBUG
  if s.mode = mHoldup ∧ d ≠ 0 then refuse s c stHoldup
  else if was < d ∧ portSecurity s c.port ≠ secUnsealed ∧ !debugKeyOk s c then refuse s c stNotPermitted
  else if d = 2 ∧ twinRole s = 1 then refuse s c stTwinActive
  else setDebug (okReply s c []) d

/-! ### Execution (R389) -/

/-- Check 6 and the work of each opcode. -/
def runOpcode (s : State) (c : Cmd) : State :=
  match c.opcode with
  | 0x0001 => runStatus s c
  | 0x0002 => okReply s c c.params
  | 0x0003 => runColophon s c
  | 0x0010 | 0x0011 => runRegRead s c
  | 0x0012 | 0x0013 => runWrites s c
  | 0x0014 => runModify s c
  | 0x0700 => runRestart s c
  | 0x0701 => runReset s c
  | 0x0100 => runModeSet s c
  | 0x0101 => runSeqStart s c
  | 0x0102 => runResume s c
  | 0x0200 | 0x0201 => runCal s c
  | 0x0202 => runStore s c
  | 0x0203 => runImageWrite s c
  | 0x0204 => runPatchWrite s c
  | 0x0205 => runFuseProgram s c
  | 0x0300 => runMarginTest s c
  | 0x0301 => runMarginAbort s c
  | 0x0302 => runSoundingStart s c
  | 0x0303 => runSoundingStop s c
  | 0x0304 => runSoundingRead s c
  | 0x0400 => runFaultClear s c
  | 0x0401 => runFolioTake s c
  | 0x0402 => runFolioArm s c
  | 0x0403 => runFolioRead s c
  | 0x0404 => runFolioRelease s c
  | 0x0405 => runLedgerRead s c
  | 0x0500 => runSwitchBack s c
  | 0x0501 => runDiscover s c
  | 0x0502 => runRingFolio s c
  | 0x0600 => runEscortBegin s c
  | 0x0601 => runEscortProve s c
  | 0x0602 => runEscortEnd s c
  | 0x0603 => runSeal s c
  | 0x0604 => runRetire s c
  | 0x0605 => runDebugSet s c
  | _ => refuse s c stUnknownOpcode

/-- R389, R390: the checks in order, against the state as it stands, then the work. -/
def runCmd (s : State) (c : Cmd) : State :=
  if !opSecurity c.opcode (portSecurity s c.port) then refuse s c stSecurityState
  else
    match paramFault c with
    | some k => refuse s c stBadParam k
    | none =>
      if !opMode c.opcode s.mode then refuse s c (if s.mode = mHoldup then stHoldup else stWrongMode)
      else if opDagger c.opcode && decide (2 ≤ twinRole s) then refuse s c stTwinStandby
      else
        match (namedAddrs c).find? fun a => !addrOk a.2 with
        | some (k, _) => refuse s c stBadAddress k
        | none => runOpcode s c

end Sys2Proof.Machine
end

