-- ==== Sys2Proof/Machine/Engine.lean ====
section
/-! DEFINITION. The Fulon engine (spec/14_command_engine.md): packets and replies as bytes, SPI transactions, acceptance,
admission, execution, COHERENT delivery, restarts and patches; and the cells of spec/16_hexip_ring.md that carry packets. -/

namespace Sys2Proof.Machine

def otherPort : Port → Port
  | .host => .ring
  | .ring => .host

/-! ### Bytes of replies and notices (R361 to R364) -/

/-- R453: the key in force on a port. -/
def keyFor (s : State) (p : Port) : List Nat :=
  if s.security = secEscorted ∧ sessionPort s = p then s.sec.ks else s.sec.kb

/-- R362: the most significant 64 bits of the CMAC. -/
def mac8 (key msg : List Nat) : List Nat := (cmac key msg).take 8

/-- A reply or notice as R363 lays it out. -/
def itemBytes (i : OutItem) : List Nat :=
  let b (x : Bool) (k : Nat) : Nat := if x then 2 ^ k else 0
  let body := [64 + b i.auth.isSome 5 + b i.final 4 + b i.susp 3 + b i.late 2 + b i.holdover 1 + b i.epochTime 0,
      b i.notice 7 + i.tag] ++
    beBytes 2 i.opcode ++ beBytes 2 i.status ++ beBytes 2 (4 * i.results.length) ++ beBytes 4 i.epoch ++ beBytes 4 i.time ++
    i.results.flatMap (fun w => beBytes 4 w.toNat)
  let body := match i.auth with
    | some (q, key) =>
      let m := body ++ beBytes 4 q
      m ++ mac8 (natBytes key) m
    | none => body
  body ++ beBytes 4 (crc32 body)

/-! ### Acceptance (R365, R368, R378) -/

/-- A packet of R360, taken apart. -/
structure Packet where
  auth   : Bool
  atEp   : Bool
  tag    : Nat
  opcode : Nat
  epoch  : Nat
  params : List Word
  seq    : Nat
  mac    : List Nat
  /-- The bytes the MAC covers. -/
  signed : List Nat
  deriving DecidableEq, Repr

/-- Check 1: the byte count fits P and AUTH. -/
def packetLengthOk (b : List Nat) : Bool :=
  let p := ofBytes ((b.drop 4).take 2)
  decide (16 ≤ b.length) && p % 4 == 0 && decide (p ≤ 1008) && b.length == 16 + p + (if bitOf (b.headD 0) 5 then 12 else 0)

/-- Check 2. -/
def packetCrcOk (b : List Nat) : Bool := crc32 (b.take (b.length - 4)) == ofBytes (b.drop (b.length - 4))

/-- Check 3: the version, and every reserved bit and byte. -/
def packetFormatOk (b : List Nat) : Bool :=
  let b0 := b.headD 0
  b0 / 64 == 1 && b0 % 16 == 0 && decide (b.getD 1 0 < 128) && ofBytes ((b.drop 6).take 2) == 0 &&
    (bitOf b0 4 || ofBytes ((b.drop 8).take 4) == 0)

def parsePacket (b : List Nat) : Packet :=
  let p := ofBytes ((b.drop 4).take 2)
  let auth := bitOf (b.headD 0) 5
  { auth := auth, atEp := bitOf (b.headD 0) 4, tag := b.getD 1 0 % 128, opcode := ofBytes ((b.drop 2).take 2)
    epoch := ofBytes ((b.drop 8).take 4), params := wordsOf (p / 4) (b.drop 12)
    seq := if auth then ofBytes ((b.drop (12 + p)).take 4) else 0
    mac := if auth then (b.drop (16 + p)).take 8 else [], signed := b.take (16 + p) }

/-- R364: a FRAME notice with twelve bytes as received; its counts, its event and its fault (R386, R388). -/
def frameNotice (s : State) (p : Port) (status : Nat) (bytes : List Nat) (spi : Bool) : State :=
  let k := portIdx p
  let s := if status = stTagInUse then s
    else
      let s := if status = stBadCrc then s.addSat (F.CMD_Pp_ERR_BAD_CRC k) else s.addSat (F.CMD_Pp_ERR_BAD_FORMAT k)
      (s.evtBit F.CMD_EVT_FRAME_ERR 197).raise 69 0 0 k k
  queueNotice s p 0xFF02 status (wordsOf 3 ((bytes ++ List.replicate 12 0).take 12) ++ [if spi then 1 else 0])

/-- A packet refused with a notice. -/
def refuseNotice (s : State) (p : Port) (status : Nat) (bytes : List Nat) : State :=
  frameNotice (s.addSat (F.CMD_Pp_ACC_REFUSED (portIdx p))) p status bytes false

/-- R462: the opcodes served at Halt. -/
def servedAtHalt (op : Nat) : Bool :=
  [0x0001, 0x0002, 0x0003, 0x0010, 0x0011, 0x0012, 0x0013, 0x0014, 0x0401, 0x0403, 0x0301, 0x0303, 0x0400, 0x0605, 0x0600,
    0x0601, 0x0602].contains op

/-- R454: the opcodes that are not protected. -/
def unprotected (op : Nat) : Bool :=
  [0x0001, 0x0002, 0x0003, 0x0010, 0x0011, 0x0401, 0x0403, 0x0405, 0x0304, 0x0301, 0x0303, 0x0600, 0x0601].contains op

/-- R378: the epoch lies more than WAIT_MAX × 100 µs ahead of the stamp, at the tracked period; with no reference, at the
free increment (DEDUCED, log entry 69). -/
def epochFar (s : State) (e : Nat) : Bool :=
  let ahead := (e * 2 ^ 14 + 2 ^ 46 - s.ang.stamp.toNat % 2 ^ 46) % 2 ^ 46
  let wait := period (s.get F.CMD_EPOCH_CFG_WAIT_MAX)
  decide (ahead < 2 ^ 45) &&
    (if angFree s then decide (wait * 15360 * s.ang.base < ahead * 2 ^ 22)
     else decide (wait * 15360 * 2 ^ 28 < ahead * s.get F.ANG_PERIOD_PERIOD))

/-- R368: the command's resource is held by another command: the NVM controller, the fuse programmer, a Bench, the ring. -/
def resourceHeld (s : State) (k : Packet) : Bool :=
  let running (f : Cmd → Bool) : Bool := s.eng.cmds.any fun c => c.phase == .running && f c
  match k.opcode with
  | 0x0202 | 0x0203 | 0x0204 =>
    s.flag F.NVM_STORE_BUSY || running fun c => c.opcode == 0x0202 || c.opcode == 0x0203 || c.opcode == 0x0204
  | 0x0205 | 0x0603 | 0x0604 => s.sec.job.isSome
  | 0x0200 | 0x0201 =>
    let w := (k.params.headD 0).toNat
    bitOf w 31 && (match s.pool.cal with | some c => c.bench == w / 2 ^ 20 % 16 | none => false)
  | 0x0501 => running fun c => c.opcode == 0x0501
  | _ => false

/-- R368: the admission of a command on a BOUNDED port. -/
def boundedAdmits (s : State) (k : Packet) : Bool :=
  let free := 64 - slotsUsed s
  (match opClass k.opcode with
   | some 0 => decide (0 < free)
   | some 2 => decide (9 ≤ free) && decide (classCRunning s < 8)
   | _ => decide (9 ≤ free)) && !resourceHeld s k

/-- R368: a command on a COHERENT port finds a slot. -/
def coherentSlot (s : State) (p : Port) : Bool :=
  decide (slotsUsed s < 64) &&
    (coherent s (otherPort p) || decide ((s.eng.cmds.filter fun c => slotted c && coherent s c.port).length < 48))

/-- Checks 5 to 13 of R365: the status with which the packet is refused. -/
def acceptRefusal (s : State) (p : Port) (k : Packet) : Option Nat :=
  let sec := portSecurity s p
  if s.flag F.CMD_STATUS_RESTARTING then some stRestarting
  else if s.get F.SEC_STATE_DEBUG = 2 ∧ !servedAtHalt k.opcode then some stHalted
  else if (opClass k.opcode).isNone then some stUnknownOpcode
  else if (sec = secSealed ∨ sec = secEscorted) ∧ !unprotected k.opcode ∧ !k.auth then some stAuthRequired
  else if k.auth ∧ (sec = secRetired ∨ mac8 (keyFor s p) k.signed ≠ k.mac) then some stAuthFail
  else if k.auth ∧ k.seq ≤ authSeq s p then some stAuthReplay
  else if s.flag (F.CMD_Pp_STATUS_CHANGING (portIdx p)) then some stModeChange
  else if k.atEp ∧ !coherent s p then some stNotCoherent
  else if k.atEp ∧ (!s.flag F.CMD_EPOCH_CFG_SRC ∨ !s.angRun) then some stEpochSrc
  else if k.atEp ∧ epochFar s k.epoch then some stEpochFar
  else if !coherent s p ∧ !boundedAdmits s k then some stBusy
  else none

/-- Commands that only read: they do not stage. -/
def readsOnly (op : Nat) : Bool := [0x0001, 0x0002, 0x0003, 0x0010, 0x0011, 0x0304, 0x0403, 0x0405].contains op

/-- R378: the epoch lies ahead of the last boundary. -/
def epochAhead (s : State) (e : Nat) : Bool :=
  let d := (e + 2 ^ 32 - s.get F.CMD_EPOCH_NUMBER) % 2 ^ 32
  decide (0 < d ∧ d < 2 ^ 31)

/-- R378: a read that names an epoch ahead waits for its boundary, and holds no slot until then. -/
def waitsForEpoch (s : State) (op : Nat) (e : Option Nat) : Bool :=
  readsOnly op && (match e with | some e => epochAhead s e | none => false)

/-- R369: a command accepted before this one still waits for a slot. -/
def slotWanted (s : State) : Bool :=
  s.eng.cmds.any fun c => c.phase == .waiting && !waitsForEpoch s c.opcode c.atEpoch

/-- R364, R363: the command that a packet makes. In Retired no key is used (R452), and no reply carries a block. -/
def packetCmd (s : State) (p : Port) (k : Packet) : Cmd :=
  { port := p, tag := k.tag, opcode := k.opcode, params := k.params
    auth := if k.auth && s.security != secRetired then some (k.seq, toBytes (keyFor s p)) else none
    atEpoch := if k.atEp then some k.epoch else none, accepted := s.tclk, susp := suspension s
    bound := classBound ((opClass k.opcode).getD 0)
    phase :=
      if coherent s p && (waitsForEpoch s k.opcode (if k.atEp then some k.epoch else none) || slotWanted s || !coherentSlot s p) then
        .waiting
      else .slotted }

/-- What an authentication failure counts and raises (R386, R388). -/
def authFailed (s : State) (p : Port) (status : Nat) : State :=
  let n := portIdx p + (if status = stAuthReplay then 2 else 0)
  ((s.addSat (F.CMD_Pp_ERR_AUTH (portIdx p))).evtBit F.CMD_EVT_AUTH_ERR 196).raise 67 0 0 (portIdx p) n

/-- R455, R457: the sequence and the session of an accepted packet that carries AUTH. -/
def authAccepted (s : State) (p : Port) (seq : Nat) : State :=
  let s := s.endCond 67 (portIdx p)
  if s.security = secEscorted ∧ sessionPort s = p then
    (s.modSec fun x => { x with ksSeq := seq }).put F.SEC_ESC_STATUS_REMAIN (escTimeout s)
  else s.modSec fun x => { x with kbSeq := vmod x.kbSeq (portIdx p) fun _ => seq }

/-- R365: a whole packet is presented on a port. Before step 5 of start-up nothing is accepted (R477). The reply to a
packet refused here names no epoch, because neither R375 nor R376 gives it one (DEDUCED, log entry 63). -/
def acceptPacket (s : State) (p : Port) (b : List Nat) : State :=
  if !s.flag F.CMD_STATUS_ENGINE_UP && !s.flag F.CMD_STATUS_RESTARTING then s
  else if !packetLengthOk b then refuseNotice s p stBadFormat b
  else if !packetCrcOk b then refuseNotice s p stBadCrc b
  else if !packetFormatOk b then refuseNotice s p stBadFormat b
  else
    let k := parsePacket b
    if tagInUse s p k.tag then refuseNotice s p stTagInUse b
    else
      let c := packetCmd s p k
      match acceptRefusal s p k with
      | some st =>
        let s := if st = stAuthFail ∨ st = stAuthReplay then authFailed s p st else s
        let s := if st = stBusy then s.evtBit F.CMD_EVT_BUSY 198 else s
        (s.addSat (F.CMD_Pp_ACC_REFUSED (portIdx p))).queueItem p
          { mkReply s c true st (refusalWords noWord 0) with epoch := 0, epochTime := false }
      | none =>
        let s := (s.addWrap (F.CMD_Pp_ACC_ACCEPTED (portIdx p))).endCond 69 (portIdx p)
        let s := if k.auth then authAccepted s p k.seq else s
        s.modEng fun e => { e with cmds := e.cmds ++ [c] }

/-! ### SPI transactions (R357 to R359) -/

/-- R358: the port status word. -/
def spiStatusWord (s : State) : Nat :=
  let b (x : Bool) (k : Nat) : Nat := if x then 2 ^ k else 0
  let head := match s.eng.outHost with | i :: _ => i.notice | [] => false
  0xC3000000 + b (s.flag F.CMD_STATUS_ENGINE_UP) 23 + b (s.get F.SEC_STATE_DEBUG == 2) 22 + b (suspension s != 0) 21 +
    b (coherent s .host) 20 + b head 19 + b s.eng.frameErr 18 + min 255 s.eng.outHost.length * 256 + (128 - tagCount s .host)

/-- R357: the transaction is a framing error; `extra` bits follow its last whole byte. -/
def framingError (mosi : List Byte) (extra : Nat) : Bool :=
  decide (mosi.length < 4) || extra != 0 || !([0x00, 0x5A, 0xA5].contains (mosi.headD 0).toNat) ||
    ((mosi.drop 1).take 3).any (· != 0)

/-- Bytes that the manual does not state. -/
def freeBytes (s : State) (n : Nat) : State × List Nat :=
  (s.drawn n, (below n).map fun k => (Config.unstated (s.freeCount + k)).toNat % 256)

/-- What MISO carries from byte 4 on. -/
def spiTail (s : State) (mosi : List Byte) : State × List Nat :=
  let n := mosi.length - 4
  match (mosi.headD 0).toNat with
  | 0x5A => (s, List.replicate n 0)
  | 0xA5 => (s, ((match s.eng.outHost with | i :: _ => itemBytes i | [] => []) ++ List.replicate n 0).take n)
  | _ => freeBytes s n

/-- R359: a READ takes the head item when every byte of it was clocked. -/
def spiTake (s : State) (clocked : Nat) : State :=
  match s.eng.outHost with
  | i :: rest => if (itemBytes i).length ≤ clocked then s.modEng fun e => { e with outHost := rest } else s
  | [] => s

/-- R491: from power-on the SPI port is driven from step 2 of R477; before it, the port is silent. -/
def spiSilent (s : State) : Bool := s.rst.phase == .por || (s.rst.phase == .fuses && s.rst.power)

/-- A low period of SPI_CS_N with the bytes of SPI_MOSI. -/
def spiTransaction (s : State) (mosi : List Byte) (extra : Nat) : State :=
  if mosi.isEmpty && extra == 0 then s
  else if spiSilent s then s
  else
    let err := framingError mosi extra
    let (s, tail) := spiTail s mosi
    let out := toBytes ((beBytes 4 (spiStatusWord s)).take mosi.length ++ tail)
    let s := s.modEng fun e => { e with miso := out, frameErr := err }
    if err then frameNotice s .host stBadFormat (natBytes mosi) true
    else
      match (mosi.headD 0).toNat with
      | 0x5A => acceptPacket s .host (natBytes (mosi.drop 4))
      | 0xA5 => spiTake s (mosi.length - 4)
      | _ => s

/-! ### Execution and COHERENT delivery (R369, R375 to R379) -/

/-- The command may take a slot and start. -/
def mayStart (s : State) (c : Cmd) : Bool :=
  (s.get F.SEC_STATE_DEBUG != 2 || servedAtHalt c.opcode) &&
    (match c.phase with
     | .slotted => true
     | .waiting =>
       coherentSlot s c.port && !waitsForEpoch s c.opcode c.atEpoch
     | _ => false)

/-- A command executes: at once on a BOUNDED port, and where it only reads; else its accesses are staged. -/
def startCmd (s : State) (c : Cmd) : State :=
  let set (s : State) (ph : CmdPhase) : State :=
    s.modEng fun e => { e with cmds := e.cmds.map fun d => if sameCmd c d then { d with phase := ph } else d }
  if !coherent s c.port then runCmd s c
  else
    match c.atEpoch with
    | none => if readsOnly c.opcode then runCmd s c else set s (.staged s.tclk)
    | some e =>
      if readsOnly c.opcode then
        if (imageFor s c).isSome then runCmd s c else refuse s c stEpochGone
      else if epochAhead s e then set s (.staged s.tclk)
      else refuse s c stEpochGone

/-- COMMAND_EXECUTE, R369: the first command in admission order that may start. -/
def executeNext (s : State) : State :=
  if !s.flag F.CMD_STATUS_ENGINE_UP then s
  else
    match s.eng.cmds.find? (mayStart s) with
    | some c => startCmd s c
    | none => s

/-- R375, R378, R385: what the boundary makes of a staged command, at Halt too. -/
def commitCmd (s : State) (c : Cmd) : State :=
  match c.phase with
  | .staged t =>
    let late := s.tclk < t + 4
    match c.atEpoch with
    | none => if late then s else runCmd s c
    | some e => if epochAhead s e then s else if late || e != s.get F.CMD_EPOCH_NUMBER then refuse s c stEpochGone else runCmd s c
  | _ => s

/-- R373: time boundaries since the configuration load. -/
def timeEpochs (s : State) : Nat := (s.tclk - s.eng.epochT0) / 1024

/-- R374: the number of the angle boundary last reached or passed. -/
def angleEpoch (s : State) : Nat := s.ang.stamp.toNat / 2 ^ 14 % 2 ^ 32

/-- R373: a boundary of the present source has been reached since the last one presented. -/
def epochDue (s : State) : Bool :=
  if epochByTime s then decide (s.eng.epochs < timeEpochs s) else angleEpoch s != s.eng.angLast

/-- R374: the number of a boundary that falls now. -/
def nextEpoch (s : State) : Nat := if epochByTime s then timeEpochs s else angleEpoch s

/-- EPOCH_BOUNDARY, R373 to R376: the boundary that is due is presented (log entry 30). -/
def epochBoundary (s : State) : State :=
  if (s.rst.phase ≠ .engine ∧ s.rst.phase ≠ .up) ∨ !epochDue s then s
  else
    let s := s.put F.CMD_EPOCH_NUMBER (nextEpoch s)
    let s := s.modEng fun e =>
      { e with epochs := timeEpochs s, angLast := angleEpoch s, byTime := epochByTime s }
    let s := s.eng.cmds.foldl commitCmd s
    let i : Image := ⟨s.get F.CMD_EPOCH_NUMBER, imageRegs s⟩
    s.modEng fun e => { e with images := (i :: e.images).take 2 }

/-- DELIVERY_MODE_SWITCH, R379: every command of the port has its final reply. -/
def modeSwitch (s : State) (p : Port) : State :=
  let k := portIdx p
  if s.flag (F.CMD_Pp_STATUS_CHANGING k) && !s.eng.cmds.any (·.port == p) then
    let s := s.put (F.CMD_Pp_STATUS_MODE_ACTIVE k) (s.get (F.CMD_Pp_CFG_MODE k))
    (s.put (F.CMD_Pp_STATUS_CHANGING k) 0).evtBit F.CMD_EVT_MODE_CHANGED 199
  else s

/-- R389: a command that is accepted, admitted and executed now, on a port and with a tag. -/
def commandRow (s : State) (p : Port) (tag op : Nat) (params : List Word) : State :=
  if !s.flag F.CMD_STATUS_ENGINE_UP || tagInUse s p tag || (s.get F.SEC_STATE_DEBUG == 2 && !servedAtHalt op) then s
  else
    let c : Cmd := ⟨p, tag, op, params, none, none, s.tclk, suspension s, classBound ((opClass op).getD 0), .slotted⟩
    startCmd (s.modEng fun e => { e with cmds := e.cmds ++ [c] }) c

/-! ### Restarts and patches (R380 to R384) -/

/-- R384: why the patch in NVM does not run; the value of STATE, and KIND. -/
def patchFault (s : State) : Option (Nat × Nat) :=
  let b := s.nvm.patch
  let f (i n : Nat) : Nat := ofBytes ((b.drop i).take n)
  let len := f 4 4
  let code := (b.drop 256).take len
  if !patchFormatOk b || f 12 4 != Config.romVersion.toNat then some (4, 2)
  else if sha256 ((b.drop 16).take 64) != (below 8).flatMap (fun k => beBytes 4 (s.reg (R.HM_PATCH_DIGESTk k))) then some (3, 1)
  else if ecdsaVerify ((b.drop 16).take 64) (sha256 (b.take 80 ++ (b.drop 144).take 112 ++ code)) ((b.drop 80).take 64) then none
  else some (2, 0)

/-- R384, R452: the patch region is checked at an engine start. -/
def patchCheck (s : State) : State :=
  if s.nvm.patch.isEmpty || s.security == secRetired then ((s.put F.CMD_PATCH_STATE 0).put F.CMD_PATCH_VERSION 0).endCond 66 0
  else
    match patchFault s with
    | none => ((s.put F.CMD_PATCH_STATE 1).put F.CMD_PATCH_VERSION (ofBytes ((s.nvm.patch.drop 8).take 4))).endCond 66 0
    | some (st, kind) =>
      ((s.put F.CMD_PATCH_STATE st).put F.CMD_PATCH_VERSION 0).evtBit F.CMD_EVT_PATCH_REJ 200 |>.raise 66 kind 0 0 kind

/-- R380 to R382: an engine restart starts. -/
def engineRestart (s : State) (cause : Nat) : State :=
  if !s.flag F.CMD_STATUS_ENGINE_UP then s
  else
    let s := ((s.put F.CMD_STATUS_ENGINE_UP 0).put F.CMD_STATUS_RESTARTING 1).addSat F.CMD_CNT_RESTARTS
    let s := s.modEng fun e =>
      { e with restart := some cause, restartPend := false, cmds := e.cmds.map fun c => { c with phase := .abandoned } }
    abortSounding (s.forEach (below 64) fun s n => abortTest s n 9 false false)

/-- LOCKSTEP_MISMATCH. -/
def lockstepMismatch (s : State) : State :=
  if s.flag F.CMD_STATUS_ENGINE_UP then engineRestart ((s.addSat F.CMD_CNT_LOCKSTEP).raise 64 0 2 0 0) 1 else s

/-- ENGINE_WATCHDOG; paused at Halt (R461). -/
def engineWatchdog (s : State) : State :=
  if s.flag F.CMD_STATUS_ENGINE_UP && s.get F.SEC_STATE_DEBUG != 2 then engineRestart (s.raiseOnce 65 0 1 0 0) 2 else s

/-- COMMANDED_RESTART_START, R395. -/
def commandedRestart (s : State) : State := if s.eng.restartPend then engineRestart s 3 else s

/-- R364: the words of tags abandoned on a port, tag 127 in bit 31 of the first. -/
def tagWords (l : List Nat) : List Word :=
  [3, 2, 1, 0].map fun k => word ((below 32).foldl (fun m b => if l.contains (32 * k + b) then m + 2 ^ b else m) 0)

/-- ENGINE_RESTART_COMPLETE, R381, R382. -/
def restartComplete (s : State) : State :=
  match s.eng.restart with
  | none => s
  | some cause =>
    let gone (p : Port) : List Nat := (s.eng.cmds.filter fun c => c.port == p && c.phase == .abandoned).map (·.tag)
    let h := gone .host
    let r := gone .ring
    let s := patchCheck s
    let s := s.modEng fun e => { e with restart := none, cmds := e.cmds.filter fun c => c.phase != .abandoned }
    let s := (forceDebugOff s).endCond 65 0
    let s := (s.put F.CMD_STATUS_ENGINE_UP 1).put F.CMD_STATUS_RESTARTING 0
    let w0 := word (cause * 2 ^ 24 + s.get F.CMD_CNT_RESTARTS)
    let s := queueNotice s .host 0xFF01 stEngineRestart (w0 :: tagWords h)
    let s := queueNotice s .ring 0xFF01 stEngineRestart (w0 :: tagWords r)
    s.evtBit F.CMD_EVT_RESTART 192

/-! ### Packets on the ring (spec/16_hexip_ring.md R419, R424, R426) -/

/-- A packet whose fragments are out of order is discarded. -/
def dropAssembly (s : State) (b : List Nat) : State :=
  frameNotice (s.modRing fun r => { r with asm := none }) .ring stBadFormat b false

/-- A fragment of a COMMAND cell from the master. -/
def fragment (s : State) (c : RingCell) : State :=
  let b0 := payNat c 0 1
  let first := bitOf b0 7
  let last := bitOf b0 6
  let idx := b0 % 64
  let len := payNat c 2 2
  let data := natBytes ((c.payload.drop 4).take 52)
  let seq := c.seq.toNat
  let step (s : State) (bytes : List Nat) : State :=
    if last then acceptPacket (s.modRing fun r => { r with asm := none }) .ring (bytes.take len)
    else s.modRing fun r => { r with asm := some ((seq + 1) % 65536, idx + 1, len, toBytes bytes) }
  match s.ring.asm with
  | some (q, i, _, bytes) =>
    if !first && q == seq && i == idx then step s (natBytes bytes ++ data)
    else
      let s := dropAssembly s (natBytes bytes)
      if first && idx == 0 then step s data else s
  | none => if first && idx == 0 then step s data else if first then dropAssembly s data else s

/-- COMMAND, R355, R424. -/
def commandCell (s : State) (p : RingPort) (c : RingCell) : State :=
  let (s, took) := receiveCell s p c 3
  if !took || isMaster s then s
  else if ringAddr s = 0xFFFF then
    if bitOf (payNat c 0 1) 7 then s.addSat (F.CMD_Pp_ERR_BAD_FORMAT 1) else s
  else if c.src ≠ 0 then
    if bitOf (payNat c 0 1) 7 then (s.addSat (F.CMD_Pp_ERR_BAD_FORMAT 1)).evtBit F.CMD_EVT_FOREIGN 201 else s
  else fragment s c

/-- The cells that carry a reply: FIRST, LAST and index, then the length, then up to 52 bytes. -/
def replyFragments : Nat → Nat → Nat → List Nat → List (List Nat)
  | 0, _, _, _ => []
  | n + 1, len, idx, b =>
    let last := b.length ≤ 52
    ([(if idx = 0 then 128 else 0) + (if last then 64 else 0) + idx, 0] ++ beBytes 2 len ++ b.take 52) ::
      (if last then [] else replyFragments n len (idx + 1) (b.drop 52))

/-- REPLY, R424: the item at the head of the ring port's queue leaves in REPLY cells to the master. -/
def replySend (s : State) : State :=
  match s.eng.outRing with
  | i :: rest =>
    if mayOriginate s && canSend s && !isMaster s then
      let b := itemBytes i
      let s := (replyFragments 21 b.length 0 b).foldl (fun s f => originate s 0 4 3 f) s
      s.modEng fun e => { e with outRing := rest }
    else s
  | [] => s

/-- A publication entry's value. -/
def pubValue (s : State) (k : Nat) : Nat :=
  let a := s.get (F.RING_PUB_ADDRk_ADDR k)
  if s.flag (F.RING_PUB_ADDRk_VALID k) && addrOk a then peek s a else 0

/-- TELEMETRY, R426. -/
def telemetry (s : State) : State :=
  if s.flag F.RING_PUB_CFG_EN && s.flag F.RING_GRANT_PUB_OK && mayOriginate s && s.security != secRetired then
    let body := stampBytes s.ang.stamp ++ beBytes 2 s.ring.pubs ++ (below 12).flatMap fun k => beBytes 4 (pubValue s k)
    (originate s 0 6 5 body).modRing fun r => { r with pubs := (r.pubs + 1) % 65536 }
  else s

end Sys2Proof.Machine
end

