-- ==== Sys2Proof/Machine/Reset.lean ====
section
/-! DEFINITION. Power-up and reset (spec/18_startup_reset.md R474 to R486), the fuse read
(spec/17_modes_security_debug.md R448, R453, R466 to R469) and the configuration load
(spec/13_folio_ledger_nvm.md R345 to R349). -/

namespace Sys2Proof.Machine

def State.modRst (s : State) (f : ResetState → ResetState) : State := { s with rst := f s.rst }

/-- R477: the fault collector and the event controller run from step 2 on. -/
def collectorRuns (s : State) : Bool := s.rst.phase == .load || s.rst.phase == .engine || s.rst.phase == .up

/-! ### What a DEVICE reset keeps (R478) -/

/-- Registers that are cleared only by power-on reset, beside those of kept blocks. -/
def powerOnly (a : Nat) : Bool :=
  [R.RST_CAUSE, R.RST_CNT, R.LDG_SEC, R.LDG_USEC, R.ASSAY_CNT, R.TWIN_CNT, R.NVM_CNT, R.CMD_CNT, R.CMD_Pp_ACC 0, R.CMD_Pp_ACC 1,
   R.CMD_Pp_ERR 0, R.CMD_Pp_ERR 1, R.RING_ERR_E, R.RING_ERR_W, R.RING_ERR_S].contains a ||
    (indexIn a (R.PCn_CNT 0) 0x40 10).isSome || (indexIn a (R.QUIREq_CNT 0) 0x40 16).isSome ||
    (indexIn a (R.PMp_CNT 0) 0x40 4).isSome || (indexIn a (R.SPAREk_CNT 0) 0x80 8).isSome ||
    (indexIn a (R.RAILn_GUARD_CNT 0) 0x80 64).isSome

/-- Blocks that every DEVICE reset keeps: clocks and angle, the Tally, ring forwarding and marks. -/
def keptBlock (a : Nat) : Bool :=
  (decide (0x0400 ≤ a) && decide (a < 0x0800)) || (decide (0x1000 ≤ a) && decide (a < 0x1400)) ||
    (indexIn a (R.TALLY_OUTk 0) 4 4).isSome || [R.RING_STATUS, R.RING_LINK_E, R.RING_LINK_W, R.RING_ASYM, R.RING_ANG_ERR].contains a

/-- Registers that show fuses, which change at a fuse read alone. -/
def fuseReg (a : Nat) : Bool :=
  a == R.HM_STATUS || (decide (R.HM_FATAL_OV_LO ≤ a) && decide (a < R.HM_PATCH_DIGESTk 8)) ||
    [R.CMD_FUSE, R.FLT_FATAL_CFG, R.RING_FUSE, R.RING_MID].contains a || (decide (R.hmStage 0 0 ≤ a) && decide (a < R.sndSum 0 0)) ||
    decide (a < 0x80)

/-- The guard half of each rail, the Quire sequencer with its registers, and the slices in service. -/
def railBlock (a : Nat) : Bool :=
  (decide (0x4000 ≤ a) && decide (a < 0x6000) && decide (a % 0x80 ≤ 0x24)) || (decide (0x0200 ≤ a) && decide (a < 0x0260)) ||
    (decide (0x2400 ≤ a) && decide (a < 0x2800)) || (decide (0x10000 ≤ a) && decide (a < 0x14000)) ||
    (decide (0x6000 ≤ a) && decide (a < 0x6400)) || a == R.SPR_STATUS

/-- The twin logic. -/
def twinBlock (a : Nat) : Bool := decide (R.TWIN_CFG ≤ a) && decide (a ≤ R.TWIN_TOKEN)

/-- Whether a register keeps its value, with the rails' block and the twin logic kept or not. -/
def keptReg (rails twin : Bool) (a : Nat) : Bool :=
  powerOnly a || keptBlock a || fuseReg a || (rails && railBlock a) || (twin && twinBlock a)

/-- Fields that keep their value, or show something outside the reset, in registers that are reset. -/
def keptFields : List (Nat × Nat) :=
  [(R.SEC_STATE, 0xF8200000), (R.RST_STATUS, 0x0F80FFFF), (R.TWIN_CFG, 0x38000000), (R.LDG_STATUS, 0x03FF0000), (R.LDG_SEQ, 0xFFFFFFFF)] ++
    ((below 96).map fun i => (R.FLT_SRCs_STAT i, 0xFFFF0000)) ++
    (below 64).flatMap fun n => [(R.RAILn_GUARD_OV n, 0x0FFF0000), (R.RAILn_GUARD_STATUS n, 0xF0140000)]

/-- R5, R478: the registers that are not kept take their reset values. -/
def clearRegs (s : State) (rails twin : Bool) : State :=
  let parts := (keptFields.filter fun p => !keptReg rails twin p.1).map fun p => (p.1, Nat.land (s.reg p.1) p.2)
  let fixed := [(R.POOL_CAL_IDX, 0x00025000), (R.BENCH_MAP, 0x76543210)] ++ (if twin then [] else [(R.TWIN_STATUS, 0xC0600000)])
  { s with regs := (parts ++ fixed).foldl (fun r p => storeSet r p.1 p.2) (s.regs.filter fun e => keptReg rails twin e.1) }

/-- Conditions that outlive a DEVICE reset: their detectors are kept (R478), or the part stays as it is. -/
def keptCond (held : Bool) (src : Nat) : Bool :=
  (decide (33 ≤ src) && decide (src ≤ 38)) || (decide (80 ≤ src) && decide (src ≤ 86)) || src == 54 || src == 61 ||
    (held && (decide (src ≤ 8) || (decide (19 ≤ src) && decide (src ≤ 22)) || (decide (48 ≤ src) && decide (src ≤ 55))))

/-- R481 item 1, R339: every operation but a Ledger record is abandoned. -/
def abandonNvm (s : State) : State :=
  let cut := s.nvm.ops.filterMap fun o => match o.job with | .erase k => some k | _ => none
  let s := s.modNvm fun v =>
    { v with ops := v.ops.filter fun o => o.job == .record
             slots := v.slots.filter fun x => !cut.contains x.1, junk := v.junk ++ cut.filter fun k => !v.junk.contains k
             cntPend := v.ready, image := none, patchIn := none }
  archiveCut s

/-- The parts beside the registers that every DEVICE reset resets. -/
def clearParts (s : State) (held : Bool) : State :=
  let z := State.reset
  { s with
    portLatch := z.portLatch
    flt := { z.flt with conds := s.flt.conds.filter fun c => keptCond held c.msg.source }
    evq := [], eng := z.eng, fine := z.fine, pool := z.pool, assay := z.assay, pm := z.pm
    marg := { z.marg with archive := s.marg.archive }
    folio := z.folio, wdn := z.wdn
    ring := { s.ring with disc := none, reqs := [], bar := z.ring.bar, rfAsked := 0, rfTarget := 0, folioArmed := none
                          folioLast := none, asm := none, pubs := 0 }
    sec := { s.sec with ks := [], chal := none, job := none, imageIn := none, ticks := 0, autoRet := false, toGuard := false } }

/-- The parts that a dropped reset resets: at once the twin logic, with ENn of a twin released (R486). -/
def clearTwin (s : State) : State :=
  let s := if isTwin s then s.forEach (below 64) fun s n => setEnDrive s n false else s
  { s with twin := State.reset.twin }

/-- R479: after the down-order the guard path, the sequencer and the spare control. -/
def clearRails (s : State) : State :=
  let z := State.reset
  { s with guard := z.guard, seq := z.seq, spare := { z.spare with wornPorts := s.spare.wornPorts, sramWorn := s.spare.sramWorn } }

/-! ### A DEVICE reset (R474, R476 to R481, R486) -/

/-- `RST_CAUSE` and `RST_CNT`. -/
def recordReset (s : State) (cause : Nat) (held : Bool) : State :=
  let s := (s.put F.RST_CAUSE_CAUSE cause).putB F.RST_CAUSE_HELD held
  let s := s.putB F.RST_CAUSE_DURING_STARTUP (s.rst.phase != .up)
  s.addSat (match cause with | 1 => F.RST_CNT_RSTN | 2 => F.RST_CNT_CMD | _ => F.RST_CNT_WDN)

/-- Whether a reset taken now is held: a start-up that is not complete makes it what that start-up was (R486). -/
def heldNow (s : State) (held : Bool) : Bool :=
  held && (s.rst.phase == .up || s.rst.held || (s.rst.power && s.rst.phase == .engine))

/-- A DEVICE reset is taken. -/
def takeReset (s : State) (cause : Nat) (held : Bool) : State :=
  let held := heldNow s held
  let power := s.rst.power && s.rst.phase != .up && s.rst.phase != .engine
  let hold := if s.rst.phase == .up then false else s.rst.holdDet
  let s := forceDebugOff (recordReset s cause held)
  let s := if s.security = secEscorted then s.put F.SEC_STATE_SECURITY secSealed else s
  let s := if held then s else (clearTwin (hallmarkStart s)).put F.SEC_STATE_MODE mStartup
  let s := syncNvm (abandonNvm (clearParts (clearRegs s true held) held))
  s.modRst fun r => { r with phase := .work, held := held, power := power, latched := false, holdDet := hold }

/-- RESET_N_ASSERT, R476. -/
def resetNLow (s : State) : State :=
  let s := s.modRst fun r => { r with low := true }
  if s.rst.phase = .por then s
  else
    if s.mode = mHoldup then s.modRst fun r => { r with latched := true }
    else takeReset s 1 (s.flag F.RST_STATUS_HOLD_RSTN)

/-- RESET_N_RELEASE. -/
def resetNHigh (s : State) : State := s.modRst fun r => { r with low := false }

/-- COMMANDED_RESET_START, R395. In HOLDUP the reset is not taken (R19). -/
def commandedReset (s : State) : State :=
  if s.eng.resetPend then
    let s := s.modEng fun e => { e with resetPend := false }
    if s.mode = mHoldup then s else takeReset s 2 (s.flag F.RST_STATUS_HOLD_CMD)
  else s

/-- RESET_TOKEN, R482. -/
def resetToken (s : State) (c : RingCell) : State :=
  if payNat c 0 1 ≠ 3 then s
  else
    let r := tokenReason s c
    if r ≠ 0 then rejectToken s r else takeReset (acceptToken s c) 3 (s.flag F.RST_STATUS_HOLD_WDN)

/-- R481: the NVM work of a DEVICE reset is complete. Before the first configuration load there is none. -/
def resetNvmDone (s : State) : Bool :=
  !s.nvm.ready || (s.nvm.stage.isEmpty && s.nvm.ops.isEmpty && !s.nvm.cntPend)

/-- DEVICE_RESET_NVM_DONE, R479, R481: the order, if it ran, and the NVM work are complete. -/
def deviceResetDone (s : State) : State :=
  if s.rst.phase = .work ∧ !s.flag F.SEQ_STATUS_HM_RUN ∧ resetNvmDone s then
    let s := if s.rst.held then clearRegs s true true else clearRails (clearRegs s false false)
    syncNvm ((s.modNvm fun v => { v with ready := false }).modRst fun r => { r with phase := .fuses })
  else s

/-! ### Power-on reset (R475, R478) -/

/-- What the NVM holds when power fails: what was being erased or written is lost (R350). -/
def nvmAfterPower (s : State) : NvmState :=
  let v := s.nvm
  let cut := v.ops.filterMap fun o => match o.job with | .erase k => some k | .record => some (nextSlot s) | _ => none
  { State.reset.nvm with
    slots := v.slots.filter fun x => !cut.contains x.1
    junk := v.junk ++ cut.filter fun k => !v.junk.contains k
    remaps := v.remaps, retired := v.retired, copies := v.copies, log := v.log, logPos := v.logPos, logB := v.logB
    patch := v.patch }

/-- POR_ASSERT: everything but NVM and fuses is lost. The commands that wait, and the level of RESET_N, are the outside
world's. -/
def porAssert (s : State) : State :=
  let z := State.reset
  let s := archiveCut s
  { z with
    pending := s.pending, freeCount := s.freeCount, readOut := s.readOut
    nvm := nvmAfterPower s
    marg := { z.marg with archive := s.marg.archive }
    rst := { z.rst with low := s.rst.low }
    sec := { z.sec with image := s.sec.image, hmValid := s.sec.hmValid, hmFail := s.sec.hmFail, sealed := s.sec.sealed
                        retired := s.sec.retired, open' := s.sec.open', keyBlown := s.sec.keyBlown } }

/-- POR_RELEASE, step 1 of R477. TCLK runs from the RC until TCLK_RETURN. -/
def porRelease (s : State) : State :=
  if s.rst.phase = .por then (s.put F.CLK_STATUS_TCLK_ON_RC 1).modRst fun r => { r with phase := .fuses } else s

/-! ### The fuse read (R448, R453, R466, R467, R469) -/

/-- R466: the Hallmark image in force; without one, every field at its unfused value. -/
def hallmark (s : State) : List Nat :=
  if s.sec.hmValid then s.sec.image
  else
    List.replicate 16 0 ++ (List.replicate 64 [0x0F, 0xFF]).flatten ++ List.replicate 24 0 ++ [0x19, 0x0F, 0, 0, 0, 0, 0, 0] ++
      List.replicate 8 0xFF ++ [0x80] ++ List.replicate 495 0

/-- Bytes of an image as one number. -/
def imgNat (b : List Nat) (i n : Nat) : Nat := ofBytes ((b.drop i).take n)

/-- R467: the fields of the image in the registers that show them. -/
def applyHallmark (s : State) : State :=
  let b := hallmark s
  let s := s.forEach (below 64) fun s n =>
    (s.put (F.RAILn_GUARD_OV_CEIL n) (imgNat b (16 + 2 * n) 2)).setReg (R.margCap n) (Nat.land (imgNat b (336 + 4 * n) 4) 0xFFFFFF3F)
  let s := s.forEach (below 3) fun s k =>
    (s.setReg (R.HM_FATAL_OV_LO + 8 * k) (imgNat b (148 + 8 * k) 4)).setReg (R.HM_FATAL_OV_HI + 8 * k) (imgNat b (144 + 8 * k) 4)
  let s := (s.put F.FLT_FATAL_CFG_FN_MASK (imgNat b 168 1 / 4)).put F.FLT_FATAL_CFG_FATAL_ACT (imgNat b 168 1)
  let s := (s.put F.TWIN_CFG_PERM (imgNat b 169 1)).put F.TWIN_CFG_WDN_PERM (imgNat b 169 1 / 4)
  let s := (s.put F.RING_FUSE_MASTER_PERM (imgNat b 169 1 / 8)).setReg R.CMD_FUSE (imgNat b 170 1 % 16)
  let s := s.setReg R.HM_RESET (imgNat b 172 4)
  let s := ((s.put F.RST_STATUS_HOLD_RSTN (imgNat b 172 1)).put F.RST_STATUS_HOLD_CMD (imgNat b 172 1 / 2)).put
    F.RST_STATUS_HOLD_WDN (imgNat b 172 1 / 4)
  let s := ((s.put F.RST_STATUS_AUTO_EN (imgNat b 173 1)).put F.RST_STATUS_AUTO_ANGLE (imgNat b 173 1 / 2)).put
    F.RST_STATUS_AUTO_DELAY (imgNat b 174 2)
  let s := s.forEach (below 16) fun s k =>
    ((s.setReg (R.hmStage k 0) (imgNat b (180 + 10 * k) 4)).setReg (R.hmStage k 1) (imgNat b (176 + 10 * k) 4)).setReg
      (R.hmStage k 2) (imgNat b (184 + 10 * k) 1)
  let s := s.forEach (below 8) fun s k =>
    (s.setReg (R.HM_DBG_DIGESTk k) (if s.sec.keyBlown then 0xFFFFFFFF else imgNat b (608 + 4 * k) 4)).setReg
      (R.HM_PATCH_DIGESTk k) (imgNat b (640 + 4 * k) 4)
  s.modSec fun x => { x with key := if x.keyBlown then List.replicate 16 0xFF else (b.drop 592).take 16 }

/-- `HM_STATUS` after a fuse read that found `weak` bits whose three fuses disagree. -/
def hmStatus (s : State) (weak : Nat) : State :=
  let s := (s.putB F.HM_STATUS_VALID s.sec.hmValid).putB F.HM_STATUS_FAIL s.sec.hmFail
  let s := ((s.put F.HM_STATUS_PENDING 0).putB F.HM_STATUS_SEAL s.sec.sealed).putB F.HM_STATUS_RETIRE s.sec.retired
  let s := (s.putB F.HM_STATUS_FACTORY_OPEN s.sec.open').putB F.HM_STATUS_KEY_SET (s.sec.key.any (· != 0))
  s.put F.HM_STATUS_WEAK weak

/-- R453: Nb is drawn, and Kb with it. -/
def drawBoot (s : State) : State :=
  let (s, nb) := randomBytes s 16
  let s := s.forEach (below 4) fun s i => s.setReg (R.SEC_NONCEi i) (imgNat nb (4 * i) 4)
  s.modSec fun x => { x with kb := cmac x.key (3 :: nb), kbSeq := Vector.replicate 2 0 }

/-- R284: the collector starts, and every detector whose condition stands raises its fault again. -/
def collectorStart (s : State) : State :=
  let s := { s with flt := { State.reset.flt with conds := s.flt.conds }, evq := [] }
  let s := (s.forEach (below 8) fun s g => s.setReg (R.EVT_Gg_STATUS g) 0).put F.SEQ_STATUS_FATAL_BLOCK 0
  s.flt.conds.foldl (fun s c => s.send c.msg) s

/-- R379: until the configuration load, the fused default of a port's mode is in force. -/
def modeDefault (s : State) (k : Nat) : State :=
  let d := s.get (if k = 0 then F.CMD_FUSE_DEF0 else F.CMD_FUSE_DEF1)
  (s.put (F.CMD_Pp_CFG_MODE k) d).put (F.CMD_Pp_STATUS_MODE_ACTIVE k) d

/-- FUSE_READ, step 2 of R477. Auxiliary power is taken as present unless a loss was detected (DEDUCED, log entry 66). `weak`: bits whose three fuses disagree; `test`: the TEST ball is high. -/
def fuseRead (s : State) (weak : Nat) (test : Bool) : State :=
  if s.rst.phase ≠ .fuses ∨ s.rst.low then s
  else
    let s := hmStatus (applyHallmark s) weak
    let s := s.put F.SEC_STATE_SECURITY (if s.sec.retired then secRetired else if s.sec.sealed then secSealed else secUnsealed)
    let s := s.putB F.SEC_STATE_FACTORY (test && s.sec.open' && s.security == secUnsealed)
    let s := modeDefault (modeDefault (drawBoot (s.setReg R.RING_MID Config.masterIdentity.toNat)) 0) 1
    let s := collectorStart ((s.endCond 73 0).endCond 74 0)
    let s := if s.rst.holdDet || s.mode == mHoldup then s else s.put F.SEC_STATE_HU_PRESENT 1
    let s := if weak = 0 then s else s.raise 73 0 0 0 (s.get F.HM_STATUS_WEAK)
    let s := if s.sec.hmValid then s else s.raise 74 0 0 0 0
    let s := if s.rst.held then s.forEach ((below 64).filter (railUse s)) guardSettingWritten else s
    s.modRst fun r => { r with phase := .load }

/-! ### The configuration load (R345 to R349, R320, R107, R140) -/

/-- R320: the spare-use map is restored. Without one, every part serves in its own place (R112). -/
def restoreMap (s : State) : State :=
  let b := match newestEntry s.nvm 1 with | some e => (e.drop 4).take 80 | none => List.replicate 54 0 ++ [0x76, 0x54, 0x32, 0x10] ++ List.replicate 22 0
  let s := s.forEach (below 64) fun s n =>
    s.put (F.RAILn_GUARD_STATUS_SLICE n) (imgNat b (4 + n / 2) 1 / (if n % 2 = 0 then 16 else 1) % 16)
  let s := s.forEach (below 8) fun s k => s.put (F.SPAREk_STATUS_STATE k) (imgNat b 36 2 / 4 ^ (7 - k))
  let s := s.modSpare fun p =>
    { p with wornRails := BitVec.ofNat 64 (imgNat b 38 8), guardOnly := BitVec.ofNat 64 (imgNat b 46 8)
             wornConvs := BitVec.ofNat 10 (imgNat b 58 2), vrefRole := imgNat b 60 1 % 4, vrefWorn := BitVec.ofNat 3 (imgNat b 60 1 / 4)
             wornPorts := BitVec.ofNat 3 (imgNat b 61 1) }
  let s := (s.put F.SPR_STATUS_SRAM_USED (imgNat b 63 1)).forEach (railList (imgNat b 46 8)) fun s n => s.put (F.RAILn_FINE_STATE_OOS n) 1
  s

/-- The working converters and ring ports as the map gives them. -/
def restoreParts (s : State) : State :=
  let b := match newestEntry s.nvm 1 with | some e => (e.drop 4).take 80 | none => []
  let s := if b.isEmpty then s else s.setReg R.BENCH_MAP (imgNat b 54 4)
  let s := s.forEach (below 10) fun s n =>
    s.put (F.PCn_STATUS_ROLE n) (if s.spare.wornConvs.getLsbD n then 2 else if (convPos s n).isSome then 0 else 1)
  let s := ((s.putB F.RING_STATUS_E_WORN (s.spare.wornPorts.getLsbD 0)).putB F.RING_STATUS_W_WORN (s.spare.wornPorts.getLsbD 1))
  let s := if s.spare.wornPorts.getLsbD 2 then s.put F.RING_STATUS_S_STATE 3 else s
  let s := (s.put F.NVM_STATUS_SPARES_USED s.nvm.remaps.length).put F.SPR_STATUS_NVM_USED s.nvm.remaps.length
  syncSpares s

/-- R269, R345: the recovery counters are restored. -/
def restoreCounts (s : State) : State :=
  let e := (newestEntry s.nvm 2).getD []
  s.forEach (below 96) fun s i => s.put (F.FLT_SRCs_STAT_RECOV i) (imgNat e (8 + 2 * i) 2)

/-- R485: words 0 to 7 of the Colophon. -/
def assembleColophon (s : State) : State :=
  let w := [0x53566472, 0xB1 * 2 ^ 24 + (if Config.orderingFH then 2 ^ 16 else 0) + Config.romVersion.toNat,
    s.reg (R.COL_Wk 2) / 2 ^ 16 * 2 ^ 16 + 1, Config.dieIdentity.toNat / 2 ^ 32, Config.dieIdentity.toNat % 2 ^ 32, Config.masterIdentity.toNat,
    Config.manufactured.toNat * 2 ^ 8, s.reg R.HM_STATUS]
  s.forEach (below 8) fun s k => s.setReg (R.COL_Wk k) (w.getD k 0)

/-- R478: registers of which a DEVICE reset's configuration load applies no entry. -/
def notLoaded (s : State) (a : Nat) : Bool :=
  !s.rst.power && (keptBlock a || (s.rst.held && (railBlock a || twinBlock a)))

/-- An entry is loaded. -/
def loadEntry (cal : Bool) (s : State) (e : Word × Word) : State :=
  match entryPlace cal e.1.toNat with
  | some (a, m) =>
    if notLoaded s a then s
    else s.setReg a (Nat.lor (Nat.land (s.reg a) (0xFFFFFFFF - m)) (Nat.land e.2.toNat m))
  | none => s

/-- R349: the copy of a region that is loaded, 0 A or 1 B; `CFG_…` and `CAL_…` of `NVM_STATUS`, and the faults. -/
def chooseCopy (s : State) (cal : Bool) : State × Option NvmCopy :=
  let i := if cal then 2 else 0
  let src := if cal then 58 else 56
  let a := vget s.nvm.copies i
  let b := vget s.nvm.copies (i + 1)
  let s := (s.putB (copyOkField i) (copyGood cal a)).putB (copyOkField (i + 1)) (copyGood cal b)
  let s := (s.endCond src 0).endCond src 1
  let pick (s : State) (k : Nat) : State := s.put (if cal then F.NVM_STATUS_CAL_SRC else F.NVM_STATUS_CFG_SRC) k
  match copyGood cal a, copyGood cal b with
  | true, true => if a.seq < b.seq then (pick s 1, some b) else (pick s 0, some a)
  | true, false => ((pick s 0).raise src 1 0 1 0, some a)
  | false, true => ((pick s 1).raise src 0 0 0 0, some b)
  | false, false => (s, none)

/-- R107, R140: coefficients before a Calibration copy is applied: unity gain, no offset, and, where no copy is, the
state of a default. -/
def calDefaults (s : State) (none' : Bool) : State :=
  let st := if none' then 2 else 0
  let s := s.forEach (below 64) fun s n =>
    (((s.put (F.RAILn_CAL_OFFSET_OFFSET n) 0).put (F.RAILn_CAL_GAIN_GAIN n) 0x400000).put (F.RAILn_CAL_STATUS_STATE n) st)
  let s := s.forEach (below 3) fun s g => s.forEach (below 32) fun s a =>
    ((s.put (F.pairOffset g a) 0).put (F.pairGain g a) 0x400000).put (F.pairState g a) st
  let s := s.forEach (below 10) fun s n => s.forEach (below 3) fun s x => s.put (F.PCn_FACx_GAIN_GAIN n x) 0x400000
  s.forEach (below 72) fun s k => s.put (F.sfGain k) 0x400000

/-- The Calibration region is loaded. R107, R100: with no valid copy every rail's condition stands, told by one message. -/
def loadCal (s : State) : State :=
  match chooseCopy s true with
  | (s, some c) => c.entries.foldl (loadEntry true) (calDefaults ((s.endSource 12).endCond 15 0) false)
  | (s, none) =>
    let s := (calDefaults s true).endSource 12
    let s := s.modFlt fun f => { f with conds := f.conds ++ (below 64).map fun n => ⟨n, ⟨12, 0, 0, n, false⟩⟩ }
    (s.send ⟨12, 0, 0, 0x8000, false⟩).raise 15 0 0 0 0

/-- R379: the mode of a port after the load: the fused default where it is locked or no copy names it. -/
def loadPortMode (s : State) (c : Option NvmCopy) (k : Nat) : State :=
  let fused := s.get (if k = 0 then F.CMD_FUSE_DEF0 else F.CMD_FUSE_DEF1)
  let locked := s.flag (if k = 0 then F.CMD_FUSE_LOCK0 else F.CMD_FUSE_LOCK1)
  let named := match c with | some x => x.entries.any fun e => e.1.toNat == R.CMD_Pp_CFG k | none => false
  let s := if locked || !named then s.put (F.CMD_Pp_CFG_MODE k) fused else s
  (s.put (F.CMD_Pp_STATUS_MODE_ACTIVE k) (s.get (F.CMD_Pp_CFG_MODE k))).put (F.CMD_Pp_STATUS_CHANGING k) 0

/-- The Config region is loaded. -/
def loadConfig (s : State) : State :=
  let (s, c) := chooseCopy s false
  let s := s.endCond 57 0
  let s := match c with
    | some x => x.entries.foldl (loadEntry false) (s.put F.NVM_STATUS_NO_CONFIG 0)
    | none => (s.put F.NVM_STATUS_NO_CONFIG 1).raise 57 0 1 0 0
  loadPortMode (loadPortMode s c 0) c 1

/-- R292, R293, R77, R452: the role after the load, ENn and TWROLE. A held reset keeps the role. -/
def loadRole (s : State) : State :=
  if s.rst.held then s
  else
    let s := s.modTwin fun t => { t with loaded := true }
    if s.security = secRetired then syncRole (s.put F.TWIN_STATUS_ROLE 3)
    else if !sidePermitted s then syncRole ((s.put F.TWIN_STATUS_ROLE 3).raise 51 0 1 2 2)
    else syncRole (s.put F.TWIN_STATUS_ROLE (if isTwin s then 3 else 0))

/-- R423: the master's part follows `RING_CFG.MASTER`; a master that had yielded is one again. -/
def loadMaster (s : State) : State :=
  let s := (s.endCond 85 0).modRing fun r => { r with yielded := false }
  if s.flag F.RING_CFG_MASTER == isMaster s then s
  else masterWritten s (F.RING_CFG_MASTER.insert 0 (1 - s.get F.RING_CFG_MASTER))

/-- R337: the last slot written, and the next sequence. -/
def findLedger (s : State) : State :=
  let seqOf (x : Nat × List Word) : Nat := (x.2.headD 0).toNat
  match s.nvm.slots.foldl (fun m x => match m with | some b => if seqOf b ≤ seqOf x then some x else some b | none => some x) none with
  | some x => (s.put F.LDG_STATUS_LAST_SLOT x.1).setReg R.LDG_SEQ ((seqOf x + 1) % 2 ^ 32)
  | none => s

/-- What each block makes of its loaded registers. R145: a record of the references is due; one that the Calibration region
has kept is the previous record (DEDUCED, log entry 94). -/
def startBlocks (s : State) : State :=
  let s := loadMaster s
  let s := if s.rst.power then (selectSource s).forEach (below 4) fun s k => outCfgWritten s k 0 else s
  let s := if s.rst.held then s
    else s.forEach (below 64) fun s n => let s := pgUseWritten (guardLoad s n) n false; if railUse s n then refreshRaw s n else s
  let s := s.forEach (below 8) fun s b => dropReserved (dropReserved s (R.BENCHb_TRIG b)) (R.BENCHb_ITRIG b)
  let s := s.modAssay fun a => { a with recorded := s.reg R.ASSAY_REF_RATIO != 0, recordDue := true }
  let s := syncAssay (syncPoolMap s)
  let s := s.forEach ((below 128).filter (entryValid s)) needVoutMode
  loadRole (s.forEach (below 64) syncArchive)

/-- R18, R480, R532: the mode at step 4. A power return before step 4 leaves HU_PRESENT at 1. -/
def firstMode (s : State) (below' : Bool) : State :=
  if s.rst.held then
    if s.mode = mService then setMode s (if anyEnabled s then mGuard else mQuiescent) else s
  else
    let s := if s.flag F.RST_STATUS_AUTO_EN then s.put F.RST_STATUS_AUTO_PEND 1 else s
    if s.rst.holdDet || below' then enterHoldup (s.when below' (·.put F.SEC_STATE_HU_PRESENT 0)) 0
    else setMode s (if s.security = secUnsealed then mCommission else mQuiescent)

/-- CONFIG_LOAD, steps 3 and 4 of R477. `below'`: HU_SENSE lies below its detection threshold. -/
def configLoad (s : State) (below' : Bool) : State :=
  if s.rst.phase ≠ .load then s
  else
    let s := assembleColophon (restoreCounts (restoreParts (if s.rst.held then s else restoreMap s)))
    let s := startBlocks (loadCal (loadConfig s))
    let s := findLedger s
    let s := s.setReg (R.COL_Wk 10) (s.reg R.NVM_STATUS / 2 ^ 21 % 128)
    let s := (firstMode s below').put F.RST_STATUS_STARTED 1
    let s := s.forEach (below 4) pmServe
    let s := syncAllFineRun (nvmReady s)
    let s := s.modEng fun e => { e with epochT0 := s.tclk, epochs := 0 }
    s.modRst fun r => { r with phase := .engine, holdDet := false }

/-- ENGINE_START, step 5 of R477. The loaded rates of heartbeats and publications are asked for again where an address
has been kept (R429). -/
def engineStart (s : State) : State :=
  if s.rst.phase ≠ .engine then s
  else
    let s := (patchCheck s).put F.CMD_STATUS_ENGINE_UP 1
    let s := s.modAng fun a => { a with relocking := s.flag F.CLK_STATUS_FALLBACK }
    let s := s.setReg (R.COL_Wk 2) (s.get F.CMD_PATCH_VERSION * 2 ^ 16 + 1)
    let s := s.modRst fun r => { r with phase := .up, held := false, power := false }
    if ringAddr s = 0xFFFF then s else admitRequest s

/-- R483: AUTO_DELAY ms have passed since step 4; a millisecond is 10,240 TCLK periods. -/
def autoDue (s : State) : Bool := decide (s.eng.epochT0 + 10240 * s.get F.RST_STATUS_AUTO_DELAY ≤ s.tclk)

/-- AUTO_START, R483. -/
def autoStart (s : State) : State :=
  if s.flag F.RST_STATUS_AUTO_PEND && autoDue s && s.mode == mQuiescent && decide (twinRole s < 2) &&
      (!s.flag F.RST_STATUS_AUTO_ANGLE || s.locked) then
    let qs := quires.filter fun q => s.flag (F.QUIREq_CFG_AUTO q)
    if s.security == secUnsealed || s.security == secRetired then s
    else if qs.any fun q => startRefused s q false then endAuto s 2
    else qs.foldl startUp (endAuto s 1)
  else s

/-- HOLDUP_EXIT, R447; a low level on RESET_N accepted meanwhile acts now (R476). -/
def holdupExit (s : State) : State :=
  if holdupOver s then
    let s := leaveHoldup s
    if s.rst.latched then takeReset s 1 (s.flag F.RST_STATUS_HOLD_RSTN) else s
  else s

end Sys2Proof.Machine
end

