-- ==== Sys2Proof/Machine/Reaction.lean ====
section
/-! DEFINITION. The dispatch of reactions (spec/11_fault_collection.md R275, R276), and what a sample of a rail does in
every block that watches it. -/

namespace Sys2Proof.Machine

/-! ### Reactions -/

/-- The sequencer takes an order at its next TCLK edge. -/
def orderSeq (s : State) (o : SeqOrder) : State :=
  s.modSeq fun t => if t.inbox.contains o then t else { t with inbox := t.inbox ++ [o] }

/-- D3: an action reaches its target. R292: a standby twin records it, and applies none. -/
def reactionAct (s : State) (a : FltAction) : State :=
  if 2 ≤ twinRole s then s
  else
    match a with
    | .none => s
    | .rail n => railReaction s n
    | .shutQuire n => match quireOf s n with | some q => orderSeq s (.shut q) | none => s
    | .shutAll => orderSeq s .shutAll
    | .hallmark => orderSeq s .hallmark
    | .warden n false => handOver s n
    | .warden _ true => if mayHandOver s then freezeAndHand s else orderSeq s .hallmark
    | .bench b => benchStart (benchStop s b) b

/-- The reaction to be dispatched: one of the overrun fault first, then the head of the queue. -/
def headReaction (s : State) : Option Reaction := (s.flt.ahead ++ s.flt.queue).head?

/-- The head is replaced, or leaves. -/
def setHead (s : State) (r : Option Reaction) : State :=
  s.modFlt fun f => match f.ahead with
    | _ :: rest => { f with ahead := r.toList ++ rest }
    | [] => { f with queue := r.toList ++ f.queue.tail }

/-- R239: the read that ended a partner's fault completed on this TCLK edge; the reaction linked to it does not start. -/
def partnerEnded (s : State) (r : Reaction) : Bool :=
  let k := r.msg.detail % 128
  r.msg.source == 29 && (s.pp (portOf k)).faultEnd == some (k, s.tclk)

/-- One step of the dispatch of the head. R327: the action of D3 comes after the latch of the Folio that D1 called for. -/
def dispatchStep (s : State) : State :=
  match headReaction s with
  | none => s
  | some r =>
    let i := r.msg.source
    match r.stage with
    | 0 =>
      let s := if s.flag (F.FLT_SRCs_CFG_FOLIO i) || r.msg.cls == 2 then folioTrigger s 2 else s
      syncFaults (setHead s (some { r with stage := 1 }))
    | 1 =>
      let s := if s.flag (F.FLT_SRCs_CFG_SHADOW_EN i) then s.put ⟨R.FLT_STATUS, s.get (F.FLT_SRCs_CFG_SHADOW_SEL i), 1⟩ 1 else s
      syncFaults (setHead s (some { r with stage := 2 }))
    | _ =>
      let s := syncFaults (setHead s none)
      let s := if bitOf s.folio.trig 2 then (latchFolio s).1 else s
      let s := if r.msg.cls == 2 then abortWork s 6 true else s
      if partnerEnded s r then s else reactionAct s r.action

/-- Steps of the head until it has made step `upTo`, D1 to D3. -/
def dispatchUpTo : Nat → State → Nat → State
  | 0, s, _ => s
  | fuel + 1, s, upTo =>
    match headReaction s with
    | none => s
    | some r => if r.stage < upTo then
        (if r.stage = 2 then dispatchStep s else dispatchUpTo fuel (dispatchStep s) upTo) else s

/-- REACTION_DISPATCH, R275, R276: the head makes its steps up to D`upTo`, all three where no step is named. -/
def reactionDispatch (s : State) (upTo : Nat) : State := dispatchUpTo 3 s (if upTo = 0 then 3 else upTo)

/-! ### Orders at the sequencer -/

/-- QUIRE_SHUT, R177. -/
def quireShutOrder (s : State) (q : Nat) : State :=
  let (s, due) := takeOrder s (.shut q)
  if due then shutQuire s q else s

/-- SHUT_ALL, R178. -/
def shutAllOrder (s : State) : State :=
  let (s, due) := takeOrder s .shutAll
  if due then shutAllQuires s else s

/-- HALLMARK_DOWN_ORDER_START, R180. -/
def hallmarkOrder (s : State) : State :=
  let (s, due) := takeOrder s .hallmark
  if due then hallmarkStart s else s

/-! ### A rail under stimulus (R99, R152, R216) -/

/-- A margin test owns the rail, or a Sounding's stimulus, or its return, moves it (R204, R99). -/
def stimOn (s : State) (n : Nat) : Bool := testOwns s n || sndDrives s n || margCode s n != 0

/-- A rail that margining or a Sounding works on is not checked by the Assay. -/
def assayStim (s : State) (n : Nat) : Bool := stimOn s n || sndOn s n

/-- FINE_SAMPLE: the sample with the monitors of the fine path, then the steps, retry cycles and margin tests that
wait on the rail. R100: an excursion is no fault while a step or work owns the rail. -/
def railSample (s : State) (n : Nat) (raw : Int) (back : Bool) : State :=
  let quiet := !stepOnRail s n && !workOwns s n
  let (s, o) := fineSample s n raw back quiet (stimOn s n)
  if o.delivered then marginSample (sampleForSteps (checkSample s n raw o (assayStim s n)) n o) n o else s

/-! ### Regulator transactions and the margin tests that wait on them -/

/-- A transaction's end, with the margin test it serves. -/
def transEnd (s : State) (p : Nat) (res : SmbResult) (data : Nat) (alertLow : Bool) : State :=
  let (s, r) := transDone s p res data alertLow
  lostPartners (match r with | some m => marginReply s m | none => s)

/-- BUS_RECOVERY, R234. -/
def recoverBus (s : State) (p : Nat) (freed : Bool) : State :=
  let (s, l) := busRecovery s p freed
  lostPartners (l.foldl marginReply s)

/-! ### Folios -/

/-- FOLIO_TARGET_MATCH, R328; R432: on the master, a ring-wide Folio ends with its target. -/
def targetMatch (s : State) : State :=
  let s := folioMatch s
  if s.angRun && stampReached s.ang.stamp s.ring.rfTarget then ringFolioMatched s else s

/-! ### Cells addressed to this node (spec/16_hexip_ring.md R414 to R416) -/

/-- A good cell of a type has arrived: forwarded or stripped, and, where the node takes it, acted on. -/
def cellRow (s : State) (p : RingPort) (c : RingCell) (kind : Nat) (f : State → State) : State :=
  let (s, took) := receiveCell s p c kind
  if took then f s else s

/-- A twin or Warden cell, acted on once the configuration is loaded. -/
def twinRow (s : State) (p : RingPort) (c : RingCell) (kind : Nat) (f : State → State) : State :=
  cellRow s p c kind fun s => if s.twin.loaded then f s else s

/-- ARRIVAL, R430. -/
def arrivalCell (s : State) (c : RingCell) : State :=
  if isMaster s then
    masterArrival s (payNat c 0 1) (bitOf (payNat c 1 1) 0) (bitOf (payNat c 1 1) 1) (payNat c 2 2) c.src.toNat
  else s

/-- ADMIT, R429: a request at the master, a grant at a node. -/
def admitCell (s : State) (c : RingCell) : State :=
  if isMaster s then masterAdmit s c.src.toNat (payNat c 0 4) (payNat c 4 4)
  else takeGrant s (bitOf (payNat c 0 1) 0) (bitOf (payNat c 0 1) 1) (payNat c 4 4)

/-- Invalid code groups of a port: counted, and toward its wear (R410). -/
def codeErrors (s : State) (p n : Nat) : State :=
  if n = 0 then s
  else
    let s := s.addSat (match p with | 0 => F.RING_ERR_E_CODE | 1 => F.RING_ERR_W_CODE | _ => F.RING_ERR_S_CODE) n
    let s := (s.modRing fun r => { r with errs := vmod r.errs p (· + n) }).raiseOnce 83 p 0 p 0
    let lim := s.get F.RING_CFG_WEAR_LIM
    if lim ≠ 0 ∧ lim ≤ vget s.ring.errs p then portDown s p else s

end Sys2Proof.Machine
end

