-- ==== Sys2Proof/Machine/AngleRows.lean ====
section
/-! DEFINITION. The commands of the angle reference and the clocks (spec/02_angle_and_clocks.md), each with its meaning. -/

namespace Sys2Proof.Machine

/-- REFERENCE_EDGE, R25, R26: the active input changes to `level`, `spacing` ANG clocks after its last change, and holds it
for `held` ANG samples. R28: with SRC = RING it is ignored. -/
def execReferenceEdge (spacing : Nat) (level : Bool) (held : Nat) (s : State) : Host.Outcome State Fault Refusal :=
  run s fun s =>
    if s.get F.ANG_CFG_SRC == 2 then s else syncAligned (edgeAndTally s (referencePin · spacing level held))

/-- ACQUISITION_COMPLETE, R29. -/
def execAcquisitionComplete (spacing : Nat) (s : State) : Host.Outcome State Fault Refusal :=
  run s fun s => syncAligned (edgeAndTally s (acquisitionComplete · spacing))

/-- HOLDOVER_ENTRY, R32. -/
def execHoldoverEntry (s : State) : Host.Outcome State Fault Refusal := run s fun s => syncAligned (holdoverEntry s)

/-- HOLDOVER_EXPIRED, R34. -/
def execHoldoverExpired (s : State) : Host.Outcome State Fault Refusal := run s fun s => holdoverExpired s

/-- ANG_CFG_WRITE, R30. -/
def execAngCfgWrite (port : Port) (value : Word) (s : State) : Host.Outcome State Fault Refusal :=
  run s fun s => writeRow s port R.ANG_CFG value.toNat

/-- RESEL, R30. -/
def execResel (port : Port) (s : State) : Host.Outcome State Fault Refusal :=
  run s fun s => writeRow s port R.ANG_CTRL (2 + 16 * s.get F.ANG_CTRL_HOP_IDX)

/-- HOP_STORE, R31. -/
def execHopStore (port : Port) (hopIdx : Fin 8) (s : State) : Host.Outcome State Fault Refusal :=
  run s fun s => writeRow s port R.ANG_CTRL (1 + 16 * hopIdx)

/-- ANG_INC_WRITE, R52. -/
def execAngIncWrite (port : Port) (value : Word) (s : State) : Host.Outcome State Fault Refusal :=
  run s fun s => writeRow s port R.ANG_INC value.toNat

/-- ANG_FREE_INC_WRITE, R23. -/
def execAngFreeIncWrite (port : Port) (value : Word) (s : State) : Host.Outcome State Fault Refusal :=
  run s fun s => writeRow s port R.ANG_FREE_INC value.toNat

/-- ANG_PHASE_WRITE, R35. -/
def execAngPhaseWrite (port : Port) (value : Word) (s : State) : Host.Outcome State Fault Refusal :=
  run s fun s => writeRow s port R.ANG_PHASE value.toNat

/-- ANG_STAMP_READ, R24. -/
def execAngStampRead (port : Port) (s : State) : Host.Outcome State Fault Refusal :=
  run s fun s => readRow s port R.ANG_STAMP_HI

/-- RELOCK, R44. -/
def execRelock (port : Port) (s : State) : Host.Outcome State Fault Refusal :=
  run s fun s => writeRow s port R.CLK_CTRL 1

/-- REF_RETURN, R42. -/
def execRefReturn (port : Port) (s : State) : Host.Outcome State Fault Refusal :=
  run s fun s => writeRow s port R.CLK_CTRL 2

/-- PLL_LOSS_OF_LOCK, R45. -/
def execPllLossOfLock (s : State) : Host.Outcome State Fault Refusal := run s fun s => lossOfLock s

/-- SYSTEM_CLOCK_OVERSPEED, R45. -/
def execSystemClockOverspeed (s : State) : Host.Outcome State Fault Refusal := run s fun s => overspeed s

/-- SYSTEM_PLL_LOCK, R41. -/
def execSystemPllLock (s : State) : Host.Outcome State Fault Refusal := run s fun s => pllLock s

/-- FALLBACK_RETURN, R44. -/
def execFallbackReturn (s : State) : Host.Outcome State Fault Refusal := run s fun s => fallbackReturn s

/-- BAND_SEARCH_RETRY, R44. -/
def execBandSearchRetry (s : State) : Host.Outcome State Fault Refusal := run s fun s => bandSearchRetry s

/-- FALLBACK_MEASURE, R46: `freq`: the fallback frequency in units of 10 kHz. -/
def execFallbackMeasure (freq : BitVec 16) (s : State) : Host.Outcome State Fault Refusal :=
  run s fun s => fallbackMeasure s freq.toNat

/-- XIN_FAILURE, R49: `symbols`: the ring ports with symbol lock. -/
def execXinFailure (symbols : BitVec 3) (s : State) : Host.Outcome State Fault Refusal :=
  run s fun s => xinFailure s symbols

/-- TCLK_RETURN, R50: XIN has been good for `us` microseconds without a break: at 0 XIN_OK rises, at 1,000 TCLK returns. -/
def execTclkReturn (us : Nat) (s : State) : Host.Outcome State Fault Refusal := run s fun s => tclkReturn s us

/-- SERDES_PLL_LOSS_OF_LOCK, R437. -/
def execSerdesPllLossOfLock (s : State) : Host.Outcome State Fault Refusal := run s fun s => serdesLoss s

/-- SERDES_PLL_LOCK, R51. -/
def execSerdesPllLock (s : State) : Host.Outcome State Fault Refusal := run s fun s => serdesLock s

/-- ANGREF_ALT_EDGE, R28: ANGREF_ALT changes, as REFERENCE_EDGE has it of the active input. -/
def execAngrefAltEdge (spacing : Nat) (level : Bool) (held : Nat) (s : State) : Host.Outcome State Fault Refusal :=
  run s fun s => altPinChange s spacing level held

end Sys2Proof.Machine
end

