-- ==== Sys2Proof/Machine/AssayRows.lean ====
section
/-! DEFINITION. The commands of the Assay (spec/06_assay.md), each with its meaning. -/

namespace Sys2Proof.Machine

/-- REFERENCE_WATCH, R144: `diff`: the difference in µV. -/
def execReferenceWatch (diff : Int) (s : State) : Host.Outcome State Fault Refusal :=
  run s fun s => referenceWatch s diff

/-- REFERENCE_RATIO_RECORD, R145: the record begins, its 5 ms are over, or its readings are stored. -/
def execReferenceRatioRecord (s : State) : Host.Outcome State Fault Refusal := run s referenceRecord

/-- REFERENCE_TRIAGE, R146: the 5 ms of the triage are over, or its readings are in. -/
def execReferenceTriage (s : State) : Host.Outcome State Fault Refusal := run s referenceTriage

/-- ASSAY_ROUND_START, R148. -/
def execAssayRoundStart (s : State) : Host.Outcome State Fault Refusal := run s fun s => roundStart s (assayStim s)

/-- ASSAY_CONVERSION_COMPLETE, R148. -/
def execAssayConversionComplete (conv : Fin 10) (s : State) : Host.Outcome State Fault Refusal :=
  run s fun s => conversionComplete s conv (assayStim s)

/-- ASSAY_ROUND_END, R149. -/
def execAssayRoundEnd (s : State) : Host.Outcome State Fault Refusal := run s fun s => roundEnd s

/-- CONVERTER_TRIAGE, R150. -/
def execConverterTriage (s : State) : Host.Outcome State Fault Refusal := run s converterTriage

/-- RAIL_TRIAGE, R153. -/
def execRailTriage (s : State) : Host.Outcome State Fault Refusal := run s railTriage

/-- SPARE_SLICE_CHECK, R154. -/
def execSpareSliceCheck (spare : Fin 8) (raw0 raw1 : Int) (s : State) : Host.Outcome State Fault Refusal :=
  run s fun s => spareCheck s spare raw0 raw1

/-- SRAM_CORRECTED_ERROR, R318. -/
def execSramCorrectedError (row : Nat) (s : State) : Host.Outcome State Fault Refusal := run s fun s => sramError s row

/-- ASSAY_CONVERSION_DUE, R156. -/
def execAssayConversionDue (conv : Fin 10) (s : State) : Host.Outcome State Fault Refusal :=
  run s fun s => conversionDue s conv

end Sys2Proof.Machine
end

