-- ==== Sys2Proof/Machine/CollectorRows.lean ====
section
/-! DEFINITION. The commands of the fault collector (spec/11_fault_collection.md), each with its meaning. -/

namespace Sys2Proof.Machine

/-- FAULT_MESSAGE, R267: `corrupt`: it arrives with a parity error. -/
def execFaultMessage (corrupt : Bool) (s : State) : Host.Outcome State Fault Refusal :=
  run s fun s => if collectorRuns s then faultMessage s corrupt else s

/-- COND_CHANGE, R267. -/
def execCondChange (source : Fin 96) (s : State) : Host.Outcome State Fault Refusal :=
  run s fun s => if collectorRuns s then condChange s source else s

/-- QUIET_EXPIRY, R269. -/
def execQuietExpiry (source : Fin 96) (s : State) : Host.Outcome State Fault Refusal :=
  run s fun s => if collectorRuns s then quietExpiry s source else s

/-- ESCALATION_WINDOW_END, R270. -/
def execEscalationWindowEnd (source : Fin 96) (s : State) : Host.Outcome State Fault Refusal :=
  run s fun s => if collectorRuns s then escWindowEnd s source else s

/-- REACTION_DISPATCH, R275: `upTo`: the step after which a higher reaction stops it, 0 for none. -/
def execReactionDispatch (upTo : Fin 4) (s : State) : Host.Outcome State Fault Refusal :=
  run s fun s => if collectorRuns s then reactionDispatch s upTo else s

/-- SHADOW_EXPIRY, R279. -/
def execShadowExpiry (list : Fin 8) (s : State) : Host.Outcome State Fault Refusal :=
  run s fun s => if collectorRuns s then shadowExpiry s list else s

/-- FLT_CLEAR_WRITE, R271. -/
def execFltClearWrite (port : Port) (value : Word) (s : State) : Host.Outcome State Fault Refusal :=
  run s fun s => writeRow s port R.FLT_CLEAR value.toNat

/-- FLT_INJ_GO, R281. -/
def execFltInjGo (port : Port) (value : Word) (s : State) : Host.Outcome State Fault Refusal :=
  run s fun s => writeRow s port R.FLT_INJ (F.FLT_INJ_GO.insert value.toNat 1)

/-- RECOVERY_COUNTER_WRITE, R269. -/
def execRecoveryCounterWrite (s : State) : Host.Outcome State Fault Refusal := run s fun s => recoveryWrite s

end Sys2Proof.Machine
end

