-- ==== Sys2Proof/Machine/Tick.lean ====
section
/-! DEFINITION. What the clocks do while no command waits: one ANG edge, and on every fifteenth a TCLK edge
(spec/02_angle_and_clocks.md R21, R40; log entry 6). -/

namespace Sys2Proof.Machine

/-- Once per second: the ring ports' error counts (R410). -/
def secondTick (s : State) : State := if s.sec.ticks = 0 then ringSecond s else s

/-- One TCLK edge: the seconds (R354, R455, R458), the Tally (R243), ELAPSED of the Quires (R171), the filters that stand still (R317), the codes that slew
(R196), trigger delays (R130), the twin link and the ring transmitters. -/
def tclkTick (s : State) : State :=
  let s := { s with tclk := s.tclk + 1 }
  let s := secondTick (tickSec (tickSeconds s))
  let s := tickHallmark ((tallyTick (tickMove s)).forEach quires tickQuire)
  let s := delaysEnd ((tickSounding s).forEach (below 64) tickMargin)
  ringDrain (ringDrain (tickTwin s) 0) 1

/-- R15, R40: every block that acts at a programmed angle compares it with the one stamp on the same ANG edge: Folios,
Soundings, barriers, gates, and the triggers and delays of the Benches. -/
def angMatches (s : State) : State :=
  if !s.angRun then s
  else
    let s := soundingMatch (targetMatch s)
    let s := s.forEach quires fun s q => gateOpen (barrierMatch s q) q 0
    delaysEnd (benchAngles s)

/-- One ANG edge: the stamp advances (R21), the Tally's angle advance with it (R244), and what it reaches matches. -/
def angTick (s : State) : State :=
  let t := angEdge s
  angMatches (t.modTally fun y => { y with adv := y.adv + (t.ang.stamp - s.ang.stamp).toNat })

/-- R43, R46: the ANG frequency, in units of 5 kHz: 153.6 MHz, or half the fallback oscillator's, as last measured. Before
a measurement it is what the oscillator makes within 180 MHz ±8 %. -/
def angRate (s : State) : Nat :=
  if !s.flag F.CLK_STATUS_FALLBACK then 30720
  else if s.ang.fbFreq ≠ 0 then s.ang.fbFreq
  else 16560 + Config.fallbackFreq.toNat % 2881

/-- One ANG edge, with the TCLK edge that falls between it and the next: TCLK is 2,048 units of 5 kHz, so that one falls on
every fifteenth ANG edge while the PLL is locked. While POR is asserted nothing is clocked. -/
def clockTick (s : State) : State :=
  if s.rst.phase = .por then s
  else
    let t := angTick s
    let p := t.angPhase + 2048
    if angRate t ≤ p then tclkTick { t with angPhase := (p - angRate t) % angRate t } else { t with angPhase := p }

/-- The clocks run on to the next TCLK edge, at most `n` ANG edges away. -/
def toTclk : Nat → State → State
  | 0, s => s
  | n + 1, s =>
    let t := clockTick s
    if t.tclk = s.tclk then toTclk n t else t

/-- The next TCLK edge. -/
def tclkEdge (s : State) : State := toTclk 16 s

/-! ### What happens on a TCLK edge alone (R243, R246, R247, R252, R255) -/

/-- TALLY_MATCH: the next TCLK edge, if counter `n` matches on it. -/
def tallyMatchEdge (s : State) (n : Nat) : State :=
  let t := tclkEdge s
  if t.get (F.Tn_STATUS_MCOUNT n) = s.get (F.Tn_STATUS_MCOUNT n) then s else t

/-- TALLY_WRAP: counter `n` has wrapped on the last TCLK edge; on the next one its linked neighbour steps. -/
def tallyCarryEdge (s : State) (n : Nat) : State :=
  if s.tally.carry.getLsbD n && tSource s (n + 1) == 4 && decide (n < 31) then tclkEdge s else s

/-- TCLK edges pass until the oldest write has taken effect. -/
def tallyEffectEdge : Nat → State → State
  | 0, s => s
  | n + 1, s =>
    match s.tally.writes with
    | [] => s
    | w :: _ => if w.left ≤ 1 then tclkEdge s else tallyEffectEdge n (tclkEdge s)

/-- CAP_EDGE: the next TCLK edge shows an edge of a CAP input to `level`. -/
def capEdgeTick (s : State) (cap : Nat) (level : Bool) : State :=
  if s.tally.level.getLsbD cap == level then s
  else tclkEdge (s.modTally fun t => { t with level := t.level ^^^ (1#8 <<< cap), cap := some (cap, level) })

end Sys2Proof.Machine
end

