-- ==== Sys2Proof/Machine/CounterRows.lean ====
section
/-! DEFINITION. The commands of the Tally (spec/10_tally.md), each with its meaning. -/

namespace Sys2Proof.Machine

/-- TALLY_REG_WRITE, R246. -/
def execTallyRegWrite (port : Port) (counter : Fin 32) (reg : Fin 3) (value : Word) (s : State) :
    Host.Outcome State Fault Refusal :=
  run s fun s => writeRow s port (match reg with | 0 => R.Tn_CMP counter | 1 => R.Tn_INTV counter | 2 => R.Tn_CFG counter) value.toNat

/-- TALLY_WRITE_EFFECT, R246: the TCLK edges up to the effect edge of the oldest write. -/
def execTallyWriteEffect (s : State) : Host.Outcome State Fault Refusal := run s fun s => tallyEffectEdge 4 s

/-- TALLY_MATCH, R247: the TCLK edge on which the counter steps onto or past CMP. -/
def execTallyMatch (counter : Fin 32) (s : State) : Host.Outcome State Fault Refusal :=
  run s fun s => tallyMatchEdge s counter

/-- TALLY_WRAP, R255. -/
def execTallyWrap (counter : Fin 32) (s : State) : Host.Outcome State Fault Refusal :=
  run s fun s => tallyCarryEdge s counter

/-- CAP_EDGE, R252. -/
def execCapEdge (cap : Fin 8) (level : Bool) (s : State) : Host.Outcome State Fault Refusal :=
  run s fun s => capEdgeTick s cap level

/-- TALLY_CAP_READ, R254. -/
def execTallyCapRead (port : Port) (counter : Fin 32) (s : State) : Host.Outcome State Fault Refusal :=
  run s fun s => readRow s port (R.Tn_CAP counter)

/-- TALLY_COUNT_READ, R256. -/
def execTallyCountRead (port : Port) (counter : Fin 32) (s : State) : Host.Outcome State Fault Refusal :=
  run s fun s => readRow s port (R.Tn_COUNT counter)

/-- EVT_OUT_PULSE_END, R259. -/
def execEvtOutPulseEnd (output : Fin 4) (s : State) : Host.Outcome State Fault Refusal :=
  run s fun s => outPulseEnd s output

end Sys2Proof.Machine
end

