-- ==== Sys2Proof/Machine/FineRows.lean ====
section
/-! DEFINITION. The commands of the fine path and the calibrations (spec/04_rail_fine_path.md), each with its meaning. -/

namespace Sys2Proof.Machine

/-- FINE_SAMPLE, R87: `raw`: the decimator or FIR output, before it is held to 24 bits. `back`: the boundary that ends an
overload. -/
def execFineSample (rail : Fin 64) (raw : Int) (back : Bool) (s : State) : Host.Outcome State Fault Refusal :=
  run s fun s => railSample s rail raw back

/-- FINE_CFG_WRITE, R90. -/
def execFineCfgWrite (port : Port) (rail : Fin 64) (value : Word) (s : State) : Host.Outcome State Fault Refusal :=
  run s fun s => writeRow s port (R.RAILn_FINE_CFG rail) value.toNat

/-- FINE_RESTART, R90. -/
def execFineRestart (rail : Fin 64) (s : State) : Host.Outcome State Fault Refusal := run s fun s => fineRestart s rail

/-- FINE_MODULATOR_OVERLOAD, R92. -/
def execFineModulatorOverload (rail : Fin 64) (negative : Bool) (s : State) : Host.Outcome State Fault Refusal :=
  run s fun s => fineOverload s rail negative

/-- FINE_WINDOW_WRITE, R96. -/
def execFineWindowWrite (port : Port) (rail : Fin 64) (hi : Bool) (value : Word) (s : State) :
    Host.Outcome State Fault Refusal :=
  run s fun s => writeRow s port (if hi then R.RAILn_FINE_WIN_HI rail else R.RAILn_FINE_WIN_LO rail) value.toNat

/-- FINE_RESULT_READ, R88. -/
def execFineResultRead (port : Port) (rail : Fin 64) (s : State) : Host.Outcome State Fault Refusal :=
  run s fun s => readRow s port (R.RAILn_FINE_RESULT rail)

/-- CALIBRATION_AVERAGE_DONE, R102: `none`: the pool calibration. -/
def execCalibrationAverageDone (rail : Option (Fin 64)) (s : State) : Host.Outcome State Fault Refusal :=
  run s fun s => match rail with | some n => railAverageDone s n | none => poolAverageDone s

/-- CALIBRATION_COMMIT, R105. -/
def execCalibrationCommit (rail : Option (Fin 64)) (s : State) : Host.Outcome State Fault Refusal :=
  run s fun s => match rail with | some n => railCalCommit s n | none => poolCalCommit s

/-- CAL_COEFF_WRITE, R105. -/
def execCalCoeffWrite (port : Port) (rail : Fin 64) (gain : Bool) (value : Word) (s : State) :
    Host.Outcome State Fault Refusal :=
  run s fun s => writeRow s port (if gain then R.RAILn_CAL_GAIN rail else R.RAILn_CAL_OFFSET rail) value.toNat

end Sys2Proof.Machine
end

