-- ==== Sys2Proof/Machine/GuardRows.lean ====
section
/-! DEFINITION. The commands of the guard path (spec/03_rail_guard.md), each with its meaning. -/

namespace Sys2Proof.Machine

/-- GUARD_RAW_CHANGE, R59: `sense`: the differential sense voltage in nV. -/
def execGuardRawChange (rail : Fin 64) (sense : Int) (s : State) : Host.Outcome State Fault Refusal :=
  run s fun s => guardRawChange s rail sense

/-- GUARD_FILTER_ASSERT, R63. -/
def execGuardFilterAssert (rail : Fin 64) (uv spare : Bool) (edges : Nat) (s : State) :
    Host.Outcome State Fault Refusal :=
  run s fun s => filterAssert s rail uv spare edges

/-- GUARD_FILTER_DEASSERT, R63. -/
def execGuardFilterDeassert (rail : Fin 64) (uv spare : Bool) (edges : Nat) (s : State) :
    Host.Outcome State Fault Refusal :=
  run s fun s => latchCondsOf (filterDeassert s rail uv spare edges) rail

/-- GUARD_THRESH_WRITE, R61. -/
def execGuardThreshWrite (rail : Fin 64) (s : State) : Host.Outcome State Fault Refusal :=
  run s fun s => latchCondsOf (guardThreshWrite s rail) rail

/-- GUARD_CHANGEOVER_END, R61. -/
def execGuardChangeoverEnd (rail : Fin 64) (s : State) : Host.Outcome State Fault Refusal :=
  run s fun s => guardChangeoverEnd s rail

/-- SENSE_COMMON_MODE_ERROR, R56. -/
def execSenseCommonModeError (rail : Fin 64) (s : State) : Host.Outcome State Fault Refusal :=
  run s fun s => commonModeError s rail

/-- SENSE_COMMON_MODE_CLEAR, R56. -/
def execSenseCommonModeClear (rail : Fin 64) (s : State) : Host.Outcome State Fault Refusal :=
  run s fun s => commonModeClear s rail

/-- PG_FILTER_CHANGE, R72. -/
def execPgFilterChange (rail : Fin 64) (level : Bool) (edges : Nat) (s : State) : Host.Outcome State Fault Refusal :=
  run s fun s => latchCondsOf (pgFilterChange s rail level edges) rail

/-- EN_READBACK_MISMATCH, R76. -/
def execEnReadbackMismatch (rail : Fin 64) (level : Bool) (edges : Nat) (s : State) :
    Host.Outcome State Fault Refusal :=
  run s fun s => enReadback s rail level edges

/-- EN_SET, R78. `off`: a request to turn the rail off meets it on the same edge, and wins (R74). -/
def execEnSet (port : Port) (rail : Fin 64) (off : Bool) (s : State) : Host.Outcome State Fault Refusal :=
  run s fun s =>
    if off then latchOff (writeRow s port (R.RAILn_EN_CTRL rail) 3) rail else writeRow s port (R.RAILn_EN_CTRL rail) 1

/-- EN_CLR, R78. -/
def execEnClr (port : Port) (rail : Fin 64) (s : State) : Host.Outcome State Fault Refusal :=
  run s fun s => writeRow s port (R.RAILn_EN_CTRL rail) 2

/-- GUARD_PROOF_START, R79. -/
def execGuardProofStart (rail : Fin 64) (uv : Bool) (s : State) : Host.Outcome State Fault Refusal :=
  run s fun s => proofStart s rail uv

/-- GUARD_PROOF_SAMPLE, R79. -/
def execGuardProofSample (rail : Fin 64) (asserted : Bool) (s : State) : Host.Outcome State Fault Refusal :=
  run s fun s => proofSample s rail asserted

/-- GUARD_PROOF_END, R79. -/
def execGuardProofEnd (rail : Fin 64) (s : State) : Host.Outcome State Fault Refusal := run s fun s => proofEnd s rail

/-- SUBSTITUTION_START, R80: `checkOk`: the spares that pass their check (R315). -/
def execSubstitutionStart (checkOk : BitVec 8) (s : State) : Host.Outcome State Fault Refusal :=
  run s fun s => substStart s checkOk

/-- SUBSTITUTION_STEP, R80. -/
def execSubstitutionStep (s : State) : Host.Outcome State Fault Refusal := run s fun s => substStep s

end Sys2Proof.Machine
end

