-- ==== Sys2Proof/Machine/LinkRows.lean ====
section
/-! DEFINITION. The commands of the ring (spec/16_hexip_ring.md), each with its meaning. -/

namespace Sys2Proof.Machine

/-- RING_PORT_UP, R410. -/
def execRingPortUp (port : RingPort) (s : State) : Host.Outcome State Fault Refusal :=
  run s fun s => portUp s (portNum port)

/-- RING_PORT_DOWN, R410. -/
def execRingPortDown (port : RingPort) (s : State) : Host.Outcome State Fault Refusal :=
  run s fun s => portDown s (portNum port)

/-- PORT_LOOPBACK_DONE, R410. -/
def execPortLoopbackDone (port : RingPort) (pass : Bool) (s : State) : Host.Outcome State Fault Refusal :=
  run s fun s => loopbackDone s (portNum port) pass

/-- SPARE_PORT_DAILY_LOOPBACK, R410. -/
def execSparePortDailyLoopback (s : State) : Host.Outcome State Fault Refusal := run s fun s => spareLoopback s

/-- WRAP_END, R435. -/
def execWrapEnd (port : RingPort) (s : State) : Host.Outcome State Fault Refusal :=
  run s fun s => wrapEnd s (portNum port)

/-- ECHO_REQUEST_SEND, R417. -/
def execEchoRequestSend (s : State) : Host.Outcome State Fault Refusal := run s fun s => echoSend s

/-- ECHO_REQUEST, R417: `turn`: the turnaround, in 1/16 bit times. -/
def execEchoRequest (port : RingPort) (token : BitVec 24) (turn : Nat) (s : State) : Host.Outcome State Fault Refusal :=
  run s fun s => echoAnswer s (portNum port) token.toNat turn

/-- ECHO_REPLY, R417: `trip`: the round trip, in 1/16 bit times. -/
def execEchoReply (port : RingPort) (low : BitVec 8) (turn trip : Nat) (s : State) : Host.Outcome State Fault Refusal :=
  run s fun s => echoReply s (portNum port) low.toNat turn trip

/-- MARK_SEND, R420. -/
def execMarkSend (elapsed : Nat) (s : State) : Host.Outcome State Fault Refusal := run s fun s => markSend s elapsed

/-- ANGLE_IDLE_SEND, R420. -/
def execAngleIdleSend (s : State) : Host.Outcome State Fault Refusal := run s fun s => angleIdleSend s

/-- ANGLE_MARK, R421: `turned`: on the master, a mark of its own is back on the port it left. -/
def execAngleMark (port : RingPort) (index : Fin 16) (elapsed residence spacing : Nat) (turned : Bool) (s : State) :
    Host.Outcome State Fault Refusal :=
  run s fun s => syncAligned (angleMark s (portNum port) index elapsed residence spacing turned)

/-- MARK_PATH_SWITCH, R422. -/
def execMarkPathSwitch (s : State) : Host.Outcome State Fault Refusal := run s fun s => markSwitch s

/-- ANGLE, R421: `age`: ANG clocks since the index-0 mark. -/
def execAngle (port : RingPort) (cell : RingCell) (age : Nat) (s : State) : Host.Outcome State Fault Refusal :=
  run s fun s => angleArrives s port cell age

/-- DISCOVER, R418: `loopPs`: on the master, the time round the loop. -/
def execDiscover (port : RingPort) (cell : RingCell) (loopPs : Nat) (s : State) : Host.Outcome State Fault Refusal :=
  run s fun s => discoverCell s port cell loopPs

/-- DISCOVERY_TIMEOUT, R418. -/
def execDiscoveryTimeout (s : State) : Host.Outcome State Fault Refusal := run s fun s => discoveryTimeout s

/-- COMMAND, R424. -/
def execCommand (port : RingPort) (cell : RingCell) (s : State) : Host.Outcome State Fault Refusal :=
  run s fun s => commandCell s port cell

/-- REPLY, R424. -/
def execReply (s : State) : Host.Outcome State Fault Refusal := run s fun s => replySend s

/-- EVENT, R425. -/
def execEvent (s : State) : Host.Outcome State Fault Refusal := run s fun s => eventSend s

/-- TELEMETRY, R426. -/
def execTelemetry (s : State) : Host.Outcome State Fault Refusal := run s fun s => telemetry s

/-- ARRIVAL, R431. -/
def execArrival (port : RingPort) (cell : RingCell) (s : State) : Host.Outcome State Fault Refusal :=
  run s fun s => cellRow s port cell 7 (arrivalCell · cell)

/-- ARRIVAL_REPEAT, R430. -/
def execArrivalRepeat (quire : Fin 16) (s : State) : Host.Outcome State Fault Refusal :=
  run s fun s => arrivalRepeat s quire

/-- RELEASE, R181. -/
def execRelease (port : RingPort) (cell : RingCell) (s : State) : Host.Outcome State Fault Refusal :=
  run s fun s => cellRow s port cell 8 (releaseCell · cell)

/-- RING_BAR_FORCE, R431. -/
def execRingBarForce (port : Port) (bar : Fin 4) (s : State) : Host.Outcome State Fault Refusal :=
  run s fun s => writeRow s port (R.RING_BARk_CTRL bar) 2

/-- RING_BAR_CLEAR, R431. -/
def execRingBarClear (port : Port) (bar : Fin 4) (s : State) : Host.Outcome State Fault Refusal :=
  run s fun s => writeRow s port (R.RING_BARk_CTRL bar) 1

/-- RING_BAR_CFG_WRITE, R444. -/
def execRingBarCfgWrite (port : Port) (bar : Fin 4) (value : Word) (s : State) : Host.Outcome State Fault Refusal :=
  run s fun s => writeRow s port (R.RING_BARk_CFG bar) value.toNat

/-- BARRIER_AUTO_CLEAR, R431. -/
def execBarrierAutoClear (bar : Fin 4) (s : State) : Host.Outcome State Fault Refusal :=
  run s fun s => barAutoClear s bar

/-- FOLIO, R433. -/
def execFolio (port : RingPort) (cell : RingCell) (s : State) : Host.Outcome State Fault Refusal :=
  run s fun s => cellRow s port cell 9 (folioRequest · cell)

/-- FOLIO_ACK, R432. -/
def execFolioAck (port : RingPort) (cell : RingCell) (s : State) : Host.Outcome State Fault Refusal :=
  run s fun s => cellRow s port cell 0xA (folioAck · cell)

/-- ADMIT, R429. -/
def execAdmission (port : RingPort) (cell : RingCell) (s : State) : Host.Outcome State Fault Refusal :=
  run s fun s => cellRow s port cell 0xE (admitCell · cell)

/-- MASTER_LOST, R441. -/
def execMasterLost (s : State) : Host.Outcome State Fault Refusal := run s fun s => masterLost s

/-- RING_CELL_FORWARD, R415: `good`: closed by /EOF/ with a good CRC; `codes`: invalid code groups. -/
def execRingCellForward (port : RingPort) (cell : RingCell) (good : Bool) (codes : Nat) (s : State) :
    Host.Outcome State Fault Refusal :=
  run s fun s => codeErrors (cellForward s port cell good) (portNum port) codes

end Sys2Proof.Machine
end

