-- ==== Sys2Proof/Machine/OpcodeRows.lean ====
section
/-! DEFINITION. The commands of the opcodes (spec/15_command_reference.md), each with its meaning. -/

namespace Sys2Proof.Machine

/-- CAL_ZERO, R103. -/
def execCalZero (port : Port) (tag : BitVec 7) (params : List Word) (s : State) : Host.Outcome State Fault Refusal :=
  run s fun s => commandRow s port tag.toNat 0x0200 params

/-- CAL_FULL, R104. -/
def execCalFull (port : Port) (tag : BitVec 7) (params : List Word) (s : State) : Host.Outcome State Fault Refusal :=
  run s fun s => commandRow s port tag.toNat 0x0201 params

/-- STATUS, R392. -/
def execStatus (port : Port) (tag : BitVec 7) (params : List Word) (s : State) : Host.Outcome State Fault Refusal :=
  run s fun s => commandRow s port tag.toNat 0x0001 params

/-- ECHO, R392. -/
def execEcho (port : Port) (tag : BitVec 7) (params : List Word) (s : State) : Host.Outcome State Fault Refusal :=
  run s fun s => commandRow s port tag.toNat 0x0002 params

/-- COLOPHON_READ, R485. -/
def execColophonRead (port : Port) (tag : BitVec 7) (params : List Word) (s : State) :
    Host.Outcome State Fault Refusal :=
  run s fun s => commandRow s port tag.toNat 0x0003 params

/-- REG_READ, R392. -/
def execRegRead (port : Port) (tag : BitVec 7) (params : List Word) (s : State) : Host.Outcome State Fault Refusal :=
  run s fun s => commandRow s port tag.toNat 0x0010 params

/-- REG_READ_BLOCK, R392. -/
def execRegReadBlock (port : Port) (tag : BitVec 7) (params : List Word) (s : State) :
    Host.Outcome State Fault Refusal :=
  run s fun s => commandRow s port tag.toNat 0x0011 params

/-- REG_WRITE, R393. -/
def execRegWrite (port : Port) (tag : BitVec 7) (params : List Word) (s : State) : Host.Outcome State Fault Refusal :=
  run s fun s => commandRow s port tag.toNat 0x0012 params

/-- REG_WRITE_LIST, R393. -/
def execRegWriteList (port : Port) (tag : BitVec 7) (params : List Word) (s : State) :
    Host.Outcome State Fault Refusal :=
  run s fun s => commandRow s port tag.toNat 0x0013 params

/-- REG_MODIFY, R393. -/
def execRegModify (port : Port) (tag : BitVec 7) (params : List Word) (s : State) : Host.Outcome State Fault Refusal :=
  run s fun s => commandRow s port tag.toNat 0x0014 params

/-- ENGINE_RESTART, R395. -/
def execEngineRestart (port : Port) (tag : BitVec 7) (params : List Word) (s : State) :
    Host.Outcome State Fault Refusal :=
  run s fun s => commandRow s port tag.toNat 0x0700 params

/-- RESET, R395. -/
def execReset (port : Port) (tag : BitVec 7) (params : List Word) (s : State) : Host.Outcome State Fault Refusal :=
  run s fun s => commandRow s port tag.toNat 0x0701 params

/-- MODE_SET, R397. -/
def execModeSet (port : Port) (tag : BitVec 7) (params : List Word) (s : State) : Host.Outcome State Fault Refusal :=
  run s fun s => commandRow s port tag.toNat 0x0100 params

/-- SEQ_START, R398. -/
def execSeqStart (port : Port) (tag : BitVec 7) (params : List Word) (s : State) : Host.Outcome State Fault Refusal :=
  run s fun s => commandRow s port tag.toNat 0x0101 params

/-- QUIRE_RESUME, R396. -/
def execQuireResume (port : Port) (tag : BitVec 7) (params : List Word) (s : State) :
    Host.Outcome State Fault Refusal :=
  run s fun s => commandRow s port tag.toNat 0x0102 params

/-- STORE, R346. -/
def execStore (port : Port) (tag : BitVec 7) (params : List Word) (s : State) : Host.Outcome State Fault Refusal :=
  run s fun s => commandRow s port tag.toNat 0x0202 params

/-- IMAGE_WRITE, R400. -/
def execImageWrite (port : Port) (tag : BitVec 7) (params : List Word) (s : State) : Host.Outcome State Fault Refusal :=
  run s fun s => commandRow s port tag.toNat 0x0203 params

/-- PATCH_WRITE, R400. -/
def execPatchWrite (port : Port) (tag : BitVec 7) (params : List Word) (s : State) : Host.Outcome State Fault Refusal :=
  run s fun s => commandRow s port tag.toNat 0x0204 params

/-- FUSE_PROGRAM, R468. -/
def execFuseProgram (port : Port) (tag : BitVec 7) (params : List Word) (s : State) :
    Host.Outcome State Fault Refusal :=
  run s fun s => commandRow s port tag.toNat 0x0205 params

/-- MARGIN_TEST, R200. -/
def execMarginTest (port : Port) (tag : BitVec 7) (params : List Word) (s : State) : Host.Outcome State Fault Refusal :=
  run s fun s => commandRow s port tag.toNat 0x0300 params

/-- MARGIN_ABORT, R401. -/
def execMarginAbort (port : Port) (tag : BitVec 7) (params : List Word) (s : State) :
    Host.Outcome State Fault Refusal :=
  run s fun s => commandRow s port tag.toNat 0x0301 params

/-- SOUNDING_START, R206. -/
def execSoundingStart (port : Port) (tag : BitVec 7) (params : List Word) (s : State) :
    Host.Outcome State Fault Refusal :=
  run s fun s => commandRow s port tag.toNat 0x0302 params

/-- SOUNDING_STOP, R401. -/
def execSoundingStop (port : Port) (tag : BitVec 7) (params : List Word) (s : State) :
    Host.Outcome State Fault Refusal :=
  run s fun s => commandRow s port tag.toNat 0x0303 params

/-- SOUNDING_READ, R401. -/
def execSoundingRead (port : Port) (tag : BitVec 7) (params : List Word) (s : State) :
    Host.Outcome State Fault Refusal :=
  run s fun s => commandRow s port tag.toNat 0x0304 params

/-- FAULT_CLEAR, R402. -/
def execFaultClear (port : Port) (tag : BitVec 7) (params : List Word) (s : State) : Host.Outcome State Fault Refusal :=
  run s fun s => commandRow s port tag.toNat 0x0400 params

/-- FOLIO_TAKE, R402. -/
def execFolioTake (port : Port) (tag : BitVec 7) (params : List Word) (s : State) : Host.Outcome State Fault Refusal :=
  run s fun s => commandRow s port tag.toNat 0x0401 params

/-- FOLIO_ARM, R402. -/
def execFolioArm (port : Port) (tag : BitVec 7) (params : List Word) (s : State) : Host.Outcome State Fault Refusal :=
  run s fun s => commandRow s port tag.toNat 0x0402 params

/-- FOLIO_READ, R403. -/
def execFolioRead (port : Port) (tag : BitVec 7) (params : List Word) (s : State) : Host.Outcome State Fault Refusal :=
  run s fun s => commandRow s port tag.toNat 0x0403 params

/-- FOLIO_RELEASE, R402. -/
def execFolioRelease (port : Port) (tag : BitVec 7) (params : List Word) (s : State) :
    Host.Outcome State Fault Refusal :=
  run s fun s => commandRow s port tag.toNat 0x0404 params

/-- LEDGER_READ, R402. -/
def execLedgerRead (port : Port) (tag : BitVec 7) (params : List Word) (s : State) : Host.Outcome State Fault Refusal :=
  run s fun s => commandRow s port tag.toNat 0x0405 params

/-- SWITCH_BACK, R309. -/
def execSwitchBack (port : Port) (tag : BitVec 7) (params : List Word) (s : State) : Host.Outcome State Fault Refusal :=
  run s fun s => commandRow s port tag.toNat 0x0500 params

/-- RING_DISCOVER, R418. -/
def execRingDiscover (port : Port) (tag : BitVec 7) (params : List Word) (s : State) :
    Host.Outcome State Fault Refusal :=
  run s fun s => commandRow s port tag.toNat 0x0501 params

/-- RING_FOLIO, R432. -/
def execRingFolio (port : Port) (tag : BitVec 7) (params : List Word) (s : State) : Host.Outcome State Fault Refusal :=
  run s fun s => commandRow s port tag.toNat 0x0502 params

/-- ESCORT_BEGIN, R456. -/
def execEscortBegin (port : Port) (tag : BitVec 7) (params : List Word) (s : State) :
    Host.Outcome State Fault Refusal :=
  run s fun s => commandRow s port tag.toNat 0x0600 params

/-- ESCORT_PROVE, R456. -/
def execEscortProve (port : Port) (tag : BitVec 7) (params : List Word) (s : State) :
    Host.Outcome State Fault Refusal :=
  run s fun s => commandRow s port tag.toNat 0x0601 params

/-- ESCORT_END, R457. -/
def execEscortEnd (port : Port) (tag : BitVec 7) (params : List Word) (s : State) : Host.Outcome State Fault Refusal :=
  run s fun s => commandRow s port tag.toNat 0x0602 params

/-- SEAL, R450. -/
def execSeal (port : Port) (tag : BitVec 7) (params : List Word) (s : State) : Host.Outcome State Fault Refusal :=
  run s fun s => commandRow s port tag.toNat 0x0603 params

/-- RETIRE, R451. -/
def execRetire (port : Port) (tag : BitVec 7) (params : List Word) (s : State) : Host.Outcome State Fault Refusal :=
  run s fun s => commandRow s port tag.toNat 0x0604 params

/-- DEBUG_SET, R459. -/
def execDebugSet (port : Port) (tag : BitVec 7) (params : List Word) (s : State) : Host.Outcome State Fault Refusal :=
  run s fun s => commandRow s port tag.toNat 0x0605 params

end Sys2Proof.Machine
end

