-- ==== Sys2Proof/Machine/PacketRows.lean ====
section
/-! DEFINITION. The commands of the command engine (spec/14_command_engine.md), each with its meaning. -/

namespace Sys2Proof.Machine

/-- SPI_STATUS, R357: `mosi`: the bytes shifted in; `extra`: clocks beyond them. The first byte tells STATUS, WRITE and READ apart. -/
def execSpiStatus (mosi : List Byte) (extra : Fin 8) (s : State) : Host.Outcome State Fault Refusal :=
  run s fun s => spiTransaction s mosi extra

/-- SPI_WRITE, R357: `mosi`: the bytes shifted in; `extra`: clocks beyond them. -/
def execSpiWrite (mosi : List Byte) (extra : Fin 8) (s : State) : Host.Outcome State Fault Refusal :=
  run s fun s => spiTransaction s mosi extra

/-- SPI_READ, R359: `mosi`: the bytes shifted in; `extra`: clocks beyond them. -/
def execSpiRead (mosi : List Byte) (extra : Fin 8) (s : State) : Host.Outcome State Fault Refusal :=
  run s fun s => spiTransaction s mosi extra

/-- COMMAND_EXECUTE, R369. -/
def execCommandExecute (s : State) : Host.Outcome State Fault Refusal := run s fun s => executeNext s

/-- EPOCH_BOUNDARY, R375. -/
def execEpochBoundary (s : State) : Host.Outcome State Fault Refusal := run s fun s => epochBoundary s

/-- DELIVERY_MODE_WRITE, R379. -/
def execDeliveryModeWrite (port : Port) (target : Port) (value : Word) (s : State) : Host.Outcome State Fault Refusal :=
  run s fun s => writeRow s port (R.CMD_Pp_CFG (portIdx target)) value.toNat

/-- DELIVERY_MODE_SWITCH, R379. -/
def execDeliveryModeSwitch (port : Port) (s : State) : Host.Outcome State Fault Refusal :=
  run s fun s => modeSwitch s port

/-- LOCKSTEP_MISMATCH, R380. -/
def execLockstepMismatch (s : State) : Host.Outcome State Fault Refusal := run s fun s => lockstepMismatch s

/-- ENGINE_WATCHDOG, R380. -/
def execEngineWatchdog (s : State) : Host.Outcome State Fault Refusal := run s fun s => engineWatchdog s

/-- ENGINE_RESTART_COMPLETE, R381. -/
def execEngineRestartComplete (s : State) : Host.Outcome State Fault Refusal := run s fun s => restartComplete s

/-- REGISTER_WRITE, R2. -/
def execRegisterWrite (port : Port) (address : Nat) (value : Word) (s : State) : Host.Outcome State Fault Refusal :=
  run s fun s => writeRow s port address value.toNat

/-- COMMANDED_RESTART_START, R395. -/
def execCommandedRestartStart (s : State) : Host.Outcome State Fault Refusal := run s fun s => commandedRestart s

end Sys2Proof.Machine
end

