-- ==== Sys2Proof/Machine/PairRows.lean ====
section
/-! DEFINITION. The commands of twins and the Warden (spec/12_twins_spares.md), each with its meaning. -/

namespace Sys2Proof.Machine

/-- TWIN_LINK_HEARTBEAT_SEND, R294. -/
def execTwinLinkHeartbeatSend (s : State) : Host.Outcome State Fault Refusal := run s fun s => linkBeat s

/-- TWIN_LINK_DOWN, R294. -/
def execTwinLinkDown (s : State) : Host.Outcome State Fault Refusal := run s fun s => linkDown s

/-- TWIN_LINK_RETRAIN, R294: `frames`: good frames in a row that follow. -/
def execTwinLinkRetrain (frames : Nat) (s : State) : Host.Outcome State Fault Refusal :=
  run s fun s => linkRetrain s frames

/-- LATCH_MIRROR_FRAME, R295. -/
def execLatchMirrorFrame (latches : BitVec 64) (s : State) : Host.Outcome State Fault Refusal :=
  run s fun s => latchFrame s latches

/-- DYNAMIC_IMAGE, R297. -/
def execDynamicImage (image : DynImage) (s : State) : Host.Outcome State Fault Refusal :=
  run s fun s => dynFrame s image

/-- DYNAMIC_IMAGE_SEND, R295. -/
def execDynamicImageSend (s : State) : Host.Outcome State Fault Refusal := run s fun s => dynSend s

/-- CONFIG_IMAGE, R296. -/
def execConfigImage (image : CfgImage) (s : State) : Host.Outcome State Fault Refusal :=
  run s fun s => configFrame s image

/-- CONFIG_IMAGE_SEND, R295. -/
def execConfigImageSend (s : State) : Host.Outcome State Fault Refusal := run s fun s => configSend s

/-- MIRROR_STALE, R297. -/
def execMirrorStale (s : State) : Host.Outcome State Fault Refusal := run s fun s => mirrorStale s

/-- HANDOVER_FRAME, R304. -/
def execHandoverFrame (latches : BitVec 64) (s : State) : Host.Outcome State Fault Refusal :=
  run s fun s => handoverFrame s latches

/-- TAKEOVER_FRAME, R304. -/
def execTakeoverFrame (s : State) : Host.Outcome State Fault Refusal := run s fun s => takeoverFrame s

/-- TAKEOVER_WAIT_END, R304. -/
def execTakeoverWaitEnd (s : State) : Host.Outcome State Fault Refusal := run s fun s => takeoverWaitEnd s

/-- DRIVING_FRAME, R304. -/
def execDrivingFrame (s : State) : Host.Outcome State Fault Refusal := run s fun s => drivingFrame s

/-- DRIVING_TIMEOUT, R304. -/
def execDrivingTimeout (s : State) : Host.Outcome State Fault Refusal := run s fun s => drivingTimeout s

/-- HANDOVER_TIMEOUT, R306. -/
def execHandoverTimeout (s : State) : Host.Outcome State Fault Refusal := run s fun s => handoverTimeout s

/-- TWIN_RING_HEARTBEAT_SEND, R300. -/
def execTwinRingHeartbeatSend (s : State) : Host.Outcome State Fault Refusal := run s fun s => ringBeat s

/-- WARDEN_ACK_TIMEOUT, R311. -/
def execWardenAckTimeout (s : State) : Host.Outcome State Fault Refusal := run s fun s => ackTimeout s

/-- HB_ACK, R311. -/
def execHbAck (port : RingPort) (cell : RingCell) (s : State) : Host.Outcome State Fault Refusal :=
  run s fun s => twinRow s port cell 0xD (ackCell · cell)

/-- TOKEN, R303: a RESET order is the row RESET_TOKEN. -/
def execToken (port : RingPort) (cell : RingCell) (s : State) : Host.Outcome State Fault Refusal :=
  run s fun s => twinRow s port cell 0xB fun s => if payNat cell 0 1 = 3 then s else tokenCell s cell

/-- HEARTBEAT, R301. -/
def execHeartbeat (port : RingPort) (cell : RingCell) (s : State) : Host.Outcome State Fault Refusal :=
  run s fun s => twinRow s port cell 0xC (heartbeatCell · cell)

/-- WARDEN_JUDGMENT, R301. -/
def execWardenJudgment (s : State) : Host.Outcome State Fault Refusal := run s fun s => judgeAll s

/-- WDN_PAIR_NODES_WRITE, R300. -/
def execWdnPairNodesWrite (port : Port) (pair : Fin 8) (value : Word) (s : State) : Host.Outcome State Fault Refusal :=
  run s fun s => writeRow s port (R.WDN_PAIRk_NODES pair) value.toNat

/-- WDN_CFG_WRITE, R300. -/
def execWdnCfgWrite (port : Port) (value : Word) (s : State) : Host.Outcome State Fault Refusal :=
  run s fun s => writeRow s port R.WDN_CFG value.toNat

/-- LINK_HEARTBEAT_FRAME, R294. -/
def execLinkHeartbeatFrame (role : Fin 4) (ready : Bool) (seq : Word) (s : State) : Host.Outcome State Fault Refusal :=
  run s fun s => beatFrame s role ready seq.toNat

end Sys2Proof.Machine
end

