-- ==== Sys2Proof/Machine/PoolRows.lean ====
section
/-! DEFINITION. The commands of the pool converters and Benches (spec/05_converter_benches.md), each with its meaning. -/

namespace Sys2Proof.Machine

/-- BENCH_START, R127. -/
def execBenchStart (port : Port) (bench : Fin 8) (s : State) : Host.Outcome State Fault Refusal :=
  run s fun s => writeRow s port (R.BENCHb_CTRL bench) 1

/-- BENCH_STOP, R132. -/
def execBenchStop (port : Port) (bench : Fin 8) (s : State) : Host.Outcome State Fault Refusal :=
  run s fun s => writeRow s port (R.BENCHb_CTRL bench) 2

/-- BENCH_TRIG, R129. -/
def execBenchTrig (port : Port) (bench : Fin 8) (s : State) : Host.Outcome State Fault Refusal :=
  run s fun s => writeRow s port (R.BENCHb_CTRL bench) 4

/-- BENCH_ITRIG, R129. -/
def execBenchItrig (port : Port) (bench : Fin 8) (s : State) : Host.Outcome State Fault Refusal :=
  run s fun s => writeRow s port (R.BENCHb_CTRL bench) 8

/-- PWM_SYNC_EDGE, R129. -/
def execPwmSyncEdge (sel : Fin 4) (level : Bool) (s : State) : Host.Outcome State Fault Refusal :=
  run s fun s => pwmSyncEdge s sel level

/-- BENCH_ANGLE_TRIGGER, R129. -/
def execBenchAngleTrigger (bench : Fin 8) (injected : Bool) (s : State) : Host.Outcome State Fault Refusal :=
  run s fun s => benchAngle s bench injected

/-- TRIGGER_DELAY_END, R130. -/
def execTriggerDelayEnd (bench : Fin 8) (injected : Bool) (s : State) : Host.Outcome State Fault Refusal :=
  run s fun s => delayEnd s bench injected

/-- POOL_SAMPLE, R120. -/
def execPoolSample (conv : Fin 10) (raw : BitVec 24) (overload cmOut : Bool) (s : State) :
    Host.Outcome State Fault Refusal :=
  run s fun s => poolSample s conv raw.toInt overload cmOut

/-- ENTRY_COMPLETE, R120. -/
def execEntryComplete (conv : Fin 10) (s : State) : Host.Outcome State Fault Refusal :=
  run s fun s => entryComplete s conv

/-- BENCH_LAYOUT_WRITE, R124. -/
def execBenchLayoutWrite (port : Port) (value : Word) (s : State) : Host.Outcome State Fault Refusal :=
  run s fun s => writeRow s port R.BENCH_LAYOUT value.toNat

/-- POOL_RESULT_READ, R122: of the result register at an address. -/
def execPoolResultRead (port : Port) (address : Nat) (s : State) : Host.Outcome State Fault Refusal :=
  run s fun s => if isPoolResult address then readRow s port address else s

/-- POOL_CAL_WRITE, R142. -/
def execPoolCalWrite (port : Port) (gain : Bool) (value : Word) (s : State) : Host.Outcome State Fault Refusal :=
  run s fun s => writeRow s port (if gain then R.POOL_CAL_GAIN else R.POOL_CAL_OFFSET) value.toNat

/-- HOLDUP_POOL_CONVERSION, R137. -/
def execHoldupPoolConversion (raw : BitVec 24) (overload cmOut : Bool) (s : State) : Host.Outcome State Fault Refusal :=
  run s fun s => holdupConversion s raw.toInt overload cmOut

/-- CONVERTER_SUBSTITUTION, R138. -/
def execConverterSubstitution (s : State) : Host.Outcome State Fault Refusal := run s fun s => convSubst s

end Sys2Proof.Machine
end

