-- ==== Sys2Proof/Machine/RecordRows.lean ====
section
/-! DEFINITION. The commands of Folios, the Ledger and NVM (spec/13_folio_ledger_nvm.md), each with its meaning. -/

namespace Sys2Proof.Machine

/-- SNAP_EDGE, R325. -/
def execSnapEdge (level : Bool) (s : State) : Host.Outcome State Fault Refusal := run s fun s => snapEdge s level

/-- FOLIO_LATCH, R326. -/
def execFolioLatch (s : State) : Host.Outcome State Fault Refusal := run s fun s => (latchFolio s).1

/-- FOLIO_TARGET_MATCH, R328. -/
def execFolioTargetMatch (s : State) : Host.Outcome State Fault Refusal := run s fun s => targetMatch s

/-- FOLIO_TRIG, R325. -/
def execFolioTrig (port : Port) (s : State) : Host.Outcome State Fault Refusal :=
  run s fun s => writeRow s port R.FOLIO_CTRL (2 ^ 31)

/-- FOLIO_CTRL_ARM, R328. -/
def execFolioCtrlArm (port : Port) (s : State) : Host.Outcome State Fault Refusal :=
  run s fun s => writeRow s port R.FOLIO_CTRL (2 ^ 30)

/-- FOLIO_DISARM, R328. -/
def execFolioDisarm (port : Port) (s : State) : Host.Outcome State Fault Refusal :=
  run s fun s => writeRow s port R.FOLIO_CTRL (2 ^ 29)

/-- FOLIO_CTRL_RELEASE, R330. -/
def execFolioCtrlRelease (port : Port) (buffers : BitVec 4) (s : State) : Host.Outcome State Fault Refusal :=
  run s fun s => writeRow s port R.FOLIO_CTRL buffers.toNat

/-- FOLIO_DATA_READ, R332. -/
def execFolioDataRead (port : Port) (s : State) : Host.Outcome State Fault Refusal :=
  run s fun s => readRow s port R.FOLIO_DATA

/-- LEDGER_STAGE, R335. -/
def execLedgerStage (s : State) : Host.Outcome State Fault Refusal := run s fun s => ledgerStage s

/-- NVM_PROGRAM_UNIT_DONE, R338. -/
def execNvmProgramUnitDone (ok : Bool) (s : State) : Host.Outcome State Fault Refusal := run s fun s => unitDone s ok

/-- NVM_ERASE_DONE, R341. -/
def execNvmEraseDone (ok : Bool) (s : State) : Host.Outcome State Fault Refusal := run s fun s => eraseDone s ok

/-- NVM_UNCORRECTABLE_READ, R344. -/
def execNvmUncorrectableRead (address : BitVec 21) (s : State) : Host.Outcome State Fault Refusal :=
  run s fun s => uncorrectable s address.toNat

/-- DEVICE_LOG_WRITE, R345. -/
def execDeviceLogWrite (s : State) : Host.Outcome State Fault Refusal := run s fun s => deviceLogWrite s

/-- NVM_STORE_WRITE, R346. -/
def execNvmStoreWrite (port : Port) (config cal : Bool) (s : State) : Host.Outcome State Fault Refusal :=
  run s fun s => writeRow s port R.NVM_STORE ((if config then 1 else 0) + (if cal then 2 else 0))

/-- LDG_RD_DATA_READ, R354. -/
def execLdgRdDataRead (port : Port) (s : State) : Host.Outcome State Fault Refusal :=
  run s fun s => readRow s port R.LDG_RD_DATA

/-- LDG_SEC_WRITE, R354. -/
def execLdgSecWrite (port : Port) (value : Word) (s : State) : Host.Outcome State Fault Refusal :=
  run s fun s => writeRow s port R.LDG_SEC value.toNat

end Sys2Proof.Machine
end

