-- ==== Sys2Proof/Machine/RegulatorRows.lean ====
section
/-! DEFINITION. The commands of the regulator ports (spec/09_regulator_ports.md), each with its meaning. -/

namespace Sys2Proof.Machine

/-- POLL_ROUND_START, R228. -/
def execPollRoundStart (pm : Fin 4) (s : State) : Host.Outcome State Fault Refusal := run s fun s => pollRoundStart s pm

/-- SMBUS_TRANSACTION_DONE, R227: `alertLow`: SMBALERT_N is low after it. -/
def execSmbusTransactionDone (pm : Fin 4) (result : SmbResult) (data : BitVec 16) (alertLow : Bool) (s : State) :
    Host.Outcome State Fault Refusal :=
  run s fun s => transEnd s pm result data.toNat alertLow

/-- SMBUS_RETRY, R233. -/
def execSmbusRetry (pm : Fin 4) (s : State) : Host.Outcome State Fault Refusal := run s fun s => pmRetry s pm

/-- SMBUS_TIMEOUT, R222. -/
def execSmbusTimeout (pm : Fin 4) (alertLow : Bool) (s : State) : Host.Outcome State Fault Refusal :=
  run s fun s => transEnd s pm .timeout 0 alertLow

/-- BUS_RECOVERY, R234. -/
def execBusRecovery (pm : Fin 4) (freed : Bool) (s : State) : Host.Outcome State Fault Refusal :=
  run s fun s => recoverBus s pm freed

/-- SMBALERT_ASSERT, R229. -/
def execSmbalertAssert (pm : Fin 4) (s : State) : Host.Outcome State Fault Refusal := run s fun s => alertAssert s pm

/-- SMBALERT_STUCK_CLEAR, R230. -/
def execSmbalertStuckClear (pm : Fin 4) (s : State) : Host.Outcome State Fault Refusal :=
  run s fun s => alertStuckClear s pm

/-- LOST_ENTRY_POLL, R235. -/
def execLostEntryPoll (entry : Fin 128) (s : State) : Host.Outcome State Fault Refusal :=
  run s fun s => lostEntryPoll s entry

/-- PM_XFER_START, R237. -/
def execPmXferStart (port : Port) (value : Word) (s : State) : Host.Outcome State Fault Refusal :=
  run s fun s => writeRow s port R.PM_XFER_CTRL (F.PM_XFER_CTRL_START.insert value.toNat 1)

/-- PARTNER_CFG_WRITE, R223. -/
def execPartnerCfgWrite (port : Port) (entry : Fin 128) (value : Word) (s : State) : Host.Outcome State Fault Refusal :=
  run s fun s => writeRow s port (R.PMPk_CFG entry) value.toNat

end Sys2Proof.Machine
end

