-- ==== Sys2Proof/Machine/SecurityRows.lean ====
section
/-! DEFINITION. The commands of security and hold-up (spec/17_modes_security_debug.md), each with its meaning. -/

namespace Sys2Proof.Machine

/-- FUSE_BLOW_DONE, R450: `majority`: the deciding fuses are blown by majority; `weak`: fuses that disagree. -/
def execFuseBlowDone (majority : Bool) (weak : Nat) (s : State) : Host.Outcome State Fault Refusal :=
  run s fun s => fuseBlowDone s majority weak

/-- SESSION_TIMEOUT, R457. -/
def execSessionTimeout (s : State) : Host.Outcome State Fault Refusal := run s fun s => sessionTimeout s

/-- CHALLENGE_EXPIRY, R456. -/
def execChallengeExpiry (s : State) : Host.Outcome State Fault Refusal := run s fun s => dropChallenge s

/-- ESCORT_LOCKOUT_END, R458. -/
def execEscortLockoutEnd (s : State) : Host.Outcome State Fault Refusal := run s fun s => lockoutEnd s

/-- HOLDUP_ENTRY, R446: `blown`: groups of fuses already blown of a job that HOLDUP stops. -/
def execHoldupEntry (blown : Nat) (s : State) : Host.Outcome State Fault Refusal := run s fun s => holdupEntry s blown

/-- HU_POWER_RETURN, R447. -/
def execHuPowerReturn (s : State) : Host.Outcome State Fault Refusal := run s fun s => powerReturn s

/-- HOLDUP_EXIT, R447. -/
def execHoldupExit (s : State) : Host.Outcome State Fault Refusal := run s fun s => holdupExit s

end Sys2Proof.Machine
end

