-- ==== Sys2Proof/Machine/SequencerRows.lean ====
section
/-! DEFINITION. The commands of the Quire sequencer (spec/07_quires.md), each with its meaning. -/

namespace Sys2Proof.Machine

/-- QUIRE_UP, R166. -/
def execQuireUp (port : Port) (quire : Fin 16) (s : State) : Host.Outcome State Fault Refusal :=
  run s fun s => writeRow s port (R.QUIREq_CTRL quire) 1

/-- QUIRE_DOWN, R166. -/
def execQuireDown (port : Port) (quire : Fin 16) (s : State) : Host.Outcome State Fault Refusal :=
  run s fun s => writeRow s port (R.QUIREq_CTRL quire) 2

/-- QUIRE_CTRL_RESUME, R182. -/
def execQuireCtrlResume (port : Port) (quire : Fin 16) (s : State) : Host.Outcome State Fault Refusal :=
  run s fun s => writeRow s port (R.QUIREq_CTRL quire) 4

/-- SEQ_CTRL_UP, R166. -/
def execSeqCtrlUp (port : Port) (mask : BitVec 16) (s : State) : Host.Outcome State Fault Refusal :=
  run s fun s => writeRow s port R.SEQ_CTRL mask.toNat

/-- SEQ_CTRL_DOWN, R166. -/
def execSeqCtrlDown (port : Port) (mask : BitVec 16) (s : State) : Host.Outcome State Fault Refusal :=
  run s fun s => writeRow s port R.SEQ_CTRL (65536 * mask.toNat)

/-- QUIRE_MEMBERS_WRITE, R162. -/
def execQuireMembersWrite (port : Port) (quire : Fin 16) (hi : Bool) (value : Word) (s : State) :
    Host.Outcome State Fault Refusal :=
  run s fun s => writeRow s port (if hi then R.QUIREq_MEMBERS_HI quire else R.QUIREq_MEMBERS_LO quire) value.toNat

/-- STEP_ACTION, R167: `off`: rails that another request turns off on the same edge (R74). -/
def execStepAction (quire : Fin 16) (off : BitVec 64) (s : State) : Host.Outcome State Fault Refusal :=
  run s fun s => stepAction s quire off.toNat

/-- ANGLE_GATE_OPEN, R168: `off`: rails that another request turns off on the same edge (R74). -/
def execAngleGateOpen (quire : Fin 16) (off : BitVec 64) (s : State) : Host.Outcome State Fault Refusal :=
  run s fun s => gateOpen s quire off.toNat

/-- GATE_TIMEOUT, R168: `off`: rails that another request turns off on the same edge (R74). -/
def execGateTimeout (quire : Fin 16) (off : BitVec 64) (s : State) : Host.Outcome State Fault Refusal :=
  run s fun s => gateTimeout s quire off.toNat

/-- SETTLE_END, R170. -/
def execSettleEnd (quire : Fin 16) (s : State) : Host.Outcome State Fault Refusal := run s fun s => settleEnd s quire

/-- STEP_COMPLETE, R167. -/
def execStepComplete (quire : Fin 16) (s : State) : Host.Outcome State Fault Refusal :=
  run s fun s => stepComplete s quire

/-- STEP_TIMEOUT, R171. -/
def execStepTimeout (quire : Fin 16) (s : State) : Host.Outcome State Fault Refusal :=
  run s fun s => stepTimeout s quire

/-- RETRY_OFF_END, R172: `off`: rails that another request turns off on the same edge (R74). -/
def execRetryOffEnd (quire : Fin 16) (off : BitVec 64) (s : State) : Host.Outcome State Fault Refusal :=
  run s fun s => retryOffEnd s quire off.toNat

/-- RAIL_RETRY_OFF_END, R175. `off`: a stage or shut turns the rail off on the same edge (R190). -/
def execRailRetryOffEnd (rail : Fin 64) (off : Bool) (s : State) : Host.Outcome State Fault Refusal :=
  run s fun s => railRetryOffEnd s rail off

/-- RAIL_RETRY_TIMEOUT, R175. -/
def execRailRetryTimeout (rail : Fin 64) (s : State) : Host.Outcome State Fault Refusal :=
  run s fun s => railRetryTimeout s rail

/-- RAIL_RETRY_DONE, R175. -/
def execRailRetryDone (rail : Fin 64) (s : State) : Host.Outcome State Fault Refusal :=
  run s fun s => railRetryDone s rail

/-- RETRY_BUDGET_REFILL, R176. -/
def execRetryBudgetRefill (rail : Fin 64) (s : State) : Host.Outcome State Fault Refusal :=
  run s fun s => budgetRefill s rail

/-- QUIRE_SHUT, R177. -/
def execQuireShut (quire : Fin 16) (s : State) : Host.Outcome State Fault Refusal :=
  run s fun s => quireShutOrder s quire

/-- SHUT_ALL, R178. -/
def execShutAll (s : State) : Host.Outcome State Fault Refusal := run s fun s => shutAllOrder s

/-- HALLMARK_DOWN_ORDER_START, R180. -/
def execHallmarkDownOrderStart (s : State) : Host.Outcome State Fault Refusal := run s fun s => hallmarkOrder s

/-- HALLMARK_STAGE_END, R180. -/
def execHallmarkStageEnd (s : State) : Host.Outcome State Fault Refusal := run s fun s => hallmarkStageEnd s

/-- BARRIER_RELEASE_MATCH, R181. -/
def execBarrierReleaseMatch (quire : Fin 16) (s : State) : Host.Outcome State Fault Refusal :=
  run s fun s => barrierMatch s quire

end Sys2Proof.Machine
end

