-- ==== Sys2Proof/Machine/StartupRows.lean ====
section
/-! DEFINITION. The commands of power-up and reset (spec/18_startup_reset.md), each with its meaning. -/

namespace Sys2Proof.Machine

/-- POR_ASSERT, R475. -/
def execPorAssert (s : State) : Host.Outcome State Fault Refusal := run s fun s => porAssert s

/-- POR_RELEASE, R477. -/
def execPorRelease (s : State) : Host.Outcome State Fault Refusal := run s fun s => porRelease s

/-- FUSE_READ, R448: `weak`: bits whose three fuses disagree; `test`: the TEST ball is high. -/
def execFuseRead (weak : BitVec 16) (test : Bool) (s : State) : Host.Outcome State Fault Refusal :=
  run s fun s => fuseRead s weak.toNat test

/-- CONFIG_LOAD, R349: `huLow`: HU_SENSE lies below its detection threshold at step 4. -/
def execConfigLoad (huLow : Bool) (s : State) : Host.Outcome State Fault Refusal := run s fun s => configLoad s huLow

/-- RESET_N_ASSERT, R476. -/
def execResetNAssert (s : State) : Host.Outcome State Fault Refusal := run s fun s => resetNLow s

/-- DEVICE_RESET_NVM_DONE, R481. -/
def execDeviceResetNvmDone (s : State) : Host.Outcome State Fault Refusal := run s fun s => deviceResetDone s

/-- RST_WDN_GO, R482. -/
def execRstWdnGo (port : Port) (sideB : Bool) (pair : Fin 8) (s : State) : Host.Outcome State Fault Refusal :=
  run s fun s => writeRow s port R.RST_WDN (2 ^ 31 + (if sideB then 256 else 0) + pair)

/-- RESET_TOKEN, R482. -/
def execResetToken (port : RingPort) (cell : RingCell) (s : State) : Host.Outcome State Fault Refusal :=
  run s fun s => twinRow s port cell 0xB (resetToken · cell)

/-- AUTO_START, R483. -/
def execAutoStart (s : State) : Host.Outcome State Fault Refusal := run s fun s => autoStart s

/-- RESET_N_RELEASE, R476. -/
def execResetNRelease (s : State) : Host.Outcome State Fault Refusal := run s fun s => resetNHigh s

/-- ENGINE_START, R477. -/
def execEngineStart (s : State) : Host.Outcome State Fault Refusal := run s fun s => engineStart s

/-- COMMANDED_RESET_START, R395. -/
def execCommandedResetStart (s : State) : Host.Outcome State Fault Refusal := run s fun s => commandedReset s

end Sys2Proof.Machine
end

