-- ==== Sys2Proof/Machine/WorkRows.lean ====
section
/-! DEFINITION. The commands of margining and Sounding (spec/08_margin_sounding.md), each with its meaning. -/

namespace Sys2Proof.Machine

/-- MARG_START, R200. -/
def execMargStart (port : Port) (dir : BitVec 2) (rail : Fin 64) (s : State) : Host.Outcome State Fault Refusal :=
  run s fun s => writeRow s port R.MARG_CTRL (F.MARG_CTRL_START.insert (F.MARG_CTRL_DIR.insert rail dir.toNat) 1)

/-- MARG_ABORT, R216. -/
def execMargAbort (port : Port) (rail : Fin 64) (s : State) : Host.Outcome State Fault Refusal :=
  run s fun s => writeRow s port R.MARG_CTRL (F.MARG_CTRL_ABORT.insert rail 1)

/-- MARGIN_BASELINE_DONE, R201. -/
def execMarginBaselineDone (rail : Fin 64) (s : State) : Host.Outcome State Fault Refusal :=
  run s fun s => baselineDone s rail

/-- MARGIN_CODE_ARRIVED, R202. -/
def execMarginCodeArrived (rail : Fin 64) (s : State) : Host.Outcome State Fault Refusal :=
  run s fun s => codeArrived s rail

/-- MARGIN_DWELL_END, R202. -/
def execMarginDwellEnd (rail : Fin 64) (s : State) : Host.Outcome State Fault Refusal := run s fun s => dwellEnd s rail

/-- MARGIN_MEASURE_DONE, R202. -/
def execMarginMeasureDone (rail : Fin 64) (s : State) : Host.Outcome State Fault Refusal :=
  run s fun s => measureDone s rail

/-- MARGIN_RETURN_DONE, R203. -/
def execMarginReturnDone (rail : Fin 64) (s : State) : Host.Outcome State Fault Refusal :=
  run s fun s => returnDone s rail

/-- MARGIN_RETURN_TIMEOUT, R203. -/
def execMarginReturnTimeout (rail : Fin 64) (s : State) : Host.Outcome State Fault Refusal :=
  run s fun s => returnTimeout s rail

/-- MRG_COMPLIANCE_LOSS, R195. -/
def execMrgComplianceLoss (rail : Fin 64) (s : State) : Host.Outcome State Fault Refusal :=
  run s fun s => complianceLoss s rail

/-- SND_START, R206. -/
def execSndStart (port : Port) (s : State) : Host.Outcome State Fault Refusal :=
  run s fun s => writeRow s port R.SND_CTRL 1

/-- SND_STOP, R216. -/
def execSndStop (port : Port) (s : State) : Host.Outcome State Fault Refusal :=
  run s fun s => writeRow s port R.SND_CTRL 2

/-- SOUNDING_TARGET_MATCH, R206. -/
def execSoundingTargetMatch (s : State) : Host.Outcome State Fault Refusal := run s fun s => soundingMatch s

/-- SOUNDING_DC_STEP, R209. -/
def execSoundingDcStep (s : State) : Host.Outcome State Fault Refusal := run s fun s => dcStep s

/-- SOUNDING_TAP_SAMPLE, R207. -/
def execSoundingTapSample (rail : Fin 64) (raw : BitVec 24) (clip : Bool) (s : State) :
    Host.Outcome State Fault Refusal :=
  run s fun s => tapSample s rail raw.toInt clip

/-- SOUNDING_SETTLE_END, R210. -/
def execSoundingSettleEnd (s : State) : Host.Outcome State Fault Refusal := run s fun s => settleDone s

/-- SOUNDING_POINT_END, R212. -/
def execSoundingPointEnd (rail : Fin 64) (s : State) : Host.Outcome State Fault Refusal := run s fun s => pointEnd s rail

/-- MLS_PERIOD_END, R213. -/
def execMlsPeriodEnd (rail : Fin 64) (s : State) : Host.Outcome State Fault Refusal := run s fun s => mlsPeriod s rail

/-- SOUNDING_COMPLETE, R215. -/
def execSoundingComplete (s : State) : Host.Outcome State Fault Refusal := run s fun s => soundingComplete s

/-- SOUNDING_PAUSE_TIMEOUT, R216. -/
def execSoundingPauseTimeout (s : State) : Host.Outcome State Fault Refusal := run s fun s => pauseTimeout s

/-- ARCHIVE_WRITE_DONE, R218. -/
def execArchiveWriteDone (s : State) : Host.Outcome State Fault Refusal := run s fun s => syncNvm (archiveDone s)

end Sys2Proof.Machine
end

