-- ==== Sys2Proof/Machine/Dispatch.lean ====
section
/-! DEFINITION. One arm per command: the direct call of its meaning. -/

namespace Sys2Proof.Machine

def exec (i : Instr) (s : State) : Host.Outcome State Fault Refusal :=
  match i with
  | .referenceEdge spacing level held => Sys2Proof.Machine.execReferenceEdge spacing level held s
  | .acquisitionComplete spacing => Sys2Proof.Machine.execAcquisitionComplete spacing s
  | .holdoverEntry => Sys2Proof.Machine.execHoldoverEntry s
  | .holdoverExpired => Sys2Proof.Machine.execHoldoverExpired s
  | .angCfgWrite port value => Sys2Proof.Machine.execAngCfgWrite port value s
  | .resel port => Sys2Proof.Machine.execResel port s
  | .hopStore port hopIdx => Sys2Proof.Machine.execHopStore port hopIdx s
  | .angIncWrite port value => Sys2Proof.Machine.execAngIncWrite port value s
  | .angFreeIncWrite port value => Sys2Proof.Machine.execAngFreeIncWrite port value s
  | .angPhaseWrite port value => Sys2Proof.Machine.execAngPhaseWrite port value s
  | .angStampRead port => Sys2Proof.Machine.execAngStampRead port s
  | .relock port => Sys2Proof.Machine.execRelock port s
  | .refReturn port => Sys2Proof.Machine.execRefReturn port s
  | .pllLossOfLock => Sys2Proof.Machine.execPllLossOfLock s
  | .systemClockOverspeed => Sys2Proof.Machine.execSystemClockOverspeed s
  | .systemPllLock => Sys2Proof.Machine.execSystemPllLock s
  | .fallbackReturn => Sys2Proof.Machine.execFallbackReturn s
  | .bandSearchRetry => Sys2Proof.Machine.execBandSearchRetry s
  | .fallbackMeasure freq => Sys2Proof.Machine.execFallbackMeasure freq s
  | .xinFailure symbols => Sys2Proof.Machine.execXinFailure symbols s
  | .tclkReturn us => Sys2Proof.Machine.execTclkReturn us s
  | .serdesPllLossOfLock => Sys2Proof.Machine.execSerdesPllLossOfLock s
  | .guardRawChange rail sense => Sys2Proof.Machine.execGuardRawChange rail sense s
  | .guardFilterAssert rail uv spare edges => Sys2Proof.Machine.execGuardFilterAssert rail uv spare edges s
  | .guardFilterDeassert rail uv spare edges => Sys2Proof.Machine.execGuardFilterDeassert rail uv spare edges s
  | .guardThreshWrite rail => Sys2Proof.Machine.execGuardThreshWrite rail s
  | .guardChangeoverEnd rail => Sys2Proof.Machine.execGuardChangeoverEnd rail s
  | .senseCommonModeError rail => Sys2Proof.Machine.execSenseCommonModeError rail s
  | .senseCommonModeClear rail => Sys2Proof.Machine.execSenseCommonModeClear rail s
  | .pgFilterChange rail level edges => Sys2Proof.Machine.execPgFilterChange rail level edges s
  | .enReadbackMismatch rail level edges => Sys2Proof.Machine.execEnReadbackMismatch rail level edges s
  | .enSet port rail off => Sys2Proof.Machine.execEnSet port rail off s
  | .enClr port rail => Sys2Proof.Machine.execEnClr port rail s
  | .guardProofStart rail uv => Sys2Proof.Machine.execGuardProofStart rail uv s
  | .guardProofSample rail asserted => Sys2Proof.Machine.execGuardProofSample rail asserted s
  | .guardProofEnd rail => Sys2Proof.Machine.execGuardProofEnd rail s
  | .substitutionStart checkOk => Sys2Proof.Machine.execSubstitutionStart checkOk s
  | .substitutionStep => Sys2Proof.Machine.execSubstitutionStep s
  | .fineSample rail raw back => Sys2Proof.Machine.execFineSample rail raw back s
  | .fineCfgWrite port rail value => Sys2Proof.Machine.execFineCfgWrite port rail value s
  | .fineRestart rail => Sys2Proof.Machine.execFineRestart rail s
  | .fineModulatorOverload rail negative => Sys2Proof.Machine.execFineModulatorOverload rail negative s
  | .fineWindowWrite port rail hi value => Sys2Proof.Machine.execFineWindowWrite port rail hi value s
  | .fineResultRead port rail => Sys2Proof.Machine.execFineResultRead port rail s
  | .calZero port tag params => Sys2Proof.Machine.execCalZero port tag params s
  | .calFull port tag params => Sys2Proof.Machine.execCalFull port tag params s
  | .calibrationAverageDone rail => Sys2Proof.Machine.execCalibrationAverageDone rail s
  | .calibrationCommit rail => Sys2Proof.Machine.execCalibrationCommit rail s
  | .calCoeffWrite port rail gain value => Sys2Proof.Machine.execCalCoeffWrite port rail gain value s
  | .benchStart port bench => Sys2Proof.Machine.execBenchStart port bench s
  | .benchStop port bench => Sys2Proof.Machine.execBenchStop port bench s
  | .benchTrig port bench => Sys2Proof.Machine.execBenchTrig port bench s
  | .benchItrig port bench => Sys2Proof.Machine.execBenchItrig port bench s
  | .pwmSyncEdge sel level => Sys2Proof.Machine.execPwmSyncEdge sel level s
  | .benchAngleTrigger bench injected => Sys2Proof.Machine.execBenchAngleTrigger bench injected s
  | .triggerDelayEnd bench injected => Sys2Proof.Machine.execTriggerDelayEnd bench injected s
  | .poolSample conv raw overload cmOut => Sys2Proof.Machine.execPoolSample conv raw overload cmOut s
  | .entryComplete conv => Sys2Proof.Machine.execEntryComplete conv s
  | .benchLayoutWrite port value => Sys2Proof.Machine.execBenchLayoutWrite port value s
  | .poolResultRead port address => Sys2Proof.Machine.execPoolResultRead port address s
  | .poolCalWrite port gain value => Sys2Proof.Machine.execPoolCalWrite port gain value s
  | .holdupPoolConversion raw overload cmOut => Sys2Proof.Machine.execHoldupPoolConversion raw overload cmOut s
  | .converterSubstitution => Sys2Proof.Machine.execConverterSubstitution s
  | .referenceWatch diff => Sys2Proof.Machine.execReferenceWatch diff s
  | .referenceRatioRecord => Sys2Proof.Machine.execReferenceRatioRecord s
  | .referenceTriage => Sys2Proof.Machine.execReferenceTriage s
  | .assayRoundStart => Sys2Proof.Machine.execAssayRoundStart s
  | .assayConversionComplete conv => Sys2Proof.Machine.execAssayConversionComplete conv s
  | .assayRoundEnd => Sys2Proof.Machine.execAssayRoundEnd s
  | .converterTriage => Sys2Proof.Machine.execConverterTriage s
  | .railTriage => Sys2Proof.Machine.execRailTriage s
  | .spareSliceCheck spare raw0 raw1 => Sys2Proof.Machine.execSpareSliceCheck spare raw0 raw1 s
  | .sramCorrectedError row => Sys2Proof.Machine.execSramCorrectedError row s
  | .quireUp port quire => Sys2Proof.Machine.execQuireUp port quire s
  | .quireDown port quire => Sys2Proof.Machine.execQuireDown port quire s
  | .quireCtrlResume port quire => Sys2Proof.Machine.execQuireCtrlResume port quire s
  | .seqCtrlUp port mask => Sys2Proof.Machine.execSeqCtrlUp port mask s
  | .seqCtrlDown port mask => Sys2Proof.Machine.execSeqCtrlDown port mask s
  | .quireMembersWrite port quire hi value => Sys2Proof.Machine.execQuireMembersWrite port quire hi value s
  | .stepAction quire off => Sys2Proof.Machine.execStepAction quire off s
  | .angleGateOpen quire off => Sys2Proof.Machine.execAngleGateOpen quire off s
  | .gateTimeout quire off => Sys2Proof.Machine.execGateTimeout quire off s
  | .settleEnd quire => Sys2Proof.Machine.execSettleEnd quire s
  | .stepComplete quire => Sys2Proof.Machine.execStepComplete quire s
  | .stepTimeout quire => Sys2Proof.Machine.execStepTimeout quire s
  | .retryOffEnd quire off => Sys2Proof.Machine.execRetryOffEnd quire off s
  | .railRetryOffEnd rail off => Sys2Proof.Machine.execRailRetryOffEnd rail off s
  | .railRetryTimeout rail => Sys2Proof.Machine.execRailRetryTimeout rail s
  | .railRetryDone rail => Sys2Proof.Machine.execRailRetryDone rail s
  | .retryBudgetRefill rail => Sys2Proof.Machine.execRetryBudgetRefill rail s
  | .quireShut quire => Sys2Proof.Machine.execQuireShut quire s
  | .shutAll => Sys2Proof.Machine.execShutAll s
  | .hallmarkDownOrderStart => Sys2Proof.Machine.execHallmarkDownOrderStart s
  | .hallmarkStageEnd => Sys2Proof.Machine.execHallmarkStageEnd s
  | .barrierReleaseMatch quire => Sys2Proof.Machine.execBarrierReleaseMatch quire s
  | .margStart port dir rail => Sys2Proof.Machine.execMargStart port dir rail s
  | .margAbort port rail => Sys2Proof.Machine.execMargAbort port rail s
  | .marginBaselineDone rail => Sys2Proof.Machine.execMarginBaselineDone rail s
  | .marginCodeArrived rail => Sys2Proof.Machine.execMarginCodeArrived rail s
  | .marginDwellEnd rail => Sys2Proof.Machine.execMarginDwellEnd rail s
  | .marginMeasureDone rail => Sys2Proof.Machine.execMarginMeasureDone rail s
  | .marginReturnDone rail => Sys2Proof.Machine.execMarginReturnDone rail s
  | .marginReturnTimeout rail => Sys2Proof.Machine.execMarginReturnTimeout rail s
  | .mrgComplianceLoss rail => Sys2Proof.Machine.execMrgComplianceLoss rail s
  | .sndStart port => Sys2Proof.Machine.execSndStart port s
  | .sndStop port => Sys2Proof.Machine.execSndStop port s
  | .soundingTargetMatch => Sys2Proof.Machine.execSoundingTargetMatch s
  | .soundingDcStep => Sys2Proof.Machine.execSoundingDcStep s
  | .soundingTapSample rail raw clip => Sys2Proof.Machine.execSoundingTapSample rail raw clip s
  | .soundingSettleEnd => Sys2Proof.Machine.execSoundingSettleEnd s
  | .soundingPointEnd rail => Sys2Proof.Machine.execSoundingPointEnd rail s
  | .mlsPeriodEnd rail => Sys2Proof.Machine.execMlsPeriodEnd rail s
  | .soundingComplete => Sys2Proof.Machine.execSoundingComplete s
  | .soundingPauseTimeout => Sys2Proof.Machine.execSoundingPauseTimeout s
  | .archiveWriteDone => Sys2Proof.Machine.execArchiveWriteDone s
  | .pollRoundStart pm => Sys2Proof.Machine.execPollRoundStart pm s
  | .smbusTransactionDone pm result data alertLow => Sys2Proof.Machine.execSmbusTransactionDone pm result data alertLow s
  | .smbusRetry pm => Sys2Proof.Machine.execSmbusRetry pm s
  | .smbusTimeout pm alertLow => Sys2Proof.Machine.execSmbusTimeout pm alertLow s
  | .busRecovery pm freed => Sys2Proof.Machine.execBusRecovery pm freed s
  | .smbalertAssert pm => Sys2Proof.Machine.execSmbalertAssert pm s
  | .smbalertStuckClear pm => Sys2Proof.Machine.execSmbalertStuckClear pm s
  | .lostEntryPoll entry => Sys2Proof.Machine.execLostEntryPoll entry s
  | .pmXferStart port value => Sys2Proof.Machine.execPmXferStart port value s
  | .partnerCfgWrite port entry value => Sys2Proof.Machine.execPartnerCfgWrite port entry value s
  | .tallyRegWrite port counter reg value => Sys2Proof.Machine.execTallyRegWrite port counter reg value s
  | .tallyWriteEffect => Sys2Proof.Machine.execTallyWriteEffect s
  | .tallyMatch counter => Sys2Proof.Machine.execTallyMatch counter s
  | .tallyWrap counter => Sys2Proof.Machine.execTallyWrap counter s
  | .capEdge cap level => Sys2Proof.Machine.execCapEdge cap level s
  | .tallyCapRead port counter => Sys2Proof.Machine.execTallyCapRead port counter s
  | .tallyCountRead port counter => Sys2Proof.Machine.execTallyCountRead port counter s
  | .evtOutPulseEnd output => Sys2Proof.Machine.execEvtOutPulseEnd output s
  | .faultMessage corrupt => Sys2Proof.Machine.execFaultMessage corrupt s
  | .condChange source => Sys2Proof.Machine.execCondChange source s
  | .quietExpiry source => Sys2Proof.Machine.execQuietExpiry source s
  | .escalationWindowEnd source => Sys2Proof.Machine.execEscalationWindowEnd source s
  | .reactionDispatch upTo => Sys2Proof.Machine.execReactionDispatch upTo s
  | .shadowExpiry list => Sys2Proof.Machine.execShadowExpiry list s
  | .fltClearWrite port value => Sys2Proof.Machine.execFltClearWrite port value s
  | .fltInjGo port value => Sys2Proof.Machine.execFltInjGo port value s
  | .recoveryCounterWrite => Sys2Proof.Machine.execRecoveryCounterWrite s
  | .twinLinkHeartbeatSend => Sys2Proof.Machine.execTwinLinkHeartbeatSend s
  | .twinLinkDown => Sys2Proof.Machine.execTwinLinkDown s
  | .twinLinkRetrain frames => Sys2Proof.Machine.execTwinLinkRetrain frames s
  | .latchMirrorFrame latches => Sys2Proof.Machine.execLatchMirrorFrame latches s
  | .dynamicImage image => Sys2Proof.Machine.execDynamicImage image s
  | .dynamicImageSend => Sys2Proof.Machine.execDynamicImageSend s
  | .configImage image => Sys2Proof.Machine.execConfigImage image s
  | .configImageSend => Sys2Proof.Machine.execConfigImageSend s
  | .mirrorStale => Sys2Proof.Machine.execMirrorStale s
  | .handoverFrame latches => Sys2Proof.Machine.execHandoverFrame latches s
  | .takeoverFrame => Sys2Proof.Machine.execTakeoverFrame s
  | .takeoverWaitEnd => Sys2Proof.Machine.execTakeoverWaitEnd s
  | .drivingFrame => Sys2Proof.Machine.execDrivingFrame s
  | .drivingTimeout => Sys2Proof.Machine.execDrivingTimeout s
  | .handoverTimeout => Sys2Proof.Machine.execHandoverTimeout s
  | .twinRingHeartbeatSend => Sys2Proof.Machine.execTwinRingHeartbeatSend s
  | .wardenAckTimeout => Sys2Proof.Machine.execWardenAckTimeout s
  | .hbAck port cell => Sys2Proof.Machine.execHbAck port cell s
  | .token port cell => Sys2Proof.Machine.execToken port cell s
  | .heartbeat port cell => Sys2Proof.Machine.execHeartbeat port cell s
  | .wardenJudgment => Sys2Proof.Machine.execWardenJudgment s
  | .wdnPairNodesWrite port pair value => Sys2Proof.Machine.execWdnPairNodesWrite port pair value s
  | .wdnCfgWrite port value => Sys2Proof.Machine.execWdnCfgWrite port value s
  | .snapEdge level => Sys2Proof.Machine.execSnapEdge level s
  | .folioLatch => Sys2Proof.Machine.execFolioLatch s
  | .folioTargetMatch => Sys2Proof.Machine.execFolioTargetMatch s
  | .folioTrig port => Sys2Proof.Machine.execFolioTrig port s
  | .folioCtrlArm port => Sys2Proof.Machine.execFolioCtrlArm port s
  | .folioDisarm port => Sys2Proof.Machine.execFolioDisarm port s
  | .folioCtrlRelease port buffers => Sys2Proof.Machine.execFolioCtrlRelease port buffers s
  | .folioDataRead port => Sys2Proof.Machine.execFolioDataRead port s
  | .ledgerStage => Sys2Proof.Machine.execLedgerStage s
  | .nvmProgramUnitDone ok => Sys2Proof.Machine.execNvmProgramUnitDone ok s
  | .nvmEraseDone ok => Sys2Proof.Machine.execNvmEraseDone ok s
  | .nvmUncorrectableRead address => Sys2Proof.Machine.execNvmUncorrectableRead address s
  | .deviceLogWrite => Sys2Proof.Machine.execDeviceLogWrite s
  | .nvmStoreWrite port config cal => Sys2Proof.Machine.execNvmStoreWrite port config cal s
  | .ldgRdDataRead port => Sys2Proof.Machine.execLdgRdDataRead port s
  | .ldgSecWrite port value => Sys2Proof.Machine.execLdgSecWrite port value s
  | .spiStatus mosi extra => Sys2Proof.Machine.execSpiStatus mosi extra s
  | .spiWrite mosi extra => Sys2Proof.Machine.execSpiWrite mosi extra s
  | .spiRead mosi extra => Sys2Proof.Machine.execSpiRead mosi extra s
  | .commandExecute => Sys2Proof.Machine.execCommandExecute s
  | .epochBoundary => Sys2Proof.Machine.execEpochBoundary s
  | .deliveryModeWrite port target value => Sys2Proof.Machine.execDeliveryModeWrite port target value s
  | .deliveryModeSwitch port => Sys2Proof.Machine.execDeliveryModeSwitch port s
  | .lockstepMismatch => Sys2Proof.Machine.execLockstepMismatch s
  | .engineWatchdog => Sys2Proof.Machine.execEngineWatchdog s
  | .engineRestartComplete => Sys2Proof.Machine.execEngineRestartComplete s
  | .status port tag params => Sys2Proof.Machine.execStatus port tag params s
  | .echo port tag params => Sys2Proof.Machine.execEcho port tag params s
  | .colophonRead port tag params => Sys2Proof.Machine.execColophonRead port tag params s
  | .regRead port tag params => Sys2Proof.Machine.execRegRead port tag params s
  | .regReadBlock port tag params => Sys2Proof.Machine.execRegReadBlock port tag params s
  | .regWrite port tag params => Sys2Proof.Machine.execRegWrite port tag params s
  | .regWriteList port tag params => Sys2Proof.Machine.execRegWriteList port tag params s
  | .regModify port tag params => Sys2Proof.Machine.execRegModify port tag params s
  | .registerWrite port address value => Sys2Proof.Machine.execRegisterWrite port address value s
  | .engineRestart port tag params => Sys2Proof.Machine.execEngineRestart port tag params s
  | .reset port tag params => Sys2Proof.Machine.execReset port tag params s
  | .modeSet port tag params => Sys2Proof.Machine.execModeSet port tag params s
  | .seqStart port tag params => Sys2Proof.Machine.execSeqStart port tag params s
  | .quireResume port tag params => Sys2Proof.Machine.execQuireResume port tag params s
  | .store port tag params => Sys2Proof.Machine.execStore port tag params s
  | .imageWrite port tag params => Sys2Proof.Machine.execImageWrite port tag params s
  | .patchWrite port tag params => Sys2Proof.Machine.execPatchWrite port tag params s
  | .fuseProgram port tag params => Sys2Proof.Machine.execFuseProgram port tag params s
  | .marginTest port tag params => Sys2Proof.Machine.execMarginTest port tag params s
  | .marginAbort port tag params => Sys2Proof.Machine.execMarginAbort port tag params s
  | .soundingStart port tag params => Sys2Proof.Machine.execSoundingStart port tag params s
  | .soundingStop port tag params => Sys2Proof.Machine.execSoundingStop port tag params s
  | .soundingRead port tag params => Sys2Proof.Machine.execSoundingRead port tag params s
  | .faultClear port tag params => Sys2Proof.Machine.execFaultClear port tag params s
  | .folioTake port tag params => Sys2Proof.Machine.execFolioTake port tag params s
  | .folioArm port tag params => Sys2Proof.Machine.execFolioArm port tag params s
  | .folioRead port tag params => Sys2Proof.Machine.execFolioRead port tag params s
  | .folioRelease port tag params => Sys2Proof.Machine.execFolioRelease port tag params s
  | .ledgerRead port tag params => Sys2Proof.Machine.execLedgerRead port tag params s
  | .switchBack port tag params => Sys2Proof.Machine.execSwitchBack port tag params s
  | .ringDiscover port tag params => Sys2Proof.Machine.execRingDiscover port tag params s
  | .ringFolio port tag params => Sys2Proof.Machine.execRingFolio port tag params s
  | .escortBegin port tag params => Sys2Proof.Machine.execEscortBegin port tag params s
  | .escortProve port tag params => Sys2Proof.Machine.execEscortProve port tag params s
  | .escortEnd port tag params => Sys2Proof.Machine.execEscortEnd port tag params s
  | .sealDevice port tag params => Sys2Proof.Machine.execSeal port tag params s
  | .retire port tag params => Sys2Proof.Machine.execRetire port tag params s
  | .debugSet port tag params => Sys2Proof.Machine.execDebugSet port tag params s
  | .fuseBlowDone majority weak => Sys2Proof.Machine.execFuseBlowDone majority weak s
  | .sessionTimeout => Sys2Proof.Machine.execSessionTimeout s
  | .challengeExpiry => Sys2Proof.Machine.execChallengeExpiry s
  | .escortLockoutEnd => Sys2Proof.Machine.execEscortLockoutEnd s
  | .holdupEntry blown => Sys2Proof.Machine.execHoldupEntry blown s
  | .huPowerReturn => Sys2Proof.Machine.execHuPowerReturn s
  | .holdupExit => Sys2Proof.Machine.execHoldupExit s
  | .porAssert => Sys2Proof.Machine.execPorAssert s
  | .porRelease => Sys2Proof.Machine.execPorRelease s
  | .fuseRead weak test => Sys2Proof.Machine.execFuseRead weak test s
  | .configLoad huLow => Sys2Proof.Machine.execConfigLoad huLow s
  | .resetNAssert => Sys2Proof.Machine.execResetNAssert s
  | .deviceResetNvmDone => Sys2Proof.Machine.execDeviceResetNvmDone s
  | .rstWdnGo port sideB pair => Sys2Proof.Machine.execRstWdnGo port sideB pair s
  | .resetToken port cell => Sys2Proof.Machine.execResetToken port cell s
  | .autoStart => Sys2Proof.Machine.execAutoStart s
  | .ringPortUp port => Sys2Proof.Machine.execRingPortUp port s
  | .ringPortDown port => Sys2Proof.Machine.execRingPortDown port s
  | .portLoopbackDone port pass => Sys2Proof.Machine.execPortLoopbackDone port pass s
  | .sparePortDailyLoopback => Sys2Proof.Machine.execSparePortDailyLoopback s
  | .wrapEnd port => Sys2Proof.Machine.execWrapEnd port s
  | .echoRequestSend => Sys2Proof.Machine.execEchoRequestSend s
  | .echoRequest port token turn => Sys2Proof.Machine.execEchoRequest port token turn s
  | .echoReply port low turn trip => Sys2Proof.Machine.execEchoReply port low turn trip s
  | .markSend elapsed => Sys2Proof.Machine.execMarkSend elapsed s
  | .angleIdleSend => Sys2Proof.Machine.execAngleIdleSend s
  | .angleMark port index elapsed residence spacing turned => Sys2Proof.Machine.execAngleMark port index elapsed residence spacing turned s
  | .markPathSwitch => Sys2Proof.Machine.execMarkPathSwitch s
  | .angle port cell age => Sys2Proof.Machine.execAngle port cell age s
  | .discover port cell loopPs => Sys2Proof.Machine.execDiscover port cell loopPs s
  | .discoveryTimeout => Sys2Proof.Machine.execDiscoveryTimeout s
  | .command port cell => Sys2Proof.Machine.execCommand port cell s
  | .reply => Sys2Proof.Machine.execReply s
  | .event => Sys2Proof.Machine.execEvent s
  | .telemetry => Sys2Proof.Machine.execTelemetry s
  | .arrival port cell => Sys2Proof.Machine.execArrival port cell s
  | .arrivalRepeat quire => Sys2Proof.Machine.execArrivalRepeat quire s
  | .release port cell => Sys2Proof.Machine.execRelease port cell s
  | .ringBarForce port bar => Sys2Proof.Machine.execRingBarForce port bar s
  | .ringBarClear port bar => Sys2Proof.Machine.execRingBarClear port bar s
  | .ringBarCfgWrite port bar value => Sys2Proof.Machine.execRingBarCfgWrite port bar value s
  | .barrierAutoClear bar => Sys2Proof.Machine.execBarrierAutoClear bar s
  | .folio port cell => Sys2Proof.Machine.execFolio port cell s
  | .folioAck port cell => Sys2Proof.Machine.execFolioAck port cell s
  | .admission port cell => Sys2Proof.Machine.execAdmission port cell s
  | .masterLost => Sys2Proof.Machine.execMasterLost s
  | .ringCellForward port cell good codes => Sys2Proof.Machine.execRingCellForward port cell good codes s
  | .serdesPllLock => Sys2Proof.Machine.execSerdesPllLock s
  | .linkHeartbeatFrame role ready seq => Sys2Proof.Machine.execLinkHeartbeatFrame role ready seq s
  | .angrefAltEdge spacing level held => Sys2Proof.Machine.execAngrefAltEdge spacing level held s
  | .resetNRelease => Sys2Proof.Machine.execResetNRelease s
  | .engineStart => Sys2Proof.Machine.execEngineStart s
  | .commandedResetStart => Sys2Proof.Machine.execCommandedResetStart s
  | .commandedRestartStart => Sys2Proof.Machine.execCommandedRestartStart s
  | .assayConversionDue conv => Sys2Proof.Machine.execAssayConversionDue conv s

end Sys2Proof.Machine
end

