-- ==== Sys2Proof/Machine/Step.lean ====
section
/-! DEFINITION. One step: the command at the front of the queue, or, on an empty queue, one edge of the clocks. -/

namespace Sys2Proof.Machine

/-- Takes the oldest waiting command and executes it on the state with the rest of the queue. On an empty queue one ANG
edge passes (log entry 6). -/
def step (s : State) : Host.Outcome State Fault Refusal :=
  match s.pending with
  | c :: rest => exec c { s with pending := rest }
  | [] => run s clockTick

/-- The table gives no command any bits, so that no word spells one: the state is unchanged (log entry 10). -/
def State.withFetchWord (s : State) (_nbits _w : Nat) : State := s

end Sys2Proof.Machine
end

