-- ==== Sys2Proof/Machine/Jtag.lean ====
section
/-! DEFINITION. The JTAG port (spec/17_modes_security_debug.md R460, R469, R470; spec/20_electrical.md R520): the TAP of
IEEE 1149.1 at the edges of its pins. spec/opcode_table.json has no row for an edge of TCK, so no command of `Instr` moves
the TAP; these operations say what such an edge does to the state, and power-on resets it (log entry 71). -/

namespace Sys2Proof.Machine

/-- IEEE 1149.1: the state after a rising edge of TCK. -/
def tapNext : TapState → Bool → TapState
  | .reset, tms => if tms then .reset else .idle
  | .idle, tms | .dr .update, tms | .ir .update, tms => if tms then .dr .select else .idle
  | .dr .select, tms => if tms then .ir .select else .dr .capture
  | .ir .select, tms => if tms then .reset else .ir .capture
  | .dr .capture, tms | .dr .shift, tms => if tms then .dr .exit1 else .dr .shift
  | .ir .capture, tms | .ir .shift, tms => if tms then .ir .exit1 else .ir .shift
  | .dr .exit1, tms => if tms then .dr .update else .dr .pause
  | .ir .exit1, tms => if tms then .ir .update else .ir .pause
  | .dr .pause, tms => if tms then .dr .exit2 else .dr .pause
  | .ir .pause, tms => if tms then .ir .exit2 else .ir .pause
  | .dr .exit2, tms => if tms then .dr .update else .dr .shift
  | .ir .exit2, tms => if tms then .ir .update else .ir .shift

/-- The data registers of the port. -/
inductive TapReg where
  | bypass
  | idcode
  | boundary
  | priv (k : Nat)
  deriving DecidableEq, Repr

/-- R469: factory test mode is in force. -/
def jtagFactory (s : State) : Bool := s.flag F.SEC_STATE_FACTORY

/-- R470: the data register that the instruction selects. CLAMP and HIGHZ select the bypass register wherever they act. -/
def tapReg (s : State) : TapReg :=
  match s.sec.tap.instr with
  | .bypass | .clamp | .highz => .bypass
  | .idcode => .idcode
  | .sample => .boundary
  | .extest => if jtagFactory s then .boundary else .bypass
  | .priv k => if s.get F.SEC_STATE_DEBUG = 1 ∨ s.get F.SEC_STATE_DEBUG = 2 then .priv k else .bypass

/-- What drives the balls. -/
inductive BallDrive where
  /-- Every ball keeps its function. -/
  | function
  /-- The update stages of the boundary register drive the outputs. -/
  | boundary
  /-- Every output is high impedance. -/
  | highz
  deriving DecidableEq, Repr

/-- R470: EXTEST, CLAMP and HIGHZ act on the balls in factory test mode alone. -/
def ballDrive (s : State) : BallDrive :=
  if jtagFactory s then
    match s.sec.tap.instr with
    | .extest | .clamp => .boundary
    | .highz => .highz
    | _ => .function
  else .function

def State.modTap (s : State) (f : TapPort → TapPort) : State := { s with sec := { s.sec with tap := f s.sec.tap } }

/-- IEEE 1149.1: the BYPASS code is all ones; the other codes are the implementation's. -/
def tapInstr (code : List Bool) : TapInstr :=
  if code.all (· == true) then .bypass
  else
    match Config.irCode code with
    | 0 => .bypass | 1 => .idcode | 2 => .sample | 3 => .extest | 4 => .clamp | 5 => .highz
    | k + 6 => .priv k

/-- Free bits: the levels at the balls, and what a private instruction shows, which the manual does not lay out. -/
def freeBits (s : State) (n : Nat) : State × List Bool :=
  (s.drawn n, (below n).map fun k => (Config.unstated (s.freeCount + k)).getLsbD 0)

/-- The least significant `n` bits of a number, the lowest first. -/
def bitList (n v : Nat) : List Bool := (below n).map fun k => bitOf v k

/-- Capture-DR. -/
def tapCapture (s : State) : State × List Bool :=
  match tapReg s with
  | .bypass => (s, [false])
  | .idcode => (s, true :: (bitList 32 Config.idcode.toNat).drop 1)
  | .boundary => freeBits s Config.boundaryLength
  | .priv k => freeBits s (Config.privateLength k)

/-- Capture-IR: 01 in the two bits nearest TDO, the rest as the implementation has it. -/
def irCapture (s : State) : State × List Bool :=
  let (s, l) := freeBits s (Config.irLength - 2)
  (s, true :: false :: l)

/-- The work of the present state at a rising edge of TCK. -/
def tapWork (s : State) (tdi : Bool) : State :=
  match s.sec.tap.state with
  | .dr .capture => let (s, l) := tapCapture s; s.modTap fun t => { t with dr := l }
  | .ir .capture => let (s, l) := irCapture s; s.modTap fun t => { t with ir := l }
  | .dr .shift => s.modTap fun t => { t with dr := t.dr.drop 1 ++ [tdi] }
  | .ir .shift => s.modTap fun t => { t with ir := t.ir.drop 1 ++ [tdi] }
  | _ => s

/-- Test-Logic-Reset: IDCODE is in force. -/
def tapSettled (t : TapPort) : TapPort := if t.state = .reset then { t with instr := .idcode } else t

/-- A rising edge of TCK. -/
def tckRise (s : State) (tms tdi : Bool) : State :=
  if s.sec.tap.held || s.rst.phase == .por then s
  else (tapWork s tdi).modTap fun t => tapSettled { t with state := tapNext t.state tms }

/-- A falling edge of TCK: the update stages load, and TDO moves. -/
def tckFall (s : State) : State :=
  if s.sec.tap.held || s.rst.phase == .por then s
  else
    let boundary := tapReg s == .boundary
    s.modTap fun t =>
      match t.state with
      | .ir .update => { t with instr := tapInstr t.ir, tdo := none }
      | .dr .update => { t with latch := if boundary then t.dr else t.latch, tdo := none }
      | .dr .shift => { t with tdo := t.dr.head? }
      | .ir .shift => { t with tdo := t.ir.head? }
      | _ => { t with tdo := none }

/-- TRST_N falls: Test-Logic-Reset, whatever TCK does. -/
def trstLow (s : State) : State :=
  s.modTap fun t => { t with held := true, state := .reset, instr := .idcode, tdo := none }

/-- TRST_N rises. -/
def trstHigh (s : State) : State := s.modTap fun t => { t with held := false }

end Sys2Proof.Machine
end

