-- ==== Sys2Proof/WellFormed.lean ====
section
/-! DEFINITION. Which operands the world outside can supply: a frame that is no whole cell, a transaction that does not
begin as its row says, or a measurement that no converter gives, is no command. -/

namespace Sys2Proof

/-- A cell carries 56 bytes of payload (spec/16_hexip_ring.md R413). -/
def RingCell.wf (c : RingCell) : Bool := c.payload.length == 56

/-- A configuration image holds whole registers at rising addresses (spec/12_twins_spares.md R295). -/
def CfgImage.wf (c : CfgImage) : Bool :=
  c.entries.all (fun e => e.1 % 4 == 0) && decide (c.entries.Pairwise fun a b => a.1 < b.1)

/-- A transaction that begins with a byte (spec/14_command_engine.md R357). -/
def beginsWith (mosi : List Byte) (b : Byte) : Bool := mosi.head? == some b

/-- The operands are ones that the world outside can supply. -/
def Instr.wf : Instr → Bool
  | .referenceEdge spacing _ _ | .acquisitionComplete spacing | .angrefAltEdge spacing _ _ => decide (0 < spacing)
  | .configImage image => image.wf
  | .spiStatus mosi _ => !beginsWith mosi 0x5A && !beginsWith mosi 0xA5
  | .spiWrite mosi _ => beginsWith mosi 0x5A
  | .spiRead mosi _ => beginsWith mosi 0xA5
  | .hbAck _ cell | .token _ cell | .heartbeat _ cell | .resetToken _ cell | .angle _ cell _ | .discover _ cell _
  | .command _ cell | .arrival _ cell | .release _ cell | .folio _ cell | .folioAck _ cell | .admission _ cell
  | .ringCellForward _ cell _ _ => cell.wf
  | .holdupEntry blown => decide (blown ≤ 3)
  | _ => true

end Sys2Proof
end

