-- ==== Sys2Proof/Safety.lean ====
section
/-! DEFINITION. The terms in which statements about the machine are made: what holds in every state that a step leaves, the
state in which nothing follows a command, and when a command or a register write is served. -/

namespace Sys2Proof.Machine

/-! ### What every step leaves -/

/-- R409, R436, R437: the TXDIS outputs are what the links and the SerDes PLL make them. -/
def txdisOk (s : State) : Bool := s.ring.txdis == (syncTxdis s).ring.txdis

/-- R17, R18: RAMP stands with a Quire step in progress, GUARD with one or with a rail enabled. But in Retired, SERVICE, GUARD and
QUIESCENT stand with no Quire step, and QUIESCENT with no rail enabled. -/
def modeOk (s : State) : Bool :=
  (s.mode != mRamp || anyStep s) && (s.mode != mGuard || (anyStep s || anyEnabled s)) &&
    (s.security == secRetired || ((s.mode != mService || !anyStep s) && (s.mode != mGuard || !anyStep s) &&
      (s.mode != mQuiescent || (!anyStep s && !anyEnabled s))))

/-- The registers that event `n` may change. -/
def evtRegs (n : Nat) : List Nat := [R.EVT_Gg_STATUS (n / 32), R.EVT_Gg_STATUS 7, R.RING_EVQ, R.RING_EVT]

/-! ### What follows a command -/

/-- No transition of R18 is due. -/
def modeRests (s : State) : Bool := !serviceOver s && !s.seq.ran && modeOk s

/-- Nothing follows a command that takes `old` to `s`: no work of margining or Sounding runs, no substitution starts, no
transition is due, nothing waits to be sent, no suspension begins or ends, and the messages sent are in order. -/
def quiet (old s : State) : Bool :=
  !workAtAll s && (old.spare.sub == s.spare.sub) && (old.spare.guardOnly == s.spare.guardOnly) &&
    modeRests s && (s.eng.cmds.all fun c => !(c.phase == .running && isModeSet c)) &&
    s.seq.arrivals.isEmpty && (syncReady s == s) &&
    (old.flag F.TWIN_STATUS_HO_PEND || !s.flag F.TWIN_STATUS_HO_PEND) && !(twinRole s == 1 && linkUp s && twinRole old == 1) &&
    ((suspension old == 0) == (suspension s == 0)) && (s.eng.cmds.all fun c => decide (suspension s ≤ c.susp)) && txdisOk s &&
    (portOrder old s == s)

/-! ### When a command is served -/

/-- R389, R394: a register write on a port is made: nothing refuses it. -/
def writable (s : State) (p : Port) (a v : Nat) : Bool :=
  writeAdmitted s a && !absentHere s a &&
    (match regDefAt a with | some d => (writeRefusal s p d a v).isNone | none => false)

/-- R2: the state in which the register at an address holds what a write stores; what its block then does is not in it. -/
def written (s : State) (a v : Nat) : State :=
  match regDefAt a with
  | some d => s.setReg (elementOf s a) (mergeWrite d a (s.reg (elementOf s a)) v)
  | none => s

/-- R365, R368, R389: a command row is executed at once: the engine runs, the tag is free, the debug level is not Halt,
and the port delivers BOUNDED. -/
def servedNow (s : State) (p : Port) (tag : Nat) : Bool :=
  s.flag F.CMD_STATUS_ENGINE_UP && !tagInUse s p tag && s.get F.SEC_STATE_DEBUG != 2 && !coherent s p

/-- R389: no check before the work of the opcode refuses the command. -/
def checksPass (s : State) (c : Cmd) : Bool :=
  opSecurity c.opcode (portSecurity s c.port) && (paramFault c).isNone && opMode c.opcode s.mode &&
    !(opDagger c.opcode && decide (2 ≤ twinRole s)) && ((namedAddrs c).find? fun a => !addrOk a.2).isNone

/-- The command that a row makes. -/
def rowCmd (s : State) (p : Port) (tag op : Nat) (params : List Word) : Cmd :=
  ⟨p, tag, op, params, none, none, s.tclk, suspension s, classBound ((opClass op).getD 0), .slotted⟩

/-- The state in which that command has its slot. -/
def admitted (s : State) (c : Cmd) : State := s.modEng fun e => { e with cmds := e.cmds ++ [c] }

/-- A command row, served and passing every check before its opcode's own, takes `a`, the state in which the command has its slot,
to `f a`, wherever the condition holds. -/
def rowDoes (row : Port → BitVec 7 → List Word → Instr) (op : Nat) (cond : State → Cmd → Prop) (f : State → Cmd → State) : Prop :=
  ∀ (s : State) (p : Port) (tag : BitVec 7) (params : List Word),
    servedNow s p tag.toNat = true → checksPass s (rowCmd s p tag.toNat op params) = true →
    cond (admitted s (rowCmd s p tag.toNat op params)) (rowCmd s p tag.toNat op params) →
    exec (row p tag params) s =
      .next (settle s (f (admitted s (rowCmd s p tag.toNat op params)) (rowCmd s p tag.toNat op params)))

end Sys2Proof.Machine
end

