-- ==== Sys2Proof/Certificates/Slice0/Obligations.lean ====
section
/-! DEFINITION. The statements about the device, for the provers. Each says, on conditions on the state and the operands
alone, what a command makes of the state, or what holds of every command. `settle s u` is what follows a command that takes `s`
to `u` (R18, R292, R372, R409, R430): `Obligations.SettleQuiet` says when nothing does. Where `u` is written with `put`,
`setReg`, `evtBit`, `raise` and changes of named fields, everything they do not name is as in `s`. -/

section
open Sys2Proof Sys2Proof.Machine

/-! ### The angle reference and the clocks (spec/02_angle_and_clocks.md) -/

/-- R25, R26, R531: REFERENCE_EDGE: a level that 16 ANG samples show is taken; an active edge inside a gate of the PLL in lock
moves the tracked period and the phase error, and is told to the counters of edges (R243); a level too short, or an edge of the other
direction, lets time pass alone; with SRC = RING nothing happens (R28). R29: ACQUISITION_COMPLETE locks on the measurement. R32, R28:
HOLDOVER_ENTRY enters holdover, or moves to a good ANGREF_ALT; R34: HOLDOVER_EXPIRED; R28: ANGREF_ALT_EDGE counts gated edges of the
second input.
What an active edge, taken `k` ANG clocks after the one before it, does. R29, R30: in an acquisition the first edge
starts the count, a period out of range is a stray with the fault of R27, a period that agrees with no measurement is measured.
R26, R27: in lock an edge outside every gate is a stray, and the second of two that agree within 0.5 % is a change of the frequency; a
gated edge of a period out of range is a stray too. R32: a gated edge in holdover locks again. R530: a free angle takes none.
The clauses at the end: the effect of each row from every state. -/
def Obligations.AngleReference : Prop :=
  ((∀ s spacing held t n, s.get F.ANG_CFG_SRC < 2 → s.ang.pin ≠ some (activeLevel s) → 16 ≤ held →
      s.ang.acq = none → s.ang.sinceAcc = some t → gateOf s (t + (s.ang.gap + spacing)) = some n →
      spacingInRange ((t + (s.ang.gap + spacing)) * edgeShare s) n = true →
      s.locked = true → s.holdover = false → s.flag F.ANG_STATUS_ACQUIRE = false →
      exec (.referenceEdge spacing (activeLevel s) held) s = .next (settle s (syncAligned ((alignToEdge
        (((ageAlt s n).modAng fun a => { a with took := true, pin := some (activeLevel s), gap := 0, sinceAcc := some 0
                                                lastStray := none
                                                base := incOfPeriod (trackPeriod s (t + (s.ang.gap + spacing)) n * edgeShare s)
                                                cfgEff := BitVec.ofNat 32 (s.reg R.ANG_CFG) }).put
          F.ANG_PERIOD_PERIOD (trackPeriod s (t + (s.ang.gap + spacing)) n))).modTally fun y => { y with refEdge := true })))) ∧
    (∀ s spacing m, s.ang.acq = some ⟨true, some m⟩ → periodInRange (spacing * edgeShare s) = true → within05 spacing m = true →
      exec (.acquisitionComplete spacing) s = .next (settle s (syncAligned (edgeAndTally s fun t =>
        lockAcquired (t.modAng fun a => { a with pin := some (activeLevel t), gap := 0 }) (256 * m))))) ∧
    (∀ s, angFree s = false → s.angRun = true → s.holdover = false →
      (s.locked = false ∨ s.get F.ANG_STATUS_ACTIVE_SRC ≠ 0 ∨ s.get F.ANG_CFG_SRC ≠ 0 ∨ angEff s F.ANG_CFG_ALT_FAILOVER ≠ 1 ∨
        altReady s = false) →
      exec .holdoverEntry s = .next (settle s (syncAligned (syncInc (((((s.put F.ANG_STATUS_LOCKED 0).put
        F.ANG_STATUS_PHASE_OK 0).put F.ANG_STATUS_HOLDOVER 1).put F.ANG_STATUS_ALIGNED 0).modAng
          (fun a => { a with phaseErr := 0 }) |>.event 16))))) ∧
    (∀ s, s.holdover = true → s.flag F.ANG_HOLD_MAX_CYCLES = true → s.flag F.ANG_STATUS_HOLD_EXP = false →
      exec .holdoverExpired s = .next (settle s ((s.put F.ANG_STATUS_HOLD_EXP 1).raise 37 0 1 0 0))) ∧
    (∀ s spacing held, s.ang.altPin ≠ some (activeLevel s) → 16 ≤ held →
      s.get F.ANG_CFG_SRC = 0 → s.get F.ANG_STATUS_ACTIVE_SRC = 0 → angEff s F.ANG_CFG_ALT_FAILOVER = 1 → s.locked = true →
      (gateOf s (s.ang.altGap + spacing) = some 1 →
        exec (.angrefAltEdge spacing (activeLevel s) held) s = .next (settle s (s.modAng fun a =>
          { a with altPin := some (activeLevel s), altGap := 0, altGood := min 8 (a.altGood + 1), altIdle := 0, altAt := a.stamp }))) ∧
      (gateOf s (s.ang.altGap + spacing) ≠ some 1 →
        exec (.angrefAltEdge spacing (activeLevel s) held) s = .next (settle s (s.modAng fun a =>
          { a with altPin := some (activeLevel s), altGap := 0, altGood := 0 })))) ∧
    (∀ s spacing level held, s.get F.ANG_CFG_SRC ≠ 2 →
      (levelTaken s.ang.pin level held = false →
        exec (.referenceEdge spacing level held) s = .next (settle s (syncAligned (s.modAng fun a =>
          { a with took := false, gap := a.gap + spacing })))) ∧
      (levelTaken s.ang.pin level held = true → level ≠ activeLevel s →
        exec (.referenceEdge spacing level held) s = .next (settle s (syncAligned (s.modAng fun a =>
          { a with took := false, pin := some level, gap := a.gap + spacing }))))) ∧
    (∀ s spacing level held, s.get F.ANG_CFG_SRC = 2 → exec (.referenceEdge spacing level held) s = .next (settle s s)) ∧
    (∀ s, angFree s = false → s.angRun = true → s.holdover = false → s.locked = true → s.get F.ANG_STATUS_ACTIVE_SRC = 0 →
      s.get F.ANG_CFG_SRC = 0 → angEff s F.ANG_CFG_ALT_FAILOVER = 1 → altReady s = true →
      exec .holdoverEntry s = .next (settle s (syncAligned (((s.put F.ANG_STATUS_ACTIVE_SRC 1).event 21).modAng fun a =>
        { a with sinceAcc := some 0, lastStray := none, altGood := 0, pin := a.altPin, gap := a.altGap })))) ∧
    (∀ s spacing level held,
      (levelTaken s.ang.altPin level held = false →
        exec (.angrefAltEdge spacing level held) s = .next (settle s (s.modAng fun a => { a with altGap := a.altGap + spacing }))) ∧
      (levelTaken s.ang.altPin level held = true → level ≠ activeLevel s →
        exec (.angrefAltEdge spacing level held) s = .next (settle s (s.modAng fun a =>
          { a with altPin := some level, altGap := a.altGap + spacing }))))) ∧
  ((∀ s k, angFree s = true → referenceEdge s k = s) ∧
    (∀ s k q, angFree s = false → s.ang.acq = some q →
      (q.edgeSeen = false → referenceEdge s k =
        s.modAng fun a => { a with took := true, acq := some { q with edgeSeen := true }, sinceAcc := some 0 }) ∧
      (q.edgeSeen = true → periodInRange (k * edgeShare s) = false → referenceEdge s k = rangeFault (countStray s)) ∧
      (q.edgeSeen = true → periodInRange (k * edgeShare s) = true → (∀ m, q.meas = some m → within05 k m = false) →
        referenceEdge s k = takeMeasurement (s.modAng fun a =>
          { a with took := true, sinceAcc := some 0, cfgEff := BitVec.ofNat 32 (s.reg R.ANG_CFG) }) k)) ∧
    (∀ s k t, angFree s = false → s.ang.acq = none → s.ang.sinceAcc = some t →
      (gateOf s (t + k) = none → s.ang.lastStray = none →
        referenceEdge s k = (countStray (s.modAng fun a => { a with sinceAcc := some (t + k) })).modAng
          fun a => { a with lastStray := some k }) ∧
      (∀ q, gateOf s (t + k) = none → s.ang.lastStray = some q → within05 k q = false →
        referenceEdge s k = (countStray (s.modAng fun a => { a with sinceAcc := some (t + k) })).modAng
          fun a => { a with lastStray := some k }) ∧
      (∀ q, gateOf s (t + k) = none → s.ang.lastStray = some q → within05 k q = true → periodInRange (k * edgeShare s) = true →
        referenceEdge s k = takeMeasurement (((countStray (s.modAng fun a => { a with sinceAcc := some (t + k) })).modAng
          fun a => { a with lastStray := none, sinceAcc := some 0 }).event 18) k) ∧
      (∀ q, gateOf s (t + k) = none → s.ang.lastStray = some q → within05 k q = true → periodInRange (k * edgeShare s) = false →
        referenceEdge s k = rangeFault ((countStray (s.modAng fun a => { a with sinceAcc := some (t + k) })).modAng
          fun a => { a with lastStray := none })) ∧
      (∀ n, gateOf s (t + k) = some n → spacingInRange ((t + k) * edgeShare s) n = false →
        referenceEdge s k = rangeFault ((countStray (s.modAng fun a => { a with sinceAcc := some (t + k), lastStray := none })).modAng
          fun a => { a with lastStray := some k })) ∧
      (∀ n, gateOf s (t + k) = some n → spacingInRange ((t + k) * edgeShare s) n = true → s.holdover = true ∨ s.locked = false →
        referenceEdge s k = lockOnEdge (ageAlt s n) (trackPeriod s (t + k) n)))) ∧
  (∀ (s : State) (spacing : Nat) (level : Bool) (held : Nat),
    exec (.referenceEdge spacing level held) s =
      .next (settle s (if s.get F.ANG_CFG_SRC == 2 then s else syncAligned (edgeAndTally s (referencePin · spacing level held))))) ∧
  (∀ (s : State) (spacing : Nat),
    exec (.acquisitionComplete spacing) s =
      .next (settle s (syncAligned (edgeAndTally s (acquisitionComplete · spacing))))) ∧
  (∀ (s : State), exec .holdoverEntry s = .next (settle s (syncAligned (holdoverEntry s)))) ∧
  (∀ (s : State), exec .holdoverExpired s = .next (settle s (holdoverExpired s))) ∧
  (∀ (s : State) (spacing : Nat) (level : Bool) (held : Nat),
    exec (.angrefAltEdge spacing level held) s =
      .next (settle s (altPinChange s spacing level held)))

/-- The writes of the angle registers, each on a write that nothing refuses. R30: a change of SRC and RESEL select the input; R52: a write of ANG_INC is kept in FREE and ignored else, one of ANG_FREE_INC is kept; R35: a write of ANG_PHASE moves the phase
error by the difference, which the PLL in lock slews out. A write of the other fields of ANG_CFG takes effect on the next accepted edge,
and at once while the angle is free.
The clauses at the end: the effect of each row from every state. -/
def Obligations.AngleWrites : Prop :=
  ((∀ s p v, writable s p R.ANG_CFG v.toNat = true →
      (F.ANG_CFG_SRC.extract (s.reg R.ANG_CFG) ≠ (written s R.ANG_CFG v.toNat).get F.ANG_CFG_SRC →
        exec (.angCfgWrite p v) s = .next (settle s (selectSource (written s R.ANG_CFG v.toNat)))) ∧
      (F.ANG_CFG_SRC.extract (s.reg R.ANG_CFG) = (written s R.ANG_CFG v.toNat).get F.ANG_CFG_SRC → angFree (written s R.ANG_CFG v.toNat) = false →
        exec (.angCfgWrite p v) s = .next (settle s (written s R.ANG_CFG v.toNat))) ∧
      (F.ANG_CFG_SRC.extract (s.reg R.ANG_CFG) = (written s R.ANG_CFG v.toNat).get F.ANG_CFG_SRC → angFree (written s R.ANG_CFG v.toNat) = true →
        exec (.angCfgWrite p v) s = .next (settle s ((written s R.ANG_CFG v.toNat).modAng fun a =>
          { a with cfgEff := BitVec.ofNat 32 ((written s R.ANG_CFG v.toNat).reg R.ANG_CFG) })))) ∧
    (∀ s p, writable s p R.ANG_CTRL (2 + 16 * s.get F.ANG_CTRL_HOP_IDX) = true →
      exec (.resel p) s = .next (settle s (selectSource
        ((written s R.ANG_CTRL (2 + 16 * s.get F.ANG_CTRL_HOP_IDX)).put F.ANG_CTRL_RESEL 1)))) ∧
    (∀ s p v, writable s p R.ANG_INC v.toNat = true →
      (s.get F.ANG_CFG_SRC = 3 →
        exec (.angIncWrite p v) s = .next (settle s (freeIncChanged ((written s R.ANG_INC v.toNat).put F.ANG_FREE_INC_INC v.toNat)))) ∧
      (s.get F.ANG_CFG_SRC ≠ 3 → exec (.angIncWrite p v) s = .next (settle s (written s R.ANG_INC v.toNat)))) ∧
    (∀ s p v, writable s p R.ANG_FREE_INC v.toNat = true →
      exec (.angFreeIncWrite p v) s =
        .next (settle s (freeIncChanged ((written s R.ANG_FREE_INC v.toNat).put F.ANG_FREE_INC_INC v.toNat)))) ∧
    (∀ s p v, writable s p R.ANG_PHASE v.toNat = true → s.locked = false →
      exec (.angPhaseWrite p v) s = .next (settle s ((written s R.ANG_PHASE v.toNat).put F.ANG_PHASE_OFFSET v.toNat))) ∧
    (∀ s p v, writable s p R.ANG_PHASE v.toNat = true → s.locked = true →
      exec (.angPhaseWrite p v) s = .next (settle s (syncPhaseOk (syncInc (((written s R.ANG_PHASE v.toNat).put F.ANG_PHASE_OFFSET v.toNat).modAng
        fun a => { a with phaseErr := toSigned 42 (ofSigned 42 (a.phaseErr + ((((written s R.ANG_PHASE v.toNat).get F.ANG_PHASE_OFFSET : Nat) : Int) -
          ((((written s R.ANG_PHASE v.toNat).put F.ANG_PHASE_OFFSET v.toNat).get F.ANG_PHASE_OFFSET : Nat) : Int)) * 2 ^ 22)) })))))) ∧
  (∀ (s : State) (port : Port) (value : Word), exec (.angCfgWrite port value) s = .next (settle s (writeRow s port R.ANG_CFG value.toNat))) ∧
  (∀ (s : State) (port : Port), exec (.resel port) s = .next (settle s (writeRow s port R.ANG_CTRL (2 + 16 * s.get F.ANG_CTRL_HOP_IDX)))) ∧
  (∀ (s : State) (port : Port) (value : Word), exec (.angIncWrite port value) s = .next (settle s (writeRow s port R.ANG_INC value.toNat))) ∧
  (∀ (s : State) (port : Port) (value : Word), exec (.angFreeIncWrite port value) s = .next (settle s (writeRow s port R.ANG_FREE_INC value.toNat))) ∧
  (∀ (s : State) (port : Port) (value : Word), exec (.angPhaseWrite port value) s = .next (settle s (writeRow s port R.ANG_PHASE value.toNat)))

/-- R31: HOP_STORE: a write of 1 to ANG_CTRL.HOP_STORE with HOP_IDX k copies the band and the tracked period to hop entry k and sets its VALID; with LOCKED
at 0 the write completes and stores nothing.
The clauses at the end: the effect of each row from every state. -/
def Obligations.HopStore : Prop :=
  (∀ s p (k : Fin 8), writable s p R.ANG_CTRL (1 + 16 * k) = true →
      (s.locked = true →
        exec (.hopStore p k) s = .next (settle s ((((written s R.ANG_CTRL (1 + 16 * k)).put (F.ANG_HOPk_PERIOD_PERIOD k)
          (s.get F.ANG_PERIOD_PERIOD)).put (F.ANG_HOPk_CTRL_BAND k) (s.get F.ANG_STATUS_BAND)).put (F.ANG_HOPk_CTRL_VALID k) 1))) ∧
      (s.locked = false → exec (.hopStore p k) s = .next (settle s (written s R.ANG_CTRL (1 + 16 * k))))) ∧
  (∀ (s : State) (port : Port) (hopIdx : Fin 8), exec (.hopStore port hopIdx) s = .next (settle s (writeRow s port R.ANG_CTRL (1 + 16 * hopIdx))))

/-- R24: a read of ANG_STAMP_HI latches the whole stamp and its flags in the latch of the port that reads; a read of ANG_STAMP_LO on that port
returns the low half of the latched stamp, at any later time until the port reads HI again; the other port's latch stays. -/
def Obligations.StampReads : Prop :=
  (∀ s p, exec (.angStampRead p) s = .next (settle s ((angStampRead s p).readBack p (stampHiWord s)))) ∧
  (∀ s p, (angStampRead s p).latched p R.ANG_STAMP_LO = s.ang.stamp.toNat % 2 ^ 32 ∧
    (angStampRead s p).latched p R.ANG_STAMP_HI = (if s.holdover then 2 ^ 31 else 0) + (if s.locked then 2 ^ 30 else 0) +
      (if s.angRun then 2 ^ 29 else 0) + s.ang.stamp.toNat / 2 ^ 32 ∧
    ∀ q a, q ≠ p → (angStampRead s p).latched q a = s.latched q a) ∧
  (∀ s p, readReg s p R.ANG_STAMP_LO = (s, s.latched p R.ANG_STAMP_LO))

/-- R44: fallback: RELOCK, REF_RETURN, loss of lock, overspeed (R45), the lock of step 3, the switch-back of step 4, a failed re-lock, the
measurement of R46.
R44 step 1, R43: entering fallback on a device that runs on the PLL: FALLBACK sets with its event, SYS_LOCK clears, and a
Sounding pauses (R216).
R49, R42: XIN_FAILURE while the PLLs use XIN: the PLLs move to the first ring port with symbol lock where the device allows
it; with none they are unlocked, the system PLL on fallback and the SerDes PLL with TXDIS on every port. R50: TCLK_RETURN: XIN is good
from the first, and after 1 ms TCLK is back; a failure on the RC breaks that wait. R437: the SerDes PLL loses lock and locks.
The clauses at the end: the effect of each row from every state. -/
def Obligations.Clocks : Prop :=
  ((∀ s p, writable s p R.CLK_CTRL 1 = true → s.rst.phase ≠ .por →
      exec (.relock p) s = .next (settle s (enterFallback ((written s R.CLK_CTRL 1).put F.CLK_CTRL_RELOCK 1)))) ∧
    (∀ s p, writable s p R.CLK_CTRL 2 = true → s.rst.phase ≠ .por → s.flag F.CLK_STATUS_XIN_OK = true →
      s.flag F.CLK_STATUS_PLL_REF = true →
      exec (.refReturn p) s = .next (settle s (enterFallback
        (((written s R.CLK_CTRL 2).put F.CLK_STATUS_PLL_REF 0).put F.CLK_CTRL_REF_RETURN 1)))) ∧
    (∀ s p, writable s p R.CLK_CTRL 2 = true → s.flag F.CLK_STATUS_XIN_OK = false ∨ s.flag F.CLK_STATUS_PLL_REF = false →
      exec (.refReturn p) s = .next (settle s (written s R.CLK_CTRL 2))) ∧
    (∀ s, s.flag F.CLK_STATUS_SYS_LOCK = true →
      exec .pllLossOfLock s = .next (settle s (enterFallback
        (((s.put F.CLK_STATUS_LOL_SEEN 1).addSat F.CLK_LOL_CNT_COUNT).raise 33 0 1 0 0)))) ∧
    (∀ s, s.flag F.CLK_STATUS_FALLBACK = false →
      exec .systemClockOverspeed s = .next (settle s (enterFallback ((s.put F.CLK_STATUS_OVERSPEED 1).raise 34 0 1 0 0)))) ∧
    (∀ s, s.rst.phase ≠ .por → s.flag F.CLK_STATUS_FALLBACK = true → s.flag F.CLK_STATUS_SYS_LOCK = false →
      s.get F.CLK_STATUS_PLL_REF ≠ 4 →
      exec .systemPllLock s = .next (settle s ((s.put F.CLK_STATUS_SYS_LOCK 1).put F.CLK_STATUS_RETURN_WAIT 1))) ∧
    (∀ s, s.flag F.CLK_STATUS_RETURN_WAIT = true → s.ang.relocking = true →
      exec .fallbackReturn s = .next (settle s (resumeSounding (markAfterReturn (syncInc
        ((((((((s.put F.CLK_STATUS_RETURN_WAIT 0).put F.CLK_STATUS_FALLBACK 0).put F.CLK_CTRL_RELOCK 0).put
          F.CLK_CTRL_REF_RETURN 0).endCond 33 0).endCond 34 0).event 23).modAng
            fun a => { a with fbFreq := 0, relocking := false }))) false))) ∧
    (∀ s, s.flag F.CLK_STATUS_FALLBACK = true →
      exec .bandSearchRetry s = .next (settle s ((s.put F.CLK_STATUS_SYS_LOCK 0).put F.CLK_STATUS_RETURN_WAIT 0))) ∧
    (∀ s freq, s.rst.phase ≠ .por → s.flag F.CLK_STATUS_FALLBACK = true →
      exec (.fallbackMeasure freq) s = .next (settle s (syncInc ((s.put F.CLK_FB_MEAS_FREQ freq.toNat).modAng
        fun a => { a with fbFreq := freq.toNat }))))) ∧
  (∀ s, s.flag F.CLK_STATUS_FALLBACK = false →
      enterFallback s = pauseSounding (((((s.put F.CLK_STATUS_SYS_LOCK 0).put F.CLK_STATUS_RETURN_WAIT 0).modAng
        fun a => { a with relocking := true }).put F.CLK_STATUS_FALLBACK 1).event 22) false) ∧
  ((∀ s symbols, s.flag F.CLK_STATUS_XIN_OK = true → s.flag F.CLK_STATUS_TCLK_ON_RC = false →
      (∀ i, s.get F.CLK_STATUS_PLL_REF = 0 → s.flag F.CLK_CFG_RING_REF_EN = true →
        ((below 3).find? fun i => symbols.getLsbD i) = some i →
        exec (.xinFailure symbols) s = .next (settle s (enterFallback
          (((((s.put F.CLK_STATUS_XIN_OK 0).put F.CLK_STATUS_TCLK_ON_RC 1).put F.CLK_STATUS_TCLK_GAP 1).raiseOnce 36 0 1 0 0).put
            F.CLK_STATUS_PLL_REF (i + 1))))) ∧
      (s.get F.CLK_STATUS_PLL_REF = 0 →
        s.flag F.CLK_CFG_RING_REF_EN = false ∨ ((below 3).find? fun i => symbols.getLsbD i) = none →
        exec (.xinFailure symbols) s = .next (settle s (serdesLoss (enterFallback
          (((((s.put F.CLK_STATUS_XIN_OK 0).put F.CLK_STATUS_TCLK_ON_RC 1).put F.CLK_STATUS_TCLK_GAP 1).raiseOnce 36 0 1 0 0).put
            F.CLK_STATUS_PLL_REF 4))))) ∧
      (s.get F.CLK_STATUS_PLL_REF ≠ 0 →
        exec (.xinFailure symbols) s = .next (settle s
          ((((s.put F.CLK_STATUS_XIN_OK 0).put F.CLK_STATUS_TCLK_ON_RC 1).put F.CLK_STATUS_TCLK_GAP 1).raiseOnce 36 0 1 0 0)))) ∧
    (∀ s us, s.rst.phase ≠ .por → 1000 ≤ us →
      exec (.tclkReturn us) s =
        .next (settle s (((s.put F.CLK_STATUS_XIN_OK 1).put F.CLK_STATUS_TCLK_ON_RC 0).endCond 36 0))) ∧
    (∀ s, s.flag F.CLK_STATUS_SERDES_LOCK = true →
      exec .serdesPllLossOfLock s = .next (settle s (syncTxdis ((s.put F.CLK_STATUS_SERDES_LOCK 0).raise 35 0 1 0 0)))) ∧
    (∀ s, s.rst.phase ≠ .por → s.get F.CLK_STATUS_PLL_REF ≠ 4 →
      exec .serdesPllLock s = .next (settle s (syncTxdis ((s.put F.CLK_STATUS_SERDES_LOCK 1).endCond 35 0)))) ∧
    (∀ s us, s.rst.phase ≠ .por → us < 1000 →
      exec (.tclkReturn us) s = .next (settle s (s.put F.CLK_STATUS_XIN_OK 1))) ∧
    (∀ s symbols, s.flag F.CLK_STATUS_XIN_OK = true → s.flag F.CLK_STATUS_TCLK_ON_RC = true → s.get F.CLK_STATUS_PLL_REF ≠ 0 →
      exec (.xinFailure symbols) s = .next (settle s ((s.put F.CLK_STATUS_XIN_OK 0).raiseOnce 36 0 1 0 0)))) ∧
  (∀ (s : State) (port : Port), exec (.relock port) s = .next (settle s (writeRow s port R.CLK_CTRL 1))) ∧
  (∀ (s : State) (port : Port), exec (.refReturn port) s = .next (settle s (writeRow s port R.CLK_CTRL 2))) ∧
  (∀ (s : State), exec .pllLossOfLock s = .next (settle s (lossOfLock s))) ∧
  (∀ (s : State), exec .systemClockOverspeed s = .next (settle s (overspeed s))) ∧
  (∀ (s : State), exec .systemPllLock s = .next (settle s (pllLock s))) ∧
  (∀ (s : State), exec .fallbackReturn s = .next (settle s (fallbackReturn s))) ∧
  (∀ (s : State), exec .bandSearchRetry s = .next (settle s (bandSearchRetry s))) ∧
  (∀ (s : State) (freq : BitVec 16), exec (.fallbackMeasure freq) s = .next (settle s (fallbackMeasure s freq.toNat))) ∧
  (∀ (s : State) (symbols : BitVec 3), exec (.xinFailure symbols) s = .next (settle s (xinFailure s symbols))) ∧
  (∀ (s : State) (us : Nat), exec (.tclkReturn us) s = .next (settle s (tclkReturn s us))) ∧
  (∀ (s : State), exec .serdesPllLossOfLock s = .next (settle s (serdesLoss s))) ∧
  (∀ (s : State), exec .serdesPllLock s = .next (settle s (serdesLock s)))

/-! ### The rail guard (spec/03_rail_guard.md) -/

/-- R59, R61, R63, R64: the comparators of a supervised rail: a change of the sense voltage; a filtered output that asserts and
deasserts after the filter's edges, and before them only the running count that stands; R61, R66: a written setting that reaches the
comparator, the oldest first, with the setting it replaces judged beside it until its change-over ends, and the running counts judged by
the new N.
R63, R64: the edges a filter waits for: ⌈1.024 × F⌉ for F from 1 to 255, and with F = 0 the second edge for a deassertion.
R69: filtered OV: the count, the event and one message, source 0 on an enabled rail and source 1 on a disabled one.
R63, R79, R80, R317: when a filter counts: the serving slice's on a supervised rail that neither a proof of that comparator nor a move
of the references freezes; the spare's from step 3 to step 6 of a substitution. R61: the levels judged in a change-over are the most
protective of the settings in it.
The clauses at the end: the effect of each row from every state. -/
def Obligations.GuardComparators : Prop :=
  ((∀ s (n : Fin 64) sense,
      exec (.guardRawChange n sense) s = .next (settle s (refreshRaw (s.modGuard n fun g => { g with sense := sense }) n))) ∧
    (∀ s (n : Fin 64) uv spare edges, filterRuns s n uv spare = true → rawOut s n uv = true →
      max 1 (filterN (if uv then (s.gr n).eff.uvFilt else (s.gr n).eff.ovFilt)) ≤ edges →
      exec (.guardFilterAssert n uv spare edges) s = .next (settle s (refreshOut (s.modGuard n fun g =>
        g.setFilter uv spare true 0) n))) ∧
    (∀ s (n : Fin 64) uv spare edges, filterRuns s n uv spare = true → rawOut s n uv = false →
      filterOff (if uv then (s.gr n).eff.uvFilt else (s.gr n).eff.ovFilt) ≤ edges →
      exec (.guardFilterDeassert n uv spare edges) s = .next (settle s (latchCondsOf (refreshOut (s.modGuard n fun g =>
        g.setFilter uv spare false 0) n) n))) ∧
    (∀ s (n : Fin 64) new rest, (s.gr n).thrPend = new :: rest →
      exec (.guardThreshWrite n) s = .next (settle s (latchCondsOf (let t := refreshRaw (checkOrder (s.modGuard n fun g =>
        { g with old := g.old ++ [g.eff], eff := new, thrPend := rest }) n) n
        recount (recount (recount (recount t n false false) n true false) n false true) n true true) n))) ∧
    (∀ s (n : Fin 64) o rest, (s.gr n).old = o :: rest →
      exec (.guardChangeoverEnd n) s = .next (settle s (refreshRaw (s.modGuard n fun g => { g with old := rest }) n))) ∧
    (∀ s (n : Fin 64) uv spare edges, filterRuns s n uv spare = true → rawOut s n uv = true → ((s.gr n).out uv spare = false) →
      edges < max 1 (filterN (if uv then (s.gr n).eff.uvFilt else (s.gr n).eff.ovFilt)) →
      exec (.guardFilterAssert n uv spare edges) s = .next (settle s (s.modGuard n fun g =>
        g.setFilter uv spare (g.out uv spare) edges))) ∧
    (∀ s (n : Fin 64) uv spare edges, filterRuns s n uv spare = true → rawOut s n uv = false → ((s.gr n).out uv spare = true) →
      edges < filterOff (if uv then (s.gr n).eff.uvFilt else (s.gr n).eff.ovFilt) →
      exec (.guardFilterDeassert n uv spare edges) s = .next (settle s (latchCondsOf (s.modGuard n fun g =>
        g.setFilter uv spare (g.out uv spare) edges) n)))) ∧
  (∀ f, f < 256 → (1000 * filterN f < 1024 * f + 1000 ∧ 1024 * f ≤ 1000 * filterN f) ∧
      filterOff f = (if f = 0 then 2 else filterN f)) ∧
  (∀ s n, n < 64 →
      raiseOv s n =
        (if enLatch s n then
          ((s.addSat (F.RAILn_GUARD_CNT_OV_CNT n)).evtBit (F.RAILn_GUARD_EVT_OV_SEEN n) 64).raise 0 0
            (guardClass s R.HM_FATAL_OV_LO R.HM_FATAL_OV_HI n) n n
        else ((s.addSat (F.RAILn_GUARD_CNT_OV_CNT n)).evtBit (F.RAILn_GUARD_EVT_OV_SEEN n) 64).raise 1 0 1 n n)) ∧
  ((∀ s n uv, filterRuns s n uv false = true ↔
      railUse s n = true ∧ (∀ p, (s.gr n).proof = some p → p.uv ≠ uv) ∧ s.spare.moved = 0) ∧
    (∀ s n uv, filterRuns s n uv true = true ↔
      railUse s n = true ∧ (∃ b, s.spare.sub = some b ∧ b.rail = n ∧ 3 ≤ b.step ∧ b.step < 6) ∧ s.spare.moved = 0) ∧
    (∀ g o, g.old = [o] → ovTripLevel g = min g.eff.ov o.ov ∧ ovReleaseLevel g = min g.eff.ovRelease o.ovRelease ∧
      uvTripLevel g = max g.eff.uv o.uv ∧ uvReleaseLevel g = max g.eff.uvRelease o.uvRelease)) ∧
  (∀ (s : State) (rail : Fin 64) (uv spare : Bool) (edges : Nat),
    exec (.guardFilterAssert rail uv spare edges) s =
      .next (settle s (filterAssert s rail uv spare edges))) ∧
  (∀ (s : State) (rail : Fin 64) (uv spare : Bool) (edges : Nat),
    exec (.guardFilterDeassert rail uv spare edges) s =
      .next (settle s (latchCondsOf (filterDeassert s rail uv spare edges) rail))) ∧
  (∀ (s : State) (rail : Fin 64), exec (.guardThreshWrite rail) s = .next (settle s (latchCondsOf (guardThreshWrite s rail) rail))) ∧
  (∀ (s : State) (rail : Fin 64), exec (.guardChangeoverEnd rail) s = .next (settle s (guardChangeoverEnd s rail)))

/-- R56: the common-mode error and its end; R68: with USE = 0 CM_ERR alone. R71: the PG ball. R76: the EN ball shows its level, and is
judged at 20 edges. R74: the EN latch of a rail, set and cleared by EN_CTRL; an off request on the edge of an on request wins.
R74, R67, R97: the EN latch turns a rail on and off; a latch already there does not move, and one that is dropped
(R304, R452) stays off.
The clauses at the end: the effect of each row from every state. -/
def Obligations.RailPins : Prop :=
  ((∀ s (n : Fin 64), railUse s n = true → s.flag (F.RAILn_GUARD_STATUS_CM_ERR n) = false →
      exec (.senseCommonModeError n) s = .next (settle s ((((s.modFine n fun g => { g with cmNow := true }).put
        (F.RAILn_GUARD_STATUS_CM_ERR n) 1).evtBit (F.RAILn_GUARD_EVT_CM_SEEN n) 68).raise 5 0 1 n n))) ∧
    (∀ s (n : Fin 64),
      exec (.senseCommonModeClear n) s = .next (settle s (((if s.flag (F.RAILn_GUARD_STATUS_CM_ERR n) then
        s.modFine n fun g => { g with cmNow := true } else s).put (F.RAILn_GUARD_STATUS_CM_ERR n) 0).endCond 5 n))) ∧
    (∀ s (n : Fin 64) level edges, railUse s n = false ∨ s.flag (F.RAILn_GUARD_CFG_PG_USE n) = false →
      exec (.pgFilterChange n level edges) s =
        .next (settle s (latchCondsOf (s.putB (F.RAILn_GUARD_STATUS_PG_RAW n) level) n))) ∧
    (∀ s (n : Fin 64) level edges, railUse s n = true → s.flag (F.RAILn_GUARD_CFG_PG_USE n) = true → pgFilterN s n ≤ edges →
      enLatch s n = true →
      exec (.pgFilterChange n level edges) s = .next (settle s (latchCondsOf (checkPgLost ((s.putB (F.RAILn_GUARD_STATUS_PG_RAW n)
        level).putB (F.RAILn_GUARD_STATUS_PG_GOOD n) (level != s.flag (F.RAILn_GUARD_CFG_PG_POL n))) n) n))) ∧
    (∀ s (n : Fin 64) level edges, 20 ≤ edges → s.flag (F.RAILn_GUARD_STATUS_EN_DRIVE n) = true →
      (level = enLevel s n →
        exec (.enReadbackMismatch n level edges) s = .next (settle s
          (((s.putB (F.RAILn_GUARD_STATUS_EN_PIN n) level).put (F.RAILn_GUARD_STATUS_EN_MISMATCH n) 0).endCond 4 n))) ∧
      (level ≠ enLevel s n → s.flag (F.RAILn_GUARD_CFG_EN_OD n) = false ∨ enLevel s n = false → railUse s n = true →
        s.condStands 4 n = false →
        exec (.enReadbackMismatch n level edges) s = .next (settle s
          ((((s.putB (F.RAILn_GUARD_STATUS_EN_PIN n) level).put (F.RAILn_GUARD_STATUS_EN_MISMATCH n) 1).evtBit
            (F.RAILn_GUARD_EVT_EN_MISMATCH_SEEN n) 67).raise 4 0 1 n n)))) ∧
    (∀ s p (n : Fin 64), writable s p (R.RAILn_EN_CTRL n) 1 = true →
      exec (.enSet p n false) s = .next (settle s (latchOn (written s (R.RAILn_EN_CTRL n) 1) n))) ∧
    (∀ s p (n : Fin 64), writable s p (R.RAILn_EN_CTRL n) 2 = true →
      exec (.enClr p n) s = .next (settle s (latchOff (written s (R.RAILn_EN_CTRL n) 2) n))) ∧
    (∀ s p (n : Fin 64), writable s p (R.RAILn_EN_CTRL n) 3 = true →
      exec (.enSet p n true) s = .next (settle s (latchOff (latchOff (written s (R.RAILn_EN_CTRL n) 3) n) n))) ∧
    (∀ s (n : Fin 64), railUse s n = false → s.flag (F.RAILn_GUARD_STATUS_CM_ERR n) = false →
      exec (.senseCommonModeError n) s = .next (settle s ((s.modFine n fun g => { g with cmNow := true }).put
        (F.RAILn_GUARD_STATUS_CM_ERR n) 1))) ∧
    (∀ s (n : Fin 64) level edges, edges < 20 ∨ s.flag (F.RAILn_GUARD_STATUS_EN_DRIVE n) = false →
      exec (.enReadbackMismatch n level edges) s = .next (settle s (s.putB (F.RAILn_GUARD_STATUS_EN_PIN n) level)))) ∧
  ((∀ s n, enLatch s n = false → onDropped s = false →
      latchOn s n = (let t := (syncEnPin (s.put (F.RAILn_GUARD_STATUS_EN_LATCH n) 1) n)
        let t := (t.modGuard n fun g => { g with onAt := t.tclk }).modFine n fun g => { g with slopeArm := true }
        if t.flag (F.RAILn_GUARD_STATUS_UV_OUT n) then checkPgLost t n else checkPgLost (armUv t n) n)) ∧
    (∀ s n, enLatch s n = true ∨ onDropped s = true → latchOn s n = s) ∧
    (∀ s n, enLatch s n = true →
      latchOff s n = checkPgLost ((((syncEnPin (s.put (F.RAILn_GUARD_STATUS_EN_LATCH n) 0) n).modFine n fun g =>
        { g with slopeArm := false }).put (F.RAILn_FINE_STATE_SLOPE_ACTIVE n) 0).put (F.RAILn_GUARD_STATUS_UV_ARMED n) 0) n) ∧
    (∀ s n, enLatch s n = false → latchOff s n = s)) ∧
  (∀ (s : State) (rail : Fin 64), exec (.senseCommonModeError rail) s = .next (settle s (commonModeError s rail))) ∧
  (∀ (s : State) (rail : Fin 64) (level : Bool) (edges : Nat),
    exec (.pgFilterChange rail level edges) s =
      .next (settle s (latchCondsOf (pgFilterChange s rail level edges) rail))) ∧
  (∀ (s : State) (rail : Fin 64) (level : Bool) (edges : Nat),
    exec (.enReadbackMismatch rail level edges) s =
      .next (settle s (enReadback s rail level edges))) ∧
  (∀ (s : State) (port : Port) (rail : Fin 64) (off : Bool),
    exec (.enSet port rail off) s =
      .next (settle s (if off then latchOff (writeRow s port (R.RAILn_EN_CTRL rail) 3) rail else writeRow s port (R.RAILn_EN_CTRL rail) 1))) ∧
  (∀ (s : State) (port : Port) (rail : Fin 64), exec (.enClr port rail) s = .next (settle s (writeRow s port (R.RAILn_EN_CTRL rail) 2)))

/-- R79: a proof of a comparator: it starts, or is skipped and counted, but never where the raw output stands asserted 32 codes or more on the
safe side; its raw output is sampled; it ends.
R80, R315: a slice substitution: it starts with the first free spare whose check passes, R109: with the coefficients derived at once, and
its stages follow, the spare's filters joining at step 3; R319: with
no spare left the device degrades.
The clauses at the end: the effect of each row from every state. -/
def Obligations.GuardProofs : Prop :=
  ((∀ s (n : Fin 64) uv r, railUse s n = true → (s.gr n).proof = none →
      s.flag (if uv then F.RAILn_GUARD_STATUS_UV_FAILED n else F.RAILn_GUARD_STATUS_OV_FAILED n) = false →
      proofCode s n = some r → s.flag (F.RAILn_GUARD_STATUS_SUBST n) = false →
      (uv = true → r + 32 ≤ 4095) → (uv = false → 0 ≤ r - 32) →
      s.flag (if uv then F.RAILn_GUARD_STATUS_UV_RAW n else F.RAILn_GUARD_STATUS_OV_RAW n) = false →
      exec (.guardProofStart n uv) s =
        .next (settle s (s.modGuard n fun g => { g with proof := some ⟨uv, false, false⟩ }))) ∧
    (∀ s (n : Fin 64) uv, railUse s n = true → (s.gr n).proof = none →
      s.flag (if uv then F.RAILn_GUARD_STATUS_UV_FAILED n else F.RAILn_GUARD_STATUS_OV_FAILED n) = false →
      proofCode s n = none ∨ s.flag (F.RAILn_GUARD_STATUS_SUBST n) = true ∧
        s.flag (if uv then F.RAILn_GUARD_STATUS_UV_RAW n else F.RAILn_GUARD_STATUS_OV_RAW n) = false →
      exec (.guardProofStart n uv) s = .next (settle s (s.addSat (F.RAILn_PROOF_SKIP_CNT n)))) ∧
    (∀ s (n : Fin 64) uv, (s.gr n).proof = some ⟨uv, false, false⟩ →
      exec (.guardProofSample n true) s = .next (settle s (((s.modGuard n fun g => { g with proof := some ⟨uv, false, true⟩ }).put
        (if uv then F.RAILn_PROOF_UV_MISS n else F.RAILn_PROOF_OV_MISS n) 0).put (F.RAILn_PROOF_LAST_OK n) 1))) ∧
    (∀ s (n : Fin 64) uv stuck, (s.gr n).proof = some ⟨uv, stuck, false⟩ →
      exec (.guardProofSample n false) s = .next (settle s
        (let miss := if uv then F.RAILn_PROOF_UV_MISS n else F.RAILn_PROOF_OV_MISS n
         let t := (((s.modGuard n fun g => { g with proof := some ⟨uv, stuck, true⟩ }).addSat miss).put (F.RAILn_PROOF_LAST_OK n) 0).evtBit
           (F.RAILn_GUARD_EVT_PROOF_FAIL n) 69
         if t.get miss = 3 then comparatorFailed t n uv else t))) ∧
    (∀ s (n : Fin 64) uv stuck, (s.gr n).proof = some ⟨uv, stuck, true⟩ →
      exec (.guardProofEnd n) s = .next (settle s (refreshRaw (s.modGuard n fun g => { g with proof := none }) n))) ∧
    (∀ s (n : Fin 64) uv r, railUse s n = true → (s.gr n).proof = none →
      s.flag (if uv then F.RAILn_GUARD_STATUS_UV_FAILED n else F.RAILn_GUARD_STATUS_OV_FAILED n) = false → proofCode s n = some r →
      s.flag (if uv then F.RAILn_GUARD_STATUS_UV_RAW n else F.RAILn_GUARD_STATUS_OV_RAW n) = true →
      (32 ≤ (if uv then r - ((s.gr n).eff.uv : Nat) else (((s.gr n).eff.ov : Nat) : Int) - r) →
        exec (.guardProofStart n uv) s =
          .next (settle s (s.modGuard n fun g => { g with proof := some ⟨uv, true, false⟩ }))) ∧
      ((if uv then r - ((s.gr n).eff.uv : Nat) else (((s.gr n).eff.ov : Nat) : Int) - r) < 32 →
        exec (.guardProofStart n uv) s = .next (settle s (s.addSat (F.RAILn_PROOF_SKIP_CNT n)))))) ∧
  ((∀ s ok n cmp rest, s.spare.slices = (n, cmp) :: rest → s.spare.sub = none → s.mode ≠ mHoldup →
      (∀ t k, pickSpare ((s.modSpare fun p => { p with slices := rest }).evtBit F.TWIN_EVT_SUB_START 140) n ok
          (freeSpares ((s.modSpare fun p => { p with slices := rest }).evtBit F.TWIN_EVT_SUB_START 140)) = (t, some k) →
        exec (.substitutionStart ok) s = .next (settle s
          (let (t, o, g) := transferCoeffs (abortRailCal t n) n k
           let worn := coeffsInUse t n
           let t := ((t.putS (F.RAILn_CAL_OFFSET_OFFSET n) o).put (F.RAILn_CAL_GAIN_GAIN n) g).put (F.RAILn_CAL_STATUS_STATE n) 1
           let t := ((t.modSpare fun p => { p with sub := some ⟨n, k, 1⟩ }).put (F.SPAREk_STATUS_STATE k) 1).put
             (F.SPAREk_STATUS_RAIL k) n
           let t := (t.put (F.RAILn_GUARD_STATUS_SUBST n) 1).modGuard n fun g =>
             { g with spOv := false, spUv := false, cntSpOv := 0, cntSpUv := 0 }
           syncSpares (t.modFine n fun g => { g with outage := 1, worn := some worn })))) ∧
      (∀ t, pickSpare ((s.modSpare fun p => { p with slices := rest }).evtBit F.TWIN_EVT_SUB_START 140) n ok
          (freeSpares ((s.modSpare fun p => { p with slices := rest }).evtBit F.TWIN_EVT_SUB_START 140)) = (t, none) →
        exec (.substitutionStart ok) s = .next (settle s (syncSpares (degradeSlice t n cmp))))) ∧
    (∀ s b, s.spare.sub = some b →
      (b.step < 5 → b.step ≠ 2 → exec .substitutionStep s =
        .next (settle s (s.modSpare fun p => { p with sub := some { b with step := b.step + 1 } }))) ∧
      (b.step = 5 → exec .substitutionStep s =
        .next (settle s (substStep6 (s.modSpare fun p => { p with sub := some { b with step := 6 } }) b))) ∧
      (b.step = 6 → exec .substitutionStep s =
        .next (settle s (substStep7 (s.modSpare fun p => { p with sub := some { b with step := 7 } }) b))) ∧
      (b.step = 2 → exec .substitutionStep s =
        .next (settle s (refreshRaw (s.modSpare fun p => { p with sub := some { b with step := 3 } }) b.rail))))) ∧
  (∀ (s : State) (rail : Fin 64) (uv : Bool), exec (.guardProofStart rail uv) s = .next (settle s (proofStart s rail uv))) ∧
  (∀ (s : State) (rail : Fin 64) (asserted : Bool), exec (.guardProofSample rail asserted) s = .next (settle s (proofSample s rail asserted))) ∧
  (∀ (s : State) (rail : Fin 64), exec (.guardProofEnd rail) s = .next (settle s (proofEnd s rail))) ∧
  (∀ (s : State) (checkOk : BitVec 8), exec (.substitutionStart checkOk) s = .next (settle s (substStart s checkOk))) ∧
  (∀ (s : State), exec .substitutionStep s = .next (settle s (substStep s)))

/-! ### The fine path (spec/04_rail_fine_path.md) -/

/-- R87, R90, R92, R96, R88, R105, R152: a running fine path takes a sample, and the blocks that wait on it follow: the Assay's check of the rail,
the steps and retry cycles, the margin test; a restart begins on its boundary, with the configuration and the coefficients written since,
and starts the path where it is to run; an overload is noted once; the window, the configuration and the coefficients are written; a read of the result
latches its sample.
R93, R92, R91, R54, R108: what a sample of a running path gives: the code calibrated from the output held to 24 bits, or the end of the
range on an overload; a marked sample is settling; one that is settling, substituted, clipped (the output beyond 24 bits, the code beyond its
range, or an overload) or out of common mode at some time of its window is not valid.
R87: the window of a sample reaches back 2 output periods, or 4 with the FIR filter: the sample sees the common-mode error that stood at
some time in it, the period that ends with it among them.
R90, R91: restarts: of those scheduled the largest number of marked samples applies, and of those on one boundary; a later one starts
with its own number. R90: the configuration written takes effect on the boundary.
The clauses at the end: the effect of each row from every state. -/
def Obligations.FinePath : Prop :=
  ((∀ s (n : Fin 64) (raw : Int) back, fineRun s n = true →
      exec (.fineSample n raw back) s = .next (settle s
        (let (t, o) := fineSample s n raw back (!stepOnRail s n && !workOwns s n) (stimOn s n)
         marginSample (sampleForSteps (checkSample t n raw o (assayStim t n)) n o) n o))) ∧
    (∀ s (n : Fin 64) k, (s.fr n).offPend = none → (s.fr n).gainPend = none → (s.fr n).pend = some k → fineWanted s n = true →
      fineRun s n = true →
      exec (.fineRestart n) s = .next (settle s (restartFine (takeFineCfg s n) n k))) ∧
    (∀ s (n : Fin 64) neg, fineRun s n = true → (s.fr n).ovl = none →
      exec (.fineModulatorOverload n neg) s = .next (settle s
        (((s.modFine n fun g => { g with ovl := some neg }).evtBit (F.RAILn_FINE_STATE_OVERLOAD_SEEN n) 75).raiseOnce 11 0 0 n n))) ∧
    (∀ s p (n : Fin 64) (hi : Bool) (v : Word), writable s p (if hi then R.RAILn_FINE_WIN_HI n else R.RAILn_FINE_WIN_LO n) v.toNat = true →
      exec (.fineWindowWrite p n hi v) s = .next (settle s
        ((written s (if hi then R.RAILn_FINE_WIN_HI n else R.RAILn_FINE_WIN_LO n) v.toNat).modFine n fun g =>
          { g with inCount := 0, outCount := 0 }))) ∧
    (∀ s p (n : Fin 64) (v : Word), writable s p (R.RAILn_FINE_CFG n) v.toNat = true →
      exec (.fineCfgWrite p n v) s = .next (settle s
        (fineCfgWritten (written s (R.RAILn_FINE_CFG n) v.toNat) n (s.reg (R.RAILn_FINE_CFG n))))) ∧
    (∀ s p (n : Fin 64) (gain : Bool) (v : Word), writable s p (if gain then R.RAILn_CAL_GAIN n else R.RAILn_CAL_OFFSET n) v.toNat = true →
      exec (.calCoeffWrite p n gain v) s = .next (settle s
        (calCoeffWrite (written s (if gain then R.RAILn_CAL_GAIN n else R.RAILn_CAL_OFFSET n) v.toNat) n gain v.toNat))) ∧
    (∀ s p (n : Fin 64),
      exec (.fineResultRead p n) s = .next (settle s
        (((((s.latch p (R.RAILn_FINE_TAG n) (s.fr n).latest.tag.toNat).latch p (R.RAILn_FINE_RAILV n) (s.fr n).latest.railv.toNat).latch p
          (R.RAILn_FINE_STAMP_HI n) (stampHi (s.fr n).latest.stamp)).latch p (R.RAILn_FINE_STAMP_LO n)
            (stampLo (s.fr n).latest.stamp)).readBack p (s.reg (R.RAILn_FINE_RESULT n))))) ∧
    (∀ s (n : Fin 64) k, (s.fr n).offPend = none → (s.fr n).gainPend = none → (s.fr n).pend = some k → fineWanted s n = true →
      fineRun s n = false →
      exec (.fineRestart n) s = .next (settle s (restartFine (takeFineCfg
        (((s.put (F.RAILn_FINE_STATE_RUN n) 1).put (F.RAILn_FINE_STATE_WIN n) 0).modFine n fun g =>
          { g with inCount := 0, outCount := 0, ovl := none }) n) n k))) ∧
    (∀ s (n : Fin 64), (s.fr n).pend = none → exec (.fineRestart n) s = .next (settle s (commitCoeffs s n)))) ∧
  (∀ s n raw back quiet stim, fineRun s n = true →
      let o := (fineSample s n raw back quiet stim).2
      let c := calibrate s n (clampInt codeMin codeMax raw)
      o.delivered = true ∧
      o.code = (match (s.fr n).ovl with | some true => codeMin | some false => codeMax | none => c.2.1) ∧
      o.settling = decide (0 < (s.fr n).marks) ∧
      (o.valid = true ↔ (s.fr n).marks = 0 ∧ (s.fr n).outage ≠ 1 ∧ (s.fr n).ovl = none ∧ c.2.2 = false ∧
        codeMin ≤ raw ∧ raw ≤ codeMax ∧ (windowFlags s n).2.2.1 = false)) ∧
  (∀ s n, (windowFlags s n).2.2.1 = ((s.fr n).cmNow || s.flag (F.RAILn_GUARD_STATUS_CM_ERR n) ||
        ((s.fr n).cmHist.take (if (s.fr n).fir then 4 else 2)).any id) ∧
      (windowFlags s n).2.2.2 = ((s.fr n).fbNow || s.flag F.CLK_STATUS_FALLBACK ||
        ((s.fr n).fbHist.take (if (s.fr n).fir then 4 else 2)).any id)) ∧
  ((∀ s n k, scheduleRestart s n k = s.modFine n fun g => { g with pend := some (max k (g.pend.getD 0)) }) ∧
    (∀ s (n : Fin 64) k, (s.fr n).fresh = false ∨ (s.fr n).freshAt ≠ s.tclk → ((restartFine s n k).fr n).marks = k) ∧
    (∀ s (n : Fin 64) k, (s.fr n).fresh = true → (s.fr n).freshAt = s.tclk →
      ((restartFine s n k).fr n).marks = max (s.fr n).marks k)) ∧
  (∀ (s : State) (rail : Fin 64) (raw : Int) (back : Bool), exec (.fineSample rail raw back) s = .next (settle s (railSample s rail raw back))) ∧
  (∀ (s : State) (port : Port) (rail : Fin 64) (value : Word),
    exec (.fineCfgWrite port rail value) s =
      .next (settle s (writeRow s port (R.RAILn_FINE_CFG rail) value.toNat))) ∧
  (∀ (s : State) (rail : Fin 64), exec (.fineRestart rail) s = .next (settle s (fineRestart s rail))) ∧
  (∀ (s : State) (rail : Fin 64) (negative : Bool), exec (.fineModulatorOverload rail negative) s = .next (settle s (fineOverload s rail negative))) ∧
  (∀ (s : State) (port : Port) (rail : Fin 64) (hi : Bool) (value : Word),
    exec (.fineWindowWrite port rail hi value) s =
      .next (settle s (writeRow s port (if hi then R.RAILn_FINE_WIN_HI rail else R.RAILn_FINE_WIN_LO rail) value.toNat))) ∧
  (∀ (s : State) (port : Port) (rail : Fin 64) (gain : Bool) (value : Word),
    exec (.calCoeffWrite port rail gain value) s =
      .next (settle s (writeRow s port (if gain then R.RAILn_CAL_GAIN rail else R.RAILn_CAL_OFFSET rail) value.toNat)))

/-- R105, R90: a coefficient written while the path runs waits for the sample boundary, and the boundary marks at least 4
samples; the boundary commits it, ends the rail's condition of R100 and leaves CAL_STATE 0b00, in a substitution for the worn slice too
(the model's choice, log entry 85).
R102, R105: the average of a rail's calibration that fails ends it with LAST and its reply; one that succeeds waits with its
coefficient for the boundary, which commits it; the pool's calibration likewise (R140).
The clauses at the end: the effect of each row from every state. -/
def Obligations.Calibrations : Prop :=
  ((∀ s n (gain : Bool) v, fineRun s n = true →
      calCoeffWrite s n gain v = scheduleRestart (s.modFine n fun g =>
        if gain then { g with gainPend := some (v % 2 ^ 24) } else { g with offPend := some (v % 2 ^ 24) }) n 4) ∧
    (∀ s n v, (s.fr n).offPend = some v → (s.fr n).gainPend = none →
      commitCoeffs s n = (((s.put (F.RAILn_CAL_OFFSET_OFFSET n) v).modFine n fun g =>
        { g with offPend := none, gainPend := none, worn := g.worn.map fun w => (toSigned 24 v, w.2.1, 0) }).put
          (F.RAILn_CAL_STATUS_STATE n) 0).endCond 12 n) ∧
    (∀ s n v, (s.fr n).offPend = none → (s.fr n).gainPend = some v →
      commitCoeffs s n = (((s.put (F.RAILn_CAL_GAIN_GAIN n) v).modFine n fun g =>
        { g with offPend := none, gainPend := none, worn := g.worn.map fun w => (w.1, v, 0) }).put
          (F.RAILn_CAL_STATUS_STATE n) 0).endCond 12 n)) ∧
  ((∀ s (n : Fin 64) c, (s.fr n).cal = some c → c.ended = true → c.commit = none → c.n < c.count →
      exec (.calibrationAverageDone (some n)) s =
        .next (settle s (endRailCal s n 3 stCalUnstable (refusalWords noWord 0)))) ∧
    (∀ s (n : Fin 64) c coef mean, (s.fr n).cal = some c → c.commit = some (coef, mean) → c.full = false →
      exec (.calibrationCommit (some n)) s = .next (settle s
        (let t := ((s.put (F.RAILn_CAL_OFFSET_OFFSET n) coef).put (F.RAILn_CAL_STATUS_ZERO_DONE n) 1).put (F.RAILn_CAL_STATUS_FULL_DONE n) 0
         let t := restartFine ((t.put (F.RAILn_CAL_STATUS_STATE n) 0).endCond 12 n) n 4
         endRailCal t n 1 stOk (calWords c mean coef (t.get (F.RAILn_CAL_STATUS_SPREAD n)))))) ∧
    (∀ s (n : Fin 64) c coef mean, (s.fr n).cal = some c → c.commit = some (coef, mean) → c.full = true →
      exec (.calibrationCommit (some n)) s = .next (settle s
        (let t := (s.put (F.RAILn_CAL_GAIN_GAIN n) coef).put (F.RAILn_CAL_STATUS_FULL_DONE n) 1
         let t := restartFine ((t.put (F.RAILn_CAL_STATUS_STATE n) 0).endCond 12 n) n 4
         endRailCal t n 1 stOk (calWords c mean coef (t.get (F.RAILn_CAL_STATUS_SPREAD n)))))) ∧
    (∀ s c, s.pool.cal = some c → c.run.ended = true → c.run.commit = none → c.run.n < c.run.count →
      exec (.calibrationAverageDone none) s = .next (settle s (endPoolCal s 3 stCalUnstable (refusalWords noWord 0)))) ∧
    (∀ s c coef mean, s.pool.cal = some c → c.run.commit = some (coef, mean) →
      exec (.calibrationCommit none) s = .next (settle s
        (let t := s.put (if c.run.full then F.pairGain c.gain c.aux else F.pairOffset c.gain c.aux) coef
         let t := (t.put (F.pairState c.gain c.aux) 0).endCond 15 0
         endPoolCal t 1 stOk (calWords c.run mean coef (t.get F.POOL_CAL_STATUS_SPREAD)))))) ∧
  (∀ (s : State) (rail : Option (Fin 64)),
    exec (.calibrationAverageDone rail) s =
      .next (settle s (match rail with | some n => railAverageDone s n | none => poolAverageDone s))) ∧
  (∀ (s : State) (rail : Option (Fin 64)),
    exec (.calibrationCommit rail) s =
      .next (settle s (match rail with | some n => railCalCommit s n | none => poolCalCommit s)))

/-! ### The pool converters and the Benches (spec/05_converter_benches.md) -/

/-- R127 to R132: the writes of BENCHb_CTRL: START arms a Bench, STOP stops it, TRIG and ITRIG are triggers from a register. R124: a
layout. R142: a coefficient of the indexed pair.
R131, R130, R129: a regular and an injected trigger at a Bench that runs: while the one before them is still at work they are counted
as overruns; with no delay, or from an angle target, they act at once; with a delay they wait, for a time in TCLK periods or for an angle. In
CONT a later trigger is ignored, R128.
R128: in STEP a trigger runs the next entry of the slice, from its first after the last one, or where a smaller LEN leaves the next
one outside it; in the other modes the whole slice.
R37, R39: an angle target is reached or passed, once in each stamp cycle: the next angle `a` after `since` lies in the cycle that
follows it, and one armed at the target itself waits a whole cycle; a target stamp is reached for half the range of the stamp.
The clauses at the end: the effect of each row from every state. -/
def Obligations.Benches : Prop :=
  ((∀ s p (b : Fin 8), writable s p (R.BENCHb_CTRL b) 1 = true →
      exec (.benchStart p b) s = .next (settle s (benchStart (written s (R.BENCHb_CTRL b) 1) b))) ∧
    (∀ s b, benchStartRefused s b = false → benchStopped (((s.put (F.BENCHb_STATUS_ROVR b) 0).put (F.BENCHb_STATUS_IOVR b) 0).modBn b
        fun t => { t with passCnt := 0 }) b = true →
      benchStart s b = ((((s.put (F.BENCHb_STATUS_ROVR b) 0).put (F.BENCHb_STATUS_IOVR b) 0).modBn b fun t => { t with passCnt := 0 }).modBn b
        fun t => { t with stepNext := 0, regFrom := s.ang.stamp, injFrom := s.ang.stamp }).put (F.BENCHb_STATUS_STATE b) 1) ∧
    (∀ s p (b : Fin 8), writable s p (R.BENCHb_CTRL b) 2 = true →
      exec (.benchStop p b) s = .next (settle s (poolServe
        (((discardBench (dropEntries (written s (R.BENCHb_CTRL b) 2) b true) b).put (F.BENCHb_STATUS_STATE b) 0).put
          (F.BENCHb_STATUS_DELAYING b) 0)))) ∧
    (∀ s p (b : Fin 8), writable s p (R.BENCHb_CTRL b) 4 = true →
      exec (.benchTrig p b) s = .next (settle s (poolServe (regTrigger (written s (R.BENCHb_CTRL b) 4) b)))) ∧
    (∀ s p (b : Fin 8), writable s p (R.BENCHb_CTRL b) 8 = true →
      exec (.benchItrig p b) s = .next (settle s (poolServe (injTrigger (written s (R.BENCHb_CTRL b) 8) b)))) ∧
    (∀ s p v, writable s p R.BENCH_LAYOUT v.toNat = true →
      exec (.benchLayoutWrite p v) s = .next (settle s (poolServe (syncAssay (syncPoolMap (written s R.BENCH_LAYOUT v.toNat)))))) ∧
    (∀ s p (gain : Bool) v, writable s p (if gain then R.POOL_CAL_GAIN else R.POOL_CAL_OFFSET) v.toNat = true →
      exec (.poolCalWrite p gain v) s = .next (settle s
        (poolCoeffWrite (written s (if gain then R.POOL_CAL_GAIN else R.POOL_CAL_OFFSET) v.toNat) gain v.toNat)))) ∧
  ((∀ s b, benchStopped s b = false → benchQuiet s b = false → s.get (F.BENCHb_CFG_MODE b) ≠ 1 → (s.bn b).passOn = true →
      regTrigger s b = s.addSat (F.BENCHb_STATUS_ROVR b)) ∧
    (∀ s b, benchStopped s b = false → benchQuiet s b = false → (s.bn b).passOn = false → (s.bn b).regDelay = none →
      s.flag (F.BENCHb_STATUS_REG_PEND b) = false → trigDelay s b false = none → (s.bn b).injOn = false →
      regTrigger s b = poolServe (regFire s b)) ∧
    (∀ s b, benchStopped s b = false → benchQuiet s b = false → (s.bn b).passOn = false → (s.bn b).regDelay = none →
      s.flag (F.BENCHb_STATUS_REG_PEND b) = false → trigDelay s b false = none → (s.bn b).injOn = true →
      regTrigger s b = syncBenchState (s.put (F.BENCHb_STATUS_REG_PEND b) 1) b) ∧
    (∀ s b, benchStopped s b = false → benchQuiet s b = false → (s.bn b).injOn = true →
      injTrigger s b = s.addSat (F.BENCHb_STATUS_IOVR b)) ∧
    (∀ s b, benchStopped s b = true ∨ benchQuiet s b = true → regTrigger s b = s ∧ injTrigger s b = s) ∧
    (∀ s b d, benchStopped s b = false → benchQuiet s b = false → (s.bn b).passOn = false → (s.bn b).regDelay = none →
      s.flag (F.BENCHb_STATUS_REG_PEND b) = false → trigDelay s b false = some d →
      regTrigger s b = syncBenchState (s.modBn b fun t => { t with regDelay := some d }) b) ∧
    (∀ s b, benchStopped s b = false → benchQuiet s b = false → s.get (F.BENCHb_CFG_MODE b) = 1 →
      (s.bn b).passOn = true ∨ (s.bn b).regDelay.isSome = true ∨ s.flag (F.BENCHb_STATUS_REG_PEND b) = true → regTrigger s b = s) ∧
    (∀ s b, (s.get (F.BENCHb_TRIG_SRC b) = 2 ∨ s.get (F.BENCHb_TRIG_DELAY b) = 0 → trigDelay s b false = none) ∧
      (s.get (F.BENCHb_TRIG_SRC b) ≠ 2 → s.get (F.BENCHb_TRIG_DELAY b) ≠ 0 → s.flag (F.BENCHb_TRIG_DLY_ANG b) = true →
        trigDelay s b false = some (.angle (s.ang.stamp + BitVec.ofNat 48 (s.get (F.BENCHb_TRIG_DELAY b))))) ∧
      (s.get (F.BENCHb_TRIG_SRC b) ≠ 2 → s.get (F.BENCHb_TRIG_DELAY b) ≠ 0 → s.flag (F.BENCHb_TRIG_DLY_ANG b) = false →
        trigDelay s b false = some (.tclk (s.tclk + (128 * s.get (F.BENCHb_TRIG_DELAY b) + 124) / 125))))) ∧
  ((∀ s (b : Fin 8), s.get (F.BENCHb_CFG_MODE b) ≠ 2 → ((regFire s b).bn b).todo = benchSlice s b ∧ ((regFire s b).bn b).passOn = true) ∧
    (∀ s (b : Fin 8), s.get (F.BENCHb_CFG_MODE b) = 2 → (s.bn b).stepNext < (benchSlice s b).length →
      ((regFire s b).bn b).todo = [(benchSlice s b).getD (s.bn b).stepNext 0] ∧ ((regFire s b).bn b).stepNext =
        if (s.bn b).stepNext + 1 < (benchSlice s b).length then (s.bn b).stepNext + 1 else 0) ∧
    (∀ s (b : Fin 8), s.get (F.BENCHb_CFG_MODE b) = 2 → (benchSlice s b).length ≤ (s.bn b).stepNext →
      ((regFire s b).bn b).todo = [(benchSlice s b).getD 0 0])) ∧
  ((∀ (since : Stamp) a, a < 2 ^ 20 → angleOf (nextAngle since a) = a) ∧
    (∀ since : Stamp, nextAngle since (angleOf since) = since + BitVec.ofNat 48 (2 ^ 20)) ∧
    (∀ s since a, angleReached s since a = (s.angRun && stampReached s.ang.stamp (nextAngle since a)))) ∧
  (∀ (s : State) (port : Port) (bench : Fin 8), exec (.benchStart port bench) s = .next (settle s (writeRow s port (R.BENCHb_CTRL bench) 1))) ∧
  (∀ (s : State) (port : Port) (bench : Fin 8), exec (.benchStop port bench) s = .next (settle s (writeRow s port (R.BENCHb_CTRL bench) 2))) ∧
  (∀ (s : State) (port : Port) (bench : Fin 8), exec (.benchTrig port bench) s = .next (settle s (writeRow s port (R.BENCHb_CTRL bench) 4))) ∧
  (∀ (s : State) (port : Port) (bench : Fin 8), exec (.benchItrig port bench) s = .next (settle s (writeRow s port (R.BENCHb_CTRL bench) 8))) ∧
  (∀ (s : State) (port : Port) (value : Word), exec (.benchLayoutWrite port value) s = .next (settle s (writeRow s port R.BENCH_LAYOUT value.toNat))) ∧
  (∀ (s : State) (port : Port) (gain : Bool) (value : Word),
    exec (.poolCalWrite port gain value) s =
      .next (settle s (writeRow s port (if gain then R.POOL_CAL_GAIN else R.POOL_CAL_OFFSET) value.toNat)))

/-- R129, R130, R37, R120, R137, R138, R122: a PWM_SYNC input that changes; an angle target of a Bench that the stamp has reached or passed
since it was armed or last matched; the end of a trigger's delay that has run out; a sample of the work on a converter; an entry that is
through; the hold-up input in HOLDUP; a worn converter's position goes to a spare; a read of a result.
The clauses at the end: the effect of each row from every state. -/
def Obligations.PoolWork : Prop :=
  ((∀ s (sel : Fin 4) level, s.pool.pwm.getLsbD sel ≠ level →
      exec (.pwmSyncEdge sel level) s = .next (settle s
        (sourceTrigger (s.modPool fun p => { p with pwm := p.pwm ^^^ (1#4 <<< sel.val) }) 3 sel
          fun e => if level then e == 1 || e == 3 else e == 2 || e == 3))) ∧
    (∀ s (b : Fin 8), benchStopped s b = false →
      (s.get (F.BENCHb_ITRIG_SRC b) = 2 → angleReached s (s.bn b).injFrom (s.get (F.BENCHb_ITRIG_TARGET b)) = true →
        exec (.benchAngleTrigger b true) s = .next (settle s (injTrigger (s.modBn b fun t => { t with injFrom := s.ang.stamp }) b))) ∧
      (s.get (F.BENCHb_TRIG_SRC b) = 2 → angleReached s (s.bn b).regFrom (s.get (F.BENCHb_TRIG_TARGET b)) = true →
        exec (.benchAngleTrigger b false) s = .next (settle s (regTrigger (s.modBn b fun t => { t with regFrom := s.ang.stamp }) b)))) ∧
    (∀ s (b : Fin 8) d, (s.bn b).injDelay = some d → d.over s = true →
      exec (.triggerDelayEnd b true) s = .next (settle s (injAct (s.modBn b fun t => { t with injDelay := none }) b))) ∧
    (∀ s (b : Fin 8) d, (s.bn b).regDelay = some d → d.over s = true →
      exec (.triggerDelayEnd b false) s = .next (settle s (regAct (s.modBn b fun t => { t with regDelay := none }) b))) ∧
    (∀ s (n : Fin 10) (raw : BitVec 24) ovl cm w, (s.pc n).work = some w → (w.kind == .cal) = false →
      exec (.poolSample n raw ovl cm) s = .next (settle s
        (let (t, w', _) := sampleWork s w n false raw.toInt ovl cm
         t.modPc n fun c => { c with work := some w' }))) ∧
    (∀ s (n : Fin 10) w b inj k, (s.pc n).work = some w → w.kind = .entry b inj k → w.through = true →
      exec (.entryComplete n) s = .next (settle s
        (poolServe ((endOn (deliverMean s w n) n).addWrap (F.PCn_CNT_DONE n))))) ∧
    (∀ s (raw : BitVec 24) n, ((below 8).filterMap (posConv s)).head? = some n → s.mode = mHoldup → s.flag F.POOL_HU_CFG_EN = true →
      exec (.holdupPoolConversion raw false false) s = .next (settle s
        (let g := s.get F.POOL_HU_CFG_GAIN
         let w := newWork s .node (s.get F.POOL_HU_CFG_AUX) 0 (if g = 3 then 0 else g) false false false 1 1
         let (t, code, beyond) := poolCode s w (poolU w n raw.toInt)
         let t := if beyond then t else t.endCond 13 n
         (t.delivers [(336, BitVec.ofNat 32 (t.reg R.POOL_HU_RES))]).setReg R.POOL_HU_RES
           (poolWord 0 false beyond false (t.flag F.CLK_STATUS_FALLBACK) t.holdover code)))) ∧
    (∀ s n rest pos k more, s.spare.convs = n :: rest → s.mode ≠ mHoldup →
      convPos (s.modSpare fun p => { p with convs := rest }) n = some pos →
      freeConvSpares (s.modSpare fun p => { p with convs := rest }) = k :: more →
      exec .converterSubstitution s = .next (settle s (mapChanged (((convSubstitute ((s.modSpare fun p => { p with convs := rest }).evtBit
        F.TWIN_EVT_SUB_START 140) pos k).endCond 17 (128 + n)).evtBit F.TWIN_EVT_SUB_DONE 141)))) ∧
    (∀ s p a, isPoolResult a = true → latchReg a = false → a ≠ R.ANG_STAMP_HI →
      exec (.poolResultRead p a) s = .next (settle s ((poolResultRead s p a).readBack p (peek s a)))) ∧
    (∀ s (b : Fin 8),
      (benchStopped s b = true ∨ s.get (F.BENCHb_ITRIG_SRC b) ≠ 2 ∨
        angleReached s (s.bn b).injFrom (s.get (F.BENCHb_ITRIG_TARGET b)) = false → exec (.benchAngleTrigger b true) s = .next (settle s s)) ∧
      (benchStopped s b = true ∨ s.get (F.BENCHb_TRIG_SRC b) ≠ 2 ∨
        angleReached s (s.bn b).regFrom (s.get (F.BENCHb_TRIG_TARGET b)) = false → exec (.benchAngleTrigger b false) s = .next (settle s s)))) ∧
  (∀ (s : State) (sel : Fin 4) (level : Bool), exec (.pwmSyncEdge sel level) s = .next (settle s (pwmSyncEdge s sel level))) ∧
  (∀ (s : State) (bench : Fin 8) (injected : Bool), exec (.benchAngleTrigger bench injected) s = .next (settle s (benchAngle s bench injected))) ∧
  (∀ (s : State) (bench : Fin 8) (injected : Bool), exec (.triggerDelayEnd bench injected) s = .next (settle s (delayEnd s bench injected))) ∧
  (∀ (s : State) (conv : Fin 10) (raw : BitVec 24) (overload cmOut : Bool),
    exec (.poolSample conv raw overload cmOut) s =
      .next (settle s (poolSample s conv raw.toInt overload cmOut))) ∧
  (∀ (s : State) (conv : Fin 10), exec (.entryComplete conv) s = .next (settle s (entryComplete s conv))) ∧
  (∀ (s : State) (port : Port) (address : Nat),
    exec (.poolResultRead port address) s =
      .next (settle s (if isPoolResult address then readRow s port address else s))) ∧
  (∀ (s : State) (raw : BitVec 24) (overload cmOut : Bool),
    exec (.holdupPoolConversion raw overload cmOut) s =
      .next (settle s (holdupConversion s raw.toInt overload cmOut))) ∧
  (∀ (s : State), exec .converterSubstitution s = .next (settle s (convSubst s)))

/-! ### The Assay and spare capacity (spec/06_assay.md, spec/12_twins_spares.md) -/

/-- R144, R145: a reading of the references inside the tolerance clears the count, and a record that is due begins; one outside adds to
it, and at MISS raises the mismatch and its triage. A record powers VREF_C; 5 ms later its conversions are asked for, VREF_B first; its
two readings are stored where nothing has been recorded. A record met by a miss count is skipped and due.
R146, R147: the reference triage asks for its readings as a record does; one that cannot use VREF_C, or that has no recorded ratios
to compare with, ends unresolved; else VREF_A is worn where both ratios moved alike, VREF_B where its own alone moved, and every other
combination is unresolved. A record that finds VREF_C alone moved marks it worn, and one that finds both moved starts the triage.
The clauses at the end: the effect of each row from every state. -/
def Obligations.References : Prop :=
  ((∀ s diff, assayMode s = true → s.flag F.ASSAY_CFG_REF_EN = true →
      let t := s.putS F.ASSAY_REF_DIFF_DIFF (clampInt (-32768) 32767 diff)
      ((diff.natAbs : Int) ≤ (t.get F.ASSAY_REF_TOL_TOL : Int) →
        exec (.referenceWatch diff) s = .next (settle s
          (let u := syncAssay ((t.modAssay fun a => { a with refMiss := 0 }).endCond 18 0)
           if u.assay.recordDue then recordStart u else u))) ∧
      ((t.get F.ASSAY_REF_TOL_TOL : Int) < diff.natAbs →
        exec (.referenceWatch diff) s = .next (settle s
          (let u := syncAssay (t.modAssay fun a => { a with refMiss := min 16 (a.refMiss + 1) })
           if u.assay.refMiss = missLimit u F.ASSAY_REF_TOL_MISS then mismatch u .reference else u)))) ∧
    (∀ s diff, assayMode s = false ∨ s.flag F.ASSAY_CFG_REF_EN = false → exec (.referenceWatch diff) s = .next (settle s s)) ∧
    (∀ s, assayMode s = true → s.spare.vrefWorn.getLsbD 2 = false → s.assay.ref = none →
      (s.assay.refMiss = 0 → exec .referenceRatioRecord s = .next (settle s
        ((s.modAssay fun a => { a with ref := some ⟨false, false, none, none⟩, recordDue := false }).put F.ASSAY_STATUS_VREF_C_ON 1))) ∧
      (0 < s.assay.refMiss → exec .referenceRatioRecord s = .next (settle s (s.modAssay fun a => { a with recordDue := true })))) ∧
    (∀ s r, s.assay.ref = some r → r.triage = false → assayMode s = true →
      (r.asked = false → exec .referenceRatioRecord s = .next (settle s
        (poolServe (s.modAssay fun a => { a with ref := some { r with asked := true }, jobs := a.jobs ++ [⟨[], .ref false, 0⟩] })))) ∧
      (∀ b c, r.asked = true → r.b = some b → r.c = some c → exec .referenceRatioRecord s = .next (settle s (recordStore s b c)))) ∧
    (∀ s b c, s.assay.refMiss = 0 → s.assay.recorded = false →
      recordStore s b c = vrefCOff (((((s.modAssay fun a => { a with ref := none }).put F.ASSAY_REF_RATIO_B0 b).put
        F.ASSAY_REF_RATIO_C0 c).modAssay fun a => { a with recorded := true })))) ∧
  ((∀ s r, s.assay.triage = some .reference → s.assay.ref = some r →
      (s.spare.vrefRole ≠ 0 ∨ s.spare.vrefWorn.getLsbD 2 = true → exec .referenceTriage s = .next (settle s
        (startTriage (referenceUnresolved (s.modAssay fun a => { a with ref := none }))))) ∧
      (s.spare.vrefRole = 0 → s.spare.vrefWorn.getLsbD 2 = false →
        (r.asked = false → exec .referenceTriage s = .next (settle s (refAsk s r))) ∧
        (∀ b c, r.asked = true → r.b = some b → r.c = some c → exec .referenceTriage s = .next (settle s
          (startTriage (referenceVerdict (s.modAssay fun a => { a with ref := none }) b c)))))) ∧
    (∀ s (b c : Nat),
      let db : Int := (b : Int) - (s.get F.ASSAY_REF_RATIO_B0 : Nat)
      let dc : Int := (c : Int) - (s.get F.ASSAY_REF_RATIO_C0 : Nat)
      let tol : Int := (s.get F.ASSAY_REF_TOL_TOL : Nat)
      let worn (part : Nat) := (referenceSubst (endTriage s .reference 1 part 15 0) part).modAssay
        fun a => { a with recordDue := true, recorded := false }
      (s.assay.recorded = false → referenceVerdict s b c = referenceUnresolved s) ∧
      (s.assay.recorded = true → ((dc - db).natAbs : Int) ≤ tol → tol < db.natAbs → referenceVerdict s b c = worn 0) ∧
      (s.assay.recorded = true → tol < (dc - db).natAbs → (dc.natAbs : Int) ≤ tol → tol < db.natAbs → referenceVerdict s b c = worn 1) ∧
      ((db.natAbs : Int) ≤ tol → referenceVerdict s b c = referenceUnresolved s)) ∧
    (∀ s b c, s.assay.refMiss = 0 → s.assay.recorded = true → s.spare.vrefRole = 0 →
      let t := s.modAssay fun a => { a with ref := none }
      refMoved t c (t.get F.ASSAY_REF_RATIO_C0) = true →
      (refMoved t b (t.get F.ASSAY_REF_RATIO_B0) = true → recordStore s b c = queueTriage (vrefCOff t) .reference) ∧
      (refMoved t b (t.get F.ASSAY_REF_RATIO_B0) = false → ∃ u : State, recordStore s b c =
        mapChanged ((u.event 97).raiseMomentary 17 0 0 2) ∧ u.spare.vrefWorn.getLsbD 2 = true))) ∧
  (∀ (s : State) (diff : Int), exec (.referenceWatch diff) s = .next (settle s (referenceWatch s diff))) ∧
  (∀ (s : State), exec .referenceRatioRecord s = .next (settle s (referenceRecord s))) ∧
  (∀ (s : State), exec .referenceTriage s = .next (settle s (referenceTriage s)))

/-- R148, R149, R156, R157: a round of the converters starts, and asks for the check of its rail; a conversion becomes due; a node
conversion, that of a rail check and that of a triage are delivered; the round ends and is judged.
R150, R153, R158: the verdicts of a converter's and of a rail's triage, once every converter of it has delivered; a rail's verdict is
worn where both converters agree and the fine path with neither, against the first converter where the second agrees with the fine path,
and none where all agree.
The clauses at the end: the effect of each row from every state. -/
def Obligations.Assay : Prop :=
  ((∀ s, assayMode s = true → s.flag F.ASSAY_CFG_CONV_EN = true → s.assay.roundOn = false →
      exec .assayRoundStart s = .next (settle s
        (let t := s.put F.ASSAY_STATUS_ROUND (s.get F.ASSAY_STATUS_ROUND % 6 + 1)
         let t := t.forEach (below 10) fun t n =>
           t.modPc n fun c => { c with need := (convPos t n).isSome || t.get (F.PCn_STATUS_ROLE n) == 1, due := false, u := none }
         let t := t.modAssay fun a => { a with roundOn := true }
         let n := t.get F.ASSAY_STATUS_NEXT_RAIL
         assayServe (roundCheck (t.put F.ASSAY_STATUS_NEXT_RAIL (n + 1)) n (assayStim s n)) false))) ∧
    (∀ s, assayMode s = false ∨ s.flag F.ASSAY_CFG_CONV_EN = false ∨ s.assay.roundOn = true →
      exec .assayRoundStart s = .next (settle s s)) ∧
    (∀ s n stim p, nextConv s s.assay.nextPos = some p →
      let t := s.modAssay fun a => { a with nextPos := (p + 1) % 8 }
      (railCheckSkipped t n stim = true → roundCheck s n stim = t) ∧
      (railCheckSkipped t n stim = false → roundCheck s n stim =
        t.modAssay fun a => { a with jobs := a.jobs ++ [⟨(posConv t p).toList, .railCheck n, 0⟩] })) ∧
    (∀ s (n : Fin 10), (s.pc n).need = true ∨ (s.assay.jobs.any fun j => (jobConvs s j).contains n.val) = true →
      exec (.assayConversionDue n) s = .next (settle s (poolServe (s.modPc n fun c => { c with due := true })))) ∧
    (∀ s (n : Fin 10) w, (s.pc n).work = some w → w.through = true →
      (w.kind = .node → exec (.assayConversionComplete n) s = .next (settle s
        (poolServe ((endOn s n).modPc n fun c => { c with need := false, due := false, u := some w.usum })))) ∧
      (∀ r, w.kind = .railCheck r → exec (.assayConversionComplete n) s = .next (settle s
        (poolServe (judgeChecks ((endOn s n).modAssay fun a =>
          { a with checks := a.checks.map fun c => if c.rail = r then { c with done := some (w.t0, w.t1, w.sum) } else c }) r (assayStim s r))))) ∧
      (w.kind = .triage → exec (.assayConversionComplete n) s = .next (settle s
        (poolServe ((endOn s n).modAssay fun a => { a with got := a.got ++ [(n.val, w.usum)] })))) ∧
      (∀ r, w.kind = .recheck r → exec (.assayConversionComplete n) s = .next (settle s
        (poolServe ((endOn s n).modAssay fun a => { a with got := a.got ++ [(n.val, w.sum)] })))) ∧
      (∀ c, w.kind = .ref c → exec (.assayConversionComplete n) s = .next (settle s
        (poolServe (refConverted (endOn s n) c w.sum))))) ∧
    (∀ s, s.assay.roundOn = true → exec .assayRoundEnd s = .next (settle s
      (let t := sparePeriod ((roundCut s).addWrap F.ASSAY_CNT_ROUNDS)
       poolServe (syncAssay (roundJudge t (t.get F.ASSAY_STATUS_ROUND)))))) ∧
    (∀ s, s.assay.roundOn = false → exec .assayRoundEnd s = .next (settle s s))) ∧
  ((∀ s n round x a b u w1 w2, s.assay.triage = some (.converter n round) → assayFrozen s = false → s.assay.group = [x, a, b] →
      gotOf s x = some u → gotOf s a = some w1 → gotOf s b = some w2 →
      (convDiffer s w1 w2 = true →
        exec .converterTriage s = .next (settle s (startTriage (syncAssay (endTriage s (.converter n round) 3 n a b))))) ∧
      (convDiffer s w1 w2 = false → convDiffer s u w1 = true → convDiffer s u w2 = true →
        exec .converterTriage s =
          .next (settle s (startTriage (syncAssay (declareConv (resetRailCounts (endTriage s (.converter n round) 1 n a b) n) n))))) ∧
      (convDiffer s w1 w2 = false → convDiffer s u w1 = false ∨ convDiffer s u w2 = false →
        exec .converterTriage s = .next (settle s (startTriage (syncAssay
          (endTriage (s.modPc n fun c => { c with miss := 0 }) (.converter n round) 2 n a b)))))) ∧
    (∀ s n c1 p1 fs cnt c2 pool, s.assay.triage = some (.rail n c1 p1 fs cnt) → assayFrozen s = false → s.assay.group = [c2] →
      gotOf s c2 = some pool →
      exec .railTriage s = .next (settle s (startTriage (syncAssay (railVerdict s n c1 c2 p1 fs cnt pool))))) ∧
    (∀ s n c1 c2 p1 fs cnt pool,
      let clear (s : State) := s.modAssay fun a => { a with railMiss := vmod a.railMiss n fun _ => 0 }
      let ended (o : Nat) := endTriage s (.rail n c1 p1 fs cnt) o (sliceOf s n) c1 c2
      (poolsDiffer s p1 pool = false → railDiffer s p1 fs cnt = true → railDiffer s pool fs cnt = true →
        railVerdict s n c1 c2 p1 fs cnt pool = declareSlice (ended 1) n none) ∧
      (poolsDiffer s p1 pool = true → railDiffer s p1 fs cnt = true → railDiffer s pool fs cnt = false →
        railVerdict s n c1 c2 p1 fs cnt pool = mismatch ((clear (ended 2)).modPc c1
          fun c => { c with miss := missLimit (clear (ended 2)) F.ASSAY_CONV_TOL_MISS }) (.converter c1 1)) ∧
      (poolsDiffer s p1 pool = false → railDiffer s pool fs cnt = false → railVerdict s n c1 c2 p1 fs cnt pool = clear (ended 2))) ∧
    (∀ s n, assayFrozen s = true →
      (∀ round, s.assay.triage = some (.converter n round) → exec .converterTriage s = .next (settle s (triageDrop s))) ∧
      (∀ c1 p1 fs cnt, s.assay.triage = some (.rail n c1 p1 fs cnt) → exec .railTriage s = .next (settle s (triageDrop s))))) ∧
  (∀ (s : State), exec .assayRoundStart s = .next (settle s (roundStart s (assayStim s)))) ∧
  (∀ (s : State) (conv : Fin 10), exec (.assayConversionComplete conv) s = .next (settle s (conversionComplete s conv (assayStim s)))) ∧
  (∀ (s : State), exec .assayRoundEnd s = .next (settle s (roundEnd s))) ∧
  (∀ (s : State), exec .converterTriage s = .next (settle s (converterTriage s))) ∧
  (∀ (s : State), exec .railTriage s = .next (settle s (railTriage s))) ∧
  (∀ (s : State) (conv : Fin 10), exec (.assayConversionDue conv) s = .next (settle s (conversionDue s conv)))

/-- R154: every SPARE_PER rounds a check of each spare slice is due; one that is due is compared with the medians of rounds 1 and 2, and
a good one clears its count. R318: a corrected error in an SRAM row is noted; the second within 24 h declares the row worn, and takes a
spare row.
The clauses at the end: the effect of each row from every state. -/
def Obligations.SpareChecks : Prop :=
  ((∀ s (k : Fin 8) raw0 raw1, s.flag F.ASSAY_CFG_SPARE_EN = false ∨ s.assay.spareDue.getLsbD k = false →
      exec (.spareSliceCheck k raw0 raw1) s = .next (settle s s)) ∧
    (∀ s (k : Fin 8) raw0 raw1 m0 m1, s.flag F.ASSAY_CFG_SPARE_EN = true → assayMode s = true → s.mode ≠ mQuiescent →
      s.get (F.SPAREk_STATUS_STATE k) = 0 → s.assay.spareDue.getLsbD k = true → s.assay.median0 = some m0 → s.assay.median1 = some m1 →
      assayFrozen s = false →
      let t := (s.modAssay fun a => { a with spareDue := a.spareDue &&& ~~~(1#8 <<< k.val) }).addWrap (F.SPAREk_CNT_CHECKS k)
      spareMisses t (64 + k) raw0 raw1 m0 m1 = false →
      exec (.spareSliceCheck k raw0 raw1) s = .next (settle s
        (let u := t.put (F.SPAREk_STATUS_CHECK_OK k) 1
         let u := u.modSpare fun p => { p with lastBad := p.lastBad &&& ~~~(1#8 <<< k.val) }
         let u := u.modAssay fun a => { a with spareMiss := vmod a.spareMiss k fun _ => 0 }
         syncSpares (sliceUpdate (sliceUpdate u (64 + k) raw0 1 (m0 * 128) 3355443200) (64 + k) raw1 1 (m1 * 128) 3355443200)))) ∧
    (∀ s, (max 1 (s.get F.ASSAY_CFG_SPARE_PER) ≤ s.assay.sparePer + 1 → (sparePeriod s).assay.spareDue = 255 ∧ (sparePeriod s).assay.sparePer = 0) ∧
      (s.assay.sparePer + 1 < max 1 (s.get F.ASSAY_CFG_SPARE_PER) →
        (sparePeriod s).assay.spareDue = s.assay.spareDue ∧ (sparePeriod s).assay.sparePer = s.assay.sparePer + 1)) ∧
    (∀ s row, (s.spare.sramErr.any fun e => e.1 == row && decide (s.tclk - e.2 ≤ day)) = false →
      exec (.sramCorrectedError row) s = .next (settle s
        (s.modSpare fun p => { p with sramErr := p.sramErr.filter (fun e => e.1 != row) ++ [(row, s.tclk)] }))) ∧
    (∀ s row, (s.spare.sramErr.any fun e => e.1 == row && decide (s.tclk - e.2 ≤ day)) = true →
      s.spare.sramWorn.contains row = false → s.get F.SPR_STATUS_SRAM_USED < 32 →
      exec (.sramCorrectedError row) s = .next (settle s (mapChanged
        (((s.modSpare fun p => { p with sramErr := p.sramErr.filter (fun e => e.1 != row) ++ [(row, s.tclk)] }).modSpare
          fun p => { p with sramWorn := p.sramWorn ++ [row] }).addSat F.SPR_STATUS_SRAM_USED))))) ∧
  (∀ (s : State) (spare : Fin 8) (raw0 raw1 : Int), exec (.spareSliceCheck spare raw0 raw1) s = .next (settle s (spareCheck s spare raw0 raw1))) ∧
  (∀ (s : State) (row : Nat), exec (.sramCorrectedError row) s = .next (settle s (sramError s row)))

/-! ### The sequencer (spec/07_quires.md) -/

/-- R166, R182, R483: the starts and the resume of Quires by QUIREq_CTRL and SEQ_CTRL, and a write of a Quire's members. A start
that is not refused ends a pending auto-start. R2: the start written reads 1 while its sequence runs, and 0 once it is complete.
R166, R163, R167: where a start leads: an up-start of a Quire that is OFF begins at step 0 with its DONE marks and the retry
counters of its members cleared, one of a STOPPED up-sequence at the step it stopped in; a down-start begins at D0. A step that is
valid becomes ready; past the last the Quire is ON, or the down-sequence ends.
The clauses at the end: the effect of each row from every state. -/
def Obligations.QuireControl : Prop :=
  ((∀ s p (q : Fin 16), writable s p (R.QUIREq_CTRL q) 1 = true →
      exec (.quireUp p q) s = .next (settle s ((startUp (endAuto (written s (R.QUIREq_CTRL q) 1) 3) q).setReg (R.QUIREq_CTRL q) 1))) ∧
    (∀ s p (q : Fin 16), writable s p (R.QUIREq_CTRL q) 2 = true →
      exec (.quireDown p q) s = .next (settle s ((startDown (endAuto (written s (R.QUIREq_CTRL q) 2) 3) q).setReg (R.QUIREq_CTRL q) 2))) ∧
    (∀ s p (q : Fin 16), writable s p (R.QUIREq_CTRL q) 4 = true →
      exec (.quireCtrlResume p q) s = .next (settle s (resume (endAuto (written s (R.QUIREq_CTRL q) 4) 3) q))) ∧
    (∀ s p (m : BitVec 16), writable s p R.SEQ_CTRL m.toNat = true →
      exec (.seqCtrlUp p m) s = .next (settle s
        ((quireList m.toNat).foldl startUp (endAuto (written s R.SEQ_CTRL m.toNat) 3)))) ∧
    (∀ s p (m : BitVec 16), writable s p R.SEQ_CTRL (65536 * m.toNat) = true →
      exec (.seqCtrlDown p m) s = .next (settle s
        ((quireList m.toNat).foldl startDown (endAuto (written s R.SEQ_CTRL (65536 * m.toNat)) 3)))) ∧
    (∀ s p (q : Fin 16) (hi : Bool) v, writable s p (if hi then R.QUIREq_MEMBERS_HI q else R.QUIREq_MEMBERS_LO q) v.toNat = true →
      exec (.quireMembersWrite p q hi v) s = .next (settle s
        (written s (if hi then R.QUIREq_MEMBERS_HI q else R.QUIREq_MEMBERS_LO q) v.toNat))) ∧
    (∀ s q,
      (s.flag ⟨R.QUIREq_CTRL q, 0, 1⟩ = true → s.flag ⟨R.QUIREq_CTRL q, 1, 1⟩ = false → qState s q = qUpRun → quireCtrlWord s q = 1) ∧
      (s.flag ⟨R.QUIREq_CTRL q, 1, 1⟩ = true → s.flag ⟨R.QUIREq_CTRL q, 0, 1⟩ = false → qState s q = qDownRun → quireCtrlWord s q = 2) ∧
      (qState s q = qOn ∨ qState s q = qOff ∨ qState s q = qStopped → quireCtrlWord s q = 0))) ∧
  ((∀ s q, qState s q = qOff →
      let t := (s.setReg (R.QUIREq_DONE q) 0).setReg (R.QUIREq_CTRL q) 0
      startUp s q = readyStep ((resetRused t (members t q)).put (F.QUIREq_STATUS_STATE q) qUpRun) q false 0) ∧
    (∀ s q, qState s q = qStopped → curDown s q = false →
      startUp s q = readyStep (((s.setReg (R.QUIREq_DONE q) 0).setReg (R.QUIREq_CTRL q) 0).put (F.QUIREq_STATUS_STATE q) qUpRun)
        q false (curStep s q)) ∧
    (∀ s q, startDown s q = readyStep ((((abandonStep s q).setReg (R.QUIREq_DONE q) 0).setReg (R.QUIREq_CTRL q) 0).put
      (F.QUIREq_STATUS_STATE q) qDownRun) q true 0) ∧
    (∀ s q i, stepValid s q false i = false →
      readyStep s q false i = seqRan (qEvent (((s.put (F.QUIREq_STATUS_STATE q) qOn).modQ q fun t => { t with phase := .idle }).endCond 19 q) q
        F.QUIREq_EVT_UP_DONE 2)) ∧
    (∀ s q i, stepValid s q true i = false → readyStep s q true i = seqRan (downFinal s q))) ∧
  (∀ (s : State) (port : Port) (quire : Fin 16), exec (.quireUp port quire) s = .next (settle s (writeRow s port (R.QUIREq_CTRL quire) 1))) ∧
  (∀ (s : State) (port : Port) (quire : Fin 16), exec (.quireDown port quire) s = .next (settle s (writeRow s port (R.QUIREq_CTRL quire) 2))) ∧
  (∀ (s : State) (port : Port) (quire : Fin 16), exec (.quireCtrlResume port quire) s = .next (settle s (writeRow s port (R.QUIREq_CTRL quire) 4))) ∧
  (∀ (s : State) (port : Port) (mask : BitVec 16), exec (.seqCtrlUp port mask) s = .next (settle s (writeRow s port R.SEQ_CTRL mask.toNat))) ∧
  (∀ (s : State) (port : Port) (mask : BitVec 16),
    exec (.seqCtrlDown port mask) s =
      .next (settle s (writeRow s port R.SEQ_CTRL (65536 * mask.toNat)))) ∧
  (∀ (s : State) (port : Port) (quire : Fin 16) (hi : Bool) (value : Word),
    exec (.quireMembersWrite port quire hi value) s =
      .next (settle s (writeRow s port (if hi then R.QUIREq_MEMBERS_HI quire else R.QUIREq_MEMBERS_LO quire) value.toNat)))

/-- R167, R168, R170, R171, R172, R181: a step that runs: its action reaches the latches, at its angle gate, open by its
angle or because the edge reaches or passes the opening angle, R38, or at the gate's timeout where it has one; its settle wait ends; it completes when its conditions hold; a timeout of an up-step fails its attempt, one of a
down-step goes on; one that finds only the barrier open puts the Quire in HELD, be the arrival told before or with it; the off-time of
a retry ends.
R172: a failed attempt of an up-step with attempts left turns the step's rails off, counts the retry and waits for its
off-time. R181: an arrival waits at its barrier and is told.
The clauses at the end: the effect of each row from every state. -/
def Obligations.QuireSteps : Prop :=
  ((∀ s (q : Fin 16) (off : BitVec 64), seqRuns s = true → (s.qu q).phase = .action →
      exec (.stepAction q off) s = .next (settle s (applyAction s q off.toNat))) ∧
    (∀ s (q : Fin 16) (off : BitVec 64), seqRuns s = true → (s.qu q).phase = .gate → s.angRun = true →
      windowOpen (stepGet s q (curDown s q) (curStep s q) 4 (F.QUIREq_STEP4_ANG_OPEN q))
        (stepGet s q (curDown s q) (curStep s q) 5 (F.QUIREq_STEP5_ANG_CLOSE q)) (angleOf s.ang.stamp) = true ∨
        angPassed s (stepGet s q (curDown s q) (curStep s q) 4 (F.QUIREq_STEP4_ANG_OPEN q)) = true →
      exec (.angleGateOpen q off) s = .next (settle s (applyAction s q off.toNat))) ∧
    (∀ s (q : Fin 16) (off : BitVec 64), seqRuns s = true → (s.qu q).phase = .gate → s.flag (F.QUIREq_CFG_GATE_TO q) = true →
      exec (.gateTimeout q off) s = .next (settle s (applyAction (qEvent s q F.QUIREq_EVT_GATE_LATE 7) q off.toNat))) ∧
    (∀ s (q : Fin 16), (s.qu q).phase = .wait → s.flag F.SEQ_STATUS_HALT_SUSP = false →
      exec (.settleEnd q) s = .next (settle s (s.modQ q fun t => { t with settled := true }))) ∧
    (∀ s (q : Fin 16), seqRuns s = true → (s.qu q).phase = .wait → openConds (latchConds s q) q % 32 = 0 →
      exec (.stepComplete q) s = .next (settle s
        (if barSelected (latchConds s q) q then arrive (latchConds s q) q else completeStep (latchConds s q) q))) ∧
    (∀ s (q : Fin 16), seqRuns s = true → (s.qu q).phase = .wait → openConds (latchConds s q) q % 32 ≠ 0 →
      exec (.stepComplete q) s = .next (settle s (latchConds s q))) ∧
    (∀ s (q : Fin 16), seqRuns s = true → (s.qu q).phase = .wait →
      stepGet s q (curDown s q) (curStep s q) 3 (F.QUIREq_STEP3_TIMEOUT q) ≠ 0 →
      ((railList (curRails s q)).any fun n => (s.fr n).outage != 0) = false → openConds (latchConds s q) q % 32 ≠ 0 →
      (curDown s q = true → exec (.stepTimeout q) s = .next (settle s (readyStep
        ((((latchConds s q).addSat (F.QUIREq_CNT_TIMEOUTS q)).raise 21 0 0 q (q + curStep s q * 16)).put (F.QUIREq_STATUS_CAUSE q) 1) q true
          (curStep s q + 1)))) ∧
      (curDown s q = false → exec (.stepTimeout q) s = .next (settle s
        (let t := (latchConds s q).addSat (F.QUIREq_CNT_TIMEOUTS q)
         failAttempt t q 1 (holdingRails t q))))) ∧
    (∀ s (q : Fin 16), seqRuns s = true → stepGet s q (curDown s q) (curStep s q) 3 (F.QUIREq_STEP3_TIMEOUT q) ≠ 0 →
      ((railList (curRails s q)).any fun n => (s.fr n).outage != 0) = false →
      ((s.qu q).phase = .wait → openConds (latchConds s q) q % 32 = 0 → barSelected (latchConds s q) q = true →
        exec (.stepTimeout q) s = .next (settle s (holdQuire (arrive (latchConds s q) q) q))) ∧
      ((s.qu q).phase = .bar none → qState s q ≠ qHeld → exec (.stepTimeout q) s = .next (settle s (holdQuire s q))) ∧
      ((s.qu q).phase = .bar none → qState s q = qHeld → exec (.stepTimeout q) s = .next (settle s s))) ∧
    (∀ s (q n : Nat), qState s q = qHeld → attemptOn s q n = false) ∧
    (∀ s (q : Fin 16) (off : BitVec 64), seqRuns s = true → (s.qu q).phase = .retryOff →
      (curFlag s q F.QUIREq_STEP2_ANG_GATE = true →
        exec (.retryOffEnd q off) s = .next (settle s (s.modQ q fun t => { t with phase := .gate }))) ∧
      (curFlag s q F.QUIREq_STEP2_ANG_GATE = false →
        exec (.retryOffEnd q off) s = .next (settle s (applyAction s q off.toNat)))) ∧
    (∀ s (q : Fin 16) t, (s.qu q).phase = .bar (some t) → s.angRun = true → stampReached s.ang.stamp t = true → seqRuns s = true →
      exec (.barrierReleaseMatch q) s = .next (settle s (completeStep s q)))) ∧
  ((∀ s q cause holding, (s.put (F.QUIREq_STATUS_CAUSE q) cause).get (F.QUIREq_STATUS_ATTEMPT q) ≠
        stepGet (s.put (F.QUIREq_STATUS_CAUSE q) cause) q false (curStep (s.put (F.QUIREq_STATUS_CAUSE q) cause) q) 2 (F.QUIREq_STEP2_RETRY q) →
      failAttempt s q cause holding =
        (let t := s.put (F.QUIREq_STATUS_CAUSE q) cause
         let t := (t.put (F.QUIREq_STATUS_ATTEMPT q) (t.get (F.QUIREq_STATUS_ATTEMPT q) + 1)).addSat (F.QUIREq_CNT_RETRIES q)
         (qEvent (applyLatch t 0 (curRails t q)) q F.QUIREq_EVT_RETRY 4).modQ q fun u => { u with phase := .retryOff, slopeHeld := 0 })) ∧
    (∀ s q, arrive s q = qEvent ((s.modQ q fun t => { t with phase := .bar none }).modSeq fun t =>
      { t with arrivals := t.arrivals ++ [stepGet s q (curDown s q) (curStep s q) 2 (F.QUIREq_STEP2_BAR_ID q)] }) q F.QUIREq_EVT_BAR_ARRIVE 5)) ∧
  (∀ (s : State) (quire : Fin 16) (off : BitVec 64), exec (.stepAction quire off) s = .next (settle s (stepAction s quire off.toNat))) ∧
  (∀ (s : State) (quire : Fin 16) (off : BitVec 64), exec (.angleGateOpen quire off) s = .next (settle s (gateOpen s quire off.toNat))) ∧
  (∀ (s : State) (quire : Fin 16) (off : BitVec 64), exec (.gateTimeout quire off) s = .next (settle s (gateTimeout s quire off.toNat))) ∧
  (∀ (s : State) (quire : Fin 16), exec (.settleEnd quire) s = .next (settle s (settleEnd s quire))) ∧
  (∀ (s : State) (quire : Fin 16), exec (.stepComplete quire) s = .next (settle s (stepComplete s quire))) ∧
  (∀ (s : State) (quire : Fin 16), exec (.stepTimeout quire) s = .next (settle s (stepTimeout s quire))) ∧
  (∀ (s : State) (quire : Fin 16) (off : BitVec 64), exec (.retryOffEnd quire off) s = .next (settle s (retryOffEnd s quire off.toNat))) ∧
  (∀ (s : State) (quire : Fin 16), exec (.barrierReleaseMatch quire) s = .next (settle s (barrierMatch s quire)))

/-- R175, R176, R190: the retry cycle of one rail: its off-time ends and the rail turns on, or stays off where a stage or a shut turns
it off on that edge, it is done when the conditions of the step that
enabled it hold, it times out; the budget refills while no fault of the rail stands.
R177, R178, R180, R467, R188: the orders the sequencer takes: a Quire is shut, every Quire is shut, the Hallmark down-order starts;
and a stage of the down-order ends: the next acts, or where none is valid every rail is off, and the order completes on the edge after. A
stage of the shutdown at Halt ends.
R177, R174, R188: a shut turns the members off on one edge in COMMISSION, does nothing to a Quire that is OFF or under the
down-order, and else runs the down-sequence from D0; at Halt the members of every Quire that is not off or under the order go off in the
stage order.
The clauses at the end: the effect of each row from every state. -/
def Obligations.QuireOrders : Prop :=
  ((∀ s (n : Fin 64) q, quireOf s n = some q → seqRuns s = true → (s.rs n).cycle = .off → qState s q = qOn →
      exec (.railRetryOffEnd n false) s = .next (settle s (latchCycle (latchOn (s.modRs n fun r =>
        { r with cycle := .waiting, cycleValids := 0, cyclePg := false, cycleWin := false }) n) n))) ∧
    (∀ s (n : Fin 64) q, quireOf s n = some q → seqRuns s = true → (s.rs n).cycle = .off →
      exec (.railRetryOffEnd n true) s = .next (settle s (s.modRs n fun r => { r with cycle := .none }))) ∧
    (∀ s (n : Fin 64), seqRuns s = true → (s.rs n).cycle = .waiting → cycleHolds (latchCycle s n) n = true →
      exec (.railRetryDone n) s = .next (settle s (armUv ((latchCycle s n).modRs n fun r => { r with cycle := .none }) n))) ∧
    (∀ s (n : Fin 64) q k i, quireOf s n = some q → (s.rs n).enabler = some (k, i) → seqRuns s = true → (s.rs n).cycle = .waiting →
      stepGet s k false i 3 (F.QUIREq_STEP3_TIMEOUT k) ≠ 0 → (s.fr n).outage = 0 → cycleHolds (latchCycle s n) n = false →
      exec (.railRetryTimeout n) s = .next (settle s (shutQuire ((latchCycle s n).raise 20 0 1 n (n + 256 * q)) q))) ∧
    (∀ s (n : Fin 64), enLatch s n = true → s.condStands 0 n = false → s.condStands 2 n = false → s.condStands 3 n = false →
      exec (.retryBudgetRefill n) s = .next (settle s (s.put (F.SEQ_RAIL_RUSED n) 0)))) ∧
  ((∀ s (q : Fin 16), s.seq.inbox.contains (.shut q) = true →
      exec (.quireShut q) s = .next (settle s (shutQuire (s.modSeq fun t => { t with inbox := t.inbox.erase (.shut q) }) q))) ∧
    (∀ s, s.seq.inbox.contains .shutAll = true →
      exec .shutAll s = .next (settle s (shutAllQuires (s.modSeq fun t => { t with inbox := t.inbox.erase .shutAll })))) ∧
    (∀ s, s.seq.inbox.contains .hallmark = true →
      exec .hallmarkDownOrderStart s = .next (settle s (hallmarkStart (s.modSeq fun t => { t with inbox := t.inbox.erase .hallmark })))) ∧
    (∀ s k, s.flag F.SEQ_STATUS_HM_RUN = true → s.seq.hmLast = false → nextStage s (s.get F.SEQ_STATUS_HM_STAGE + 1) = some k →
      exec .hallmarkStageEnd s = .next (settle s (applyLatch (s.put F.SEQ_STATUS_HM_STAGE k) 0 (hmStageRails s k)))) ∧
    (∀ s, s.flag F.SEQ_STATUS_HM_RUN = true → s.seq.hmLast = false → nextStage s (s.get F.SEQ_STATUS_HM_STAGE + 1) = none →
      exec .hallmarkStageEnd s = .next (settle s ((applyLatch s 0 (2 ^ 64 - 1)).modSeq fun t => { t with hmLast := true }))) ∧
    (∀ s, s.flag F.SEQ_STATUS_HM_RUN = true → s.seq.hmLast = true →
      exec .hallmarkStageEnd s = .next (settle s
        (((s.put F.SEQ_STATUS_HM_RUN 0).modSeq fun t => { t with hmLast := false }).forEach quires
          fun t q => endOff (t.put (F.QUIREq_STATUS_STATE q) qOff) q))) ∧
    (∀ s k, nextStage s k = if k < 16 ∧ F.HM_ORDER_CFG_VALID.extract (s.reg (R.hmStage k 2)) = 1 then some k else none) ∧
    (∀ s qs k, s.flag F.SEQ_STATUS_HM_RUN = false → s.seq.haltOff = some (qs, k) →
      exec .hallmarkStageEnd s = .next (settle s (haltStage (15 - k) s qs (k + 1)))) ∧
    (∀ s qs k fuel, hmStageValid s k = false → haltStage fuel s qs k = haltEnd s qs) ∧
    (∀ s, s.flag F.SEQ_STATUS_HM_RUN = false → s.seq.haltOff = none → exec .hallmarkStageEnd s = .next (settle s s))) ∧
  ((∀ s q, s.mode = mCommission → shutQuire s q = applyLatch s 0 (members s q)) ∧
    (∀ s q, s.mode ≠ mCommission → s.flag F.SEQ_STATUS_HALT_SUSP = false →
      qState s q = qOff ∨ qState s q = qHallmark ∨ qState s q = qShutting → shutQuire s q = s) ∧
    (∀ s q, s.mode ≠ mCommission → s.flag F.SEQ_STATUS_HALT_SUSP = true → shutQuire s q = haltShut s (2 ^ q)) ∧
    (∀ s q, s.mode ≠ mCommission → qState s q = qOn → s.flag F.SEQ_STATUS_HALT_SUSP = false →
      ((endCycles s (members s q)).qu q).phase = .idle →
      shutQuire s q = readyStep (((abandonStep (endCycles s (members s q)) q).setReg (R.QUIREq_DONE q) 0).put
        (F.QUIREq_STATUS_STATE q) qShutting) q true 0)) ∧
  (∀ (s : State) (rail : Fin 64) (off : Bool), exec (.railRetryOffEnd rail off) s = .next (settle s (railRetryOffEnd s rail off))) ∧
  (∀ (s : State) (rail : Fin 64), exec (.railRetryTimeout rail) s = .next (settle s (railRetryTimeout s rail))) ∧
  (∀ (s : State) (rail : Fin 64), exec (.railRetryDone rail) s = .next (settle s (railRetryDone s rail))) ∧
  (∀ (s : State) (rail : Fin 64), exec (.retryBudgetRefill rail) s = .next (settle s (budgetRefill s rail))) ∧
  (∀ (s : State) (quire : Fin 16), exec (.quireShut quire) s = .next (settle s (quireShutOrder s quire))) ∧
  (∀ (s : State), exec .shutAll s = .next (settle s (shutAllOrder s))) ∧
  (∀ (s : State), exec .hallmarkDownOrderStart s = .next (settle s (hallmarkOrder s))) ∧
  (∀ (s : State), exec .hallmarkStageEnd s = .next (settle s (hallmarkStageEnd s)))

/-! ### Margining and Sounding (spec/08_margin_sounding.md) -/

/-- R200, R201, R216: MARG_CTRL starts and aborts a test; a test on the margin output takes its baseline first, and goes on with its
first direction where the baseline is large enough and no prediction comes near the guard.
R202, R203: the steps of a direction: the code arrives and the dwell starts; the measurement; DEV and its judgement, then the
return; the window is inside and the next direction starts, or the test ends; the window wait times out. R195: lost compliance.
R203: the end of a test that passes: the outcome, RAIL and DONE, the fault that ends, and the reply with the baseline, the
deviations, the outcome and the reason.
R196, R198, R199: a TCLK edge moves a code toward its target by whole LSBs, without passing it: a test by its SLEW, a stimulus at
up to 80 codes per µs, a Sounding's stop and a forced return at 16; a substitution holds it. A Sounding's return owns its rail until the
code is zero: no work starts on it.
The clauses at the end: the effect of each row from every state. -/
def Obligations.MarginTests : Prop :=
  ((∀ s p dir (n : Fin 64), dir ≠ 0#2 →
      writable s p R.MARG_CTRL (F.MARG_CTRL_START.insert (F.MARG_CTRL_DIR.insert n dir.toNat) 1) = true →
      exec (.margStart p dir n) s = .next (settle s (startMargin
        (written s R.MARG_CTRL (F.MARG_CTRL_START.insert (F.MARG_CTRL_DIR.insert n dir.toNat) 1)) n dir.toNat))) ∧
    (∀ s p (n : Fin 64), writable s p R.MARG_CTRL (F.MARG_CTRL_ABORT.insert n 1) = true →
      exec (.margAbort p n) s = .next (settle s
        (abortTest (written s R.MARG_CTRL (F.MARG_CTRL_ABORT.insert n 1)) n 8 false false))) ∧
    (∀ s n dir, margSrc s n ≠ 2 →
      startMargin s n dir = syncTest ((s.modMr n fun r => { r with test := some (newTest s n false (margDirs dir)), acc := 0 }).modMarg fun m =>
        { m with svcWork := true }) n) ∧
    (∀ s (n : Fin 64) t u base, (s.mr n).test = some t → t.phase = .baseline → margAvg s n ≤ t.n →
      s.rounded t.sum (margAvg s n) = (u, base) →
      let v := u.modTest n fun t => { t with base := base }
      (base < 524288 → exec (.marginBaselineDone n) s = .next (settle s (abortTest v n 1 false false))) ∧
      (524288 ≤ base → (t.dirs.any fun d => nearGuard v n d (predicted v n { t with base := base } d)) = true →
        exec (.marginBaselineDone n) s = .next (settle s (abortTest v n 2 false false))) ∧
      (524288 ≤ base → (t.dirs.any fun d => nearGuard v n d (predicted v n { t with base := base } d)) = false →
        exec (.marginBaselineDone n) s = .next (settle s (startDirection v n))))) ∧
  ((∀ s (n : Fin 64) t, inSubst s n = false → sndOn s n = false → (s.mr n).test = some t → t.pmbus = false → t.phase = .stepping →
      exec (.marginCodeArrived n) s = .next (settle s (setPhase (setCode s n (targetCode s n)) n .dwell))) ∧
    (∀ s (n : Fin 64) t, inSubst s n = false → sndOn s n = false → (s.mr n).test = some t → t.pmbus = false → t.phase = .returning →
      exec (.marginCodeArrived n) s = .next (settle s
        (if t.ended then dropTest (setCode s n 0) n else setPhase (setCode s n 0) n .window))) ∧
    (∀ s (n : Fin 64) t, (s.mr n).test = some t → t.phase = .dwell →
      exec (.marginDwellEnd n) s = .next (settle s (setPhase s n .measuring))) ∧
    (∀ s (n : Fin 64) t u q, (s.mr n).test = some t → t.phase = .measuring → margAvg s n ≤ t.n →
      s.approx ((t.sum - margAvg s n * t.base) * 100000) (margAvg s n * t.base.toNat) = (u, q) →
      let dev := clampInt (-32768) 32767 q
      let v := u.putS (F.MARGn_STATUS_DEV n) dev
      let hi := t.dirs.headD true
      let d := if hi then dev else -dev
      let miss := decide (d < (t.minDev : Int) ∨ (t.maxDev : Int) < d)
      exec (.marginMeasureDone n) s = .next (settle s (startReturn (v.modTest n fun t =>
        { t with missed := t.missed || miss, devHi := if hi then dev else t.devHi, devLo := if hi then t.devLo else dev }) n))) ∧
    (∀ s (n : Fin 64) t, (s.mr n).test = some t → t.pmbus = false → t.phase = .window → t.ended = false → windowInside s n = true →
      let u := (setCode s n 0).modTest n fun t => { t with dirs := t.dirs.tail, stepped := false }
      (t.dirs.tail = [] → exec (.marginReturnDone n) s = .next (settle s (dropTest (endTest u n (if t.missed then 2 else 1) 0) n))) ∧
      (t.dirs.tail ≠ [] → exec (.marginReturnDone n) s = .next (settle s (startDirection u n)))) ∧
    (∀ s (n : Fin 64) t, (s.mr n).test = some t → t.pmbus = false → t.phase = .window → t.ended = false → windowInside s n = false →
      exec (.marginReturnTimeout n) s = .next (settle s (dropTest (endTest (setCode s n 0) n 2 0xC) n))) ∧
    (∀ s (n : Fin 64), mrgDrives s n = true →
      exec (.mrgComplianceLoss n) s = .next (settle s (leaveSweep
        (abortTest ((margEvent (s.put F.MARG_EVT_RAIL n) F.MARG_EVT_COMPLIANCE 3).raiseOnce 25 0 0 n n) n 5 false false) n false))) ∧
    (∀ s (n : Fin 64), mrgDrives s n = false → exec (.mrgComplianceLoss n) s = .next (settle s s))) ∧
  (∀ s n t, (s.mr n).test = some t →
      endTest s n 1 0 =
        finishC ((margEvent (((((s.put (F.MARGn_STATUS_OUTCOME n) 1).put F.MARG_EVT_RAIL n).endCond 23 n)).endCond 25 n)
            F.MARG_EVT_DONE 0).modTest n fun t => { t with ended := true }) (isMarginCmd n) stOk
          [BitVec.ofNat 32 (ofSigned 32 t.base), BitVec.ofNat 32 (ofSigned 16 t.devHi * 65536 + ofSigned 16 t.devLo),
           BitVec.ofNat 32 65536]) ∧
  ((∀ s n, margCode s n = targetCode s n ∨ inSubst s n = true → tickMargin s n = s) ∧
    (∀ s n, n < 64 → inSubst s n = false → margCode s n ≠ targetCode s n →
      let k : Int := (((s.mr n).acc + slewRate s n) / 1024 : Nat)
      (margCode s n < targetCode s n → ∃ u : State, tickMargin s n = setCode u n (min (targetCode s n) (margCode s n + k)) ∧
        (u.mr n).acc = ((s.mr n).acc + slewRate s n) % 1024) ∧
      (targetCode s n < margCode s n → ∃ u : State, tickMargin s n = setCode u n (max (targetCode s n) (margCode s n - k)) ∧
        (u.mr n).acc = ((s.mr n).acc + slewRate s n) % 1024)) ∧
    (∀ s n, (s.mr n).test = none → slewRate s n = if sndDrives s n then 8000 else 1600) ∧
    (∀ s n t, (s.mr n).test = some t →
      (t.forced = true → slewRate s n = 1600) ∧
      (t.forced = false → slewRate s n = [10, 100, 400, 1600].getD (s.get (F.MARGn_CFG_SLEW n)) 1600)) ∧
    (∀ s n, (s.mr n).test = none → sndOn s n = false → margCode s n ≠ 0 →
      targetCode s n = 0 ∧ workOwns s n = true ∧ (railRefusal s n).isSome = true)) ∧
  (∀ (s : State) (port : Port) (dir : BitVec 2) (rail : Fin 64),
    exec (.margStart port dir rail) s =
      .next (settle s (writeRow s port R.MARG_CTRL (F.MARG_CTRL_START.insert (F.MARG_CTRL_DIR.insert rail dir.toNat) 1)))) ∧
  (∀ (s : State) (port : Port) (rail : Fin 64),
    exec (.margAbort port rail) s =
      .next (settle s (writeRow s port R.MARG_CTRL (F.MARG_CTRL_ABORT.insert rail 1)))) ∧
  (∀ (s : State) (rail : Fin 64), exec (.marginBaselineDone rail) s = .next (settle s (baselineDone s rail))) ∧
  (∀ (s : State) (rail : Fin 64), exec (.marginCodeArrived rail) s = .next (settle s (codeArrived s rail))) ∧
  (∀ (s : State) (rail : Fin 64), exec (.marginDwellEnd rail) s = .next (settle s (dwellEnd s rail))) ∧
  (∀ (s : State) (rail : Fin 64), exec (.marginMeasureDone rail) s = .next (settle s (measureDone s rail))) ∧
  (∀ (s : State) (rail : Fin 64), exec (.marginReturnDone rail) s = .next (settle s (returnDone s rail))) ∧
  (∀ (s : State) (rail : Fin 64), exec (.marginReturnTimeout rail) s = .next (settle s (returnTimeout s rail))) ∧
  (∀ (s : State) (rail : Fin 64), exec (.mrgComplianceLoss rail) s = .next (settle s (complianceLoss s rail)))

/-- R206, R215, R216, R218: the commands of a sweep: SND_CTRL starts and stops it; its target, for which none starts on fallback, R47; its end; a
pause of a second on fallback; the archive's records.
R209 to R213: the parts of a sweep: the plus and the minus step, the settle of a point, the judgement of a fit, a period of the
sequence, and a tap sample of the baseline.
The clauses at the end: the effect of each row from every state. -/
def Obligations.Soundings : Prop :=
  ((∀ s p, writable s p R.SND_CTRL 1 = true →
      exec (.sndStart p) s = .next (settle s ((startSounding (written s R.SND_CTRL 1)).setReg R.SND_CTRL 1))) ∧
    (∀ s p, writable s p R.SND_CTRL 2 = true →
      exec (.sndStop p) s = .next (settle s (abortSounding (written s R.SND_CTRL 2)))) ∧
    (∀ s w, s.marg.snd = some w → w.part = .target → w.pausedFb = false → w.pausedHalt = false →
      s.flag F.CLK_STATUS_FALLBACK = false → s.angRun = true →
      stampReached s.ang.stamp (stampOf (s.reg R.SND_AT_HI) (s.reg R.SND_AT_LO)) = true →
      exec .soundingTargetMatch s = .next (settle s (beginSweep s))) ∧
    (∀ s, s.flag F.CLK_STATUS_FALLBACK = true → exec .soundingTargetMatch s = .next (settle s s)) ∧
    (∀ s w, s.marg.snd = some w → w.part = .complete →
      let u := s.live.foldl (fun s r => summarise s r w.wasPaused) s
      (u.flag F.SND_CFG_ARCHIVE = false → exec .soundingComplete s = .next (settle s (endSounding u))) ∧
      (u.flag F.SND_CFG_ARCHIVE = true → u.live ≠ [] → exec .soundingComplete s = .next (settle s (endSounding
        ((u.modMarg fun m => { m with arcQueue := m.arcQueue ++ u.live.map fun r => archiveRecords u r w }).put
          F.SND_STATUS_ARC_BUSY 1))))) ∧
    (∀ s w, s.marg.snd = some w → w.pausedFb = true →
      exec .soundingPauseTimeout s = .next (settle s (abortSounding s))) ∧
    (∀ s n t f m rest, s.marg.arcQueue = (n, t, f) :: m :: rest → archiveDead s n ((vget s.marg.archive n).seq % 10) true = false →
      archiveDead s n (compactTrend (vget s.marg.archive n).trend).length false = false →
      ∃ u : State, exec .archiveWriteDone s = .next (settle s (syncNvm (syncArchive (u.put (sumFlag n 10) 1) n))) ∧
        u.marg.arcQueue = m :: rest ∧
        (n < 64 → (vget u.marg.archive n).trend = compactTrend (vget s.marg.archive n).trend ++ [t] ∧
          (vget u.marg.archive n).full = (f :: (vget s.marg.archive n).full).take 10)) ∧
    (∀ s, s.marg.arcQueue = [] → exec .archiveWriteDone s = .next (settle s (syncNvm s))) ∧
    (∀ s n capped, sndOn s n = true →
      let u := leaveRail s n capped
      (u.live.isEmpty = true → leaveSweep s n capped = endSounding u) ∧
      (u.live.isEmpty = false → leaveSweep s n capped = sndTurn u))) ∧
  ((∀ s w, s.marg.snd = some w → w.pausedFb = false → w.pausedHalt = false → w.part = .plus →
      exec .soundingDcStep s = .next (settle s (syncSnd (dcCodes ((s.modLive fun r =>
        if r.dcDone then r else { r with plus := tapMean r }).modSnd fun w => { w with part := .minus }) (-1))))) ∧
    (∀ s w k, s.marg.snd = some w → w.pausedFb = false → w.pausedHalt = false → w.part = .settle k →
      exec .soundingSettleEnd s = .next (settle s (syncSnd ((s.modLive fun r =>
        if r.done then { r with ran := true } else { r.fresh with ran := false, holdN := s.holdover }).modSnd
          fun w => { w with part := .integ k })))) ∧
    (∀ s w r k (n : Fin 64) f, s.marg.snd = some w → s.sndRails.find? (·.rail == n.val) = some r → w.part = .integ k →
      r.left = false → r.ran = false → w.pausedFb = false → w.pausedHalt = false → r.fit.solve (tapMag (pointInc s k)) = some f →
      (r.halv < 3 → (sdev s n * r.base.1.natAbs * 65536) ^ 2 < (f.a * f.a + f.b * f.b).natAbs * (10000 * r.base.2) ^ 2 →
        exec (.soundingPointEnd n) s = .next (settle s (pointTurn (s.modSr n fun r =>
          { r with amp := max 1 (r.amp / 2), halv := r.halv + 1, ran := true, reduced := true }) k))) ∧
      ((f.a * f.a + f.b * f.b).natAbs * (10000 * r.base.2) ^ 2 ≤ (sdev s n * r.base.1.natAbs * 65536) ^ 2 →
        exec (.soundingPointEnd n) s = .next (settle s (pointTurn (s.modSr n fun u =>
          { u with ran := true, done := true, capped := u.capped || false
                   pts := u.pts ++ [⟨k, pointInc s k, f.a, f.b, f.sigma, r.amp, r.halv, true, false, nearCarrier s (pointInc s k), r.holdN,
                     decide (4 * r.accN < r.totN)⟩] }) k)))) ∧
    (∀ s w r (n : Fin 64), s.marg.snd = some w → s.sndRails.find? (·.rail == n.val) = some r → w.part = .mls → r.left = false →
      r.done = false → w.pausedFb = false → w.pausedHalt = false →
      (r.period ≠ 0 → r.period < mlsReps s →
        let hs := r.mlsH ++ [(below (nPts s)).map fun k => mlsAt s r (impulse (mlsOrder s) r.mlsX) (pointInc s k)]
        exec (.mlsPeriodEnd n) s = .next (settle s (s.modSr n fun r => { r with period := r.period + 1, mlsX := [], mlsH := hs }))) ∧
      (r.period = 0 → r.devSeen = true → r.halv < 3 → exec (.mlsPeriodEnd n) s = .next (settle s (mlsAll (s.modSr n fun r =>
        { r.fresh with amp := max 1 (r.amp / 2), halv := r.halv + 1, devSeen := false, reduced := true }))))) ∧
    (∀ s w r (n : Fin 64) raw clip u code beyond, s.marg.snd = some w → s.sndRails.find? (·.rail == n.val) = some r → w.part = .base →
      r.left = false → w.pausedFb = false → w.pausedHalt = false → calibrate s n raw.toInt = (u, code, beyond) →
      exec (.soundingTapSample n raw clip) s = .next (settle s (u.modSr n fun t => { t with
        marks := t.marks - 1
        taps := ((if decide (r.marks = 0) && !clip && !beyond && !u.flag (F.RAILn_GUARD_STATUS_CM_ERR n) && margCode u n == 0
          then some code else none) :: t.taps).take 800 }))) ∧
    (∀ s w k, s.marg.snd = some w → w.pausedFb = false → w.pausedHalt = false → w.part = .integ k →
      (w.div < 7 → tickSounding s = s.modSnd fun w => { w with div := w.div + 1 }) ∧
      (7 ≤ w.div → tickSounding s = stimAll (s.modSnd fun w => { w with div := 0, phase := (w.phase + pointInc s k) % 2 ^ 32 })))) ∧
  (∀ (s : State) (port : Port), exec (.sndStart port) s = .next (settle s (writeRow s port R.SND_CTRL 1))) ∧
  (∀ (s : State) (port : Port), exec (.sndStop port) s = .next (settle s (writeRow s port R.SND_CTRL 2))) ∧
  (∀ (s : State), exec .soundingTargetMatch s = .next (settle s (soundingMatch s))) ∧
  (∀ (s : State), exec .soundingDcStep s = .next (settle s (dcStep s))) ∧
  (∀ (s : State) (rail : Fin 64) (raw : BitVec 24) (clip : Bool),
    exec (.soundingTapSample rail raw clip) s =
      .next (settle s (tapSample s rail raw.toInt clip))) ∧
  (∀ (s : State), exec .soundingSettleEnd s = .next (settle s (settleDone s))) ∧
  (∀ (s : State) (rail : Fin 64), exec (.soundingPointEnd rail) s = .next (settle s (pointEnd s rail))) ∧
  (∀ (s : State) (rail : Fin 64), exec (.mlsPeriodEnd rail) s = .next (settle s (mlsPeriod s rail))) ∧
  (∀ (s : State), exec .soundingComplete s = .next (settle s (soundingComplete s))) ∧
  (∀ (s : State), exec .soundingPauseTimeout s = .next (settle s (pauseTimeout s))) ∧
  (∀ (s : State), exec .archiveWriteDone s = .next (settle s (syncNvm (archiveDone s))))

/-! ### The regulator ports (spec/09_regulator_ports.md) -/

/-- R222, R227, R230, R233, R237: the end of a transaction that no margin test asked for: a host transfer that is read or written, a
poll, a failure that is repeated, a failure that is final; a retry. A PEC is judged only on a read of an entry that carries it.
R226: the SCL periods of a transaction with PEC by its kind; one without takes 9 fewer, but for the alert read; an access to an entry
with PAGE_EN = 1 is preceded by a PAGE write, and both are one transaction. R227: a free port takes the first that waits, highest class
first, and puts it on the bus. -/
def Obligations.RegulatorTransactions : Prop :=
  ((∀ s (p : Fin 4) r result (data : BitVec 16) alertLow, (s.pp p).run = some r → r.kind ≠ 5 → (s.pp p).retryWait = false →
      (s.pp p).blocked = false → busResult (s.pp p) r result = .ok → ((s.putB (F.PMp_STATUS_ALERT_LOW p) alertLow).pp p).noAck < 8 →
      let u := ((((s.putB (F.PMp_STATUS_ALERT_LOW p) alertLow).modPp p fun t => { t with run := none, bus := none }).addWrap
        (F.PMp_CNT_DONE p)).put (F.PMp_STATUS_STUCK p) 0).endCond 31 p
      (r.cls = 3 → exec (.smbusTransactionDone p result data alertLow) s =
        .next (settle s (lostPartners (pmServe (hostDone u p r 1 data.toNat) p)))) ∧
      (r.cls = 4 → exec (.smbusTransactionDone p result data alertLow) s =
        .next (settle s (lostPartners (pmServe (pollDone u p r.entry r.code true data.toNat) p))))) ∧
    (∀ s (p : Fin 4) r alertLow, (s.pp p).run = some r → r.kind ≠ 5 → r.once = false → (s.pp p).retryWait = false →
      (s.pp p).blocked = false → ((s.putB (F.PMp_STATUS_ALERT_LOW p) alertLow).pp p).noAck < 8 →
      (s.pp p).tries < (s.putB (F.PMp_STATUS_ALERT_LOW p) alertLow).get (F.PMp_CFG_RETRY p) →
      exec (.smbusTimeout p alertLow) s = .next (settle s (lostPartners (syncPort
        ((s.putB (F.PMp_STATUS_ALERT_LOW p) alertLow).modPp p fun t => { t with tries := t.tries + 1, retryWait := true }) p)))) ∧
    (∀ s (p : Fin 4) r alertLow, (s.pp p).run = some r → r.cls = 3 → r.kind ≠ 5 → (s.pp p).retryWait = false →
      (s.pp p).blocked = false → ((s.putB (F.PMp_STATUS_ALERT_LOW p) alertLow).pp p).noAck < 8 →
      (s.putB (F.PMp_STATUS_ALERT_LOW p) alertLow).get (F.PMp_CFG_RETRY p) ≤ (s.pp p).tries →
      let u := pmEvent (((s.putB (F.PMp_STATUS_ALERT_LOW p) alertLow).modPp p fun t => { t with run := none, bus := none }).addSat
        (F.PMp_CNT_FAILS p)) p F.PMp_EVT_BUS_ERR 3
      exec (.smbusTimeout p alertLow) s = .next (settle s (lostPartners (pmServe (hostDone u p r 4 0) p)))) ∧
    (∀ s (p : Fin 4), (s.pp p).run = none →
      (∀ result data alertLow, exec (.smbusTransactionDone p result data alertLow) s = .next (settle s (lostPartners s))) ∧
      (∀ alertLow, exec (.smbusTimeout p alertLow) s = .next (settle s (lostPartners s)))) ∧
    (∀ t r result, busResult t r result = .pec ↔ result = .pec ∧ 3 ≤ r.kind ∧ ∃ b, t.bus = some b ∧ b.pec = true) ∧
    (∀ s (p : Fin 4),
      exec (.smbusRetry p) s = .next (settle s (syncPort (s.modPp p fun t => { t with retryWait := false }) p)))) ∧
  (([0, 1, 2, 3, 4, 5].map sclPeriods = [30, 39, 48, 49, 58, 30]) ∧
    (∀ s r, r.kind = 5 → busAccess s r = ⟨0x0C, none, true, 30⟩) ∧
    (∀ s r, r.kind ≠ 5 →
      (busAccess s r).addr = s.get (F.PMPk_CFG_ADDR r.entry) ∧
      ((busAccess s r).pec = true ↔ s.flag (F.PMPk_CFG_PEC r.entry) = true) ∧
      (s.flag (F.PMPk_CFG_PAGE_EN r.entry) = true → (busAccess s r).page = some (s.get (F.PMPk_CFG_PAGE r.entry)) ∧
        (busAccess s r).periods = if s.flag (F.PMPk_CFG_PEC r.entry) then sclPeriods r.kind + 39 else sclPeriods r.kind - 9 + 30) ∧
      (s.flag (F.PMPk_CFG_PAGE_EN r.entry) = false → (busAccess s r).page = none ∧
        (busAccess s r).periods = if s.flag (F.PMPk_CFG_PEC r.entry) then sclPeriods r.kind else sclPeriods r.kind - 9)) ∧
    (∀ s p r rest, p < 4 →
      let u := pollTurn (alertLevel s p) p
      pmWaiting u p = r :: rest → (u.pp p).run = none → (u.pp p).blocked = false → u.flag (F.PMp_CFG_EN p) = true →
      u.get F.TWIN_STATUS_ROLE < 2 → (u.mode ≠ mHoldup ∨ r.cls = 0) →
      ((pmServe s p).pp p).run = some r ∧ ((pmServe s p).pp p).bus = some (busAccess u r)))

/-- R228, R229, R230, R234, R235: a round starts, or is late; a low alert line asks for what ALERT_MODE says; an alert line that is high
again; a bus found stuck is freed, or blocks the port; a lost entry is asked for again.
R231, R235: what a successful STATUS_WORD read of an entry does: the word is kept, a word with a bit of the fault mask raises source
29 with the lowest such bit where FAULT was 0, one without ends it, and the failures in a row are forgotten.
R223, R237, R239: the writes of an entry's PMPk_CFG and of PM_XFER_CTRL with START; a transfer whose conditions do not hold is
refused; the result of one whose entry is no longer valid is discarded.
The clauses at the end: the effect of each row from every state. -/
def Obligations.RegulatorPorts : Prop :=
  ((∀ s (p : Fin 4), s.flag (F.PMp_CFG_EN p) = true → pollPer s p ≠ 0 → pmSuspended s = false →
      (s.flag (F.PMp_STATUS_STUCK p) = false → (s.pp p).roundOn = false → exec (.pollRoundStart p) s = .next (settle s
        (pmServe (s.modPp p fun t =>
          { t with roundOn := true, due := false, round := roundEntries s p, started := s.tclk }) p))) ∧
      (s.flag (F.PMp_STATUS_STUCK p) = false → (s.pp p).roundOn = true → exec (.pollRoundStart p) s = .next (settle s
        ((pmEvent (s.addSat (F.PMp_STATUS_LATE_CNT p)) p F.PMp_EVT_LATE 4).modPp p fun t => { t with due := true }))) ∧
      (s.flag (F.PMp_STATUS_STUCK p) = true → exec (.pollRoundStart p) s = .next (settle s
        (pmEvent (s.addSat (F.PMp_STATUS_LATE_CNT p)) p F.PMp_EVT_LATE 4)))) ∧
    (∀ s (p : Fin 4), (s.flag (F.PMp_CFG_EN p) = false ∨ pollPer s p = 0 ∨ pmSuspended s = true) →
      exec (.pollRoundStart p) s = .next (settle s s)) ∧
    (∀ s (p : Fin 4),
      exec (.smbalertAssert p) s = .next (settle s
        (pmServe ((s.put (F.PMp_STATUS_ALERT_LOW p) 1).modPp p fun t => { t with extraRan := false }) p))) ∧
    (∀ s (p : Fin 4),
      (s.get (F.PMp_CFG_ALERT_MODE p) = 1 → s.flag (F.PMp_STATUS_ALERT_LOW p) = true → alertsServed s p = true →
        alertLevel s p = s.modPp p fun t => { t with alertPend := t.alertPend || t.alertReads.isEmpty, extraRan := false }) ∧
      (s.get (F.PMp_CFG_ALERT_MODE p) = 0 →
        alertLevel s p = s.modPp p fun t => { t with alertPend := false, alertReads := [], extraRan := false }) ∧
      (s.get (F.PMp_CFG_ALERT_MODE p) = 2 → s.flag (F.PMp_STATUS_ALERT_LOW p) = true → alertsServed s p = true →
        (s.pp p).extraRan = false → ((alertLevel s p).pp p).extra = roundEntries s p)) ∧
    (∀ s (p : Fin 4),
      exec (.smbalertStuckClear p) s = .next (settle s ((((s.put (F.PMp_STATUS_ALERT_LOW p) 0).put
        (F.PMp_STATUS_ALERT_STUCK p) 0).modPp p fun t => { t with noAck := 0, services := 0 }).endCond 32 p))) ∧
    (∀ s (p : Fin 4) r, (s.pp p).run = some r →
      exec (.busRecovery p true) s = .next (settle s (lostPartners (pmServe (s.modPp p fun t => { t with blocked := false }) p)))) ∧
    (∀ s (p : Fin 4) r, (s.pp p).run = some r → (s.pp p).host = none → (s.pp p).margin = [] →
      exec (.busRecovery p false) s = .next (settle s (lostPartners (syncPort (((s.modPp p fun t =>
        { t with blocked := true, run := none, bus := none, retryWait := false, margin := [] }).put (F.PMp_STATUS_STUCK p) 1).raiseOnce
          31 0 1 p p) p)))) ∧
    (∀ s (p : Fin 4) freed, (s.pp p).run = none → (s.pp p).blocked = false →
      exec (.busRecovery p freed) s = .next (settle s (lostPartners s))) ∧
    (∀ s (k : Fin 128), entryValid s k = true → entryLost s k = true → pmSuspended s = false → pollPer s (portOf k) ≠ 0 →
      entrySkipped s s.tclk k = false → (s.pp (portOf k)).lostQ.contains k.val = false →
      exec (.lostEntryPoll k) s =
        .next (settle s (pmServe (s.modPp (portOf k) fun t => { t with lostQ := t.lostQ ++ [k.val] }) (portOf k)))) ∧
    (∀ s (k : Fin 128), entryValid s k = false ∨ entryLost s k = false ∨ pmSuspended s = true ∨ pollPer s (portOf k) = 0 →
      exec (.lostEntryPoll k) s = .next (settle s s))) ∧
  ((∀ s k w, ((below 16).any fun b => bitOf w b && !bitOf (s.get (F.PMPk_STATUS_STATUS_WORD k)) b &&
        bitOf ((s.put (F.PMPk_STATUS_STATUS_WORD k) w).get (F.PMPk_MASK_EVT_MASK k)) b) = false →
      Nat.land w (s.get (F.PMPk_MASK_FAULT_MASK k)) ≠ 0 → (s.put (F.PMPk_STATUS_STATUS_WORD k) w).flag (F.PMPk_STATUS_FAULT k) = false →
      let u := ((((s.put (F.PMPk_STATUS_STATUS_WORD k) w).put (F.PMPk_STATUS_FAULT k) 1).raise 29 0 1 k
        (k + 256 * lowestBit (Nat.land w (s.get (F.PMPk_MASK_FAULT_MASK k)))))).put (F.PMPk_STATUS_FAILS k) 0
      entryLost u k = false → absorbStatus s k w = u) ∧
    (∀ s k w, ((below 16).any fun b => bitOf w b && !bitOf (s.get (F.PMPk_STATUS_STATUS_WORD k)) b &&
        bitOf ((s.put (F.PMPk_STATUS_STATUS_WORD k) w).get (F.PMPk_MASK_EVT_MASK k)) b) = false →
      Nat.land w (s.get (F.PMPk_MASK_FAULT_MASK k)) = 0 →
      let v := s.put (F.PMPk_STATUS_STATUS_WORD k) w
      (v.flag (F.PMPk_STATUS_FAULT k) = true →
        let u := (((v.put (F.PMPk_STATUS_FAULT k) 0).endCond 29 k).modPp (portOf k)
          fun t => { t with faultEnd := some (k, v.tclk) }).put (F.PMPk_STATUS_FAILS k) 0
        entryLost u k = false → absorbStatus s k w = u) ∧
      (v.flag (F.PMPk_STATUS_FAULT k) = false →
        let u := (v.endCond 29 k).put (F.PMPk_STATUS_FAILS k) 0
        entryLost u k = true →
        absorbStatus s k w =
          needVoutMode ((pmEvent (u.put (F.PMPk_STATUS_LOST k) 0) (portOf k) F.PMp_EVT_RESTORED 2).endCond 30 k) k))) ∧
  ((∀ s p (k : Fin 128) (v : Word), writable s p (R.PMPk_CFG k) v.toNat = true →
      exec (.partnerCfgWrite p k v) s = .next (settle s (partnerCfgWritten (written s (R.PMPk_CFG k) v.toNat) k (s.reg (R.PMPk_CFG k))))) ∧
    (∀ s p (v : Word), writable s p R.PM_XFER_CTRL (F.PM_XFER_CTRL_START.insert v.toNat 1) = true →
      exec (.pmXferStart p v) s = .next (settle s (xferStart (written s R.PM_XFER_CTRL (F.PM_XFER_CTRL_START.insert v.toNat 1))))) ∧
    (∀ s, s.flag F.PM_XFER_STATUS_BUSY = true ∨ pmSuspended s = true ∨
        xferPair (s.get F.PM_XFER_CTRL_CODE) (s.get F.PM_XFER_CTRL_KIND) = false →
      xferStart s = s.put F.PM_XFER_STATUS_OUTCOME 5) ∧
    (∀ s p r outcome data, entryValid s r.entry = false →
      hostDone s p r outcome data = s.modPp p fun t => { t with host := none })) ∧
  (∀ (s : State) (pm : Fin 4), exec (.pollRoundStart pm) s = .next (settle s (pollRoundStart s pm))) ∧
  (∀ (s : State) (pm : Fin 4) (freed : Bool), exec (.busRecovery pm freed) s = .next (settle s (recoverBus s pm freed))) ∧
  (∀ (s : State) (entry : Fin 128), exec (.lostEntryPoll entry) s = .next (settle s (lostEntryPoll s entry))) ∧
  (∀ (s : State) (port : Port) (value : Word),
    exec (.pmXferStart port value) s =
      .next (settle s (writeRow s port R.PM_XFER_CTRL (F.PM_XFER_CTRL_START.insert value.toNat 1)))) ∧
  (∀ (s : State) (port : Port) (entry : Fin 128) (value : Word),
    exec (.partnerCfgWrite port entry value) s =
      .next (settle s (writeRow s port (R.PMPk_CFG entry) value.toNat)))

/-! ### The Tally (spec/10_tally.md) -/

/-- R245, R246: a write of Tn_CMP, Tn_INTV or Tn_CFG takes effect three edges on: the edges up to it pass, and on it every counter steps
after the write. R249: a CMP at or behind the count sets CMP_PAST and event 26; one ahead of it does not.
R247, R243: a counter adds its step and matches when it steps onto or past CMP, that is, when (CMP − c) mod 2^32 lies from 1 to the
step; the step is 1, the advance of the angle, the reference edge, the edge of its input, or its neighbour's wrap, by its source. R248: a
match sets MATCH and event 32 + n, copies CMP to Tn_MATCHED, counts, and with AUTO adds Tn_INTV to CMP. R255: a wrap is counted on the
edge after it.
The clauses at the end: the effect of each row from every state. -/
def Obligations.TallyCounters : Prop :=
  ((∀ s p (n : Fin 32) (v : Word), writable s p (R.Tn_CMP n) v.toNat = true →
      exec (.tallyRegWrite p n 0 v) s = .next (settle s (tallyWrite (written s (R.Tn_CMP n) v.toNat) n 0 v.toNat))) ∧
    (∀ s p (n : Fin 32) (v : Word), writable s p (R.Tn_INTV n) v.toNat = true →
      exec (.tallyRegWrite p n 1 v) s = .next (settle s (tallyWrite (written s (R.Tn_INTV n) v.toNat) n 1 v.toNat))) ∧
    (∀ s p (n : Fin 32) (v : Word), writable s p (R.Tn_CFG n) v.toNat = true →
      exec (.tallyRegWrite p n 2 v) s = .next (settle s (tallyWrite (written s (R.Tn_CFG n) v.toNat) n 2 v.toNat))) ∧
    (∀ s n which v, tallyWrite s n which v = s.modTally fun t => { t with writes := t.writes ++ [⟨n, which, BitVec.ofNat 32 v, 3⟩] }) ∧
    (∀ s w rest, s.tally.writes = w :: rest → w.left ≤ 1 → exec .tallyWriteEffect s = .next (settle s (tclkEdge s))) ∧
    (∀ s w rest, s.tally.writes = w :: rest → 1 < w.left →
      exec .tallyWriteEffect s = .next (settle s (tallyEffectEdge 3 (tclkEdge s)))) ∧
    (∀ s, s.tally.writes = [] → exec .tallyWriteEffect s = .next (settle s s)) ∧
    (∀ s, tallyTick s =
      let t := s.tally
      let u := tallyWritesDue (s.modTally fun t => { t with carry := 0, adv := 0, cap := none, refEdge := false })
      let u := u.forEach (below 32) fun s n => tallyStep s n (tickStep s t n)
      let u := match t.cap with | some (c, l) => capCaptures u c l | none => u
      u.forEach (below 4) fun s k =>
        match vget s.tally.width k with
        | 0 => s
        | 1 => outPulseEnd s k
        | w + 1 => s.modTally fun t => { t with width := vmod t.width k (fun _ => w) }) ∧
    (∀ s n (v : Word), tallyApply s ⟨n, 0, v, 1⟩ =
      if (v.toNat + 2 ^ 32 - tCount s n) % 2 ^ 32 = 0 ∨ 2 ^ 31 < (v.toNat + 2 ^ 32 - tCount s n) % 2 ^ 32 then
        ((s.setReg (R.Tn_CMP n) v.toNat).put (F.Tn_STATUS_CMP_PAST n) 1).event 26
      else s.setReg (R.Tn_CMP n) v.toNat)) ∧
  ((∀ s (n : Fin 32), (tclkEdge s).get (F.Tn_STATUS_MCOUNT n) ≠ s.get (F.Tn_STATUS_MCOUNT n) →
      exec (.tallyMatch n) s = .next (settle s (tclkEdge s))) ∧
    (∀ s (n : Fin 32), (tclkEdge s).get (F.Tn_STATUS_MCOUNT n) = s.get (F.Tn_STATUS_MCOUNT n) →
      exec (.tallyMatch n) s = .next (settle s s)) ∧
    (∀ s t n,
      (tSource s n = 0 → tickStep s t n = 1) ∧ (tSource s n = 1 → tickStep s t n = t.adv) ∧
      (tSource s n = 2 → tickStep s t n = if t.refEdge then 1 else 0) ∧
      (tSource s n = 3 → ∀ c l, t.cap = some (c, l) → tickStep s t n = if capCounts s n c l then 1 else 0) ∧
      (tSource s n = 3 → t.cap = none → tickStep s t n = 0) ∧
      (tSource s n = 4 → tickStep s t n = if t.carry.getLsbD (n - 1) then 1 else 0)) ∧
    (∀ s n step, tCount s n + step < 2 ^ 32 → step < 2 ^ 32 →
      ((tCmp s n + 2 ^ 32 - tCount s n) % 2 ^ 32 = 0 ∨ step < (tCmp s n + 2 ^ 32 - tCount s n) % 2 ^ 32 →
        tallyStep s n step = s.setReg (R.Tn_COUNT n) (tCount s n + step)) ∧
      (1 ≤ (tCmp s n + 2 ^ 32 - tCount s n) % 2 ^ 32 ∧ (tCmp s n + 2 ^ 32 - tCount s n) % 2 ^ 32 ≤ step →
        tallyStep s n step = tallyMatch (s.setReg (R.Tn_COUNT n) (tCount s n + step)) n (tCmp s n))) ∧
    (∀ s n cmp, ∃ t,
      t = (((s.put (F.Tn_STATUS_MATCH n) 1).event (32 + n)).setReg (R.Tn_MATCHED n) cmp).addWrap (F.Tn_STATUS_MCOUNT n) ∧
      (t.flag (F.Tn_CFG_AUTO n) = false →
        let u := sourceTrigger t 1 n (fun _ => true)
        tallyMatch s n cmp = outMatch (if u.flag F.FOLIO_CFG_TALLY_EN && u.get F.FOLIO_CFG_TALLY_SEL == n then folioTrigger u 3 else u) n) ∧
      (t.flag (F.Tn_CFG_AUTO n) = true →
        let u := sourceTrigger (t.setReg (R.Tn_CMP n) ((cmp + t.reg (R.Tn_INTV n)) % 2 ^ 32)) 1 n (fun _ => true)
        tallyMatch s n cmp = outMatch (if u.flag F.FOLIO_CFG_TALLY_EN && u.get F.FOLIO_CFG_TALLY_SEL == n then folioTrigger u 3 else u) n)) ∧
    (∀ s (n : Fin 32), s.tally.carry.getLsbD n = true → tSource s (n + 1) = 4 → n.val < 31 →
      exec (.tallyWrap n) s = .next (settle s (tclkEdge s))) ∧
    (∀ s (n : Fin 32), s.tally.carry.getLsbD n = false ∨ tSource s (n + 1) ≠ 4 ∨ n.val = 31 →
      exec (.tallyWrap n) s = .next (settle s s))) ∧
  (∀ (s : State) (port : Port) (counter : Fin 32) (reg : Fin 3) (value : Word),
    exec (.tallyRegWrite port counter reg value) s =
      .next (settle s (writeRow s port (match reg with | 0 => R.Tn_CMP counter | 1 => R.Tn_INTV counter | 2 => R.Tn_CFG counter) value.toNat))) ∧
  (∀ (s : State), exec .tallyWriteEffect s = .next (settle s (tallyEffectEdge 4 s))) ∧
  (∀ (s : State) (counter : Fin 32), exec (.tallyMatch counter) s = .next (settle s (tallyMatchEdge s counter))) ∧
  (∀ (s : State) (counter : Fin 32), exec (.tallyWrap counter) s = .next (settle s (tallyCarryEdge s counter)))

/-- R252, R253, R254, R256, R259: an edge of a CAP input, which the next TCLK edge shows; a capture, and its overflow; the reads of a
capture and of a count; the end of an output pulse.
The clauses at the end: the effect of each row from every state. -/
def Obligations.TallyCaptures : Prop :=
  ((∀ s (cap : Fin 8), exec (.capEdge cap (s.tally.level.getLsbD cap)) s = .next (settle s s)) ∧
    (∀ s (cap : Fin 8) level, s.tally.level.getLsbD cap ≠ level →
      exec (.capEdge cap level) s = .next (settle s
        (tclkEdge (s.modTally fun t => { t with level := t.level ^^^ (1#8 <<< cap.val), cap := some (cap.val, level) })))) ∧
    (∀ s n cap level, capCounts s n cap level = true ↔
      s.get (F.Tn_CFG_SRC_CAP n) = cap ∧ edgeKind (s.get (F.Tn_CFG_SRC_EDGE n)) level = true) ∧
    (∀ s n, 4 ≤ (vget ((s.put (F.Tn_STATUS_CAP_SEEN n) 1).event 24).tally.caps n).length →
      tallyCapture s n = (((s.put (F.Tn_STATUS_CAP_SEEN n) 1).event 24).put (F.Tn_STATUS_CAP_OVF n) 1).event 25) ∧
    (∀ s n, (vget ((s.put (F.Tn_STATUS_CAP_SEEN n) 1).event 24).tally.caps n).length < 4 →
      let t := (s.put (F.Tn_STATUS_CAP_SEEN n) 1).event 24
      tallyCapture s n = syncCap (t.modTally fun u => { u with caps := vmod u.caps n (· ++ [tCount t n]) }) n) ∧
    (∀ s p (n : Fin 32) v rest, vget s.tally.caps n = v :: rest →
      exec (.tallyCapRead p n) s = .next (settle s ((syncCap (s.modTally fun t => { t with caps := vmod t.caps n (·.drop 1) }) n).readBack p v))) ∧
    (∀ s p (n : Fin 32), exec (.tallyCountRead p n) s = .next (settle s (s.readBack p (s.reg (R.Tn_COUNT n))))) ∧
    (∀ s (k : Fin 4), s.get (F.TALLY_OUTk_MODE k) = 1 →
      exec (.evtOutPulseEnd k) s = .next (settle s (s.modTally fun t =>
        { t with out := t.out &&& ~~~(1#4 <<< k.val), width := vmod t.width k (fun _ => 0) }))) ∧
    (∀ s (k : Fin 4), s.get (F.TALLY_OUTk_MODE k) ≠ 1 → exec (.evtOutPulseEnd k) s = .next (settle s s))) ∧
  (∀ (s : State) (cap : Fin 8) (level : Bool), exec (.capEdge cap level) s = .next (settle s (capEdgeTick s cap level))) ∧
  (∀ (s : State) (port : Port) (counter : Fin 32), exec (.tallyCapRead port counter) s = .next (settle s (readRow s port (R.Tn_CAP counter)))) ∧
  (∀ (s : State) (output : Fin 4), exec (.evtOutPulseEnd output) s = .next (settle s (outPulseEnd s output)))

/-! ### The fault collector (spec/11_fault_collection.md) -/

/-- R263, R267: the collector takes the oldest message, sound or corrupt; R267, R269, R270: a condition that rises and falls; the end of a
quiet period below and beyond the limit of escalation; the end of the window; R279: the end of a shadow.
The clauses at the end: the effect of each row from every state. -/
def Obligations.FaultMessages : Prop :=
  ((∀ s m rest, collectorRuns s = true → s.flt.msgs = m :: rest →
      exec (.faultMessage false) s = .next (settle s
        (let u := s.modFlt fun f => { f with msgs := rest }
         takeMessage u m (if m.cls = 2 then fatalAction u m else actionOf u m))) ∧
      exec (.faultMessage true) s = .next (settle s (corruptMessage (s.modFlt fun f => { f with msgs := rest }) m))) ∧
    (∀ s (i : Fin 96), collectorRuns s = true → s.condLevel i = true → fltState s i = 2 →
      exec (.condChange i) s = .next (settle s (syncFaults (s.put (F.FLT_SRCs_STAT_STATE i) 1)))) ∧
    (∀ s (i : Fin 96), collectorRuns s = true → s.condLevel i = false → fltState s i = 1 → fltClass s i < 2 →
      exec (.condChange i) s = .next (settle s (syncFaults (s.put (F.FLT_SRCs_STAT_STATE i) 2)))) ∧
    (∀ s (i : Fin 96), collectorRuns s = true → fltState s i = 2 →
      let u := s.addSat (F.FLT_SRCs_STAT_WCNT i)
      (u.get (F.FLT_SRCs_CFG_ESC_LIMIT i) = 0 ∨ u.get (F.FLT_SRCs_STAT_WCNT i) ≤ u.get (F.FLT_SRCs_CFG_ESC_LIMIT i) →
        exec (.quietExpiry i) s = .next (settle s (syncFaults ((((u.put (F.FLT_SRCs_STAT_STATE i) 0).addSat
          (F.FLT_SRCs_STAT_RECOV i)).modNvm fun v => { v with cntDirty := true }).event 4)))) ∧
      (u.get (F.FLT_SRCs_CFG_ESC_LIMIT i) ≠ 0 → u.get (F.FLT_SRCs_CFG_ESC_LIMIT i) < u.get (F.FLT_SRCs_STAT_WCNT i) →
        exec (.quietExpiry i) s = .next (settle s
          (let m : FaultMsg := ⟨i, 0x1F, 2, u.get (F.FLT_SRCs_STAT_WCNT i), u.flt.openInj.contains i.val⟩
           (takeMessage u m (fatalAction u m)).event 5)))) ∧
    (∀ s (i : Fin 96), collectorRuns s = true →
      exec (.escalationWindowEnd i) s = .next (settle s (s.put (F.FLT_SRCs_STAT_WCNT i) 0))) ∧
    (∀ s (l : Fin 8), collectorRuns s = true → exec (.shadowExpiry l) s = .next (settle s (s.put ⟨R.FLT_STATUS, l, 1⟩ 0))) ∧
    (∀ s corrupt (i : Fin 96) (l : Fin 8) upTo, collectorRuns s = false →
      exec (.faultMessage corrupt) s = .next (settle s s) ∧ exec (.condChange i) s = .next (settle s s) ∧
      exec (.quietExpiry i) s = .next (settle s s) ∧ exec (.escalationWindowEnd i) s = .next (settle s s) ∧
      exec (.shadowExpiry l) s = .next (settle s s) ∧ exec (.reactionDispatch upTo) s = .next (settle s s))) ∧
  (∀ (s : State) (corrupt : Bool), exec (.faultMessage corrupt) s = .next (settle s (if collectorRuns s then faultMessage s corrupt else s))) ∧
  (∀ (s : State) (source : Fin 96), exec (.condChange source) s = .next (settle s (if collectorRuns s then condChange s source else s))) ∧
  (∀ (s : State) (source : Fin 96), exec (.quietExpiry source) s = .next (settle s (if collectorRuns s then quietExpiry s source else s))) ∧
  (∀ (s : State) (source : Fin 96), exec (.escalationWindowEnd source) s = .next (settle s (if collectorRuns s then escWindowEnd s source else s))) ∧
  (∀ (s : State) (upTo : Fin 4), exec (.reactionDispatch upTo) s = .next (settle s (if collectorRuns s then reactionDispatch s upTo else s))) ∧
  (∀ (s : State) (list : Fin 8), exec (.shadowExpiry list) s = .next (settle s (if collectorRuns s then shadowExpiry s list else s)))

/-- R267, R268: a Fatal message puts its source in FATAL with class Fatal; another message leaves FATAL as it stands, and else makes
the source ACTIVE while its condition stands and QUIET while it does not, with the higher class. -/
def Obligations.FaultStates : Prop :=
  (∀ s m, m.cls = 2 → fltState (stateMessage s m) m.source = 3 ∧ 2 ≤ fltClass (stateMessage s m) m.source) ∧
  (∀ s m, m.cls ≠ 2 → fltState s m.source = 3 → fltState (stateMessage s m) m.source = 3) ∧
  (∀ s m, m.cls ≠ 2 → m.cls < 4 → fltState s m.source ≠ 3 →
    fltState (stateMessage s m) m.source = (if s.condLevel m.source then 1 else 2) ∧
    (fltState s m.source = 0 → fltClass (stateMessage s m) m.source = (if m.cls = 3 then 0 else m.cls)) ∧
    (fltState s m.source ≠ 0 → fltClass (stateMessage s m) m.source = max (if m.cls = 3 then 0 else m.cls) (fltClass s m.source)))

/-- R276: reactions wait by class, Fatal first, and within a class in the order they were made: a reaction that enters an ordered
queue leaves it ordered, stands behind every one of its class, and moves no other. The messages that one command sends stand behind
those already sent, in ascending source order, those of one source as they were sent. -/
def Obligations.ReactionOrder : Prop :=
  (∀ (r : Reaction) l, l.Pairwise (fun a b => b.msg.cls ≤ a.msg.cls) →
    (insertReaction r l).Pairwise (fun a b => b.msg.cls ≤ a.msg.cls) ∧
    ((insertReaction r l).filter fun x => x.msg.cls = r.msg.cls) = (l.filter fun x => x.msg.cls = r.msg.cls) ++ [r] ∧
    (∀ c, c ≠ r.msg.cls → ((insertReaction r l).filter fun x => x.msg.cls = c) = l.filter fun x => x.msg.cls = c)) ∧
  (∀ old s : State, ∃ l, (portOrder old s).flt.msgs = s.flt.msgs.take old.flt.msgs.length ++ l ∧
    l.Pairwise (fun a b => a.source ≤ b.source) ∧
    ∀ c, (l.filter fun m => m.source = c) = (s.flt.msgs.drop old.flt.msgs.length).filter fun m => m.source = c)

/-- R275: the three steps of a reaction's dispatch: D1 triggers the Folio of a Fatal reaction or a source with FOLIO; D2 opens the list of
a source with SHADOW_EN; D3 sends the action to its target, and the reaction leaves the queue: after the latch of the Folio that it
called for, R327; a Fatal one aborts margining and Sounding; R239: one of a partner's fault that a read has just ended does not start.
R271, R281: a host clear, and an injected message; R269: the recovery counters are written when one has changed.
The clauses at the end: the effect of each row from every state. -/
def Obligations.FaultReactions : Prop :=
  ((∀ s r, headReaction s = some r → r.stage = 0 → (s.flag (F.FLT_SRCs_CFG_FOLIO r.msg.source) = true ∨ r.msg.cls = 2) →
      dispatchStep s = syncFaults (setHead (folioTrigger s 2) (some { r with stage := 1 }))) ∧
    (∀ s r, headReaction s = some r → r.stage = 0 → s.flag (F.FLT_SRCs_CFG_FOLIO r.msg.source) = false → r.msg.cls ≠ 2 →
      dispatchStep s = syncFaults (setHead s (some { r with stage := 1 }))) ∧
    (∀ s r, headReaction s = some r → r.stage = 1 →
      dispatchStep s = syncFaults (setHead (if s.flag (F.FLT_SRCs_CFG_SHADOW_EN r.msg.source) then
          s.put ⟨R.FLT_STATUS, s.get (F.FLT_SRCs_CFG_SHADOW_SEL r.msg.source), 1⟩ 1 else s) (some { r with stage := 2 }))) ∧
    (∀ s r (upTo : Fin 4), collectorRuns s = true → headReaction s = some r → r.stage = 2 → upTo = 0 ∨ upTo = 3 →
      let u := syncFaults (setHead s none)
      let v := if bitOf u.folio.trig 2 then (latchFolio u).1 else u
      let w := if r.msg.cls = 2 then abortWork v 6 true else v
      (partnerEnded w r = false → exec (.reactionDispatch upTo) s = .next (settle s (reactionAct w r.action))) ∧
      (partnerEnded w r = true → exec (.reactionDispatch upTo) s = .next (settle s w))) ∧
    (∀ s (upTo : Fin 4), collectorRuns s = true → headReaction s = none → exec (.reactionDispatch upTo) s = .next (settle s s)) ∧
    (∀ s q n, 2 ≤ twinRole s → reactionAct s (.shutQuire n) = s ∧ reactionAct s (.rail n) = s ∧ reactionAct s .hallmark = s ∧
      (twinRole s = q → reactionAct s .shutAll = s)) ∧
    (∀ s n q, twinRole s < 2 → quireOf s n = some q → s.seq.inbox.contains (.shut q) = false →
      reactionAct s (.shutQuire n) = s.modSeq fun t => { t with inbox := t.inbox ++ [.shut q] })) ∧
  ((∀ s p (v : Word), writable s p R.FLT_CLEAR v.toNat = true →
      exec (.fltClearWrite p v) s = .next (settle s (hostClear (written s R.FLT_CLEAR v.toNat) v.toNat))) ∧
    (∀ s (i : Nat), i < 96 →
      hostClear s (128 + i) = syncFaults ((clearSource s i).event 8) ∧
      hostClear s (256 + i) = syncFaults ((s.put (stickyField i) 0).event 8)) ∧
    (∀ s i c, (s.flt.conds.find? fun c => c.msg.source == i) = some c →
      ((s.put (F.FLT_SRCs_STAT_STATE i) 0).put (F.FLT_SRCs_STAT_CLASS i) 0).flt.conds = s.flt.conds →
      clearSource s i = ((s.put (F.FLT_SRCs_STAT_STATE i) 0).put (F.FLT_SRCs_STAT_CLASS i) 0).send c.msg) ∧
    (∀ s p (v : Word), writable s p R.FLT_INJ (F.FLT_INJ_GO.insert v.toNat 1) = true →
      exec (.fltInjGo p v) s = .next (settle s (injectWrite (written s R.FLT_INJ (F.FLT_INJ_GO.insert v.toNat 1))
        (F.FLT_INJ_GO.insert v.toNat 1)))) ∧
    (∀ s, s.nvm.cntDirty = true → exec .recoveryCounterWrite s = .next (settle s (s.modNvm fun v => { v with cntPend := true })))) ∧
  (∀ (s : State) (port : Port) (value : Word), exec (.fltClearWrite port value) s = .next (settle s (writeRow s port R.FLT_CLEAR value.toNat))) ∧
  (∀ (s : State) (port : Port) (value : Word),
    exec (.fltInjGo port value) s =
      .next (settle s (writeRow s port R.FLT_INJ (F.FLT_INJ_GO.insert value.toNat 1)))) ∧
  (∀ (s : State), exec .recoveryCounterWrite s = .next (settle s (recoveryWrite s)))

/-! ### The twin link, the mirror, role changes and the Warden (spec/12_twins_spares.md) -/

/-- R294, R310: the link: a heartbeat is sent; the link goes down at a LINK_AGE of 500 µs and retrains; a heartbeat of the peer arrives. R308: of a peer that is
ACTIVE too, at an ACTIVE twin.
R295, R296, R297: the mirror: the active's latches, its configuration and its dynamic image reach a standby; the active sends its
images while the link is up; a mirror without an image is stale, and is fresh while the link runs and the CRC of the image it holds is
that of its configuration, R297; what is no twin, or in HOLDUP, takes nothing.
The clauses at the end: the effect of each row from every state. -/
def Obligations.TwinLink : Prop :=
  ((∀ s, isTwin s = true → s.mode ≠ mHoldup →
      exec .twinLinkHeartbeatSend s = .next (settle s (s.modTwin fun t => { t with tx := t.tx ++
        [.heartbeat (twinRole s) (twinReady s) (engineDown s) (s.get F.TWIN_TOKEN_SEQ)] }))) ∧
    (∀ s, linkUp s = true → 5 ≤ s.get F.TWIN_STATUS_LINK_AGE →
      exec .twinLinkDown s = .next (settle s (setFresh ((twinEvt (((s.put F.TWIN_STATUS_LINK_UP 0).modTwin fun t =>
        { t with good := 0, dynCrc := none }).addSat F.TWIN_CNT_LINK_DROPS) F.TWIN_EVT_LINK_DOWN 7).raiseOnce 48 0 1 0 0) false))) ∧
    (∀ s, linkUp s = false ∨ s.get F.TWIN_STATUS_LINK_AGE < 5 → exec .twinLinkDown s = .next (settle s s)) ∧
    (∀ s frames, linkUp s = false → isTwin s = true → s.mode ≠ mHoldup →
      (8 ≤ frames → exec (.twinLinkRetrain frames) s = .next (settle s
        (linkRises ((s.put F.TWIN_STATUS_LINK_AGE 0).modTwin fun t => { t with ageTicks := 0, good := 0 })))) ∧
      (frames < 8 → exec (.twinLinkRetrain frames) s = .next (settle s (s.modTwin fun t => { t with good := frames })))) ∧
    (∀ s (role : Fin 4) ready (seq : Word), isTwin s = true → s.mode ≠ mHoldup →
      let u := (((goodFrame s).put F.TWIN_STATUS_PEER_ROLE role).putB F.TWIN_STATUS_PEER_READY ready).modTwin fun t =>
        { t with peerSeq := seq.toNat }
      (role ≠ 1 → exec (.linkHeartbeatFrame role ready seq) s = .next (settle s (u.endCond 51 3))) ∧
      (role = 1 → exec (.linkHeartbeatFrame role ready seq) s = .next (settle s (twoActives u)))) ∧
    (∀ s, exec .twinRingHeartbeatSend s = .next (settle s (ringBeat s))) ∧
    (∀ s, isTwin s = false ∨ s.flag F.RING_GRANT_HB_OK = false ∨ s.security = secRetired → ringBeat s = s)) ∧
  ((∀ s l, isTwin s = true → s.mode ≠ mHoldup → mirrors (goodFrame s) = true →
      exec (.latchMirrorFrame l) s = .next (settle s (applyLatch (goodFrame s) l.toNat (2 ^ 64 - 1 - l.toNat)))) ∧
    (∀ s c, isTwin s = true → s.mode ≠ mHoldup → mirrors (goodFrame s) = true →
      exec (.configImage c) s = .next (settle s
        (syncFresh ((c.entries.foldl (fun s e => mirrorEntry s c.ratios e) (goodFrame s)).modTwin
          fun t => { t with cfgCrc := some (imageCrc c) })))) ∧
    (∀ s d, exec (.dynamicImage d) s = .next (settle s (dynFrame s d))) ∧
    (∀ s d, isTwin s = true → s.mode ≠ mHoldup → twinRole (goodFrame s) ≠ 1 → mirrors (goodFrame s) = false →
      dynFrame s d = goodFrame s) ∧
    (∀ s, isTwin s = true → s.mode ≠ mHoldup → twinRole s = 1 → linkUp s = true →
      exec .dynamicImageSend s = .next (settle s (s.modTwin fun t => { t with tx := t.tx ++ [.dynamic (dynImage s)] })) ∧
      exec .configImageSend s = .next (settle s (s.modTwin fun t => { t with tx := t.tx ++ [.config (configImage s)] }))) ∧
    (∀ s, 2 ≤ twinRole s → exec .mirrorStale s = .next (settle s (syncFresh (s.modTwin fun t => { t with dynCrc := none })))) ∧
    (∀ s, twinRole s < 2 → exec .mirrorStale s = .next (settle s s)) ∧
    (∀ s, syncFresh s = setFresh s (mirrors s && s.twin.dynCrc.isSome && s.twin.dynCrc == s.twin.cfgCrc)) ∧
    (∀ s l, mirrors s = false → (isTwin s = false ∨ s.mode = mHoldup) →
      exec (.latchMirrorFrame l) s = .next (settle s s) ∧ exec (.handoverFrame l) s = .next (settle s s) ∧
      ∀ c, exec (.configImage c) s = .next (settle s s))) ∧
  (∀ (s : State), exec .twinLinkHeartbeatSend s = .next (settle s (linkBeat s))) ∧
  (∀ (s : State), exec .twinLinkDown s = .next (settle s (linkDown s))) ∧
  (∀ (s : State) (frames : Nat), exec (.twinLinkRetrain frames) s = .next (settle s (linkRetrain s frames))) ∧
  (∀ (s : State) (latches : BitVec 64), exec (.latchMirrorFrame latches) s = .next (settle s (latchFrame s latches))) ∧
  (∀ (s : State), exec .dynamicImageSend s = .next (settle s (dynSend s))) ∧
  (∀ (s : State) (image : CfgImage), exec (.configImage image) s = .next (settle s (configFrame s image))) ∧
  (∀ (s : State), exec .configImageSend s = .next (settle s (configSend s))) ∧
  (∀ (s : State), exec .mirrorStale s = .next (settle s (mirrorStale s))) ∧
  (∀ (s : State) (latches : BitVec 64), exec (.handoverFrame latches) s = .next (settle s (handoverFrame s latches))) ∧
  (∀ (s : State) (role : Fin 4) (ready : Bool) (seq : Word),
    exec (.linkHeartbeatFrame role ready seq) s =
      .next (settle s (beatFrame s role ready seq.toNat)))

/-- R304, R306, R312: a change of roles: HANDOVER and TAKEOVER at the two twins, the waits for them, DRIVING and its wait, and a handover
request that no token answers. R311: at a twin that is FROZEN no change starts.
The clauses at the end: the effect of each row from every state. -/
def Obligations.RoleChanges : Prop :=
  ((∀ s l, isTwin s = true → s.mode ≠ mHoldup → mirrors (goodFrame s) = true →
      let u := applyLatch (twinEvt (goodFrame s) F.TWIN_EVT_HO_RECV 5) l.toNat (2 ^ 64 - 1 - l.toNat)
      (u.twin.change = .none → roleFrozen u = false → exec (.handoverFrame l) s = .next (settle s (becomeActive u))) ∧
      (u.twin.change = .none → roleFrozen u = true → exec (.handoverFrame l) s = .next (settle s u)) ∧
      (u.twin.change = .incoming false → exec (.handoverFrame l) s = .next (settle s (becomeActive u))) ∧
      (u.twin.change = .incoming true → exec (.handoverFrame l) s = .next (settle s (becomeActive (reconcile u))))) ∧
    (∀ s, isTwin s = true → s.mode ≠ mHoldup → twinRole (goodFrame s) = 1 → isTwin (goodFrame s) = true →
      (goodFrame s).twin.change = .none → (goodFrame s).mode ≠ mHoldup → roleFrozen (goodFrame s) = false →
      exec .takeoverFrame s = .next (settle s (twinEvt (sendFrame (((goodFrame s).put F.TWIN_STATUS_CHANGING 1).modTwin fun t =>
        { t with change := .outgoing, frozen := true }) (.handover (latchWord (((goodFrame s).put F.TWIN_STATUS_CHANGING 1).modTwin fun t =>
          { t with change := .outgoing, frozen := true })))) F.TWIN_EVT_HO_SENT 4))) ∧
    (∀ s, isTwin s = true → s.mode ≠ mHoldup → roleFrozen (goodFrame s) = true →
      exec .takeoverFrame s = .next (settle s (goodFrame s))) ∧
    (∀ s stale, s.twin.change = .incoming stale →
      (s.mode ≠ mHoldup → exec .takeoverWaitEnd s = .next (settle s (becomeActive (if stale then reconcile s else s)))) ∧
      (s.mode = mHoldup → exec .takeoverWaitEnd s = .next (settle s (changeOver s)))) ∧
    (∀ s, isTwin s = true → s.mode ≠ mHoldup → (goodFrame s).twin.change = .outgoing →
      exec .drivingFrame s = .next (settle s (becomeStandby (goodFrame s)))) ∧
    (∀ s, s.twin.change = .outgoing →
      exec .drivingTimeout s = .next (settle s (becomeStandby (s.raiseOnce 48 0 1 0 0)))) ∧
    (∀ s, s.flag F.TWIN_STATUS_HO_PEND = true → s.seq.hoRails = [] →
      exec .handoverTimeout s = .next (settle s
        (((s.put F.TWIN_STATUS_HO_PEND 0).modSeq fun t => { t with hoRails := [] }).raiseMomentary 51 0 1 1)))) ∧
  (∀ (s : State), exec .takeoverFrame s = .next (settle s (takeoverFrame s))) ∧
  (∀ (s : State), exec .takeoverWaitEnd s = .next (settle s (takeoverWaitEnd s))) ∧
  (∀ (s : State), exec .drivingFrame s = .next (settle s (drivingFrame s))) ∧
  (∀ (s : State), exec .drivingTimeout s = .next (settle s (drivingTimeout s))) ∧
  (∀ (s : State), exec .handoverTimeout s = .next (settle s (handoverTimeout s)))

/-- R302, R303, R311: the cells of the pair and its Warden: an acknowledgement, and the wait for one; a token that a check rejects, a TAKE
and a RELINQUISH, and either at a twin that is FROZEN.
R300, R301: the Warden: a judgment of every pair it serves; a pair with no active twin whose preferred side is ready gets a TAKE;
a RELINQUISH that is owed goes out once the other twin is active; the
writes of a pair's nodes, which begin its record anew, and of WDN_CFG.
The clauses at the end: the effect of each row from every state. -/
def Obligations.Warden : Prop :=
  ((∀ s port cell u, receiveCell s port cell 0xD = (u, true) → u.twin.loaded = true →
      isTwin u = true → payNat cell 0 2 = u.get F.TWIN_PAIR_ID →
      (u.flag F.TWIN_STATUS_WARDEN_OK = true →
        exec (.hbAck port cell) s = .next (settle s ((u.put F.TWIN_STATUS_FROZEN 0).endCond 50 0))) ∧
      (u.flag F.TWIN_STATUS_WARDEN_OK = false →
        exec (.hbAck port cell) s = .next (settle s (((twinEvt (u.put F.TWIN_STATUS_WARDEN_OK 1) F.TWIN_EVT_WDN_BACK 11).put
          F.TWIN_STATUS_FROZEN 0).endCond 50 0)))) ∧
    (∀ s, isTwin s = true → s.flag F.TWIN_STATUS_WARDEN_OK = true →
      exec .wardenAckTimeout s = .next (settle s (((twinEvt (s.put F.TWIN_STATUS_WARDEN_OK 0) F.TWIN_EVT_WDN_LOST 10).put
        F.TWIN_STATUS_FROZEN 1).raiseOnce 50 0 1 0 0))) ∧
    (∀ s port cell u, receiveCell s port cell 0xB = (u, true) → u.twin.loaded = true → payNat cell 0 1 ≠ 3 →
      (∀ r, tokenReason u cell = r → r ≠ 0 →
        exec (.token port cell) s = .next (settle s ((twinEvt u F.TWIN_EVT_TOKEN_REJ 3).raise 52 0 1 0 r))) ∧
      (tokenReason u cell = 0 → payNat cell 0 1 = 1 →
        exec (.token port cell) s = .next (settle s (takeToken (acceptToken u cell) (bitOf (payNat cell 1 1) 0)))) ∧
      (tokenReason u cell = 0 → payNat cell 0 1 = 2 → twinRole (acceptToken u cell) = 1 →
        roleFrozen (acceptToken u cell) = false →
        exec (.token port cell) s = .next (settle s (becomeStandby (acceptToken u cell)))) ∧
      (tokenReason u cell = 0 → payNat cell 0 1 = 1 ∨ payNat cell 0 1 = 2 → roleFrozen (acceptToken u cell) = true →
        exec (.token port cell) s = .next (settle s (acceptToken u cell)))) ∧
    (∀ s port cell u, receiveCell s port cell 0xC = (u, true) → u.twin.loaded = true →
      exec (.heartbeat port cell) s = .next (settle s (heartbeatCell u cell)))) ∧
  ((∀ s, exec .wardenJudgment s = .next (settle s (judgeAll s))) ∧
    (∀ s k, (wpair s k).owed = none → sideActive s k false = false → sideActive s k true = false →
      sideReady s k (s.flag (F.WDN_PAIRk_CFG_PREF k)) = true →
      judgePair s k = issueToken (s.modPair k fun p => { p with wait := 0 }) k (s.flag (F.WDN_PAIRk_CFG_PREF k)) 1 false) ∧
    (∀ s k b, (wpair s k).owed = none → sideActive s k b = true → sideActive s k (!b) = false →
      judgePair s k = judgeOne (s.modPair k fun p => { p with wait := 0 }) k b) ∧
    (∀ s k, (wpair s k).owed = none → sideActive s k false = true → sideActive s k true = true →
      judgePair s k = silentEvent (s.modPair k fun p => { p with wait := 0 }) k) ∧
    (∀ s k x, (wpair s k).owed = some x → sideActive s k (!x) = true →
      judgePair s k = issueToken ((s.modPair k fun p => { p with wait := 0 }).modPair k fun p => { p with owed := none }) k x 2 false) ∧
    (∀ s p (k : Fin 8) (v : Word), writable s p (R.WDN_PAIRk_NODES k) v.toNat = true →
      exec (.wdnPairNodesWrite p k v) s =
        .next (settle s (syncPair ((written s (R.WDN_PAIRk_NODES k) v.toNat).modPair k fun _ => default) k))) ∧
    (∀ s p (v : Word), writable s p R.WDN_CFG v.toNat = true →
      F.WDN_CFG_HB_PER.extract (s.reg R.WDN_CFG) = (written s R.WDN_CFG v.toNat).get F.WDN_CFG_HB_PER →
      exec (.wdnCfgWrite p v) s = .next (settle s (written s R.WDN_CFG v.toNat))) ∧
    (∀ s p (v : Word), writable s p R.WDN_CFG v.toNat = true →
      F.WDN_CFG_HB_PER.extract (s.reg R.WDN_CFG) ≠ (written s R.WDN_CFG v.toNat).get F.WDN_CFG_HB_PER →
      exec (.wdnCfgWrite p v) s = .next (settle s (admitRequest (written s R.WDN_CFG v.toNat))))) ∧
  (∀ (s : State), exec .wardenAckTimeout s = .next (settle s (ackTimeout s))) ∧
  (∀ (s : State) (port : RingPort) (cell : RingCell), exec (.hbAck port cell) s = .next (settle s (twinRow s port cell 0xD (ackCell · cell)))) ∧
  (∀ (s : State) (port : RingPort) (cell : RingCell),
    exec (.token port cell) s =
      .next (settle s (twinRow s port cell 0xB fun s => if payNat cell 0 1 = 3 then s else tokenCell s cell))) ∧
  (∀ (s : State) (port : RingPort) (cell : RingCell),
    exec (.heartbeat port cell) s =
      .next (settle s (twinRow s port cell 0xC (heartbeatCell · cell)))) ∧
  (∀ (s : State) (port : Port) (pair : Fin 8) (value : Word),
    exec (.wdnPairNodesWrite port pair value) s =
      .next (settle s (writeRow s port (R.WDN_PAIRk_NODES pair) value.toNat))) ∧
  (∀ (s : State) (port : Port) (value : Word), exec (.wdnCfgWrite port value) s = .next (settle s (writeRow s port R.WDN_CFG value.toNat)))

/-! ### Folios, the Ledger and the NVM (spec/13_folio_ledger_nvm.md) -/

/-- R325, R328, R330: SNAP, the writes of FOLIO_CTRL, and a target: one that is armed refuses another; one that matches triggers a
Folio and disarms.
R326, R330, R331: a Folio takes the lowest FREE buffer; when none is FREE it is dropped and counted, unless an episode or HOLDUP
entry finds a FILLED one; a LEDGER buffer is never overwritten; its words are those of the latch edge, but for the results delivered
within 2 TCLK periods before it, R327. R332: a read of a buffer's words goes on to the next.
The clauses at the end: the effect of each row from every state. -/
def Obligations.Folios : Prop :=
  ((∀ s level, s.folio.snap ≠ level →
      (bitOf (s.get F.FOLIO_CFG_SNAP_EDGE) (if level then 0 else 1) = true →
        exec (.snapEdge level) s = .next (settle s (folioTrigger (s.modFolio fun f => { f with snap := level }) 0))) ∧
      (bitOf (s.get F.FOLIO_CFG_SNAP_EDGE) (if level then 0 else 1) = false →
        exec (.snapEdge level) s = .next (settle s (s.modFolio fun f => { f with snap := level })))) ∧
    (∀ s p, writable s p R.FOLIO_CTRL (2 ^ 31) = true →
      exec (.folioTrig p) s = .next (settle s (folioTrigger (written s R.FOLIO_CTRL (2 ^ 31)) 1))) ∧
    (∀ s p, writable s p R.FOLIO_CTRL (2 ^ 30) = true →
      exec (.folioCtrlArm p) s = .next (settle s (folioArm (written s R.FOLIO_CTRL (2 ^ 30))))) ∧
    (∀ s p, writable s p R.FOLIO_CTRL (2 ^ 29) = true →
      exec (.folioDisarm p) s = .next (settle s
        ((((written s R.FOLIO_CTRL (2 ^ 29)).put F.FOLIO_STATUS_ARMED 0).put F.FOLIO_STATUS_RING 0).put F.FOLIO_AT_ID_ID 0))) ∧
    (∀ s p (b : BitVec 4), writable s p R.FOLIO_CTRL b.toNat = true →
      exec (.folioCtrlRelease p b) s = .next (settle s (folioRelease (written s R.FOLIO_CTRL b.toNat) b.toNat))) ∧
    (∀ s, s.flag F.FOLIO_STATUS_ARMED = true → folioArm s = s) ∧
    (∀ s, s.flag F.FOLIO_STATUS_ARMED = false →
      folioArm s = armTarget s (stampOf (s.reg R.FOLIO_AT_HI) (s.reg R.FOLIO_AT_LO)) false 0) ∧
    (∀ s, s.flag F.FOLIO_STATUS_ARMED = true → s.angRun = true → stampReached s.ang.stamp s.folio.target = true →
      s.flag F.FOLIO_STATUS_RING = false → stampReached s.ang.stamp s.ring.rfTarget = false →
      exec .folioTargetMatch s = .next (settle s
        (folioTrigger (((s.put F.FOLIO_STATUS_ARMED 0).put F.FOLIO_STATUS_RING 0).put F.FOLIO_AT_ID_ID 0) 4))) ∧
    (∀ s, s.flag F.FOLIO_STATUS_ARMED = false → (s.angRun = false ∨ stampReached s.ang.stamp s.ring.rfTarget = false) →
      exec .folioTargetMatch s = .next (settle s s))) ∧
  ((∀ s k, bitOf s.folio.trig 5 = false → bitOf s.folio.trig 6 = false → bitOf s.folio.trig 7 = false → s.folio.trig ≠ 0 →
      let u := s.modFolio fun f => { f with trig := 0, trigId := 0, trigMsg := none }
      folioBuffer u s.folio.trig = some k → ∀ v words, crossResults u (folioWords u s.folio.trig 0) = (v, words) → bufState v k = 0 →
      exec .folioLatch s = .next (settle s (folioEvent ((((v.modFolio fun f => { f with
          buf := vmod f.buf k (fun _ => words), latches := f.latches + 1
          age := vmod f.age k (fun _ => f.latches), copies := f.copies ++ [] }).put (F.FOLIO_STATUS_BUF k) 1).put
        F.FOLIO_STATUS_NEWEST k)) F.FOLIO_EVT_TAKEN 0))) ∧
    (∀ s words, (∀ r ∈ s.folio.fresh, r.at' + 2 ≤ s.tclk) → crossResults s words = (s, words)) ∧
    (∀ s, bitOf s.folio.trig 5 = false → bitOf s.folio.trig 6 = false → bitOf s.folio.trig 7 = false → s.folio.trig ≠ 0 →
      let u := s.modFolio fun f => { f with trig := 0, trigId := 0, trigMsg := none }
      folioBuffer u s.folio.trig = none →
      exec .folioLatch s = .next (settle s (folioEvent (u.addSat F.FOLIO_STATUS_DROPPED) F.FOLIO_EVT_DROPPED 1))) ∧
    (∀ s mask k, folioBuffer s mask = some k → bufState s k = 0 ∨ bufState s k = 1) ∧
    (∀ s mask k, folioBuffer s mask = some k → bufState s k = 0 → ∀ j, j < k → bufState s j ≠ 0) ∧
    (∀ s mask, bitOf mask 6 = false → bitOf mask 7 = false → (∀ k, k < 4 → bufState s k ≠ 0) → folioBuffer s mask = none) ∧
    (∀ s p, exec (.folioDataRead p) s = .next (settle s ((s.put F.FOLIO_IDX_WORD (s.get F.FOLIO_IDX_WORD + 1)).readBack p
      (folioWord s (s.get F.FOLIO_IDX_BUF) (s.get F.FOLIO_IDX_WORD)))))) ∧
  (∀ (s : State) (level : Bool), exec (.snapEdge level) s = .next (settle s (snapEdge s level))) ∧
  (∀ (s : State), exec .folioLatch s = .next (settle s ((latchFolio s).1))) ∧
  (∀ (s : State), exec .folioTargetMatch s = .next (settle s (targetMatch s))) ∧
  (∀ (s : State) (port : Port), exec (.folioTrig port) s = .next (settle s (writeRow s port R.FOLIO_CTRL (2 ^ 31)))) ∧
  (∀ (s : State) (port : Port), exec (.folioCtrlArm port) s = .next (settle s (writeRow s port R.FOLIO_CTRL (2 ^ 30)))) ∧
  (∀ (s : State) (port : Port), exec (.folioDisarm port) s = .next (settle s (writeRow s port R.FOLIO_CTRL (2 ^ 29)))) ∧
  (∀ (s : State) (port : Port) (buffers : BitVec 4),
    exec (.folioCtrlRelease port buffers) s =
      .next (settle s (writeRow s port R.FOLIO_CTRL buffers.toNat)))

/-- R335, R345, R346, R354: a record is staged, or lost when two are staged; the device log; a STORE; the Ledger's seconds and a read of a
slot.
R338, R341, R342, R343: a program unit of the job at work, or of the archive, verifies, fails once and is programmed again, or fails
twice; a page erase ends; a job that joins leaves the program unit in progress to complete.
R344: an uncorrectable read makes what lies there invalid.
The clauses at the end: the effect of each row from every state. -/
def Obligations.Records : Prop :=
  ((∀ s c rest, s.folio.copies = c :: rest →
      let u := s.modFolio fun f => { f with copies := rest }
      let v := if bufState u c.buf = 2 then u.put (F.FOLIO_STATUS_BUF c.buf) 0 else u
      (2 ≤ v.nvm.stage.length → exec .ledgerStage s = .next (settle s (recordLost v))) ∧
      (v.nvm.stage.length < 2 → exec .ledgerStage s = .next (settle s (recordFill (v.modNvm fun n =>
        { n with stage := n.stage ++ [⟨c.words, c.msg, c.stamp, n.secSet, c.msg.isNone, false, false⟩] }))))) ∧
    (∀ s, s.nvm.ready = true → s.rst.phase ≠ .work → (s.nvm.ops.any fun o => jobClass o.job == 1) = false →
      (s.spare.mapPend = true → s.mode ≠ mHoldup → exec .deviceLogWrite s = .next (settle s
        (addOp (s.modSpare fun p => { p with mapPend := false }) (.logMap (mapEntry s)) 0 2))) ∧
      (s.spare.mapPend = false ∨ s.mode = mHoldup → s.nvm.cntPend = true → exec .deviceLogWrite s = .next (settle s
        (addOp (s.modNvm fun v => { v with cntPend := false, cntDirty := false }) (.logCnt (cntEntry s)) 0 4))) ∧
      (s.spare.mapPend = false ∨ s.mode = mHoldup → s.nvm.cntPend = false → exec .deviceLogWrite s = .next (settle s s))) ∧
    (∀ s, s.nvm.ready = false → exec .deviceLogWrite s = .next (settle s s)) ∧
    (∀ s, s.folio.copies = [] → exec .ledgerStage s = .next (settle s s)) ∧
    (∀ s p cfg cal, cfg = true ∨ cal = true →
      writable s p R.NVM_STORE ((if cfg then 1 else 0) + (if cal then 2 else 0)) = true →
      exec (.nvmStoreWrite p cfg cal) s =
        .next (settle s (startStore (written s R.NVM_STORE ((if cfg then 1 else 0) + (if cal then 2 else 0))) cfg cal))) ∧
    (∀ s p v, ledgerWord s (s.get F.LDG_RD_IDX_SLOT) (s.get F.LDG_RD_IDX_WORD) = some v →
      exec (.ldgRdDataRead p) s = .next (settle s ((s.put F.LDG_RD_IDX_WORD (s.get F.LDG_RD_IDX_WORD + 1)).readBack p v))) ∧
    (∀ s p (v : Word), writable s p R.LDG_SEC v.toNat = true →
      exec (.ldgSecWrite p v) s = .next (settle s ((((written s R.LDG_SEC v.toNat).setReg R.LDG_SEC v.toNat).setReg
        R.LDG_USEC 0).modNvm fun n => { n with secTicks := 0, secSet := true })))) ∧
  ((∀ s o, archiving s = false → curOp s = some o → o.erases = 0 → o.units ≠ 0 →
      (o.units ≠ 1 → exec (.nvmProgramUnitDone true) s =
        .next (settle s (syncNvm (endUnit (setCur s o (some { o with units := o.units - 1, retry := false })))))) ∧
      (o.units = 1 → o.job = .record → exec (.nvmProgramUnitDone true) s = .next (settle s (recordDone (setCur s o none)))) ∧
      (o.retry = false → exec (.nvmProgramUnitDone false) s =
        .next (settle s (setCur (s.addSat F.NVM_CNT_PFAIL) o (some { o with retry := true })))) ∧
      (o.retry = true → exec (.nvmProgramUnitDone false) s = .next (settle s (jobWorn (s.addSat F.NVM_CNT_PFAIL) o)))) ∧
    (∀ s o k, archiving s = false → curOp s = some o → o.erases ≠ 0 → o.job = .erase k → k < 1024 →
      let u := setCur ((s.modNvm fun v => { v with slots := v.slots.filter (·.1 != k), junk := v.junk.filter (· != k) }).endCond
        62 (320 + k)) o none
      exec (.nvmEraseDone true) s = .next (settle s (syncNvm u)) ∧
      exec (.nvmEraseDone false) s = .next (settle s (syncNvm (wornSector u (ledgerSector k))))) ∧
    (∀ s job erases units, unitLive s = true → (addOp s job erases units).nvm.unit = s.nvm.unit) ∧
    (∀ s o, s.nvm.unit = some (some o.job) → (s.nvm.ops.find? fun x => x.job == o.job) = some o → curOp s = some o) ∧
    (∀ s, archiving s = true →
      exec (.nvmProgramUnitDone true) s = .next (settle s (syncNvm (endUnit (s.modNvm fun v => { v with arcRetry := false })))) ∧
      (s.nvm.arcRetry = false → exec (.nvmProgramUnitDone false) s = .next (settle s
        ((s.addSat F.NVM_CNT_PFAIL).modNvm fun v => { v with arcRetry := true }))) ∧
      ∀ ok, exec (.nvmEraseDone ok) s = .next (settle s s)) ∧
    (∀ s, archiving s = false → curOp s = none →
      ∀ ok, exec (.nvmProgramUnitDone ok) s = .next (settle s s) ∧ exec (.nvmEraseDone ok) s = .next (settle s s)) ∧
    (∀ s (a : BitVec 21),
      let page := a.toNat / 512
      let u := (nvmEvent s F.NVM_EVT_UNCORR 7).raise 62 0 0 page page
      (page < 128 → exec (.nvmUncorrectableRead a) s =
        .next (settle s (setCopy u 0 { (vget u.nvm.copies 0) with valid := false }))) ∧
      (128 ≤ page → page < 256 → exec (.nvmUncorrectableRead a) s =
        .next (settle s (setCopy u 1 { (vget u.nvm.copies 1) with valid := false }))) ∧
      (320 ≤ page → page < 1344 → exec (.nvmUncorrectableRead a) s = .next (settle s (syncNvm (u.modNvm fun v =>
        { v with slots := v.slots.filter (·.1 != page - 320), junk := v.junk.filter (· != page - 320) ++ [page - 320] })))) ∧
      (272 ≤ page → page < 288 → exec (.nvmUncorrectableRead a) s = .next (settle s (u.modNvm fun v =>
        { v with log := vmod v.log 0 (·.filter fun e => e.1 / 4 != page - 272) }))) ∧
      (304 ≤ page → page < 320 → exec (.nvmUncorrectableRead a) s = .next (settle s (u.modNvm fun v =>
        { v with log := vmod v.log 1 (·.filter fun e => e.1 / 4 != page - 304) }))) ∧
      (3264 ≤ page → page < 3520 → exec (.nvmUncorrectableRead a) s = .next (settle s (u.modNvm fun v => { v with patch := [] }))) ∧
      (3520 ≤ page → exec (.nvmUncorrectableRead a) s = .next (settle s u)))) ∧
  (∀ (s : State), exec .ledgerStage s = .next (settle s (ledgerStage s))) ∧
  (∀ (s : State) (ok : Bool), exec (.nvmProgramUnitDone ok) s = .next (settle s (unitDone s ok))) ∧
  (∀ (s : State) (ok : Bool), exec (.nvmEraseDone ok) s = .next (settle s (eraseDone s ok))) ∧
  (∀ (s : State) (address : BitVec 21), exec (.nvmUncorrectableRead address) s = .next (settle s (uncorrectable s address.toNat))) ∧
  (∀ (s : State), exec .deviceLogWrite s = .next (settle s (deviceLogWrite s))) ∧
  (∀ (s : State) (port : Port) (config cal : Bool),
    exec (.nvmStoreWrite port config cal) s =
      .next (settle s (writeRow s port R.NVM_STORE ((if config then 1 else 0) + (if cal then 2 else 0))))) ∧
  (∀ (s : State) (port : Port), exec (.ldgRdDataRead port) s = .next (settle s (readRow s port R.LDG_RD_DATA))) ∧
  (∀ (s : State) (port : Port) (value : Word), exec (.ldgSecWrite port value) s = .next (settle s (writeRow s port R.LDG_SEC value.toNat)))

/-! ### The Hexip ring (spec/16_hexip_ring.md) -/

/-- R410, R434, R435, R436, R415, R416: a port comes up, goes down, passes or fails its loopback; a wrap ends; a cell is forwarded or
taken, or arrives with an error.
The clauses at the end: the effect of each row from every state. -/
def Obligations.RingPorts : Prop :=
  ((∀ s port, s.flag F.CLK_STATUS_SERDES_LOCK = true → portWorn s (portNum port) = false → s.flag (upField (portNum port)) = false →
      s.rst.phase ≠ .por → s.ring.loop.getLsbD (portNum port) = false →
      exec (.ringPortUp port) s = .next (settle s (folioAgain (syncTxdis ((ringEvt (s.put (upField (portNum port)) 1)
        F.RING_EVT_LINK_UP 0).endCond 80 (portNum port)))))) ∧
    (∀ s port, s.flag (upField (portNum port)) = true →
      let p := portNum port
      let u := (ringEvt (s.put (upField p) 0) F.RING_EVT_LINK_DOWN 1).modRing fun r => { r with loop := r.loop ||| (1#3 <<< p) }
      (∀ i, sideOfPort u p = some i → exec (.ringPortDown port) s =
        .next (settle s (syncTxdis (abortDiscovery (wrapSide (u.raise 80 p 1 p 0) i) 1)))) ∧
      (sideOfPort u p = none → exec (.ringPortDown port) s = .next (settle s u))) ∧
    (∀ s port, s.ring.loop.getLsbD (portNum port) = true →
      let u := s.modRing fun r => { r with loop := r.loop &&& ~~~(1#3 <<< portNum port) }
      exec (.portLoopbackDone port true) s = .next (settle s u) ∧
      (port = .east → ((((u.modSpare fun t => { t with wornPorts := t.wornPorts ||| (1#3 <<< 0) }).put F.RING_STATUS_E_WORN 1).raise 81 0 0 0
          0).get F.RING_CFG_SPARE_SIDE) ≠ 1 →
        exec (.portLoopbackDone port false) s = .next (settle s (mapChanged ((((u.modSpare fun t =>
          { t with wornPorts := t.wornPorts ||| (1#3 <<< 0) }).put F.RING_STATUS_E_WORN 1).raise 81 0 0 0 0).raiseOnce 82 0 1 0 0))))) ∧
    (∀ s, spareState s = 0 →
      exec .sparePortDailyLoopback s = .next (settle s (s.modRing fun r => { r with loop := r.loop ||| 4 }))) ∧
    (∀ s port i, sideOfPort s (portNum port) = some i → sideUp s i = true → s.flag F.RING_STATUS_HU_SINGLE = false →
      wrapped s i = true → isMaster (ringEvt (s.put (wrapField i) 0) F.RING_EVT_UNWRAP 3) = false →
      exec (.wrapEnd port) s = .next (settle s (ringEvt (s.put (wrapField i) 0) F.RING_EVT_UNWRAP 3))) ∧
    (∀ s port cell u, receiveCell s port cell cell.kind.toNat = (u, false) →
      exec (.ringCellForward port cell true 0) s = .next (settle s u)) ∧
    (∀ s port cell u, receiveCell s port cell cell.kind.toNat = (u, true) → cell.kind = 5#4 → isMaster u = true →
      exec (.ringCellForward port cell true 0) s = .next (settle s (u.addWrap F.RING_MRX_CNT_EVENT))) ∧
    (∀ s port cell i, sideOfPort s (portNum port) = some i → sideUp s i = true → wrapped s i = false →
      cell.dest.toNat = ringAddr s →
      exec (.ringCellForward port cell false 0) s = .next (settle s (crcError s (portNum port))))) ∧
  (∀ (s : State) (port : RingPort), exec (.ringPortUp port) s = .next (settle s (portUp s (portNum port)))) ∧
  (∀ (s : State) (port : RingPort), exec (.ringPortDown port) s = .next (settle s (portDown s (portNum port)))) ∧
  (∀ (s : State) (port : RingPort) (pass : Bool), exec (.portLoopbackDone port pass) s = .next (settle s (loopbackDone s (portNum port) pass))) ∧
  (∀ (s : State), exec .sparePortDailyLoopback s = .next (settle s (spareLoopback s))) ∧
  (∀ (s : State) (port : RingPort), exec (.wrapEnd port) s = .next (settle s (wrapEnd s (portNum port)))) ∧
  (∀ (s : State) (port : RingPort) (cell : RingCell) (good : Bool) (codes : Nat),
    exec (.ringCellForward port cell good codes) s =
      .next (settle s (codeErrors (cellForward s port cell good) (portNum port) codes)))

/-- R417, R420, R421, R422: the delays of the links, and the angle over the ring: echo requests and answers, marks and ANGLE cells of the
master, a mark at the master and at a node of another source, the change of the path, an ANGLE cell. R423: an ANGLE cell of another
master at the master.
The clauses at the end: the effect of each row from every state. -/
def Obligations.RingAngle : Prop :=
  ((∀ s, sideUp s 0 = false → sideUp s 1 = false → exec .echoRequestSend s = .next (settle s s)) ∧
    (∀ s u t, sideUp s 0 = true → s.unstated 24 = (u, t) →
      sideUp ((sendLink u 0 (.echoReq t)).modSide 0 fun r => { r with token := some t }) 1 = false →
      exec .echoRequestSend s =
        .next (settle s ((sendLink u 0 (.echoReq t)).modSide 0 fun r => { r with token := some t }))) ∧
    (∀ s port token turn i, sideOfPort s (portNum port) = some i → sideUp s i = true →
      exec (.echoRequest port token turn) s = .next (settle s (sendLink s i (.echoRep (token.toNat % 256) turn)))) ∧
    (∀ s port (low : BitVec 8) (turn trip : Nat) i t, sideOfPort s (portNum port) = some i → (rside s i).token = some t → t % 256 = low.toNat →
      let asym := toSigned 16 (s.get (if i = 0 then F.RING_ASYM_E else F.RING_ASYM_W))
      let v := s.modSide i fun r =>
        { r with token := none, delays := ((((trip : Int) - (turn : Int)) * 78125 + asym * 3072) :: r.delays).take 16 }
      let l := (rside v i).delays
      ∀ w d, v.approx (l.foldl (· + ·) 0) (2 * 3072 * l.length) = (w, d) →
      exec (.echoReply port low turn trip) s =
        .next (settle s (w.put (if i = 0 then F.RING_LINK_E_DELAY else F.RING_LINK_W_DELAY) d.toNat))) ∧
    (∀ s elapsed, isMaster s = true → s.angRun = true → angleOf s.ang.stamp / 2 ^ 16 ≠ 0 →
      exec (.markSend elapsed) s = .next (settle s ((sendOwn (sendOwn s 0 (.mark (angleOf s.ang.stamp / 2 ^ 16) elapsed)) 1
        (.mark (angleOf s.ang.stamp / 2 ^ 16) elapsed)).forEach (below 4) releaseDue))) ∧
    (∀ s, isMaster s = true → s.angRun = false →
      exec .angleIdleSend s = .next (settle s (originateBoth s 0xFFFF 2 0 (angleBytes s)))) ∧
    (∀ s port idx (elapsed residence spacing : Nat) (turned : Bool) i u ps, sideOfPort s (portNum port) = some i → sideUp s i = true →
      wrapped s i = false → isMaster s = true → s.approx (elapsed * 78125) 3072 = (u, ps) →
      exec (.angleMark port idx elapsed residence spacing turned) s = .next (settle s (syncAligned
        ((if turned then abortDiscovery (u.putB F.RING_MSTATUS_WRAPPED turned) 1 else u.putB F.RING_MSTATUS_WRAPPED turned).put (if (i == 1) != turned then F.RING_LOOP_E_LOOP else F.RING_LOOP_W_LOOP)
          (min 0xFFFFFFFF ps.toNat))))) ∧
    (∀ s, s.get F.ANG_CFG_SRC = 2 → isMaster s = false → s.flag F.RING_STATUS_MARK_OTHER = false →
      exec .markPathSwitch s = .next (settle s (ringEvt ((s.put F.RING_STATUS_MARK_OTHER 1).modRing fun r => { r with homeRun := 0 })
        F.RING_EVT_MARK_PATH 8))) ∧
    (∀ s port cell age i u, sideOfPort s (portNum port) = some i → sideUp s i = true → wrapped s i = false →
      isMaster s = false ∨ payNat cell 12 4 = s.get F.RING_MID_ID → receiveCell s port cell 2 = (u, true) →
      exec (.angle port cell age) s = .next (settle s (angleCell u cell age))) ∧
    (∀ s port cell age i, sideOfPort s (portNum port) = some i → sideUp s i = true → wrapped s i = false →
      isMaster s = true → payNat cell 12 4 ≠ s.get F.RING_MID_ID →
      (cell.m = true → exec (.angle port cell age) s = .next (settle s (twoMasters s (payNat cell 12 4)))) ∧
      (cell.m = false → exec (.angle port cell age) s = .next (settle s (twoMasters
        (forwardOn s (1 - i) (.cell (forwarded s { cell with kind := 2 }) true)) (payNat cell 12 4))))) ∧
    (∀ s cell age, isMaster s = true → angleCell s cell age = s) ∧
    (∀ s cell age, isMaster s = false → bitOf (payNat cell 10 1) 2 = false →
      angleCell s cell age = s.putB F.RING_STATUS_MASTER_HOLD (bitOf (payNat cell 10 1) 0)) ∧
    (∀ s cell age, isMaster s = false → s.angRun = true →
      let acc := (payStamp cell 0).toNat * 2 ^ 22 + age * s.get F.ANG_INC_INC
      (0 ≤ toSigned 48 (ofSigned 48 ((s.ang.stamp.toNat : Int) - ((BitVec.ofNat 48 (acc / 2 ^ 22)).toNat : Int)))) →
      (angleCell s cell age).ang.stamp = s.ang.stamp) ∧
    (∀ s port (idx : Fin 16) (elapsed residence spacing : Nat) turned i u units, sideOfPort s (portNum port) = some i → sideUp s i = true →
      wrapped s i = false → isMaster s = false → linkUnits (masterSeen s) i = (u, units) →
      let v := forwardOn u (1 - i) (.mark idx (elapsed + units + residence))
      v.get F.ANG_CFG_SRC ≠ 2 →
      exec (.angleMark port idx elapsed residence spacing turned) s = .next (settle s (syncAligned v)))) ∧
  (∀ (s : State), exec .echoRequestSend s = .next (settle s (echoSend s))) ∧
  (∀ (s : State) (port : RingPort) (token : BitVec 24) (turn : Nat),
    exec (.echoRequest port token turn) s =
      .next (settle s (echoAnswer s (portNum port) token.toNat turn))) ∧
  (∀ (s : State) (port : RingPort) (low : BitVec 8) (turn trip : Nat),
    exec (.echoReply port low turn trip) s =
      .next (settle s (echoReply s (portNum port) low.toNat turn trip))) ∧
  (∀ (s : State) (elapsed : Nat), exec (.markSend elapsed) s = .next (settle s (markSend s elapsed))) ∧
  (∀ (s : State), exec .angleIdleSend s = .next (settle s (angleIdleSend s))) ∧
  (∀ (s : State) (port : RingPort) (index : Fin 16) (elapsed residence spacing : Nat) (turned : Bool),
    exec (.angleMark port index elapsed residence spacing turned) s =
      .next (settle s (syncAligned (angleMark s (portNum port) index elapsed residence spacing turned)))) ∧
  (∀ (s : State), exec .markPathSwitch s = .next (settle s (markSwitch s))) ∧
  (∀ (s : State) (port : RingPort) (cell : RingCell) (age : Nat), exec (.angle port cell age) s = .next (settle s (angleArrives s port cell age)))

/-- R418, R419, R429, R441: discovery at a node that is counted, and its wait; a request at the master and a grant at a node; the master
is lost.
R424, R425, R426: a COMMAND cell of the master and of another node; a reply, an event and a telemetry cell leave. R411, R413: the bytes of a cell and the code groups that
carry it, closed by /EOF/ or /EOFX/.
The clauses at the end: the effect of each row from every state. -/
def Obligations.RingTraffic : Prop :=
  ((∀ s port cell loopPs i, sideOfPort s (portNum port) = some i → sideUp s i = true → wrapped s i = false → isMaster s = false →
      payNat cell 0 1 = 0 →
      exec (.discover port cell loopPs) s = .next (settle s (assignAddr (forwardOn (masterSeen s) (1 - i)
        (.cell { forwarded (masterSeen s) cell with
          kind := 1, payload := payload ([0, 0] ++ beBytes 2 (payNat cell 2 2 + 1) ++ beBytes 4 (payNat cell 4 4)) } true))
        (payNat cell 2 2)))) ∧
    (∀ s, s.ring.disc.isSome = true → exec .discoveryTimeout s = .next (settle s
      (finishC (ringEvt ((s.modRing fun r => { r with disc := none }).put F.RING_MSTATUS_DISC_BUSY 0) F.RING_EVT_DISC_DONE 13)
        (fun c => c.opcode == 0x0501) stAborted (refusalWords noWord 3)))) ∧
    (∀ s, s.ring.disc = none → exec .discoveryTimeout s = .next (settle s s)) ∧
    (∀ s port cell u, receiveCell s port cell 0xE = (u, true) →
      (isMaster u = true → exec (.admission port cell) s =
        .next (settle s (masterAdmit u cell.src.toNat (payNat cell 0 4) (payNat cell 4 4)))) ∧
      (isMaster u = false → exec (.admission port cell) s =
        .next (settle s (takeGrant u (bitOf (payNat cell 0 1) 0) (bitOf (payNat cell 0 1) 1) (payNat cell 4 4))))) ∧
    (∀ s, isMaster s = false →
      (s.flag F.RING_STATUS_MASTER_SEEN = true → exec .masterLost s = .next (settle s
        ((ringEvt (s.put F.RING_STATUS_MASTER_SEEN 0) F.RING_EVT_MASTER_LOST 11).raiseOnce 84 0 1 0 0))) ∧
      (s.flag F.RING_STATUS_MASTER_SEEN = false → exec .masterLost s = .next (settle s (s.raiseOnce 84 0 1 0 0)))) ∧
    (∀ s, isMaster s = true → exec .masterLost s = .next (settle s s))) ∧
  ((∀ s port cell u, receiveCell s port cell 3 = (u, true) → isMaster u = false → ringAddr u ≠ 0xFFFF →
      (cell.src = 0#16 → exec (.command port cell) s = .next (settle s (fragment u cell))) ∧
      (cell.src ≠ 0#16 → bitOf (payNat cell 0 1) 7 = true → exec (.command port cell) s =
        .next (settle s ((u.addSat (F.CMD_Pp_ERR_BAD_FORMAT 1)).evtBit F.CMD_EVT_FOREIGN 201))) ∧
      (cell.src ≠ 0#16 → bitOf (payNat cell 0 1) 7 = false → exec (.command port cell) s = .next (settle s u))) ∧
    (∀ s i rest, s.eng.outRing = i :: rest → mayOriginate s = true → canSend s = true → isMaster s = false →
      exec .reply s = .next (settle s (((replyFragments 21 (itemBytes i).length 0 (itemBytes i)).foldl
        (fun s f => originate s 0 4 3 f) s).modEng fun e => { e with outRing := rest }))) ∧
    (∀ s e f rest, s.evq = e :: f :: rest → mayOriginate s = true → canSend s = true →
      s.get F.SEC_STATE_SECURITY ≠ 3 →
      exec .event s = .next (settle s (originate { s with evq := f :: rest } 0 5 4
        ([e.ev, 0] ++ stampBytes e.stamp ++ (below 8).flatMap fun g => beBytes 4 (s.reg (R.EVT_Gg_STATUS g)))))) ∧
    (∀ s, s.flag F.RING_PUB_CFG_EN = true → s.flag F.RING_GRANT_PUB_OK = true → mayOriginate s = true → s.security ≠ secRetired →
      exec .telemetry s = .next (settle s ((originate s 0 6 5
        (stampBytes s.ang.stamp ++ beBytes 2 s.ring.pubs ++ (below 12).flatMap fun k => beBytes 4 (pubValue s k))).modRing fun r =>
          { r with pubs := (r.pubs + 1) % 65536 }))) ∧
    (∀ c : RingCell, cellBody c = beBytes 2 c.dest.toNat ++ beBytes 2 c.src.toNat ++
      [c.kind.toNat * 16 + (if c.m then 8 else 0) + c.cls.toNat, c.hop.toNat] ++ beBytes 2 c.seq.toNat ++ natBytes c.payload ∧
      (cellBody c).length = 8 + c.payload.length) ∧
    (∀ (c : RingCell) good, itemGroups (.cell c good) = [kCode 0xFB, dCode 0xB5] ++
      (cellBody c ++ beBytes 4 (crc32 (cellBody c))).map dCode ++ [kCode 0xFD, kCode (if good then 0xF7 else 0xFE)])) ∧
  (∀ (s : State) (port : RingPort) (cell : RingCell) (loopPs : Nat),
    exec (.discover port cell loopPs) s =
      .next (settle s (discoverCell s port cell loopPs))) ∧
  (∀ (s : State), exec .discoveryTimeout s = .next (settle s (discoveryTimeout s))) ∧
  (∀ (s : State) (port : RingPort) (cell : RingCell), exec (.command port cell) s = .next (settle s (commandCell s port cell))) ∧
  (∀ (s : State), exec .reply s = .next (settle s (replySend s))) ∧
  (∀ (s : State), exec .event s = .next (settle s (eventSend s))) ∧
  (∀ (s : State), exec .telemetry s = .next (settle s (telemetry s))) ∧
  (∀ (s : State) (port : RingPort) (cell : RingCell), exec (.admission port cell) s = .next (settle s (cellRow s port cell 0xE (admitCell · cell)))) ∧
  (∀ (s : State), exec .masterLost s = .next (settle s (masterLost s)))

/-- R181, R430, R431, R444: barriers: an arrival at the master, known or not; a repeat; a release at a node; the writes of an entry; an
entry that clears itself.
R432, R433: a request of a ring-wide Folio that a node takes, and one it has; an acknowledgement at the master.
The clauses at the end: the effect of each row from every state. -/
def Obligations.RingBarriers : Prop :=
  ((∀ s port cell u, receiveCell s port cell 7 = (u, true) → isMaster u = true →
      exec (.arrival port cell) s = .next (settle s (masterArrival u (payNat cell 0 1) (bitOf (payNat cell 1 1) 0)
        (bitOf (payNat cell 1 1) 1) (payNat cell 2 2) cell.src.toNat))) ∧
    (∀ s bar hold twin pair addr, ((below 4).any fun k => s.flag (F.RING_BARk_CFG_VALID k) && s.get (F.RING_BARk_CFG_BAR_ID k) == bar) = false →
      masterArrival s bar hold twin pair addr = (ringEvt s F.RING_EVT_BAR_UNKNOWN 15).raiseMomentary 89 0 0 bar) ∧
    (∀ s (q : Fin 16), (s.qu q).phase = .bar none → exec (.arrivalRepeat q) s = .next (settle s (sendArrival s q))) ∧
    (∀ s port cell u, receiveCell s port cell 8 = (u, true) →
      exec (.release port cell) s = .next (settle s (releaseBarrier
        (if waitsOn u (payNat cell 0 1) && u.angRun && stampReached u.ang.stamp (payStamp cell 2) then ringEvt u F.RING_EVT_BAR_LATE 10 else u)
        (payNat cell 0 1) (payStamp cell 2)))) ∧
    (∀ s p (k : Fin 4), writable s p (R.RING_BARk_CTRL k) 2 = true →
      exec (.ringBarForce p k) s = .next (settle s (forceEntry (written s (R.RING_BARk_CTRL k) 2) k))) ∧
    (∀ s p (k : Fin 4), writable s p (R.RING_BARk_CTRL k) 1 = true →
      exec (.ringBarClear p k) s = .next (settle s (clearEntry (written s (R.RING_BARk_CTRL k) 1) k))) ∧
    (∀ s p (k : Fin 4) (v : Word), writable s p (R.RING_BARk_CFG k) v.toNat = true →
      exec (.ringBarCfgWrite p k v) s = .next (settle s (clearEntry (written s (R.RING_BARk_CFG k) v.toNat) k))) ∧
    (∀ s (k : Fin 4), isMaster s = true → barState s k = 2 → s.flag (F.RING_BARk_CFG_AUTO_CLR k) = true →
      stampReached s.ang.stamp (barStamp s k) = true →
      exec (.barrierAutoClear k) s = .next (settle s ((s.setReg (R.RING_BARk_STATUS k) 0).modBar k fun _ => ⟨[], false⟩))) ∧
    (∀ s k forced, s.angRun = false → releaseEntry s k forced = s) ∧
    (∀ s k, (barState s k = 1 → forceEntry s k = releaseEntry s k true) ∧ (barState s k ≠ 1 → forceEntry s k = s)) ∧
    (∀ s k, (barState s k = 1 → s.get (F.RING_BARk_EXPECT_COUNT k) ≠ 0 →
      s.get (F.RING_BARk_EXPECT_COUNT k) ≤ (rbar s k).keys.length → releaseDue s k = releaseEntry s k false) ∧
      (barState s k ≠ 1 ∨ (rbar s k).keys.length < s.get (F.RING_BARk_EXPECT_COUNT k) → releaseDue s k = s))) ∧
  ((∀ s port cell u, receiveCell s port cell 9 = (u, true) →
      u.ring.folioLast = some (payNat cell 0 2, payStamp cell 2) →
      exec (.folio port cell) s = .next (settle s u)) ∧
    (∀ s port cell u, receiveCell s port cell 9 = (u, true) →
      u.ring.folioLast ≠ some (payNat cell 0 2, payStamp cell 2) →
      u.flag F.FOLIO_STATUS_ARMED = true → u.ring.folioArmed ≠ some (payNat cell 0 2, payStamp cell 2) →
      exec (.folio port cell) s = .next (settle s (originate (folioEvent u F.FOLIO_EVT_AT_REFUSED 4) 0 0xA 1
        (beBytes 2 (payNat cell 0 2) ++ [2])))) ∧
    (∀ s port cell u, receiveCell s port cell 0xA = (u, true) → isMaster u = true → u.flag F.RING_RF_STATUS_ACTIVE = true →
      payNat cell 0 2 = u.get F.RING_RF_STATUS_ID →
      (payNat cell 2 1 = 1 → exec (.folioAck port cell) s = .next (settle s (u.addSat F.RING_RF_CNT_ARMED))) ∧
      (payNat cell 2 1 = 2 → exec (.folioAck port cell) s = .next (settle s (u.addSat F.RING_RF_CNT_REFUSED))) ∧
      (payNat cell 2 1 = 3 → exec (.folioAck port cell) s = .next (settle s (u.addSat F.RING_RF_LATE_LATE))))) ∧
  (∀ (s : State) (port : RingPort) (cell : RingCell), exec (.arrival port cell) s = .next (settle s (cellRow s port cell 7 (arrivalCell · cell)))) ∧
  (∀ (s : State) (quire : Fin 16), exec (.arrivalRepeat quire) s = .next (settle s (arrivalRepeat s quire))) ∧
  (∀ (s : State) (port : RingPort) (cell : RingCell), exec (.release port cell) s = .next (settle s (cellRow s port cell 8 (releaseCell · cell)))) ∧
  (∀ (s : State) (port : Port) (bar : Fin 4), exec (.ringBarForce port bar) s = .next (settle s (writeRow s port (R.RING_BARk_CTRL bar) 2))) ∧
  (∀ (s : State) (port : Port) (bar : Fin 4), exec (.ringBarClear port bar) s = .next (settle s (writeRow s port (R.RING_BARk_CTRL bar) 1))) ∧
  (∀ (s : State) (port : Port) (bar : Fin 4) (value : Word),
    exec (.ringBarCfgWrite port bar value) s =
      .next (settle s (writeRow s port (R.RING_BARk_CFG bar) value.toNat))) ∧
  (∀ (s : State) (bar : Fin 4), exec (.barrierAutoClear bar) s = .next (settle s (barAutoClear s bar))) ∧
  (∀ (s : State) (port : RingPort) (cell : RingCell), exec (.folio port cell) s = .next (settle s (cellRow s port cell 9 (folioRequest · cell)))) ∧
  (∀ (s : State) (port : RingPort) (cell : RingCell), exec (.folioAck port cell) s = .next (settle s (cellRow s port cell 0xA (folioAck · cell))))

/-! ### The Fulon engine (spec/14_command_engine.md) -/

/-- R357 to R359: SPI transactions. MISO carries the port status word first; a WRITE presents its packet; a READ carries the item at
the head of the queue, which leaves once every byte of it was clocked; a framing error is a FRAME notice, and shows in the next status.
R365: a packet with a good length, CRC and format whose tag is free and that no check refuses is accepted: it is counted, joins the
admitted commands in order of acceptance (R369), and moves the authentication sequence (R455, R457); one that a check refuses is counted and answered, with a notice or with its reply.
The clauses at the end: the effect of each row from every state. -/
def Obligations.HostPackets : Prop :=
  ((∀ s, spiSilent s = false →
      exec (.spiStatus [0, 0, 0, 0] 0) s = .next (settle s (s.modEng fun e =>
        { e with miso := toBytes (beBytes 4 (spiStatusWord s)), frameErr := false }))) ∧
    (∀ s body, spiSilent s = false →
      exec (.spiWrite (0x5A :: 0 :: 0 :: 0 :: body) 0) s = .next (settle s (acceptPacket (s.modEng fun e =>
        { e with miso := toBytes (beBytes 4 (spiStatusWord s) ++ List.replicate body.length 0), frameErr := false }) .host (natBytes body)))) ∧
    (∀ s body i rest, spiSilent s = false → s.eng.outHost = i :: rest →
      exec (.spiRead (0xA5 :: 0 :: 0 :: 0 :: body) 0) s = .next (settle s (s.modEng fun e =>
        { e with miso := toBytes (beBytes 4 (spiStatusWord s) ++ (itemBytes i ++ List.replicate body.length 0).take body.length)
                 frameErr := false
                 outHost := if (itemBytes i).length ≤ body.length then rest else i :: rest }))) ∧
    (∀ s b0 b1 b2 b3 body extra, spiSilent s = false → b0 = 0x5A ∨ b0 = 0xA5 → ¬(b1 = 0 ∧ b2 = 0 ∧ b3 = 0) ∨ extra ≠ 0 →
      exec (.spiWrite (b0 :: b1 :: b2 :: b3 :: body) extra) s = .next (settle s (frameNotice (s.modEng fun e =>
        { e with miso := toBytes (beBytes 4 (spiStatusWord s) ++ (spiTail s (b0 :: b1 :: b2 :: b3 :: body)).2), frameErr := true })
        .host stBadFormat (natBytes (b0 :: b1 :: b2 :: b3 :: body)) true)))) ∧
  (∀ s p b, s.flag F.CMD_STATUS_ENGINE_UP = true →
      (packetLengthOk b = false → acceptPacket s p b = refuseNotice s p stBadFormat b) ∧
      (packetLengthOk b = true → packetCrcOk b = false → acceptPacket s p b = refuseNotice s p stBadCrc b) ∧
      (packetLengthOk b = true → packetCrcOk b = true → packetFormatOk b = false → acceptPacket s p b = refuseNotice s p stBadFormat b) ∧
      (packetLengthOk b = true → packetCrcOk b = true → packetFormatOk b = true →
        (tagInUse s p (parsePacket b).tag = true → acceptPacket s p b = refuseNotice s p stTagInUse b) ∧
        (tagInUse s p (parsePacket b).tag = false →
          (acceptRefusal s p (parsePacket b) = none → (parsePacket b).auth = false →
            acceptPacket s p b = ((s.addWrap (F.CMD_Pp_ACC_ACCEPTED (portIdx p))).endCond 69 (portIdx p)).modEng fun e =>
              { e with cmds := e.cmds ++ [packetCmd s p (parsePacket b)] }) ∧
          (acceptRefusal s p (parsePacket b) = none → (parsePacket b).auth = true →
            acceptPacket s p b = (authAccepted ((s.addWrap (F.CMD_Pp_ACC_ACCEPTED (portIdx p))).endCond 69 (portIdx p)) p (parsePacket b).seq).modEng fun e =>
              { e with cmds := e.cmds ++ [packetCmd s p (parsePacket b)] }) ∧
          (∀ st, acceptRefusal s p (parsePacket b) = some st → st ≠ stAuthFail → st ≠ stAuthReplay → st ≠ stBusy →
            acceptPacket s p b = (s.addSat (F.CMD_Pp_ACC_REFUSED (portIdx p))).queueItem p
              { mkReply s (packetCmd s p (parsePacket b)) true st (refusalWords noWord 0) with epoch := 0, epochTime := false })))) ∧
  (∀ (s : State) (mosi : List Byte) (extra : Fin 8), exec (.spiStatus mosi extra) s = .next (settle s (spiTransaction s mosi extra))) ∧
  (∀ (s : State) (mosi : List Byte) (extra : Fin 8), exec (.spiWrite mosi extra) s = .next (settle s (spiTransaction s mosi extra))) ∧
  (∀ (s : State) (mosi : List Byte) (extra : Fin 8), exec (.spiRead mosi extra) s = .next (settle s (spiTransaction s mosi extra)))

/-- R369, R375, R376: COMMAND_EXECUTE starts the first admitted command that may start; EPOCH_BOUNDARY numbers the boundary, commits what
is staged in admission order, and takes the image that the next epoch's reads see. R379: a write of MODE makes a change pending, and the switch completes it.
The clauses at the end: the effect of each row from every state. -/
def Obligations.CommandDelivery : Prop :=
  ((∀ s c, s.flag F.CMD_STATUS_ENGINE_UP = true → s.eng.cmds.find? (mayStart s) = some c →
      exec .commandExecute s = .next (settle s (startCmd s c))) ∧
    (∀ s, s.rst.phase = .engine ∨ s.rst.phase = .up → epochDue s = true →
      (let u := (s.put F.CMD_EPOCH_NUMBER (nextEpoch s)).modEng fun e =>
         { e with epochs := timeEpochs s, angLast := angleEpoch s, byTime := epochByTime s }
       let t := s.eng.cmds.foldl commitCmd u
       exec .epochBoundary s = .next (settle s (t.modEng fun e =>
         { e with images := (⟨t.get F.CMD_EPOCH_NUMBER, imageRegs t⟩ :: e.images).take 2 })))) ∧
    (∀ s, epochDue s = false → exec .epochBoundary s = .next (settle s s)) ∧
    (∀ s, (epochByTime s = true → (epochDue s = true ↔ s.eng.epochs < (s.tclk - s.eng.epochT0) / 1024) ∧
        nextEpoch s = (s.tclk - s.eng.epochT0) / 1024) ∧
      (epochByTime s = false → (epochDue s = true ↔ s.ang.stamp.toNat / 2 ^ 14 % 2 ^ 32 ≠ s.eng.angLast) ∧
        nextEpoch s = s.ang.stamp.toNat / 2 ^ 14 % 2 ^ 32)) ∧
    (∀ s p target (v : Word), writable s p (R.CMD_Pp_CFG (portIdx target)) v.toNat = true →
      (let t := written s (R.CMD_Pp_CFG (portIdx target)) v.toNat
       exec (.deliveryModeWrite p target v) s = .next (settle s (t.putB (F.CMD_Pp_STATUS_CHANGING (portIdx target))
         (t.get (F.CMD_Pp_CFG_MODE (portIdx target)) != t.get (F.CMD_Pp_STATUS_MODE_ACTIVE (portIdx target))))))) ∧
    (∀ s p, s.flag (F.CMD_Pp_STATUS_CHANGING (portIdx p)) = true → (∀ c ∈ s.eng.cmds, c.port ≠ p) →
      exec (.deliveryModeSwitch p) s = .next (settle s (((s.put (F.CMD_Pp_STATUS_MODE_ACTIVE (portIdx p))
        (s.get (F.CMD_Pp_CFG_MODE (portIdx p)))).put (F.CMD_Pp_STATUS_CHANGING (portIdx p)) 0).evtBit F.CMD_EVT_MODE_CHANGED 199)))) ∧
  (∀ (s : State), exec .commandExecute s = .next (settle s (executeNext s))) ∧
  (∀ (s : State), exec .epochBoundary s = .next (settle s (epochBoundary s))) ∧
  (∀ (s : State) (port : Port) (target : Port) (value : Word),
    exec (.deliveryModeWrite port target value) s =
      .next (settle s (writeRow s port (R.CMD_Pp_CFG (portIdx target)) value.toNat))) ∧
  (∀ (s : State) (port : Port), exec (.deliveryModeSwitch port) s = .next (settle s (modeSwitch s port)))

/-- R380 to R382: the causes of an engine restart, what its start does, and its completion: the abandoned commands leave, the engine runs, and each
port has a RESTART notice with the abandoned tags.
The clauses at the end: the effect of each row from every state. -/
def Obligations.EngineRestarts : Prop :=
  ((∀ s, s.flag F.CMD_STATUS_ENGINE_UP = true →
      exec .lockstepMismatch s = .next (settle s (engineRestart ((s.addSat F.CMD_CNT_LOCKSTEP).raise 64 0 2 0 0) 1))) ∧
    (∀ s, s.flag F.CMD_STATUS_ENGINE_UP = true → s.get F.SEC_STATE_DEBUG ≠ 2 →
      exec .engineWatchdog s = .next (settle s (engineRestart (s.raiseOnce 65 0 1 0 0) 2))) ∧
    (∀ s, s.eng.restartPend = true → exec .commandedRestartStart s = .next (settle s (engineRestart s 3))) ∧
    (∀ s cause, s.flag F.CMD_STATUS_ENGINE_UP = true →
      engineRestart s cause = abortSounding (((((s.put F.CMD_STATUS_ENGINE_UP 0).put F.CMD_STATUS_RESTARTING 1).addSat
        F.CMD_CNT_RESTARTS).modEng fun e =>
          { e with restart := some cause, restartPend := false, cmds := e.cmds.map fun c => { c with phase := .abandoned } }).forEach
        (below 64) fun s n => abortTest s n 9 false false)) ∧
    (∀ s cause, s.eng.restart = some cause →
      (let gone := fun (p : Port) => (s.eng.cmds.filter fun c => c.port == p && c.phase == .abandoned).map (·.tag)
       let t := (patchCheck s).modEng fun e => { e with restart := none, cmds := e.cmds.filter fun c => c.phase != .abandoned }
       let t := (((forceDebugOff t).endCond 65 0).put F.CMD_STATUS_ENGINE_UP 1).put F.CMD_STATUS_RESTARTING 0
       let w : Word := BitVec.ofNat 32 (cause * 2 ^ 24 + t.get F.CMD_CNT_RESTARTS)
       exec .engineRestartComplete s = .next (settle s
         ((queueNotice (queueNotice t .host 0xFF01 stEngineRestart (w :: tagWords (gone .host))) .ring 0xFF01 stEngineRestart
           (w :: tagWords (gone .ring))).evtBit F.CMD_EVT_RESTART 192))))) ∧
  (∀ (s : State), exec .lockstepMismatch s = .next (settle s (lockstepMismatch s))) ∧
  (∀ (s : State), exec .engineWatchdog s = .next (settle s (engineWatchdog s))) ∧
  (∀ (s : State), exec .engineRestartComplete s = .next (settle s (restartComplete s))) ∧
  (∀ (s : State), exec .commandedRestartStart s = .next (settle s (commandedRestart s)))

/-- R2, R394: REGISTER_WRITE at any address: a write that nothing refuses stores the fields that take a value, clears the W1C bits written 1, and its block acts; one that is refused,
or that lies in a register absent here, changes nothing, but for CFG_ERR of a Bench whose start is refused (R127).
The clauses at the end: the effect of each row from every state. -/
def Obligations.RegisterWrites : Prop :=
  ((∀ s p a (v : Word), writable s p a v.toNat = true →
      exec (.registerWrite p a v) s = .next (settle s
        (regHook (written s a v.toNat) a (s.reg (elementOf s a)) v.toNat))) ∧
    (∀ s a v d, regDefAt a = some d →
      (written s a v).reg (elementOf s a) = mergeWrite d a (s.reg (elementOf s a)) v % 2 ^ 32 ∧
      ∀ b, b ≠ elementOf s a → (written s a v).reg b = s.reg b) ∧
    (∀ s p a (v : Word) d st, regDefAt a = some d → absentHere s a = false → writeAdmitted s a = true →
      writeRefusal s p d a v.toNat = some st → st ≠ stBenchRefused → exec (.registerWrite p a v) s = .next (settle s s)) ∧
    (∀ s p a (v : Word), absentHere s a = true → exec (.registerWrite p a v) s = .next (settle s s))) ∧
  (∀ (s : State) (port : Port) (address : Nat) (value : Word),
    exec (.registerWrite port address value) s =
      .next (settle s (writeRow s port address value.toNat)))

/-! ### The commands (spec/15_command_reference.md) -/

/-- R389: the checks before an opcode's own, in order, and the status with which each refuses: the security state, the parameters, the
mode, the role, the addresses. R391, R370: a refusal and an `OK` are final replies: the command leaves its slot, and a reply in time ends the
promise missed fault's condition for its port and class (R386). -/
def Obligations.CommandChecks : Prop :=
  (∀ s c, opSecurity c.opcode (portSecurity s c.port) = false → runCmd s c = refuse s c stSecurityState) ∧
  (∀ s c k, opSecurity c.opcode (portSecurity s c.port) = true → paramFault c = some k → runCmd s c = refuse s c stBadParam k) ∧
  (∀ s c, opSecurity c.opcode (portSecurity s c.port) = true → paramFault c = none → opMode c.opcode s.mode = false →
    (s.mode = mHoldup → runCmd s c = refuse s c stHoldup) ∧ (s.mode ≠ mHoldup → runCmd s c = refuse s c stWrongMode)) ∧
  (∀ s c, opSecurity c.opcode (portSecurity s c.port) = true → paramFault c = none → opMode c.opcode s.mode = true →
    opDagger c.opcode = true → 2 ≤ twinRole s → runCmd s c = refuse s c stTwinStandby) ∧
  (∀ s c k a, opSecurity c.opcode (portSecurity s c.port) = true → paramFault c = none → opMode c.opcode s.mode = true →
    opDagger c.opcode = false ∨ twinRole s < 2 → (namedAddrs c).find? (fun x => !addrOk x.2) = some (k, a) →
    runCmd s c = refuse s c stBadAddress k) ∧
  (∀ s c, checksPass s c = true → runCmd s c = runOpcode s c) ∧
  (∀ s c status words, isLate (dropCmd s c) c = false →
    done s c status words = ((dropCmd s c).queueItem c.port (mkReply (dropCmd s c) c true status words)).endCond 68
      (portIdx c.port + 4 * (opClass c.opcode).getD 0)) ∧
  (∀ s c, (∀ d ∈ (dropCmd s c).eng.cmds, ¬(d.port = c.port ∧ d.tag = c.tag)) ∧ (dropCmd s c).eng.outHost = s.eng.outHost ∧
    (dropCmd s c).eng.outRing = s.eng.outRing ∧ (dropCmd s c).regs = s.regs) ∧
  (∀ s c status bad reason, refuse s c status bad reason = done s c status [BitVec.ofNat 32 bad, BitVec.ofNat 32 reason])

/-- R392, R393, R485, R395: STATUS, ECHO, COLOPHON_READ, the reads and writes of registers, and the restarts that follow their reply.
The clauses at the end: the effect of each row from every state. -/
def Obligations.AccessCommands : Prop :=
  (rowDoes .status 0x0001 (fun _ _ => True) (fun a c => okReply a c (statusWords a a)) ∧
    rowDoes .echo 0x0002 (fun _ _ => True) (fun a c => okReply a c c.params) ∧
    rowDoes .colophonRead 0x0003 (fun _ _ => True) (fun a c =>
      okReply (readAll a c ((below 32).map (4 * ·))).1 c (readAll a c ((below 32).map (4 * ·))).2) ∧
    rowDoes .regRead 0x0010 (fun _ _ => True) (fun a c =>
      okReply (readAll a c ((below c.params.length).map c.p)).1 c (readAll a c ((below c.params.length).map c.p)).2) ∧
    rowDoes .regReadBlock 0x0011 (fun _ _ => True) (fun a c =>
      okReply (readAll a c ((below (c.p 1)).map fun k => c.p 0 + 4 * k)).1 c (readAll a c ((below (c.p 1)).map fun k => c.p 0 + 4 * k)).2) ∧
    rowDoes .regWrite 0x0012 (fun a c => writeFault a c.port (namedWrites a c) = none) (fun a c =>
      okReply ((below (c.params.length / 2)).foldl (fun s k => (regWrite s c.port (c.p (2 * k)) (c.p (2 * k + 1))).1) a) c []) ∧
    rowDoes .regWriteList 0x0013 (fun a c => writeFault a c.port (namedWrites a c) = none) (fun a c =>
      okReply ((below (c.params.length / 2)).foldl (fun s k => (regWrite s c.port (c.p (2 * k)) (c.p (2 * k + 1))).1) a) c []) ∧
    rowDoes .regModify 0x0014 (fun a c => writeFault a c.port (namedWrites a c) = none) (fun a c =>
      okReply (modifyAll a c (below (c.params.length / 3))).1 c (modifyAll a c (below (c.params.length / 3))).2) ∧
    rowDoes .engineRestart 0x0700 (fun _ _ => True) (fun a c => (okReply a c []).modEng fun e => { e with restartPend := true }) ∧
    rowDoes .reset 0x0701 (fun _ _ => True) (fun a c => (okReply a c []).modEng fun e => { e with resetPend := true })) ∧
  (∀ (s : State) (port : Port) (tag : BitVec 7) (params : List Word),
    exec (.status port tag params) s =
      .next (settle s (commandRow s port tag.toNat 0x0001 params))) ∧
  (∀ (s : State) (port : Port) (tag : BitVec 7) (params : List Word),
    exec (.echo port tag params) s =
      .next (settle s (commandRow s port tag.toNat 0x0002 params))) ∧
  (∀ (s : State) (port : Port) (tag : BitVec 7) (params : List Word),
    exec (.colophonRead port tag params) s =
      .next (settle s (commandRow s port tag.toNat 0x0003 params))) ∧
  (∀ (s : State) (port : Port) (tag : BitVec 7) (params : List Word),
    exec (.regRead port tag params) s =
      .next (settle s (commandRow s port tag.toNat 0x0010 params))) ∧
  (∀ (s : State) (port : Port) (tag : BitVec 7) (params : List Word),
    exec (.regReadBlock port tag params) s =
      .next (settle s (commandRow s port tag.toNat 0x0011 params))) ∧
  (∀ (s : State) (port : Port) (tag : BitVec 7) (params : List Word),
    exec (.regWrite port tag params) s =
      .next (settle s (commandRow s port tag.toNat 0x0012 params))) ∧
  (∀ (s : State) (port : Port) (tag : BitVec 7) (params : List Word),
    exec (.regWriteList port tag params) s =
      .next (settle s (commandRow s port tag.toNat 0x0013 params))) ∧
  (∀ (s : State) (port : Port) (tag : BitVec 7) (params : List Word),
    exec (.regModify port tag params) s =
      .next (settle s (commandRow s port tag.toNat 0x0014 params))) ∧
  (∀ (s : State) (port : Port) (tag : BitVec 7) (params : List Word),
    exec (.engineRestart port tag params) s =
      .next (settle s (commandRow s port tag.toNat 0x0700 params))) ∧
  (∀ (s : State) (port : Port) (tag : BitVec 7) (params : List Word),
    exec (.reset port tag params) s =
      .next (settle s (commandRow s port tag.toNat 0x0701 params)))

/-- R396 to R398: the changes of mode a command makes, the starts of Quires, and the resume of a HELD one.
The clauses at the end: the effect of each row from every state. -/
def Obligations.ModeCommands : Prop :=
  (rowDoes .modeSet 0x0100 (fun a c => c.p 0 % 8 = a.mode) (fun a c => okReply a c [BitVec.ofNat 32 a.mode]) ∧
    rowDoes .modeSet 0x0100 (fun a c => a.mode = mQuiescent ∧ c.p 0 % 8 = mCommission ∧ portSecurity a c.port = secUnsealed)
      (fun a c => okReply (setMode a mCommission) c [BitVec.ofNat 32 mCommission]) ∧
    rowDoes .modeSet 0x0100 (fun a c => a.mode = mCommission ∧ c.p 0 % 8 = mQuiescent ∧ portSecurity a c.port = secUnsealed ∧
        anyEnabled a = false) (fun a c => okReply (setMode a mQuiescent) c [BitVec.ofNat 32 mQuiescent]) ∧
    rowDoes .modeSet 0x0100 (fun a c => a.mode = mGuard ∧ c.p 0 % 8 = mService ∧
        (portSecurity a c.port = secUnsealed ∨ portSecurity a c.port = secEscorted))
      (fun a c => okReply ((setMode a mService).modSec fun x => { x with autoRet := bitOf (c.p 0) 8 }) c [BitVec.ofNat 32 mService]) ∧
    rowDoes .modeSet 0x0100 (fun a c => a.mode = mService ∧ c.p 0 % 8 = mGuard ∧ workAtAll (abortCals (abortWork a 8 false)) = false)
      (fun a c => okReply (setMode (abortCals (abortWork a 8 false)) mGuard) c [BitVec.ofNat 32 mGuard]) ∧
    rowDoes .seqStart 0x0101 (fun a c => (quireList (c.p 0 % 65536)).all (fun q => startReason a q (bitOf (c.p 0) 31) == 0) = true)
      (fun a c => okReply ((quireList (c.p 0 % 65536)).foldl (if bitOf (c.p 0) 31 then startDown else startUp) (endAuto a 3)) c
        [BitVec.ofNat 32 (c.p 0 % 65536)]) ∧
    rowDoes .quireResume 0x0102 (fun a c => qState a (c.p 0 % 16) = qHeld) (fun a c => okReply (resume a (c.p 0 % 16)) c [])) ∧
  (∀ (s : State) (port : Port) (tag : BitVec 7) (params : List Word),
    exec (.modeSet port tag params) s =
      .next (settle s (commandRow s port tag.toNat 0x0100 params))) ∧
  (∀ (s : State) (port : Port) (tag : BitVec 7) (params : List Word),
    exec (.seqStart port tag params) s =
      .next (settle s (commandRow s port tag.toNat 0x0101 params))) ∧
  (∀ (s : State) (port : Port) (tag : BitVec 7) (params : List Word),
    exec (.quireResume port tag params) s =
      .next (settle s (commandRow s port tag.toNat 0x0102 params)))

/-- R399, R400, R346, R468: calibrations, STORE, and the transfers of images; each class C command that goes on has its interim reply.
The clauses at the end: the effect of each row from every state. -/
def Obligations.ImageCommands : Prop :=
  (rowDoes .calZero 0x0200 (fun a c => bitOf (c.p 0) 31 = false ∧ railCalRefusal a (c.p 0 % 64) = none)
      (fun a c => startRailCal ((begin' a c).modMarg fun m => { m with svcWork := true }) (c.p 0 % 64) false) ∧
    rowDoes .calZero 0x0200 (fun a c => bitOf (c.p 0) 31 = true ∧ poolCalRefusal a (c.p 0 / 2 ^ 20 % 16) = none)
      (fun a c => startPoolCal ((begin' a c).modMarg fun m => { m with svcWork := true }) (c.p 0 / 2 ^ 20 % 16) (c.p 0 / 65536 % 4)
        (c.p 0 / 256 % 32) false) ∧
    rowDoes .calFull 0x0201 (fun a c => bitOf (c.p 0) 31 = false ∧ railCalRefusal a (c.p 0 % 64) = none ∧
        railTargetOk (a.get (F.RAILn_CAL_TARGET_VOLTS (c.p 0 % 64))) (railRatio a (c.p 0 % 64)) = true)
      (fun a c => startRailCal ((begin' a c).modMarg fun m => { m with svcWork := true }) (c.p 0 % 64) true) ∧
    rowDoes .calFull 0x0201 (fun a c => bitOf (c.p 0) 31 = true ∧ poolCalRefusal a (c.p 0 / 2 ^ 20 % 16) = none ∧
        poolTargetOk (a.getS F.POOL_CAL_TARGET_VOLTS) (c.p 0 / 65536 % 4) = true)
      (fun a c => startPoolCal ((begin' a c).modMarg fun m => { m with svcWork := true }) (c.p 0 / 2 ^ 20 % 16) (c.p 0 / 65536 % 4)
        (c.p 0 / 256 % 32) true) ∧
    rowDoes .store 0x0202 (fun a _ => a.flag F.NVM_STORE_BUSY = false)
      (fun a c => startStore (begin' a c) (bitOf (c.p 0) 0) (bitOf (c.p 0) 1)) ∧
    (∀ i bytes next target, rowDoes .imageWrite 0x0203 (fun a c => storeTarget a false = some i ∧
        joinChunk a.nvm.image c i = some (bytes, next, target) ∧ bitOf (c.p 0) 31 = false)
      (fun a c =>
        let t := dropTransfer a c isImageJob isImageCmd
        let t := setCopy t target { (vget t.nvm.copies target) with valid := false }
        addOp (begin' (t.modNvm fun v => { v with image := some (bytes, next, target) }) c) (.image none) (chunkPages c) (chunkUnits c 8))) ∧
    (∀ i bytes next target x, rowDoes .imageWrite 0x0203 (fun a c => storeTarget a false = some i ∧
        joinChunk a.nvm.image c i = some (bytes, next, target) ∧ bitOf (c.p 0) 31 = true ∧ parseCopy bytes = some x)
      (fun a c =>
        let t := dropTransfer a c isImageJob isImageCmd
        let t := setCopy t target { (vget t.nvm.copies target) with valid := false }
        addOp (begin' (t.modNvm fun v => { v with image := some (bytes, next, target) }) c) (.image (some (target, x))) (chunkPages c)
          (chunkUnits c 8))) ∧
    (∀ bytes next target, rowDoes .patchWrite 0x0204 (fun a c => joinChunk a.nvm.patchIn c 0 = some (bytes, next, target) ∧
        bitOf (c.p 0) 31 = false)
      (fun a c => addOp (begin' ((dropTransfer a c (fun j => j == .patch) isPatchCmd).modNvm fun v =>
        { v with patch := [], patchIn := some (bytes, next, target) }) c) .patch (chunkPages c) (chunkUnits c 4))) ∧
    (∀ bytes next target, rowDoes .patchWrite 0x0204 (fun a c => joinChunk a.nvm.patchIn c 0 = some (bytes, next, target) ∧
        bitOf (c.p 0) 31 = true ∧ patchFormatOk bytes = true)
      (fun a c => addOp (begin' ((((dropTransfer a c (fun j => j == .patch) isPatchCmd).modNvm fun v =>
        { v with patch := [], patchIn := some (bytes, next, target) }).modNvm fun v => { v with patch := bytes }).put F.CMD_PATCH_STATE 5) c)
        .patch (chunkPages c) (chunkUnits c 4))) ∧
    (∀ bytes next target, rowDoes .fuseProgram 0x0205 (fun a c => a.sec.hmValid = false ∧ a.sec.hmFail = false ∧ a.sec.job = none ∧
        joinChunk a.sec.imageIn c 0 = some (bytes, next, target) ∧ bitOf (c.p 0) 31 = false)
      (fun a c => okReply (a.modSec fun x => { x with imageIn := some (bytes, next, target) }) c [BitVec.ofNat 32 next])) ∧
    (∀ bytes next target, rowDoes .fuseProgram 0x0205 (fun a c => a.sec.hmValid = false ∧ a.sec.hmFail = false ∧ a.sec.job = none ∧
        joinChunk a.sec.imageIn c 0 = some (bytes, next, target) ∧ bitOf (c.p 0) 31 = true ∧ hallmarkOk bytes = true)
      (fun a c => (begin' (a.modSec fun x => { x with imageIn := some (bytes, next, target) }) c).modSec fun x =>
        { x with job := some .program }))) ∧
  (∀ (s : State) (port : Port) (tag : BitVec 7) (params : List Word),
    exec (.calZero port tag params) s =
      .next (settle s (commandRow s port tag.toNat 0x0200 params))) ∧
  (∀ (s : State) (port : Port) (tag : BitVec 7) (params : List Word),
    exec (.calFull port tag params) s =
      .next (settle s (commandRow s port tag.toNat 0x0201 params))) ∧
  (∀ (s : State) (port : Port) (tag : BitVec 7) (params : List Word),
    exec (.store port tag params) s =
      .next (settle s (commandRow s port tag.toNat 0x0202 params))) ∧
  (∀ (s : State) (port : Port) (tag : BitVec 7) (params : List Word),
    exec (.imageWrite port tag params) s =
      .next (settle s (commandRow s port tag.toNat 0x0203 params))) ∧
  (∀ (s : State) (port : Port) (tag : BitVec 7) (params : List Word),
    exec (.patchWrite port tag params) s =
      .next (settle s (commandRow s port tag.toNat 0x0204 params))) ∧
  (∀ (s : State) (port : Port) (tag : BitVec 7) (params : List Word),
    exec (.fuseProgram port tag params) s =
      .next (settle s (commandRow s port tag.toNat 0x0205 params)))

/-- R401 to R404: margin tests and Soundings, clears of faults, Folios, the Ledger, the switch-back, discovery, and ring-wide Folios.
The clauses at the end: the effect of each row from every state. -/
def Obligations.WorkCommands : Prop :=
  (rowDoes .marginTest 0x0300 (fun a c => marginRefusal a (c.p 0 % 64) (c.p 0 / 256 % 4) = none)
      (fun a c => startMargin (begin' a c) (c.p 0 % 64) (c.p 0 / 256 % 4)) ∧
    rowDoes .marginAbort 0x0301 (fun a c => testOwns a (c.p 0 % 64) = true)
      (fun a c => okReply (abortTest a (c.p 0 % 64) 8 false false) c [1]) ∧
    rowDoes .marginAbort 0x0301 (fun a c => testOwns a (c.p 0 % 64) = false) (fun a c => okReply a c [0]) ∧
    rowDoes .soundingStart 0x0302 (fun a _ => soundingRefusal a = none)
      (fun a c => startSounding (begin' a c [BitVec.ofNat 32 (soundingMs a)])) ∧
    rowDoes .soundingStop 0x0303 (fun a _ => a.marg.snd ≠ none) (fun a c => okReply (abortSounding a) c [1]) ∧
    rowDoes .soundingStop 0x0303 (fun a _ => a.marg.snd = none) (fun a c => okReply a c [0]) ∧
    rowDoes .soundingRead 0x0304 (fun a c => bitOf (c.p 0) 31 = false ∧ (vget a.marg.archive (c.p 0 % 64)).trend.getD (c.p 0 / 65536 % 512) [] ≠ [])
      (fun a c => okReply a c ((vget a.marg.archive (c.p 0 % 64)).trend.getD (c.p 0 / 65536 % 512) [])) ∧
    rowDoes .soundingRead 0x0304 (fun a c => bitOf (c.p 0) 31 = true ∧
        ((vget a.marg.archive (c.p 0 % 64)).full.take 10).getD (c.p 0 / 65536 % 512) [] ≠ [])
      (fun a c => okReply a c (((vget a.marg.archive (c.p 0 % 64)).full.take 10).getD (c.p 0 / 65536 % 512) [])) ∧
    rowDoes .faultClear 0x0400 (fun a c => portSecurity a c.port ≠ secSealed ∨ c.p 0 / 256 % 8 = 0)
      (fun a c => okReply (hostClear a (c.p 0)) c []) ∧
    (∀ t k, rowDoes .folioTake 0x0401 (fun a _ => latchFolio (folioTrigger a 1) = (t, some k))
      (fun _ c => okReply t c ([BitVec.ofNat 32 k] ++ ((vget t.folio.buf k).drop 1).take 2))) ∧
    rowDoes .folioArm 0x0402 (fun a _ => a.flag F.FOLIO_STATUS_ARMED = false) (fun a c =>
      let t := folioArm ((a.setReg R.FOLIO_AT_HI (c.p 0)).setReg R.FOLIO_AT_LO (c.p 1))
      okReply t c [if t.angRun && stampReached t.ang.stamp (stampOf (c.p 0) (c.p 1)) then 1 else 0]) ∧
    rowDoes .folioRead 0x0403 (fun _ _ => True) (fun a c => okReply a c (BitVec.ofNat 32 (bufState a (c.p 0 / 65536 % 4)) ::
      (below (c.p 1)).map fun i => BitVec.ofNat 32 (folioWord a (c.p 0 / 65536 % 4) (c.p 0 % 512 + i)))) ∧
    rowDoes .folioRelease 0x0404 (fun _ _ => True) (fun a c => okReply (folioRelease a (c.p 0 % 16)) c []) ∧
    (∀ slot words, rowDoes .ledgerRead 0x0405 (fun a c =>
        slot = (if bitOf (c.p 0) 31 then a.get F.LDG_STATUS_LAST_SLOT else c.p 0 % 1024) ∧
          a.nvm.slots.find? (fun x => x.1 == slot) = some (slot, words))
      (fun a c => okReply a c (BitVec.ofNat 32 slot :: words))) ∧
    (∀ t, rowDoes .switchBack 0x0500 (fun a c => switchBack a (c.p 0 % 65536) = (t, stOk))
      (fun _ c => t.modEng fun e => { e with cmds := e.cmds.map fun d => if sameCmd c d then { d with phase := .running } else d })) ∧
    rowDoes .ringDiscover 0x0501 (fun a _ => isMaster a = true ∧
        a.eng.cmds.any (fun d => d.opcode == 0x0501 && d.phase == .running) = false) (fun a c => startDiscovery (begin' a c)) ∧
    (∀ t x, rowDoes .ringFolio 0x0502 (fun a c => isMaster a = true ∧
        ringFolio a (c.p 0 % 65536) (stampOf (c.p 1) (c.p 2)) = (t, stOk, x)) (fun _ c => okReply t c [BitVec.ofNat 32 x]))) ∧
  (∀ (s : State) (port : Port) (tag : BitVec 7) (params : List Word),
    exec (.marginTest port tag params) s =
      .next (settle s (commandRow s port tag.toNat 0x0300 params))) ∧
  (∀ (s : State) (port : Port) (tag : BitVec 7) (params : List Word),
    exec (.marginAbort port tag params) s =
      .next (settle s (commandRow s port tag.toNat 0x0301 params))) ∧
  (∀ (s : State) (port : Port) (tag : BitVec 7) (params : List Word),
    exec (.soundingStart port tag params) s =
      .next (settle s (commandRow s port tag.toNat 0x0302 params))) ∧
  (∀ (s : State) (port : Port) (tag : BitVec 7) (params : List Word),
    exec (.soundingStop port tag params) s =
      .next (settle s (commandRow s port tag.toNat 0x0303 params))) ∧
  (∀ (s : State) (port : Port) (tag : BitVec 7) (params : List Word),
    exec (.soundingRead port tag params) s =
      .next (settle s (commandRow s port tag.toNat 0x0304 params))) ∧
  (∀ (s : State) (port : Port) (tag : BitVec 7) (params : List Word),
    exec (.faultClear port tag params) s =
      .next (settle s (commandRow s port tag.toNat 0x0400 params))) ∧
  (∀ (s : State) (port : Port) (tag : BitVec 7) (params : List Word),
    exec (.folioTake port tag params) s =
      .next (settle s (commandRow s port tag.toNat 0x0401 params))) ∧
  (∀ (s : State) (port : Port) (tag : BitVec 7) (params : List Word),
    exec (.folioArm port tag params) s =
      .next (settle s (commandRow s port tag.toNat 0x0402 params))) ∧
  (∀ (s : State) (port : Port) (tag : BitVec 7) (params : List Word),
    exec (.folioRead port tag params) s =
      .next (settle s (commandRow s port tag.toNat 0x0403 params))) ∧
  (∀ (s : State) (port : Port) (tag : BitVec 7) (params : List Word),
    exec (.folioRelease port tag params) s =
      .next (settle s (commandRow s port tag.toNat 0x0404 params))) ∧
  (∀ (s : State) (port : Port) (tag : BitVec 7) (params : List Word),
    exec (.ledgerRead port tag params) s =
      .next (settle s (commandRow s port tag.toNat 0x0405 params))) ∧
  (∀ (s : State) (port : Port) (tag : BitVec 7) (params : List Word),
    exec (.switchBack port tag params) s =
      .next (settle s (commandRow s port tag.toNat 0x0500 params))) ∧
  (∀ (s : State) (port : Port) (tag : BitVec 7) (params : List Word),
    exec (.ringDiscover port tag params) s =
      .next (settle s (commandRow s port tag.toNat 0x0501 params))) ∧
  (∀ (s : State) (port : Port) (tag : BitVec 7) (params : List Word),
    exec (.ringFolio port tag params) s =
      .next (settle s (commandRow s port tag.toNat 0x0502 params)))

/-- R405, R450, R451, R456 to R459: an Escorted session's challenge, its proof, and its end; the seal, the retirement, and the debug
levels. R458: a proof that fails.
The clauses at the end: the effect of each row from every state. -/
def Obligations.SecurityCommands : Prop :=
  (rowDoes .escortBegin 0x0600 (fun a _ => a.get F.SEC_ESC_STATUS_LOCKOUT = 0) (fun a c =>
      okReply (((a.drawn 16).put F.SEC_STATE_CHALLENGE 1).modSec fun x => { x with chal := some (c.port, (randomBytes a 16).2) }) c
        (wordsOf 4 (randomBytes a 16).2)) ∧
    (∀ ch, rowDoes .escortProve 0x0601 (fun a c => a.sec.chal = some (c.port, ch) ∧
        cmac a.sec.key (1 :: ch) = c.params.flatMap fun w => beBytes 4 w.toNat)
      (fun a c =>
        let t := (dropChallenge a).modSec fun x => { x with ks := cmac x.key (2 :: ch), ksSeq := 0 }
        let t := (t.put F.SEC_STATE_SECURITY secEscorted).put F.SEC_STATE_ESC_PORT (portIdx c.port)
        let t := (t.put F.SEC_ESC_STATUS_REMAIN (escTimeout t)).put F.SEC_ESC_STATUS_FAILS 0
        let t := ((t.endCond 72 0).endCond 72 1).put F.SEC_ESC_STATUS_LOCKOUT 0
        okReply (secEvent t F.SEC_EVT_ESC_OPEN 5) c [])) ∧
    (∀ ch, rowDoes .escortProve 0x0601 (fun a c => a.sec.chal = some (c.port, ch) ∧
        cmac a.sec.key (1 :: ch) ≠ c.params.flatMap fun w => beBytes 4 w.toNat)
      (fun a c =>
        let t := ((dropChallenge a).addSat F.SEC_ESC_STATUS_FAILS).raise 72 0 0 (portIdx c.port) (portIdx c.port)
        let t := t.put F.SEC_ESC_STATUS_LOCKOUT (min 1024 (2 ^ (t.get F.SEC_ESC_STATUS_FAILS - 1)))
        refuse (secEvent t F.SEC_EVT_ESC_FAIL 8) c stEscortFail)) ∧
    rowDoes .escortProve 0x0601 (fun a c => ∀ ch, a.sec.chal ≠ some (c.port, ch)) (fun a c => refuse a c stNoChallenge) ∧
    rowDoes .escortEnd 0x0602 (fun _ _ => True) (fun a c => okReply (endSession a) c []) ∧
    rowDoes .sealDevice 0x0603 (fun a _ => anyEnabled a = false ∧ a.flag F.HM_STATUS_VALID = true ∧ a.flag F.HM_STATUS_PENDING = false ∧
        a.get F.SEC_STATE_DEBUG = 0 ∧ factoryTest a = false ∧ a.sec.job = none)
      (fun a c => (begin' a c).modSec fun x => { x with job := some .seal }) ∧
    rowDoes .retire 0x0604 (fun a _ => a.get F.SEC_STATE_DEBUG = 0 ∧ a.sec.job = none)
      (fun a c => (begin' a c).modSec fun x => { x with job := some .retire }) ∧
    rowDoes .debugSet 0x0605 (fun a c => (a.mode ≠ mHoldup ∨ c.p 0 % 4 = 0) ∧
        (c.p 0 % 4 ≤ a.get F.SEC_STATE_DEBUG ∨ portSecurity a c.port = secUnsealed ∨ debugKeyOk a c = true) ∧
        (c.p 0 % 4 ≠ 2 ∨ twinRole a ≠ 1))
      (fun a c => setDebug (okReply a c []) (c.p 0 % 4))) ∧
  (∀ (s : State) (port : Port) (tag : BitVec 7) (params : List Word),
    exec (.escortBegin port tag params) s =
      .next (settle s (commandRow s port tag.toNat 0x0600 params))) ∧
  (∀ (s : State) (port : Port) (tag : BitVec 7) (params : List Word),
    exec (.escortProve port tag params) s =
      .next (settle s (commandRow s port tag.toNat 0x0601 params))) ∧
  (∀ (s : State) (port : Port) (tag : BitVec 7) (params : List Word),
    exec (.escortEnd port tag params) s =
      .next (settle s (commandRow s port tag.toNat 0x0602 params))) ∧
  (∀ (s : State) (port : Port) (tag : BitVec 7) (params : List Word),
    exec (.sealDevice port tag params) s =
      .next (settle s (commandRow s port tag.toNat 0x0603 params))) ∧
  (∀ (s : State) (port : Port) (tag : BitVec 7) (params : List Word),
    exec (.retire port tag params) s =
      .next (settle s (commandRow s port tag.toNat 0x0604 params))) ∧
  (∀ (s : State) (port : Port) (tag : BitVec 7) (params : List Word),
    exec (.debugSet port tag params) s =
      .next (settle s (commandRow s port tag.toNat 0x0605 params)))

/-! ### Security, hold-up and resets (spec/17_modes_security_debug.md, spec/18_startup_reset.md) -/

/-- R457, R456, R458: the timers of an Escorted session: its timeout, which in SERVICE ends the work there, the end of a challenge and of a lockout. R450, R451, R468: the fuses of a job are
blown: SEAL, RETIRE and FUSE_PROGRAM end with the outcome that the fuses show.
The clauses at the end: the effect of each row from every state. -/
def Obligations.SecurityTimers : Prop :=
  ((∀ s, s.security = secEscorted →
      (let t := ((secEvent ((secEvent s F.SEC_EVT_ESC_TIMEOUT 7).put F.SEC_STATE_SECURITY secSealed) F.SEC_EVT_ESC_END 6).put
         F.SEC_ESC_STATUS_REMAIN 0).modSec fun x => { x with ks := [] }
       (t.mode ≠ mService → exec .sessionTimeout s = .next (settle s t)) ∧
       (t.mode = mService → exec .sessionTimeout s = .next (settle s
         ((abortCals (abortWork t 8 false)).modSec fun x => { x with toGuard := true }))))) ∧
    (∀ s, exec .challengeExpiry s = .next (settle s ((s.put F.SEC_STATE_CHALLENGE 0).modSec fun x => { x with chal := none }))) ∧
    (∀ s, exec .escortLockoutEnd s = .next (settle s (s.put F.SEC_ESC_STATUS_LOCKOUT 0))) ∧
    (∀ s weak, s.sec.job = some .seal →
      exec (.fuseBlowDone true weak) s = .next (settle s (finishC
        ((becomeSealed (s.modSec fun x => { x with job := none })).addSat F.HM_STATUS_WEAK weak) (fun c => c.opcode == 0x0603)
        (if weak = 0 then stOk else stFuseFail) (if weak = 0 then [] else refusalWords noWord 0)))) ∧
    (∀ s, becomeSealed s = setMode (secEvent ((blowOpen (blowSeal s)).put F.SEC_STATE_SECURITY secSealed) F.SEC_EVT_SEALED 3) mQuiescent) ∧
    (∀ s weak, s.sec.job = some .retire →
      exec (.fuseBlowDone true weak) s = .next (settle s (finishC (becomeRetired (s.modSec fun x => { x with job := none }))
        (fun c => c.opcode == 0x0604) (if weak = 0 then stOk else stFuseFail) (if weak = 0 then [] else refusalWords noWord 0)))) ∧
    (∀ s weak bytes next target, s.sec.job = some .program → s.sec.imageIn = some (bytes, next, target) →
      exec (.fuseBlowDone true weak) s = .next (settle s (finishC ((secEvent (blowImageOpen (blowImage
        (s.modSec fun x => { x with job := none }))) F.SEC_EVT_FUSES_PROGRAMMED 11).modSec fun x => { x with imageIn := none })
        (fun c => c.opcode == 0x0205) stOk [BitVec.ofNat 32 bytes.length]))) ∧
    (∀ s weak, s.sec.job = some .program →
      exec (.fuseBlowDone false weak) s = .next (settle s (finishC ((((s.modSec fun x => { x with job := none }).put
        F.HM_STATUS_FAIL 1).modSec fun x => { x with hmFail := true, imageIn := none }).raise 75 0 1 0 0)
        (fun c => c.opcode == 0x0205) stFuseFail (refusalWords noWord 0))))) ∧
  (∀ (s : State) (majority : Bool) (weak : Nat), exec (.fuseBlowDone majority weak) s = .next (settle s (fuseBlowDone s majority weak))) ∧
  (∀ (s : State), exec .sessionTimeout s = .next (settle s (sessionTimeout s)))

/-- R446, R447, R532: HOLDUP: the loss of auxiliary power, before the first mode and after it; its return; the end of HOLDUP, once the Hallmark down-order and the NVM work are
complete and power is present, with the reset that RESET_N latched meanwhile.
The clauses at the end: the effect of each row from every state. -/
def Obligations.HoldUp : Prop :=
  ((∀ s blown, s.rst.phase ≠ .por → s.mode ≠ mHoldup → s.mode ≠ mStartup →
      exec (.holdupEntry blown) s = .next (settle s (enterHoldup (s.put F.SEC_STATE_HU_PRESENT 0) blown))) ∧
    (∀ s blown, s.rst.phase ≠ .por → s.mode = mStartup →
      exec (.holdupEntry blown) s = .next (settle s
        { s.put F.SEC_STATE_HU_PRESENT 0 with rst := { s.rst with holdDet := true } })) ∧
    (∀ s blown, s.rst.phase ≠ .por → s.mode = mHoldup →
      exec (.holdupEntry blown) s = .next (settle s (s.put F.SEC_STATE_HU_PRESENT 0))) ∧
    (∀ s, exec .huPowerReturn s = .next (settle s (s.put F.SEC_STATE_HU_PRESENT 1))) ∧
    (∀ s, s.mode = mHoldup → s.flag F.SEQ_STATUS_HM_RUN = false → nvmHoldupDone s = true → s.flag F.SEC_STATE_HU_PRESENT = true →
      (let t := eraseNextTwo (pmResume (ringResume (secEvent (setMode s mQuiescent) F.SEC_EVT_HOLDUP_OUT 2)))
       (t.rst.latched = false → exec .holdupExit s = .next (settle s t)) ∧
       (t.rst.latched = true → exec .holdupExit s = .next (settle s (takeReset t 1 (t.flag F.RST_STATUS_HOLD_RSTN)))))) ∧
    (∀ s, s.flag F.SEQ_STATUS_HM_RUN = true ∨ nvmHoldupDone s = false ∨ s.flag F.SEC_STATE_HU_PRESENT = false →
      exec .holdupExit s = .next (settle s s))) ∧
  (∀ (s : State) (blown : Nat), exec (.holdupEntry blown) s = .next (settle s (holdupEntry s blown))) ∧
  (∀ (s : State), exec .holdupExit s = .next (settle s (holdupExit s)))

/-! ### The debug port (spec/17_modes_security_debug.md R460, R469, R470) -/

/-- R469, R470, R460: the data register that each instruction of the JTAG port selects, and what drives the balls: BYPASS, IDCODE and SAMPLE/PRELOAD in every
state; outside factory test mode EXTEST, CLAMP and HIGHZ select the bypass register and every ball keeps its function; a private instruction selects the bypass register unless
the debug level is Observe or Halt. The TAP itself is that of IEEE 1149.1, which the model presumes (log entry 71): a shift, an update of the instruction, five edges with TMS high, TRST_N; an
edge of TCK changes nothing but the port and the count of free values. -/
def Obligations.DebugPort : Prop :=
  (∀ (s : State), (s.sec.tap.instr = .bypass → tapReg s = .bypass) ∧ (s.sec.tap.instr = .idcode → tapReg s = .idcode) ∧
    (s.sec.tap.instr = .sample → tapReg s = .boundary)) ∧
  (∀ (s : State), s.flag F.SEC_STATE_FACTORY = false → ballDrive s = .function ∧
    (s.sec.tap.instr = .extest ∨ s.sec.tap.instr = .clamp ∨ s.sec.tap.instr = .highz → tapReg s = .bypass)) ∧
  (∀ (s : State), s.flag F.SEC_STATE_FACTORY = true → (s.sec.tap.instr = .extest → tapReg s = .boundary ∧ ballDrive s = .boundary) ∧
    (s.sec.tap.instr = .clamp → tapReg s = .bypass ∧ ballDrive s = .boundary) ∧
    (s.sec.tap.instr = .highz → tapReg s = .bypass ∧ ballDrive s = .highz)) ∧
  (∀ (s : State) k, s.sec.tap.instr = .priv k →
    (s.get F.SEC_STATE_DEBUG = 1 ∨ s.get F.SEC_STATE_DEBUG = 2 → tapReg s = .priv k) ∧
    (s.get F.SEC_STATE_DEBUG ≠ 1 → s.get F.SEC_STATE_DEBUG ≠ 2 → tapReg s = .bypass)) ∧
  (∀ (s : State) tms tdi, s.sec.tap.held = false → s.rst.phase ≠ .por → s.sec.tap.state = .dr .shift →
    (tckRise s tms tdi).sec.tap.dr = s.sec.tap.dr.drop 1 ++ [tdi] ∧
    (tckRise s tms tdi).sec.tap.state = (if tms then .dr .exit1 else .dr .shift) ∧
    (tckFall s).sec.tap.tdo = s.sec.tap.dr.head?) ∧
  (∀ (s : State), s.sec.tap.held = false → s.rst.phase ≠ .por → s.sec.tap.state = .ir .update →
    (tckFall s).sec.tap.instr = tapInstr s.sec.tap.ir ∧ (tckFall s).sec.tap.tdo = none) ∧
  (∀ (s : State) a b c d e, s.sec.tap.held = false → s.rst.phase ≠ .por →
    let t := tckRise (tckRise (tckRise (tckRise (tckRise s true a) true b) true c) true d) true e
    t.sec.tap.state = .reset ∧ t.sec.tap.instr = .idcode) ∧
  (∀ (s : State) tms tdi, ∃ tap n, tckRise s tms tdi = { s with freeCount := n, sec := { s.sec with tap := tap } }) ∧
  (∀ (s : State) tms tdi, let t := trstLow s
    t.sec.tap.state = .reset ∧ t.sec.tap.instr = .idcode ∧ tckRise t tms tdi = t ∧ tckFall t = t)

/-! ### Security, hold-up and resets (spec/17_modes_security_debug.md, spec/18_startup_reset.md) -/

/-- R474 to R476, R395, R482, R486: the sources of a reset: POR, which keeps the NVM and the fuses alone; RESET_N, latched in HOLDUP; the
`RESET` command; a Warden's order and its token.
The clauses at the end: the effect of each row from every state. -/
def Obligations.ResetSources : Prop :=
  ((∀ s, exec .porAssert s = .next (settle s (porAssert s)) ∧ (porAssert s).rst = { State.reset.rst with low := s.rst.low } ∧ (porAssert s).regs = State.reset.regs ∧
      (porAssert s).guard = State.reset.guard ∧ (porAssert s).nvm = nvmAfterPower (archiveCut s) ∧ (porAssert s).sec.image = s.sec.image ∧
      (porAssert s).sec.sealed = s.sec.sealed ∧ (porAssert s).sec.retired = s.sec.retired ∧ (porAssert s).pending = s.pending) ∧
    (∀ s, s.rst.phase = .por →
      exec .porRelease s = .next (settle s ((s.put F.CLK_STATUS_TCLK_ON_RC 1).modRst fun r => { r with phase := .fuses }))) ∧
    (∀ s, s.rst.phase = .por → exec .resetNAssert s = .next (settle s (s.modRst fun r => { r with low := true }))) ∧
    (∀ s, s.rst.phase ≠ .por →
      (let t := s.modRst fun r => { r with low := true }
       (t.mode = mHoldup → exec .resetNAssert s = .next (settle s (t.modRst fun r => { r with latched := true }))) ∧
       (t.mode ≠ mHoldup → exec .resetNAssert s = .next (settle s (takeReset t 1 (t.flag F.RST_STATUS_HOLD_RSTN)))))) ∧
    (∀ s, exec .resetNRelease s = .next (settle s (s.modRst fun r => { r with low := false }))) ∧
    (∀ s, s.eng.resetPend = true →
      (let t := s.modEng fun e => { e with resetPend := false }
       (t.mode ≠ mHoldup → exec .commandedResetStart s = .next (settle s (takeReset t 2 (t.flag F.RST_STATUS_HOLD_CMD)))) ∧
       (t.mode = mHoldup → exec .commandedResetStart s = .next (settle s t)))) ∧
    (∀ s p sideB (pair : Fin 8), writable s p R.RST_WDN (2 ^ 31 + (if sideB then 256 else 0) + pair) = true →
      exec (.rstWdnGo p sideB pair) s =
        .next (settle s (resetOrder (written s R.RST_WDN (2 ^ 31 + (if sideB then 256 else 0) + pair))).1)) ∧
    (∀ s port cell u, receiveCell s port cell 0xB = (u, true) → u.twin.loaded = true → payNat cell 0 1 = 3 →
      (tokenReason u cell = 0 → exec (.resetToken port cell) s = .next (settle s
        (takeReset (acceptToken u cell) 3 (u.flag F.RST_STATUS_HOLD_WDN)))) ∧
      (∀ r, tokenReason u cell = r → r ≠ 0 →
        exec (.resetToken port cell) s = .next (settle s ((twinEvt u F.TWIN_EVT_TOKEN_REJ 3).raise 52 0 1 0 r))))) ∧
  (∀ (s : State), exec .porRelease s = .next (settle s (porRelease s))) ∧
  (∀ (s : State), exec .resetNAssert s = .next (settle s (resetNLow s))) ∧
  (∀ (s : State) (port : Port) (sideB : Bool) (pair : Fin 8),
    exec (.rstWdnGo port sideB pair) s =
      .next (settle s (writeRow s port R.RST_WDN (2 ^ 31 + (if sideB then 256 else 0) + pair)))) ∧
  (∀ (s : State) (port : RingPort) (cell : RingCell),
    exec (.resetToken port cell) s =
      .next (settle s (twinRow s port cell 0xB (resetToken · cell)))) ∧
  (∀ (s : State), exec .commandedResetStart s = .next (settle s (commandedReset s)))

/-- R478 to R481: what a DEVICE reset does at once, held and dropped: its cause is recorded, an Escorted session ends, the kept registers
stay, and a dropped one starts the Hallmark down-order and releases the twin; the work before step 2, and its end.
The clauses at the end: the effect of each row from every state. -/
def Obligations.DeviceResets : Prop :=
  ((∀ s cause, s.rst.phase = .up →
      (let u := forceDebugOff (recordReset s cause true)
       let u := if u.security = secEscorted then u.put F.SEC_STATE_SECURITY secSealed else u
       takeReset s cause true = (syncNvm (abandonNvm (clearParts (clearRegs u true true) true))).modRst fun r =>
         { r with phase := .work, held := true, power := false, latched := false, holdDet := false })) ∧
    (∀ s cause, s.rst.phase = .up →
      (let u := forceDebugOff (recordReset s cause false)
       let u := if u.security = secEscorted then u.put F.SEC_STATE_SECURITY secSealed else u
       let u := (clearTwin (hallmarkStart u)).put F.SEC_STATE_MODE mStartup
       takeReset s cause false = (syncNvm (abandonNvm (clearParts (clearRegs u true false) false))).modRst fun r =>
         { r with phase := .work, held := false, power := false, latched := false, holdDet := false })) ∧
    (∀ s held, s.rst.phase ≠ .up → s.rst.held = false → (s.rst.power = true → s.rst.phase ≠ .engine) →
      heldNow s held = false) ∧
    (∀ s held, (clearParts s held).evq = [] ∧ (clearParts s held).eng = State.reset.eng ∧ (clearParts s held).pool = State.reset.pool ∧
      (clearParts s held).fine = State.reset.fine ∧ (clearParts s held).folio = State.reset.folio ∧ (clearParts s held).guard = s.guard ∧
      (clearParts s held).ang = s.ang ∧ (clearParts s held).tally = s.tally ∧ (clearParts s held).twin = s.twin ∧
      (clearParts s held).sec.ks = []) ∧
    (∀ s, s.rst.phase = .work → s.flag F.SEQ_STATUS_HM_RUN = false → resetNvmDone s = true →
      (let fin := fun (t : State) =>
         syncNvm ((t.modNvm fun v => { v with ready := false }).modRst fun r => { r with phase := .fuses })
       (s.rst.held = true → exec .deviceResetNvmDone s = .next (settle s (fin (clearRegs s true true)))) ∧
       (s.rst.held = false → exec .deviceResetNvmDone s = .next (settle s (fin (clearRails (clearRegs s false false)))))))) ∧
  (∀ (s : State), exec .deviceResetNvmDone s = .next (settle s (deviceResetDone s)))

/-- R477, R448, R453, R349, R483: start-up after power-on: the fuse read derives the security state and starts the collector; the
configuration load; the start of the engine; the auto-start.
The clauses at the end: the effect of each row from every state. -/
def Obligations.StartUp : Prop :=
  ((∀ s weak test, s.rst.phase = .fuses → s.rst.low = false →
      (let t := hmStatus (applyHallmark s) (BitVec.toNat weak)
       let t := t.put F.SEC_STATE_SECURITY (if t.sec.retired then secRetired else if t.sec.sealed then secSealed else secUnsealed)
       let t := t.putB F.SEC_STATE_FACTORY (test && t.sec.open' && t.security == secUnsealed)
       let t := modeDefault (modeDefault (drawBoot (t.setReg R.RING_MID Config.masterIdentity.toNat)) 0) 1
       let t := collectorStart ((t.endCond 73 0).endCond 74 0)
       let t := if t.rst.holdDet || t.mode == mHoldup then t else t.put F.SEC_STATE_HU_PRESENT 1
       let t := if BitVec.toNat weak = 0 then t else t.raise 73 0 0 0 (t.get F.HM_STATUS_WEAK)
       let t := if t.sec.hmValid then t else t.raise 74 0 0 0 0
       let t := if t.rst.held then t.forEach ((below 64).filter (railUse t)) guardSettingWritten else t
       exec (.fuseRead weak test) s = .next (settle s (t.modRst fun r => { r with phase := .load })))) ∧
    (∀ s huLow, s.rst.phase = .load → s.rst.held = false →
      (let t := findLedger (startBlocks (loadCal (loadConfig (assembleColophon (restoreCounts (restoreParts (restoreMap s)))))))
       let t := (firstMode (t.setReg (R.COL_Wk 10) (t.reg R.NVM_STATUS / 2 ^ 21 % 128)) huLow).put F.RST_STATUS_STARTED 1
       exec (.configLoad huLow) s = .next (settle s (((syncAllFineRun (nvmReady (t.forEach (below 4) pmServe))).modEng fun e =>
         { e with epochT0 := (syncAllFineRun (nvmReady (t.forEach (below 4) pmServe))).tclk, epochs := 0 }).modRst fun r =>
           { r with phase := .engine, holdDet := false })))) ∧
    (∀ s huLow, s.rst.held = false → s.flag F.RST_STATUS_AUTO_EN = false →
      (huLow = true → firstMode s huLow = enterHoldup (s.put F.SEC_STATE_HU_PRESENT 0) 0) ∧
      (s.rst.holdDet = true → huLow = false → firstMode s huLow = enterHoldup s 0) ∧
      (s.rst.holdDet = false → huLow = false → s.security = secUnsealed → firstMode s huLow = setMode s mCommission) ∧
      (s.rst.holdDet = false → huLow = false → s.security ≠ secUnsealed → firstMode s huLow = setMode s mQuiescent)) ∧
    (∀ s, s.rst.phase = .engine →
      (let t := ((patchCheck s).put F.CMD_STATUS_ENGINE_UP 1)
       let t := t.modAng fun a => { a with relocking := t.flag F.CLK_STATUS_FALLBACK }
       let t := (t.setReg (R.COL_Wk 2) (t.get F.CMD_PATCH_VERSION * 2 ^ 16 + 1)).modRst fun r =>
         { r with phase := .up, held := false, power := false }
       (ringAddr t = 0xFFFF → exec .engineStart s = .next (settle s t)) ∧
       (ringAddr t ≠ 0xFFFF → exec .engineStart s = .next (settle s (admitRequest t))))) ∧
    (∀ s, s.flag F.RST_STATUS_AUTO_PEND = true → s.eng.epochT0 + 10240 * s.get F.RST_STATUS_AUTO_DELAY ≤ s.tclk → s.mode = mQuiescent →
      twinRole s < 2 →
      s.flag F.RST_STATUS_AUTO_ANGLE = false ∨ s.locked = true → s.security ≠ secUnsealed → s.security ≠ secRetired →
      ((∀ q ∈ quires, s.flag (F.QUIREq_CFG_AUTO q) = true → startRefused s q false = false) →
        exec .autoStart s = .next (settle s ((quires.filter fun q => s.flag (F.QUIREq_CFG_AUTO q)).foldl startUp
          ((s.put F.RST_STATUS_AUTO_PEND 0).put F.RST_STATUS_AUTO_RESULT 1)))) ∧
      ((∃ q ∈ quires, s.flag (F.QUIREq_CFG_AUTO q) = true ∧ startRefused s q false = true) →
        exec .autoStart s = .next (settle s ((s.put F.RST_STATUS_AUTO_PEND 0).put F.RST_STATUS_AUTO_RESULT 2))))) ∧
  (∀ (s : State) (weak : BitVec 16) (test : Bool), exec (.fuseRead weak test) s = .next (settle s (fuseRead s weak.toNat test))) ∧
  (∀ (s : State) (huLow : Bool), exec (.configLoad huLow) s = .next (settle s (configLoad s huLow))) ∧
  (∀ (s : State), exec .autoStart s = .next (settle s (autoStart s))) ∧
  (∀ (s : State), exec .engineStart s = .next (settle s (engineStart s)))

/-! ### The machine (spec/00_scope.md R2 to R5; spec/01_cell_architecture.md R17, R18) -/

/-- The model's own queue of commands: a step executes the command at its front on the state with the rest of the queue, and with none waiting
one ANG edge passes (DESIGN CHOICE, log entry 6). -/
def Obligations.StepFront : Prop :=
  (∀ (s : State) c rest, step { s with pending := c :: rest } = exec c { s with pending := rest }) ∧
  (∀ (s : State), s.pending = [] → step s = .next (settle s (clockTick s)))

/-- No command stops: from every state, with every operand that its row admits, it answers a next state, the state its effect makes and what follows it (R5, R394: what
a row does in states that its rule does not serve is to change nothing). -/
def Obligations.EveryCommandCompletes : Prop :=
  ∀ (i : Instr) (s : State), ∃ t, exec i s = .next (settle s t)

/-- R5, R478: what reset leaves where the spec gives a value: power-on reset asserted, mode STARTUP (R18), every EN latch off, no twin role, no ring address, the
stamp not running, no Quire step, no fault, nothing queued. -/
def Obligations.ResetState : Prop :=
  State.reset.rst.phase = .por ∧ State.reset.mode = mStartup ∧ State.reset.pending = [] ∧ anyEnabled State.reset = false ∧
  twinRole State.reset = 3 ∧ ringAddr State.reset = 0xFFFF ∧ State.reset.angRun = false ∧ anyStep State.reset = false ∧
  State.reset.flt.conds = [] ∧ State.reset.flt.queue = [] ∧ State.reset.evq = [] ∧ State.reset.eng.cmds = [] ∧
  State.reset.flag F.CMD_STATUS_ENGINE_UP = false ∧ State.reset.ang.stamp = 0 ∧
  State.reset.reg R.BENCH_MAP = 0x76543210 ∧ storeWf State.reset.regs = true ∧ txdisOk State.reset = true ∧ modeOk State.reset = true

/-- The operations that effects are written with. A field written reads the value, at its width; fields apart from it, and other registers, read as
before; R286, R287: an event sets its status bit, and one whose status is already 1 changes nothing; R262: a raise sends one message and lets the condition stand; the canonical form of the register store is kept. -/
def Obligations.NamedOperations : Prop :=
  (∀ (s : State) (f : Field) v, f.lo + f.width ≤ 32 → (s.put f v).get f = v % 2 ^ f.width) ∧
  (∀ (s : State) (f g : Field) v, g.lo + g.width ≤ 32 → g.addr ≠ f.addr ∨ f.lo + f.width ≤ g.lo ∨ g.lo + g.width ≤ f.lo →
    (s.put f v).get g = s.get g) ∧
  (∀ (s : State) (f : Field) v, { s.put f v with regs := s.regs } = s) ∧
  (∀ (s : State) (f : Field) n, f.lo + f.width ≤ 32 → s.get f + n ≤ f.max → (s.addSat f n).get f = s.get f + n) ∧
  (∀ (s : State) (f : Field) n, f.lo + f.width ≤ 32 → f.max < s.get f + n → (s.addSat f n).get f = f.max) ∧
  (∀ (s : State) n, n < 256 → s.flag (evtStatus n) = true → s.event n = s) ∧
  (∀ (s : State) n, n < 256 → (s.event n).flag (evtStatus n) = true) ∧
  (∀ (s : State) n a, a ∉ evtRegs n → (s.event n).reg a = s.reg a) ∧
  (∀ (s : State) src kind cls inst detail,
    (s.raise src kind cls inst detail).condStands src inst = true ∧
    (s.raise src kind cls inst detail).flt.msgs = s.flt.msgs ++ [⟨src, kind, cls, detail, false⟩] ∧
    (s.raise src kind cls inst detail).regs = s.regs) ∧
  (∀ (s : State) src inst, (s.endCond src inst).condStands src inst = false ∧ (s.endCond src inst).regs = s.regs) ∧
  (∀ (s : State) (f : Field) v n, storeWf s.regs = true → storeWf (s.put f v).regs = true ∧ storeWf (s.event n).regs = true)

/-- What follows a command (R18, R216, R292, R372, R409, R430) changes nothing where nothing is due: no work runs, no substitution starts, no transition of
the mode is due, nothing waits to be sent, no suspension begins or ends. -/
def Obligations.SettleQuiet : Prop :=
  ∀ old s, quiet old s = true → settle old s = s

/-- R17, R18: the transitions of the mode that need no command: a Quire step takes GUARD and QUIESCENT to RAMP; with none, RAMP
becomes GUARD while a rail is enabled, else QUIESCENT, and GUARD with no rail enabled QUIESCENT; never in Retired. A QUIESCENT twin that takes the
active's EN latches goes to RAMP: the model's choice, log entry 81. R86, R106, R137: what a change of the mode does. -/
def Obligations.ModeTransitions : Prop :=
  (∀ s, anyStep s = true → s.seq.ran = false → s.security ≠ secRetired → s.mode = mGuard ∨ s.mode = mQuiescent →
    rampEnter s = setMode s mRamp) ∧
  (∀ s, anyStep s = true → s.seq.ran = false → s.security = secRetired → rampEnter s = s) ∧
  (∀ s, anyStep s = false → s.seq.ran = false → s.security ≠ secRetired → s.mode = mQuiescent → anyEnabled s = true →
    rampEnter s = setMode s mRamp) ∧
  (∀ s, anyStep s = true → s.seq.ran = false → s.security ≠ secRetired → s.mode = mService → rampEnter s = setMode (abortWork s 6 true) mRamp) ∧
  (∀ s, anyStep s = false → s.seq.ran = false → s.mode ≠ mQuiescent ∨ anyEnabled s = false → rampEnter s = s) ∧
  (∀ s, anyStep s = true → rampLeave s = s) ∧
  (∀ s, anyStep s = false → s.mode = mRamp → anyEnabled s = true → rampLeave s = setMode s mGuard) ∧
  (∀ s, anyStep s = false → s.mode = mRamp ∨ s.mode = mGuard → anyEnabled s = false → rampLeave s = setMode s mQuiescent) ∧
  (∀ s, s.mode = mService → workAtAll s = false → calsRun s = false → s.sec.toGuard = true → modeSettle s = rampLeave (rampEnter (setMode s mGuard))) ∧
  (∀ s m, s.mode = m → setMode s m = s) ∧
  (∀ s m, m < 8 → s.mode ≠ m → m = mCommission ∨ m = mService → setMode s m = syncAssay (syncAllFineRun
    (((secEvent (s.put F.SEC_STATE_MODE m) F.SEC_EVT_MODE_CHANGED 0).modSec fun x => { x with autoRet := false, toGuard := false }).modMarg
      fun x => { x with svcWork := false }))) ∧
  (∀ s m, s.mode ≠ m → m = mRamp ∨ m = mGuard ∨ m = mHoldup ∨ m = mStartup → setMode s m = syncAssay (syncAllFineRun (abortCals
    (((secEvent (s.put F.SEC_STATE_MODE m) F.SEC_EVT_MODE_CHANGED 0).modSec fun x => { x with autoRet := false, toGuard := false }).modMarg
      fun x => { x with svcWork := false }))))

/-- R409, R436, R437: TXDIS is asserted while the SerDes PLL is out of lock, on a port that is no live side, and on the side that HOLDUP does not keep. Every
step, from any state and with any command, leaves the outputs as these rules make them. -/
def Obligations.TxdisEveryStep : Prop :=
  (∀ s s', step s = .next s' → txdisOk s' = true) ∧
  (∀ s p, p < 3 → (syncTxdis s).ring.txdis.getLsbD p =
    (!s.flag F.CLK_STATUS_SERDES_LOCK || (match sideOfPort s p with
      | none => true
      | some i => s.flag F.RING_STATUS_HU_SINGLE && i != liveSide s)))

end
end

