-- ==== Sys2Proof/Decode.lean ====
section
/-! DEFINITION. Words that spell commands: spec/opcode_table.json gives no row any bits, so there is none. Packets on
the command ports are read by `Machine/Engine.lean`. -/

namespace Sys2Proof

/-- The command that a word of the table spells: none, for the table gives no bits (log entry 10). -/
def decodeTableWord (_nbits _w : Nat) : Option Instr := none

end Sys2Proof
end

