-- ==== Sys2Proof/Laws/State.lean ====
section
/-! SUPPORT. What each update of the state leaves as it was, one law for each field of State. -/

namespace Sys2Proof.Machine

/-! `State.setReg` -/

@[simp] theorem State.setReg_pending (s : State) (a v : Nat) : (s.setReg a v).pending = s.pending := by cases s; rfl
@[simp] theorem State.setReg_portLatch (s : State) (a v : Nat) : (s.setReg a v).portLatch = s.portLatch := by cases s; rfl
@[simp] theorem State.setReg_freeCount (s : State) (a v : Nat) : (s.setReg a v).freeCount = s.freeCount := by cases s; rfl
@[simp] theorem State.setReg_tclk (s : State) (a v : Nat) : (s.setReg a v).tclk = s.tclk := by cases s; rfl
@[simp] theorem State.setReg_angPhase (s : State) (a v : Nat) : (s.setReg a v).angPhase = s.angPhase := by cases s; rfl
@[simp] theorem State.setReg_ang (s : State) (a v : Nat) : (s.setReg a v).ang = s.ang := by cases s; rfl
@[simp] theorem State.setReg_flt (s : State) (a v : Nat) : (s.setReg a v).flt = s.flt := by cases s; rfl
@[simp] theorem State.setReg_evq (s : State) (a v : Nat) : (s.setReg a v).evq = s.evq := by cases s; rfl
@[simp] theorem State.setReg_guard (s : State) (a v : Nat) : (s.setReg a v).guard = s.guard := by cases s; rfl
@[simp] theorem State.setReg_eng (s : State) (a v : Nat) : (s.setReg a v).eng = s.eng := by cases s; rfl
@[simp] theorem State.setReg_fine (s : State) (a v : Nat) : (s.setReg a v).fine = s.fine := by cases s; rfl
@[simp] theorem State.setReg_pool (s : State) (a v : Nat) : (s.setReg a v).pool = s.pool := by cases s; rfl
@[simp] theorem State.setReg_assay (s : State) (a v : Nat) : (s.setReg a v).assay = s.assay := by cases s; rfl
@[simp] theorem State.setReg_spare (s : State) (a v : Nat) : (s.setReg a v).spare = s.spare := by cases s; rfl
@[simp] theorem State.setReg_seq (s : State) (a v : Nat) : (s.setReg a v).seq = s.seq := by cases s; rfl
@[simp] theorem State.setReg_pm (s : State) (a v : Nat) : (s.setReg a v).pm = s.pm := by cases s; rfl
@[simp] theorem State.setReg_marg (s : State) (a v : Nat) : (s.setReg a v).marg = s.marg := by cases s; rfl
@[simp] theorem State.setReg_folio (s : State) (a v : Nat) : (s.setReg a v).folio = s.folio := by cases s; rfl
@[simp] theorem State.setReg_nvm (s : State) (a v : Nat) : (s.setReg a v).nvm = s.nvm := by cases s; rfl
@[simp] theorem State.setReg_tally (s : State) (a v : Nat) : (s.setReg a v).tally = s.tally := by cases s; rfl
@[simp] theorem State.setReg_readOut (s : State) (a v : Nat) : (s.setReg a v).readOut = s.readOut := by cases s; rfl
@[simp] theorem State.setReg_twin (s : State) (a v : Nat) : (s.setReg a v).twin = s.twin := by cases s; rfl
@[simp] theorem State.setReg_wdn (s : State) (a v : Nat) : (s.setReg a v).wdn = s.wdn := by cases s; rfl
@[simp] theorem State.setReg_ring (s : State) (a v : Nat) : (s.setReg a v).ring = s.ring := by cases s; rfl
@[simp] theorem State.setReg_sec (s : State) (a v : Nat) : (s.setReg a v).sec = s.sec := by cases s; rfl
@[simp] theorem State.setReg_rst (s : State) (a v : Nat) : (s.setReg a v).rst = s.rst := by cases s; rfl

/-! `State.put` -/

@[simp] theorem State.put_pending (s : State) (f : Field) (v : Nat) : (s.put f v).pending = s.pending := by cases s; rfl
@[simp] theorem State.put_portLatch (s : State) (f : Field) (v : Nat) : (s.put f v).portLatch = s.portLatch := by cases s; rfl
@[simp] theorem State.put_freeCount (s : State) (f : Field) (v : Nat) : (s.put f v).freeCount = s.freeCount := by cases s; rfl
@[simp] theorem State.put_tclk (s : State) (f : Field) (v : Nat) : (s.put f v).tclk = s.tclk := by cases s; rfl
@[simp] theorem State.put_angPhase (s : State) (f : Field) (v : Nat) : (s.put f v).angPhase = s.angPhase := by cases s; rfl
@[simp] theorem State.put_ang (s : State) (f : Field) (v : Nat) : (s.put f v).ang = s.ang := by cases s; rfl
@[simp] theorem State.put_flt (s : State) (f : Field) (v : Nat) : (s.put f v).flt = s.flt := by cases s; rfl
@[simp] theorem State.put_evq (s : State) (f : Field) (v : Nat) : (s.put f v).evq = s.evq := by cases s; rfl
@[simp] theorem State.put_guard (s : State) (f : Field) (v : Nat) : (s.put f v).guard = s.guard := by cases s; rfl
@[simp] theorem State.put_eng (s : State) (f : Field) (v : Nat) : (s.put f v).eng = s.eng := by cases s; rfl
@[simp] theorem State.put_fine (s : State) (f : Field) (v : Nat) : (s.put f v).fine = s.fine := by cases s; rfl
@[simp] theorem State.put_pool (s : State) (f : Field) (v : Nat) : (s.put f v).pool = s.pool := by cases s; rfl
@[simp] theorem State.put_assay (s : State) (f : Field) (v : Nat) : (s.put f v).assay = s.assay := by cases s; rfl
@[simp] theorem State.put_spare (s : State) (f : Field) (v : Nat) : (s.put f v).spare = s.spare := by cases s; rfl
@[simp] theorem State.put_seq (s : State) (f : Field) (v : Nat) : (s.put f v).seq = s.seq := by cases s; rfl
@[simp] theorem State.put_pm (s : State) (f : Field) (v : Nat) : (s.put f v).pm = s.pm := by cases s; rfl
@[simp] theorem State.put_marg (s : State) (f : Field) (v : Nat) : (s.put f v).marg = s.marg := by cases s; rfl
@[simp] theorem State.put_folio (s : State) (f : Field) (v : Nat) : (s.put f v).folio = s.folio := by cases s; rfl
@[simp] theorem State.put_nvm (s : State) (f : Field) (v : Nat) : (s.put f v).nvm = s.nvm := by cases s; rfl
@[simp] theorem State.put_tally (s : State) (f : Field) (v : Nat) : (s.put f v).tally = s.tally := by cases s; rfl
@[simp] theorem State.put_readOut (s : State) (f : Field) (v : Nat) : (s.put f v).readOut = s.readOut := by cases s; rfl
@[simp] theorem State.put_twin (s : State) (f : Field) (v : Nat) : (s.put f v).twin = s.twin := by cases s; rfl
@[simp] theorem State.put_wdn (s : State) (f : Field) (v : Nat) : (s.put f v).wdn = s.wdn := by cases s; rfl
@[simp] theorem State.put_ring (s : State) (f : Field) (v : Nat) : (s.put f v).ring = s.ring := by cases s; rfl
@[simp] theorem State.put_sec (s : State) (f : Field) (v : Nat) : (s.put f v).sec = s.sec := by cases s; rfl
@[simp] theorem State.put_rst (s : State) (f : Field) (v : Nat) : (s.put f v).rst = s.rst := by cases s; rfl

/-! `State.putB` -/

@[simp] theorem State.putB_pending (s : State) (f : Field) (b : Bool) : (s.putB f b).pending = s.pending := by cases s; rfl
@[simp] theorem State.putB_portLatch (s : State) (f : Field) (b : Bool) : (s.putB f b).portLatch = s.portLatch := by cases s; rfl
@[simp] theorem State.putB_freeCount (s : State) (f : Field) (b : Bool) : (s.putB f b).freeCount = s.freeCount := by cases s; rfl
@[simp] theorem State.putB_tclk (s : State) (f : Field) (b : Bool) : (s.putB f b).tclk = s.tclk := by cases s; rfl
@[simp] theorem State.putB_angPhase (s : State) (f : Field) (b : Bool) : (s.putB f b).angPhase = s.angPhase := by cases s; rfl
@[simp] theorem State.putB_ang (s : State) (f : Field) (b : Bool) : (s.putB f b).ang = s.ang := by cases s; rfl
@[simp] theorem State.putB_flt (s : State) (f : Field) (b : Bool) : (s.putB f b).flt = s.flt := by cases s; rfl
@[simp] theorem State.putB_evq (s : State) (f : Field) (b : Bool) : (s.putB f b).evq = s.evq := by cases s; rfl
@[simp] theorem State.putB_guard (s : State) (f : Field) (b : Bool) : (s.putB f b).guard = s.guard := by cases s; rfl
@[simp] theorem State.putB_eng (s : State) (f : Field) (b : Bool) : (s.putB f b).eng = s.eng := by cases s; rfl
@[simp] theorem State.putB_fine (s : State) (f : Field) (b : Bool) : (s.putB f b).fine = s.fine := by cases s; rfl
@[simp] theorem State.putB_pool (s : State) (f : Field) (b : Bool) : (s.putB f b).pool = s.pool := by cases s; rfl
@[simp] theorem State.putB_assay (s : State) (f : Field) (b : Bool) : (s.putB f b).assay = s.assay := by cases s; rfl
@[simp] theorem State.putB_spare (s : State) (f : Field) (b : Bool) : (s.putB f b).spare = s.spare := by cases s; rfl
@[simp] theorem State.putB_seq (s : State) (f : Field) (b : Bool) : (s.putB f b).seq = s.seq := by cases s; rfl
@[simp] theorem State.putB_pm (s : State) (f : Field) (b : Bool) : (s.putB f b).pm = s.pm := by cases s; rfl
@[simp] theorem State.putB_marg (s : State) (f : Field) (b : Bool) : (s.putB f b).marg = s.marg := by cases s; rfl
@[simp] theorem State.putB_folio (s : State) (f : Field) (b : Bool) : (s.putB f b).folio = s.folio := by cases s; rfl
@[simp] theorem State.putB_nvm (s : State) (f : Field) (b : Bool) : (s.putB f b).nvm = s.nvm := by cases s; rfl
@[simp] theorem State.putB_tally (s : State) (f : Field) (b : Bool) : (s.putB f b).tally = s.tally := by cases s; rfl
@[simp] theorem State.putB_readOut (s : State) (f : Field) (b : Bool) : (s.putB f b).readOut = s.readOut := by cases s; rfl
@[simp] theorem State.putB_twin (s : State) (f : Field) (b : Bool) : (s.putB f b).twin = s.twin := by cases s; rfl
@[simp] theorem State.putB_wdn (s : State) (f : Field) (b : Bool) : (s.putB f b).wdn = s.wdn := by cases s; rfl
@[simp] theorem State.putB_ring (s : State) (f : Field) (b : Bool) : (s.putB f b).ring = s.ring := by cases s; rfl
@[simp] theorem State.putB_sec (s : State) (f : Field) (b : Bool) : (s.putB f b).sec = s.sec := by cases s; rfl
@[simp] theorem State.putB_rst (s : State) (f : Field) (b : Bool) : (s.putB f b).rst = s.rst := by cases s; rfl

/-! `State.putS` -/

@[simp] theorem State.putS_pending (s : State) (f : Field) (i : Int) : (s.putS f i).pending = s.pending := by cases s; rfl
@[simp] theorem State.putS_portLatch (s : State) (f : Field) (i : Int) : (s.putS f i).portLatch = s.portLatch := by cases s; rfl
@[simp] theorem State.putS_freeCount (s : State) (f : Field) (i : Int) : (s.putS f i).freeCount = s.freeCount := by cases s; rfl
@[simp] theorem State.putS_tclk (s : State) (f : Field) (i : Int) : (s.putS f i).tclk = s.tclk := by cases s; rfl
@[simp] theorem State.putS_angPhase (s : State) (f : Field) (i : Int) : (s.putS f i).angPhase = s.angPhase := by cases s; rfl
@[simp] theorem State.putS_ang (s : State) (f : Field) (i : Int) : (s.putS f i).ang = s.ang := by cases s; rfl
@[simp] theorem State.putS_flt (s : State) (f : Field) (i : Int) : (s.putS f i).flt = s.flt := by cases s; rfl
@[simp] theorem State.putS_evq (s : State) (f : Field) (i : Int) : (s.putS f i).evq = s.evq := by cases s; rfl
@[simp] theorem State.putS_guard (s : State) (f : Field) (i : Int) : (s.putS f i).guard = s.guard := by cases s; rfl
@[simp] theorem State.putS_eng (s : State) (f : Field) (i : Int) : (s.putS f i).eng = s.eng := by cases s; rfl
@[simp] theorem State.putS_fine (s : State) (f : Field) (i : Int) : (s.putS f i).fine = s.fine := by cases s; rfl
@[simp] theorem State.putS_pool (s : State) (f : Field) (i : Int) : (s.putS f i).pool = s.pool := by cases s; rfl
@[simp] theorem State.putS_assay (s : State) (f : Field) (i : Int) : (s.putS f i).assay = s.assay := by cases s; rfl
@[simp] theorem State.putS_spare (s : State) (f : Field) (i : Int) : (s.putS f i).spare = s.spare := by cases s; rfl
@[simp] theorem State.putS_seq (s : State) (f : Field) (i : Int) : (s.putS f i).seq = s.seq := by cases s; rfl
@[simp] theorem State.putS_pm (s : State) (f : Field) (i : Int) : (s.putS f i).pm = s.pm := by cases s; rfl
@[simp] theorem State.putS_marg (s : State) (f : Field) (i : Int) : (s.putS f i).marg = s.marg := by cases s; rfl
@[simp] theorem State.putS_folio (s : State) (f : Field) (i : Int) : (s.putS f i).folio = s.folio := by cases s; rfl
@[simp] theorem State.putS_nvm (s : State) (f : Field) (i : Int) : (s.putS f i).nvm = s.nvm := by cases s; rfl
@[simp] theorem State.putS_tally (s : State) (f : Field) (i : Int) : (s.putS f i).tally = s.tally := by cases s; rfl
@[simp] theorem State.putS_readOut (s : State) (f : Field) (i : Int) : (s.putS f i).readOut = s.readOut := by cases s; rfl
@[simp] theorem State.putS_twin (s : State) (f : Field) (i : Int) : (s.putS f i).twin = s.twin := by cases s; rfl
@[simp] theorem State.putS_wdn (s : State) (f : Field) (i : Int) : (s.putS f i).wdn = s.wdn := by cases s; rfl
@[simp] theorem State.putS_ring (s : State) (f : Field) (i : Int) : (s.putS f i).ring = s.ring := by cases s; rfl
@[simp] theorem State.putS_sec (s : State) (f : Field) (i : Int) : (s.putS f i).sec = s.sec := by cases s; rfl
@[simp] theorem State.putS_rst (s : State) (f : Field) (i : Int) : (s.putS f i).rst = s.rst := by cases s; rfl

/-! `State.addSat` -/

@[simp] theorem State.addSat_pending (s : State) (f : Field) (n : Nat) : (s.addSat f n).pending = s.pending := by cases s; rfl
@[simp] theorem State.addSat_portLatch (s : State) (f : Field) (n : Nat) : (s.addSat f n).portLatch = s.portLatch := by cases s; rfl
@[simp] theorem State.addSat_freeCount (s : State) (f : Field) (n : Nat) : (s.addSat f n).freeCount = s.freeCount := by cases s; rfl
@[simp] theorem State.addSat_tclk (s : State) (f : Field) (n : Nat) : (s.addSat f n).tclk = s.tclk := by cases s; rfl
@[simp] theorem State.addSat_angPhase (s : State) (f : Field) (n : Nat) : (s.addSat f n).angPhase = s.angPhase := by cases s; rfl
@[simp] theorem State.addSat_ang (s : State) (f : Field) (n : Nat) : (s.addSat f n).ang = s.ang := by cases s; rfl
@[simp] theorem State.addSat_flt (s : State) (f : Field) (n : Nat) : (s.addSat f n).flt = s.flt := by cases s; rfl
@[simp] theorem State.addSat_evq (s : State) (f : Field) (n : Nat) : (s.addSat f n).evq = s.evq := by cases s; rfl
@[simp] theorem State.addSat_guard (s : State) (f : Field) (n : Nat) : (s.addSat f n).guard = s.guard := by cases s; rfl
@[simp] theorem State.addSat_eng (s : State) (f : Field) (n : Nat) : (s.addSat f n).eng = s.eng := by cases s; rfl
@[simp] theorem State.addSat_fine (s : State) (f : Field) (n : Nat) : (s.addSat f n).fine = s.fine := by cases s; rfl
@[simp] theorem State.addSat_pool (s : State) (f : Field) (n : Nat) : (s.addSat f n).pool = s.pool := by cases s; rfl
@[simp] theorem State.addSat_assay (s : State) (f : Field) (n : Nat) : (s.addSat f n).assay = s.assay := by cases s; rfl
@[simp] theorem State.addSat_spare (s : State) (f : Field) (n : Nat) : (s.addSat f n).spare = s.spare := by cases s; rfl
@[simp] theorem State.addSat_seq (s : State) (f : Field) (n : Nat) : (s.addSat f n).seq = s.seq := by cases s; rfl
@[simp] theorem State.addSat_pm (s : State) (f : Field) (n : Nat) : (s.addSat f n).pm = s.pm := by cases s; rfl
@[simp] theorem State.addSat_marg (s : State) (f : Field) (n : Nat) : (s.addSat f n).marg = s.marg := by cases s; rfl
@[simp] theorem State.addSat_folio (s : State) (f : Field) (n : Nat) : (s.addSat f n).folio = s.folio := by cases s; rfl
@[simp] theorem State.addSat_nvm (s : State) (f : Field) (n : Nat) : (s.addSat f n).nvm = s.nvm := by cases s; rfl
@[simp] theorem State.addSat_tally (s : State) (f : Field) (n : Nat) : (s.addSat f n).tally = s.tally := by cases s; rfl
@[simp] theorem State.addSat_readOut (s : State) (f : Field) (n : Nat) : (s.addSat f n).readOut = s.readOut := by cases s; rfl
@[simp] theorem State.addSat_twin (s : State) (f : Field) (n : Nat) : (s.addSat f n).twin = s.twin := by cases s; rfl
@[simp] theorem State.addSat_wdn (s : State) (f : Field) (n : Nat) : (s.addSat f n).wdn = s.wdn := by cases s; rfl
@[simp] theorem State.addSat_ring (s : State) (f : Field) (n : Nat) : (s.addSat f n).ring = s.ring := by cases s; rfl
@[simp] theorem State.addSat_sec (s : State) (f : Field) (n : Nat) : (s.addSat f n).sec = s.sec := by cases s; rfl
@[simp] theorem State.addSat_rst (s : State) (f : Field) (n : Nat) : (s.addSat f n).rst = s.rst := by cases s; rfl

/-! `State.addWrap` -/

@[simp] theorem State.addWrap_pending (s : State) (f : Field) (n : Nat) : (s.addWrap f n).pending = s.pending := by cases s; rfl
@[simp] theorem State.addWrap_portLatch (s : State) (f : Field) (n : Nat) : (s.addWrap f n).portLatch = s.portLatch := by cases s; rfl
@[simp] theorem State.addWrap_freeCount (s : State) (f : Field) (n : Nat) : (s.addWrap f n).freeCount = s.freeCount := by cases s; rfl
@[simp] theorem State.addWrap_tclk (s : State) (f : Field) (n : Nat) : (s.addWrap f n).tclk = s.tclk := by cases s; rfl
@[simp] theorem State.addWrap_angPhase (s : State) (f : Field) (n : Nat) : (s.addWrap f n).angPhase = s.angPhase := by cases s; rfl
@[simp] theorem State.addWrap_ang (s : State) (f : Field) (n : Nat) : (s.addWrap f n).ang = s.ang := by cases s; rfl
@[simp] theorem State.addWrap_flt (s : State) (f : Field) (n : Nat) : (s.addWrap f n).flt = s.flt := by cases s; rfl
@[simp] theorem State.addWrap_evq (s : State) (f : Field) (n : Nat) : (s.addWrap f n).evq = s.evq := by cases s; rfl
@[simp] theorem State.addWrap_guard (s : State) (f : Field) (n : Nat) : (s.addWrap f n).guard = s.guard := by cases s; rfl
@[simp] theorem State.addWrap_eng (s : State) (f : Field) (n : Nat) : (s.addWrap f n).eng = s.eng := by cases s; rfl
@[simp] theorem State.addWrap_fine (s : State) (f : Field) (n : Nat) : (s.addWrap f n).fine = s.fine := by cases s; rfl
@[simp] theorem State.addWrap_pool (s : State) (f : Field) (n : Nat) : (s.addWrap f n).pool = s.pool := by cases s; rfl
@[simp] theorem State.addWrap_assay (s : State) (f : Field) (n : Nat) : (s.addWrap f n).assay = s.assay := by cases s; rfl
@[simp] theorem State.addWrap_spare (s : State) (f : Field) (n : Nat) : (s.addWrap f n).spare = s.spare := by cases s; rfl
@[simp] theorem State.addWrap_seq (s : State) (f : Field) (n : Nat) : (s.addWrap f n).seq = s.seq := by cases s; rfl
@[simp] theorem State.addWrap_pm (s : State) (f : Field) (n : Nat) : (s.addWrap f n).pm = s.pm := by cases s; rfl
@[simp] theorem State.addWrap_marg (s : State) (f : Field) (n : Nat) : (s.addWrap f n).marg = s.marg := by cases s; rfl
@[simp] theorem State.addWrap_folio (s : State) (f : Field) (n : Nat) : (s.addWrap f n).folio = s.folio := by cases s; rfl
@[simp] theorem State.addWrap_nvm (s : State) (f : Field) (n : Nat) : (s.addWrap f n).nvm = s.nvm := by cases s; rfl
@[simp] theorem State.addWrap_tally (s : State) (f : Field) (n : Nat) : (s.addWrap f n).tally = s.tally := by cases s; rfl
@[simp] theorem State.addWrap_readOut (s : State) (f : Field) (n : Nat) : (s.addWrap f n).readOut = s.readOut := by cases s; rfl
@[simp] theorem State.addWrap_twin (s : State) (f : Field) (n : Nat) : (s.addWrap f n).twin = s.twin := by cases s; rfl
@[simp] theorem State.addWrap_wdn (s : State) (f : Field) (n : Nat) : (s.addWrap f n).wdn = s.wdn := by cases s; rfl
@[simp] theorem State.addWrap_ring (s : State) (f : Field) (n : Nat) : (s.addWrap f n).ring = s.ring := by cases s; rfl
@[simp] theorem State.addWrap_sec (s : State) (f : Field) (n : Nat) : (s.addWrap f n).sec = s.sec := by cases s; rfl
@[simp] theorem State.addWrap_rst (s : State) (f : Field) (n : Nat) : (s.addWrap f n).rst = s.rst := by cases s; rfl

/-! `State.drawn` -/

@[simp] theorem State.drawn_pending (s : State) (n : Nat) : (s.drawn n).pending = s.pending := by cases s; rfl
@[simp] theorem State.drawn_portLatch (s : State) (n : Nat) : (s.drawn n).portLatch = s.portLatch := by cases s; rfl
@[simp] theorem State.drawn_tclk (s : State) (n : Nat) : (s.drawn n).tclk = s.tclk := by cases s; rfl
@[simp] theorem State.drawn_angPhase (s : State) (n : Nat) : (s.drawn n).angPhase = s.angPhase := by cases s; rfl
@[simp] theorem State.drawn_ang (s : State) (n : Nat) : (s.drawn n).ang = s.ang := by cases s; rfl
@[simp] theorem State.drawn_flt (s : State) (n : Nat) : (s.drawn n).flt = s.flt := by cases s; rfl
@[simp] theorem State.drawn_evq (s : State) (n : Nat) : (s.drawn n).evq = s.evq := by cases s; rfl
@[simp] theorem State.drawn_guard (s : State) (n : Nat) : (s.drawn n).guard = s.guard := by cases s; rfl
@[simp] theorem State.drawn_eng (s : State) (n : Nat) : (s.drawn n).eng = s.eng := by cases s; rfl
@[simp] theorem State.drawn_fine (s : State) (n : Nat) : (s.drawn n).fine = s.fine := by cases s; rfl
@[simp] theorem State.drawn_pool (s : State) (n : Nat) : (s.drawn n).pool = s.pool := by cases s; rfl
@[simp] theorem State.drawn_assay (s : State) (n : Nat) : (s.drawn n).assay = s.assay := by cases s; rfl
@[simp] theorem State.drawn_spare (s : State) (n : Nat) : (s.drawn n).spare = s.spare := by cases s; rfl
@[simp] theorem State.drawn_seq (s : State) (n : Nat) : (s.drawn n).seq = s.seq := by cases s; rfl
@[simp] theorem State.drawn_pm (s : State) (n : Nat) : (s.drawn n).pm = s.pm := by cases s; rfl
@[simp] theorem State.drawn_marg (s : State) (n : Nat) : (s.drawn n).marg = s.marg := by cases s; rfl
@[simp] theorem State.drawn_folio (s : State) (n : Nat) : (s.drawn n).folio = s.folio := by cases s; rfl
@[simp] theorem State.drawn_nvm (s : State) (n : Nat) : (s.drawn n).nvm = s.nvm := by cases s; rfl
@[simp] theorem State.drawn_tally (s : State) (n : Nat) : (s.drawn n).tally = s.tally := by cases s; rfl
@[simp] theorem State.drawn_readOut (s : State) (n : Nat) : (s.drawn n).readOut = s.readOut := by cases s; rfl
@[simp] theorem State.drawn_twin (s : State) (n : Nat) : (s.drawn n).twin = s.twin := by cases s; rfl
@[simp] theorem State.drawn_wdn (s : State) (n : Nat) : (s.drawn n).wdn = s.wdn := by cases s; rfl
@[simp] theorem State.drawn_ring (s : State) (n : Nat) : (s.drawn n).ring = s.ring := by cases s; rfl
@[simp] theorem State.drawn_sec (s : State) (n : Nat) : (s.drawn n).sec = s.sec := by cases s; rfl
@[simp] theorem State.drawn_rst (s : State) (n : Nat) : (s.drawn n).rst = s.rst := by cases s; rfl
@[simp] theorem State.drawn_regs (s : State) (n : Nat) : (s.drawn n).regs = s.regs := by cases s; rfl
@[simp] theorem State.drawn_reg (s : State) (n : Nat) (x : Nat) : (s.drawn n).reg x = s.reg x := by cases s; rfl
@[simp] theorem State.drawn_get (s : State) (n : Nat) (x : Field) : (s.drawn n).get x = s.get x := by cases s; rfl
@[simp] theorem State.drawn_flag (s : State) (n : Nat) (x : Field) : (s.drawn n).flag x = s.flag x := by cases s; rfl

/-! `State.latch` -/

@[simp] theorem State.latch_pending (s : State) (p : Port) (a v : Nat) : (s.latch p a v).pending = s.pending := by cases s; rfl
@[simp] theorem State.latch_freeCount (s : State) (p : Port) (a v : Nat) : (s.latch p a v).freeCount = s.freeCount := by cases s; rfl
@[simp] theorem State.latch_tclk (s : State) (p : Port) (a v : Nat) : (s.latch p a v).tclk = s.tclk := by cases s; rfl
@[simp] theorem State.latch_angPhase (s : State) (p : Port) (a v : Nat) : (s.latch p a v).angPhase = s.angPhase := by cases s; rfl
@[simp] theorem State.latch_ang (s : State) (p : Port) (a v : Nat) : (s.latch p a v).ang = s.ang := by cases s; rfl
@[simp] theorem State.latch_flt (s : State) (p : Port) (a v : Nat) : (s.latch p a v).flt = s.flt := by cases s; rfl
@[simp] theorem State.latch_evq (s : State) (p : Port) (a v : Nat) : (s.latch p a v).evq = s.evq := by cases s; rfl
@[simp] theorem State.latch_guard (s : State) (p : Port) (a v : Nat) : (s.latch p a v).guard = s.guard := by cases s; rfl
@[simp] theorem State.latch_eng (s : State) (p : Port) (a v : Nat) : (s.latch p a v).eng = s.eng := by cases s; rfl
@[simp] theorem State.latch_fine (s : State) (p : Port) (a v : Nat) : (s.latch p a v).fine = s.fine := by cases s; rfl
@[simp] theorem State.latch_pool (s : State) (p : Port) (a v : Nat) : (s.latch p a v).pool = s.pool := by cases s; rfl
@[simp] theorem State.latch_assay (s : State) (p : Port) (a v : Nat) : (s.latch p a v).assay = s.assay := by cases s; rfl
@[simp] theorem State.latch_spare (s : State) (p : Port) (a v : Nat) : (s.latch p a v).spare = s.spare := by cases s; rfl
@[simp] theorem State.latch_seq (s : State) (p : Port) (a v : Nat) : (s.latch p a v).seq = s.seq := by cases s; rfl
@[simp] theorem State.latch_pm (s : State) (p : Port) (a v : Nat) : (s.latch p a v).pm = s.pm := by cases s; rfl
@[simp] theorem State.latch_marg (s : State) (p : Port) (a v : Nat) : (s.latch p a v).marg = s.marg := by cases s; rfl
@[simp] theorem State.latch_folio (s : State) (p : Port) (a v : Nat) : (s.latch p a v).folio = s.folio := by cases s; rfl
@[simp] theorem State.latch_nvm (s : State) (p : Port) (a v : Nat) : (s.latch p a v).nvm = s.nvm := by cases s; rfl
@[simp] theorem State.latch_tally (s : State) (p : Port) (a v : Nat) : (s.latch p a v).tally = s.tally := by cases s; rfl
@[simp] theorem State.latch_readOut (s : State) (p : Port) (a v : Nat) : (s.latch p a v).readOut = s.readOut := by cases s; rfl
@[simp] theorem State.latch_twin (s : State) (p : Port) (a v : Nat) : (s.latch p a v).twin = s.twin := by cases s; rfl
@[simp] theorem State.latch_wdn (s : State) (p : Port) (a v : Nat) : (s.latch p a v).wdn = s.wdn := by cases s; rfl
@[simp] theorem State.latch_ring (s : State) (p : Port) (a v : Nat) : (s.latch p a v).ring = s.ring := by cases s; rfl
@[simp] theorem State.latch_sec (s : State) (p : Port) (a v : Nat) : (s.latch p a v).sec = s.sec := by cases s; rfl
@[simp] theorem State.latch_rst (s : State) (p : Port) (a v : Nat) : (s.latch p a v).rst = s.rst := by cases s; rfl
@[simp] theorem State.latch_regs (s : State) (p : Port) (a v : Nat) : (s.latch p a v).regs = s.regs := by cases s; rfl
@[simp] theorem State.latch_reg (s : State) (p : Port) (a v : Nat) (x : Nat) : (s.latch p a v).reg x = s.reg x := by cases s; rfl
@[simp] theorem State.latch_get (s : State) (p : Port) (a v : Nat) (x : Field) : (s.latch p a v).get x = s.get x := by cases s; rfl
@[simp] theorem State.latch_flag (s : State) (p : Port) (a v : Nat) (x : Field) : (s.latch p a v).flag x = s.flag x := by cases s; rfl

/-! `State.readBack` -/

@[simp] theorem State.readBack_pending (s : State) (p : Port) (v : Nat) : (s.readBack p v).pending = s.pending := by cases s; rfl
@[simp] theorem State.readBack_portLatch (s : State) (p : Port) (v : Nat) : (s.readBack p v).portLatch = s.portLatch := by cases s; rfl
@[simp] theorem State.readBack_freeCount (s : State) (p : Port) (v : Nat) : (s.readBack p v).freeCount = s.freeCount := by cases s; rfl
@[simp] theorem State.readBack_tclk (s : State) (p : Port) (v : Nat) : (s.readBack p v).tclk = s.tclk := by cases s; rfl
@[simp] theorem State.readBack_angPhase (s : State) (p : Port) (v : Nat) : (s.readBack p v).angPhase = s.angPhase := by cases s; rfl
@[simp] theorem State.readBack_ang (s : State) (p : Port) (v : Nat) : (s.readBack p v).ang = s.ang := by cases s; rfl
@[simp] theorem State.readBack_flt (s : State) (p : Port) (v : Nat) : (s.readBack p v).flt = s.flt := by cases s; rfl
@[simp] theorem State.readBack_evq (s : State) (p : Port) (v : Nat) : (s.readBack p v).evq = s.evq := by cases s; rfl
@[simp] theorem State.readBack_guard (s : State) (p : Port) (v : Nat) : (s.readBack p v).guard = s.guard := by cases s; rfl
@[simp] theorem State.readBack_eng (s : State) (p : Port) (v : Nat) : (s.readBack p v).eng = s.eng := by cases s; rfl
@[simp] theorem State.readBack_fine (s : State) (p : Port) (v : Nat) : (s.readBack p v).fine = s.fine := by cases s; rfl
@[simp] theorem State.readBack_pool (s : State) (p : Port) (v : Nat) : (s.readBack p v).pool = s.pool := by cases s; rfl
@[simp] theorem State.readBack_assay (s : State) (p : Port) (v : Nat) : (s.readBack p v).assay = s.assay := by cases s; rfl
@[simp] theorem State.readBack_spare (s : State) (p : Port) (v : Nat) : (s.readBack p v).spare = s.spare := by cases s; rfl
@[simp] theorem State.readBack_seq (s : State) (p : Port) (v : Nat) : (s.readBack p v).seq = s.seq := by cases s; rfl
@[simp] theorem State.readBack_pm (s : State) (p : Port) (v : Nat) : (s.readBack p v).pm = s.pm := by cases s; rfl
@[simp] theorem State.readBack_marg (s : State) (p : Port) (v : Nat) : (s.readBack p v).marg = s.marg := by cases s; rfl
@[simp] theorem State.readBack_folio (s : State) (p : Port) (v : Nat) : (s.readBack p v).folio = s.folio := by cases s; rfl
@[simp] theorem State.readBack_nvm (s : State) (p : Port) (v : Nat) : (s.readBack p v).nvm = s.nvm := by cases s; rfl
@[simp] theorem State.readBack_tally (s : State) (p : Port) (v : Nat) : (s.readBack p v).tally = s.tally := by cases s; rfl
@[simp] theorem State.readBack_twin (s : State) (p : Port) (v : Nat) : (s.readBack p v).twin = s.twin := by cases s; rfl
@[simp] theorem State.readBack_wdn (s : State) (p : Port) (v : Nat) : (s.readBack p v).wdn = s.wdn := by cases s; rfl
@[simp] theorem State.readBack_ring (s : State) (p : Port) (v : Nat) : (s.readBack p v).ring = s.ring := by cases s; rfl
@[simp] theorem State.readBack_sec (s : State) (p : Port) (v : Nat) : (s.readBack p v).sec = s.sec := by cases s; rfl
@[simp] theorem State.readBack_rst (s : State) (p : Port) (v : Nat) : (s.readBack p v).rst = s.rst := by cases s; rfl
@[simp] theorem State.readBack_regs (s : State) (p : Port) (v : Nat) : (s.readBack p v).regs = s.regs := by cases s; rfl
@[simp] theorem State.readBack_reg (s : State) (p : Port) (v : Nat) (x : Nat) : (s.readBack p v).reg x = s.reg x := by cases s; rfl
@[simp] theorem State.readBack_get (s : State) (p : Port) (v : Nat) (x : Field) : (s.readBack p v).get x = s.get x := by cases s; rfl
@[simp] theorem State.readBack_flag (s : State) (p : Port) (v : Nat) (x : Field) : (s.readBack p v).flag x = s.flag x := by cases s; rfl

/-! `State.send` -/

@[simp] theorem State.send_pending (s : State) (m : FaultMsg) : (s.send m).pending = s.pending := by cases s; rfl
@[simp] theorem State.send_portLatch (s : State) (m : FaultMsg) : (s.send m).portLatch = s.portLatch := by cases s; rfl
@[simp] theorem State.send_freeCount (s : State) (m : FaultMsg) : (s.send m).freeCount = s.freeCount := by cases s; rfl
@[simp] theorem State.send_tclk (s : State) (m : FaultMsg) : (s.send m).tclk = s.tclk := by cases s; rfl
@[simp] theorem State.send_angPhase (s : State) (m : FaultMsg) : (s.send m).angPhase = s.angPhase := by cases s; rfl
@[simp] theorem State.send_ang (s : State) (m : FaultMsg) : (s.send m).ang = s.ang := by cases s; rfl
@[simp] theorem State.send_evq (s : State) (m : FaultMsg) : (s.send m).evq = s.evq := by cases s; rfl
@[simp] theorem State.send_guard (s : State) (m : FaultMsg) : (s.send m).guard = s.guard := by cases s; rfl
@[simp] theorem State.send_eng (s : State) (m : FaultMsg) : (s.send m).eng = s.eng := by cases s; rfl
@[simp] theorem State.send_fine (s : State) (m : FaultMsg) : (s.send m).fine = s.fine := by cases s; rfl
@[simp] theorem State.send_pool (s : State) (m : FaultMsg) : (s.send m).pool = s.pool := by cases s; rfl
@[simp] theorem State.send_assay (s : State) (m : FaultMsg) : (s.send m).assay = s.assay := by cases s; rfl
@[simp] theorem State.send_spare (s : State) (m : FaultMsg) : (s.send m).spare = s.spare := by cases s; rfl
@[simp] theorem State.send_seq (s : State) (m : FaultMsg) : (s.send m).seq = s.seq := by cases s; rfl
@[simp] theorem State.send_pm (s : State) (m : FaultMsg) : (s.send m).pm = s.pm := by cases s; rfl
@[simp] theorem State.send_marg (s : State) (m : FaultMsg) : (s.send m).marg = s.marg := by cases s; rfl
@[simp] theorem State.send_folio (s : State) (m : FaultMsg) : (s.send m).folio = s.folio := by cases s; rfl
@[simp] theorem State.send_nvm (s : State) (m : FaultMsg) : (s.send m).nvm = s.nvm := by cases s; rfl
@[simp] theorem State.send_tally (s : State) (m : FaultMsg) : (s.send m).tally = s.tally := by cases s; rfl
@[simp] theorem State.send_readOut (s : State) (m : FaultMsg) : (s.send m).readOut = s.readOut := by cases s; rfl
@[simp] theorem State.send_twin (s : State) (m : FaultMsg) : (s.send m).twin = s.twin := by cases s; rfl
@[simp] theorem State.send_wdn (s : State) (m : FaultMsg) : (s.send m).wdn = s.wdn := by cases s; rfl
@[simp] theorem State.send_ring (s : State) (m : FaultMsg) : (s.send m).ring = s.ring := by cases s; rfl
@[simp] theorem State.send_sec (s : State) (m : FaultMsg) : (s.send m).sec = s.sec := by cases s; rfl
@[simp] theorem State.send_rst (s : State) (m : FaultMsg) : (s.send m).rst = s.rst := by cases s; rfl
@[simp] theorem State.send_regs (s : State) (m : FaultMsg) : (s.send m).regs = s.regs := by cases s; rfl
@[simp] theorem State.send_reg (s : State) (m : FaultMsg) (x : Nat) : (s.send m).reg x = s.reg x := by cases s; rfl
@[simp] theorem State.send_get (s : State) (m : FaultMsg) (x : Field) : (s.send m).get x = s.get x := by cases s; rfl
@[simp] theorem State.send_flag (s : State) (m : FaultMsg) (x : Field) : (s.send m).flag x = s.flag x := by cases s; rfl

/-! `State.raise` -/

@[simp] theorem State.raise_pending (s : State) (a b c d e : Nat) : (s.raise a b c d e).pending = s.pending := by cases s; rfl
@[simp] theorem State.raise_portLatch (s : State) (a b c d e : Nat) : (s.raise a b c d e).portLatch = s.portLatch := by cases s; rfl
@[simp] theorem State.raise_freeCount (s : State) (a b c d e : Nat) : (s.raise a b c d e).freeCount = s.freeCount := by cases s; rfl
@[simp] theorem State.raise_tclk (s : State) (a b c d e : Nat) : (s.raise a b c d e).tclk = s.tclk := by cases s; rfl
@[simp] theorem State.raise_angPhase (s : State) (a b c d e : Nat) : (s.raise a b c d e).angPhase = s.angPhase := by cases s; rfl
@[simp] theorem State.raise_ang (s : State) (a b c d e : Nat) : (s.raise a b c d e).ang = s.ang := by cases s; rfl
@[simp] theorem State.raise_evq (s : State) (a b c d e : Nat) : (s.raise a b c d e).evq = s.evq := by cases s; rfl
@[simp] theorem State.raise_guard (s : State) (a b c d e : Nat) : (s.raise a b c d e).guard = s.guard := by cases s; rfl
@[simp] theorem State.raise_eng (s : State) (a b c d e : Nat) : (s.raise a b c d e).eng = s.eng := by cases s; rfl
@[simp] theorem State.raise_fine (s : State) (a b c d e : Nat) : (s.raise a b c d e).fine = s.fine := by cases s; rfl
@[simp] theorem State.raise_pool (s : State) (a b c d e : Nat) : (s.raise a b c d e).pool = s.pool := by cases s; rfl
@[simp] theorem State.raise_assay (s : State) (a b c d e : Nat) : (s.raise a b c d e).assay = s.assay := by cases s; rfl
@[simp] theorem State.raise_spare (s : State) (a b c d e : Nat) : (s.raise a b c d e).spare = s.spare := by cases s; rfl
@[simp] theorem State.raise_seq (s : State) (a b c d e : Nat) : (s.raise a b c d e).seq = s.seq := by cases s; rfl
@[simp] theorem State.raise_pm (s : State) (a b c d e : Nat) : (s.raise a b c d e).pm = s.pm := by cases s; rfl
@[simp] theorem State.raise_marg (s : State) (a b c d e : Nat) : (s.raise a b c d e).marg = s.marg := by cases s; rfl
@[simp] theorem State.raise_folio (s : State) (a b c d e : Nat) : (s.raise a b c d e).folio = s.folio := by cases s; rfl
@[simp] theorem State.raise_nvm (s : State) (a b c d e : Nat) : (s.raise a b c d e).nvm = s.nvm := by cases s; rfl
@[simp] theorem State.raise_tally (s : State) (a b c d e : Nat) : (s.raise a b c d e).tally = s.tally := by cases s; rfl
@[simp] theorem State.raise_readOut (s : State) (a b c d e : Nat) : (s.raise a b c d e).readOut = s.readOut := by cases s; rfl
@[simp] theorem State.raise_twin (s : State) (a b c d e : Nat) : (s.raise a b c d e).twin = s.twin := by cases s; rfl
@[simp] theorem State.raise_wdn (s : State) (a b c d e : Nat) : (s.raise a b c d e).wdn = s.wdn := by cases s; rfl
@[simp] theorem State.raise_ring (s : State) (a b c d e : Nat) : (s.raise a b c d e).ring = s.ring := by cases s; rfl
@[simp] theorem State.raise_sec (s : State) (a b c d e : Nat) : (s.raise a b c d e).sec = s.sec := by cases s; rfl
@[simp] theorem State.raise_rst (s : State) (a b c d e : Nat) : (s.raise a b c d e).rst = s.rst := by cases s; rfl
@[simp] theorem State.raise_regs (s : State) (a b c d e : Nat) : (s.raise a b c d e).regs = s.regs := by cases s; rfl
@[simp] theorem State.raise_reg (s : State) (a b c d e : Nat) (x : Nat) : (s.raise a b c d e).reg x = s.reg x := by cases s; rfl
@[simp] theorem State.raise_get (s : State) (a b c d e : Nat) (x : Field) : (s.raise a b c d e).get x = s.get x := by cases s; rfl
@[simp] theorem State.raise_flag (s : State) (a b c d e : Nat) (x : Field) : (s.raise a b c d e).flag x = s.flag x := by cases s; rfl

/-! `State.raiseMomentary` -/

@[simp] theorem State.raiseMomentary_pending (s : State) (a b c d : Nat) : (s.raiseMomentary a b c d).pending = s.pending := by cases s; rfl
@[simp] theorem State.raiseMomentary_portLatch (s : State) (a b c d : Nat) : (s.raiseMomentary a b c d).portLatch = s.portLatch := by cases s; rfl
@[simp] theorem State.raiseMomentary_freeCount (s : State) (a b c d : Nat) : (s.raiseMomentary a b c d).freeCount = s.freeCount := by cases s; rfl
@[simp] theorem State.raiseMomentary_tclk (s : State) (a b c d : Nat) : (s.raiseMomentary a b c d).tclk = s.tclk := by cases s; rfl
@[simp] theorem State.raiseMomentary_angPhase (s : State) (a b c d : Nat) : (s.raiseMomentary a b c d).angPhase = s.angPhase := by cases s; rfl
@[simp] theorem State.raiseMomentary_ang (s : State) (a b c d : Nat) : (s.raiseMomentary a b c d).ang = s.ang := by cases s; rfl
@[simp] theorem State.raiseMomentary_evq (s : State) (a b c d : Nat) : (s.raiseMomentary a b c d).evq = s.evq := by cases s; rfl
@[simp] theorem State.raiseMomentary_guard (s : State) (a b c d : Nat) : (s.raiseMomentary a b c d).guard = s.guard := by cases s; rfl
@[simp] theorem State.raiseMomentary_eng (s : State) (a b c d : Nat) : (s.raiseMomentary a b c d).eng = s.eng := by cases s; rfl
@[simp] theorem State.raiseMomentary_fine (s : State) (a b c d : Nat) : (s.raiseMomentary a b c d).fine = s.fine := by cases s; rfl
@[simp] theorem State.raiseMomentary_pool (s : State) (a b c d : Nat) : (s.raiseMomentary a b c d).pool = s.pool := by cases s; rfl
@[simp] theorem State.raiseMomentary_assay (s : State) (a b c d : Nat) : (s.raiseMomentary a b c d).assay = s.assay := by cases s; rfl
@[simp] theorem State.raiseMomentary_spare (s : State) (a b c d : Nat) : (s.raiseMomentary a b c d).spare = s.spare := by cases s; rfl
@[simp] theorem State.raiseMomentary_seq (s : State) (a b c d : Nat) : (s.raiseMomentary a b c d).seq = s.seq := by cases s; rfl
@[simp] theorem State.raiseMomentary_pm (s : State) (a b c d : Nat) : (s.raiseMomentary a b c d).pm = s.pm := by cases s; rfl
@[simp] theorem State.raiseMomentary_marg (s : State) (a b c d : Nat) : (s.raiseMomentary a b c d).marg = s.marg := by cases s; rfl
@[simp] theorem State.raiseMomentary_folio (s : State) (a b c d : Nat) : (s.raiseMomentary a b c d).folio = s.folio := by cases s; rfl
@[simp] theorem State.raiseMomentary_nvm (s : State) (a b c d : Nat) : (s.raiseMomentary a b c d).nvm = s.nvm := by cases s; rfl
@[simp] theorem State.raiseMomentary_tally (s : State) (a b c d : Nat) : (s.raiseMomentary a b c d).tally = s.tally := by cases s; rfl
@[simp] theorem State.raiseMomentary_readOut (s : State) (a b c d : Nat) : (s.raiseMomentary a b c d).readOut = s.readOut := by cases s; rfl
@[simp] theorem State.raiseMomentary_twin (s : State) (a b c d : Nat) : (s.raiseMomentary a b c d).twin = s.twin := by cases s; rfl
@[simp] theorem State.raiseMomentary_wdn (s : State) (a b c d : Nat) : (s.raiseMomentary a b c d).wdn = s.wdn := by cases s; rfl
@[simp] theorem State.raiseMomentary_ring (s : State) (a b c d : Nat) : (s.raiseMomentary a b c d).ring = s.ring := by cases s; rfl
@[simp] theorem State.raiseMomentary_sec (s : State) (a b c d : Nat) : (s.raiseMomentary a b c d).sec = s.sec := by cases s; rfl
@[simp] theorem State.raiseMomentary_rst (s : State) (a b c d : Nat) : (s.raiseMomentary a b c d).rst = s.rst := by cases s; rfl
@[simp] theorem State.raiseMomentary_regs (s : State) (a b c d : Nat) : (s.raiseMomentary a b c d).regs = s.regs := by cases s; rfl
@[simp] theorem State.raiseMomentary_reg (s : State) (a b c d : Nat) (x : Nat) : (s.raiseMomentary a b c d).reg x = s.reg x := by cases s; rfl
@[simp] theorem State.raiseMomentary_get (s : State) (a b c d : Nat) (x : Field) : (s.raiseMomentary a b c d).get x = s.get x := by cases s; rfl
@[simp] theorem State.raiseMomentary_flag (s : State) (a b c d : Nat) (x : Field) : (s.raiseMomentary a b c d).flag x = s.flag x := by cases s; rfl

/-! `State.endCond` -/

@[simp] theorem State.endCond_pending (s : State) (a b : Nat) : (s.endCond a b).pending = s.pending := by cases s; rfl
@[simp] theorem State.endCond_portLatch (s : State) (a b : Nat) : (s.endCond a b).portLatch = s.portLatch := by cases s; rfl
@[simp] theorem State.endCond_freeCount (s : State) (a b : Nat) : (s.endCond a b).freeCount = s.freeCount := by cases s; rfl
@[simp] theorem State.endCond_tclk (s : State) (a b : Nat) : (s.endCond a b).tclk = s.tclk := by cases s; rfl
@[simp] theorem State.endCond_angPhase (s : State) (a b : Nat) : (s.endCond a b).angPhase = s.angPhase := by cases s; rfl
@[simp] theorem State.endCond_ang (s : State) (a b : Nat) : (s.endCond a b).ang = s.ang := by cases s; rfl
@[simp] theorem State.endCond_evq (s : State) (a b : Nat) : (s.endCond a b).evq = s.evq := by cases s; rfl
@[simp] theorem State.endCond_guard (s : State) (a b : Nat) : (s.endCond a b).guard = s.guard := by cases s; rfl
@[simp] theorem State.endCond_eng (s : State) (a b : Nat) : (s.endCond a b).eng = s.eng := by cases s; rfl
@[simp] theorem State.endCond_fine (s : State) (a b : Nat) : (s.endCond a b).fine = s.fine := by cases s; rfl
@[simp] theorem State.endCond_pool (s : State) (a b : Nat) : (s.endCond a b).pool = s.pool := by cases s; rfl
@[simp] theorem State.endCond_assay (s : State) (a b : Nat) : (s.endCond a b).assay = s.assay := by cases s; rfl
@[simp] theorem State.endCond_spare (s : State) (a b : Nat) : (s.endCond a b).spare = s.spare := by cases s; rfl
@[simp] theorem State.endCond_seq (s : State) (a b : Nat) : (s.endCond a b).seq = s.seq := by cases s; rfl
@[simp] theorem State.endCond_pm (s : State) (a b : Nat) : (s.endCond a b).pm = s.pm := by cases s; rfl
@[simp] theorem State.endCond_marg (s : State) (a b : Nat) : (s.endCond a b).marg = s.marg := by cases s; rfl
@[simp] theorem State.endCond_folio (s : State) (a b : Nat) : (s.endCond a b).folio = s.folio := by cases s; rfl
@[simp] theorem State.endCond_nvm (s : State) (a b : Nat) : (s.endCond a b).nvm = s.nvm := by cases s; rfl
@[simp] theorem State.endCond_tally (s : State) (a b : Nat) : (s.endCond a b).tally = s.tally := by cases s; rfl
@[simp] theorem State.endCond_readOut (s : State) (a b : Nat) : (s.endCond a b).readOut = s.readOut := by cases s; rfl
@[simp] theorem State.endCond_twin (s : State) (a b : Nat) : (s.endCond a b).twin = s.twin := by cases s; rfl
@[simp] theorem State.endCond_wdn (s : State) (a b : Nat) : (s.endCond a b).wdn = s.wdn := by cases s; rfl
@[simp] theorem State.endCond_ring (s : State) (a b : Nat) : (s.endCond a b).ring = s.ring := by cases s; rfl
@[simp] theorem State.endCond_sec (s : State) (a b : Nat) : (s.endCond a b).sec = s.sec := by cases s; rfl
@[simp] theorem State.endCond_rst (s : State) (a b : Nat) : (s.endCond a b).rst = s.rst := by cases s; rfl
@[simp] theorem State.endCond_regs (s : State) (a b : Nat) : (s.endCond a b).regs = s.regs := by cases s; rfl
@[simp] theorem State.endCond_reg (s : State) (a b : Nat) (x : Nat) : (s.endCond a b).reg x = s.reg x := by cases s; rfl
@[simp] theorem State.endCond_get (s : State) (a b : Nat) (x : Field) : (s.endCond a b).get x = s.get x := by cases s; rfl
@[simp] theorem State.endCond_flag (s : State) (a b : Nat) (x : Field) : (s.endCond a b).flag x = s.flag x := by cases s; rfl

/-! `State.modAng` -/

@[simp] theorem State.modAng_pending (s : State) (f : AngleState → AngleState) : (s.modAng f).pending = s.pending := by cases s; rfl
@[simp] theorem State.modAng_portLatch (s : State) (f : AngleState → AngleState) : (s.modAng f).portLatch = s.portLatch := by cases s; rfl
@[simp] theorem State.modAng_freeCount (s : State) (f : AngleState → AngleState) : (s.modAng f).freeCount = s.freeCount := by cases s; rfl
@[simp] theorem State.modAng_tclk (s : State) (f : AngleState → AngleState) : (s.modAng f).tclk = s.tclk := by cases s; rfl
@[simp] theorem State.modAng_angPhase (s : State) (f : AngleState → AngleState) : (s.modAng f).angPhase = s.angPhase := by cases s; rfl
@[simp] theorem State.modAng_flt (s : State) (f : AngleState → AngleState) : (s.modAng f).flt = s.flt := by cases s; rfl
@[simp] theorem State.modAng_evq (s : State) (f : AngleState → AngleState) : (s.modAng f).evq = s.evq := by cases s; rfl
@[simp] theorem State.modAng_guard (s : State) (f : AngleState → AngleState) : (s.modAng f).guard = s.guard := by cases s; rfl
@[simp] theorem State.modAng_eng (s : State) (f : AngleState → AngleState) : (s.modAng f).eng = s.eng := by cases s; rfl
@[simp] theorem State.modAng_fine (s : State) (f : AngleState → AngleState) : (s.modAng f).fine = s.fine := by cases s; rfl
@[simp] theorem State.modAng_pool (s : State) (f : AngleState → AngleState) : (s.modAng f).pool = s.pool := by cases s; rfl
@[simp] theorem State.modAng_assay (s : State) (f : AngleState → AngleState) : (s.modAng f).assay = s.assay := by cases s; rfl
@[simp] theorem State.modAng_spare (s : State) (f : AngleState → AngleState) : (s.modAng f).spare = s.spare := by cases s; rfl
@[simp] theorem State.modAng_seq (s : State) (f : AngleState → AngleState) : (s.modAng f).seq = s.seq := by cases s; rfl
@[simp] theorem State.modAng_pm (s : State) (f : AngleState → AngleState) : (s.modAng f).pm = s.pm := by cases s; rfl
@[simp] theorem State.modAng_marg (s : State) (f : AngleState → AngleState) : (s.modAng f).marg = s.marg := by cases s; rfl
@[simp] theorem State.modAng_folio (s : State) (f : AngleState → AngleState) : (s.modAng f).folio = s.folio := by cases s; rfl
@[simp] theorem State.modAng_nvm (s : State) (f : AngleState → AngleState) : (s.modAng f).nvm = s.nvm := by cases s; rfl
@[simp] theorem State.modAng_tally (s : State) (f : AngleState → AngleState) : (s.modAng f).tally = s.tally := by cases s; rfl
@[simp] theorem State.modAng_readOut (s : State) (f : AngleState → AngleState) : (s.modAng f).readOut = s.readOut := by cases s; rfl
@[simp] theorem State.modAng_twin (s : State) (f : AngleState → AngleState) : (s.modAng f).twin = s.twin := by cases s; rfl
@[simp] theorem State.modAng_wdn (s : State) (f : AngleState → AngleState) : (s.modAng f).wdn = s.wdn := by cases s; rfl
@[simp] theorem State.modAng_ring (s : State) (f : AngleState → AngleState) : (s.modAng f).ring = s.ring := by cases s; rfl
@[simp] theorem State.modAng_sec (s : State) (f : AngleState → AngleState) : (s.modAng f).sec = s.sec := by cases s; rfl
@[simp] theorem State.modAng_rst (s : State) (f : AngleState → AngleState) : (s.modAng f).rst = s.rst := by cases s; rfl
@[simp] theorem State.modAng_regs (s : State) (f : AngleState → AngleState) : (s.modAng f).regs = s.regs := by cases s; rfl
@[simp] theorem State.modAng_reg (s : State) (f : AngleState → AngleState) (x : Nat) : (s.modAng f).reg x = s.reg x := by cases s; rfl
@[simp] theorem State.modAng_get (s : State) (f : AngleState → AngleState) (x : Field) : (s.modAng f).get x = s.get x := by cases s; rfl
@[simp] theorem State.modAng_flag (s : State) (f : AngleState → AngleState) (x : Field) : (s.modAng f).flag x = s.flag x := by cases s; rfl

/-! `State.modFlt` -/

@[simp] theorem State.modFlt_pending (s : State) (f : FaultState → FaultState) : (s.modFlt f).pending = s.pending := by cases s; rfl
@[simp] theorem State.modFlt_portLatch (s : State) (f : FaultState → FaultState) : (s.modFlt f).portLatch = s.portLatch := by cases s; rfl
@[simp] theorem State.modFlt_freeCount (s : State) (f : FaultState → FaultState) : (s.modFlt f).freeCount = s.freeCount := by cases s; rfl
@[simp] theorem State.modFlt_tclk (s : State) (f : FaultState → FaultState) : (s.modFlt f).tclk = s.tclk := by cases s; rfl
@[simp] theorem State.modFlt_angPhase (s : State) (f : FaultState → FaultState) : (s.modFlt f).angPhase = s.angPhase := by cases s; rfl
@[simp] theorem State.modFlt_ang (s : State) (f : FaultState → FaultState) : (s.modFlt f).ang = s.ang := by cases s; rfl
@[simp] theorem State.modFlt_evq (s : State) (f : FaultState → FaultState) : (s.modFlt f).evq = s.evq := by cases s; rfl
@[simp] theorem State.modFlt_guard (s : State) (f : FaultState → FaultState) : (s.modFlt f).guard = s.guard := by cases s; rfl
@[simp] theorem State.modFlt_eng (s : State) (f : FaultState → FaultState) : (s.modFlt f).eng = s.eng := by cases s; rfl
@[simp] theorem State.modFlt_fine (s : State) (f : FaultState → FaultState) : (s.modFlt f).fine = s.fine := by cases s; rfl
@[simp] theorem State.modFlt_pool (s : State) (f : FaultState → FaultState) : (s.modFlt f).pool = s.pool := by cases s; rfl
@[simp] theorem State.modFlt_assay (s : State) (f : FaultState → FaultState) : (s.modFlt f).assay = s.assay := by cases s; rfl
@[simp] theorem State.modFlt_spare (s : State) (f : FaultState → FaultState) : (s.modFlt f).spare = s.spare := by cases s; rfl
@[simp] theorem State.modFlt_seq (s : State) (f : FaultState → FaultState) : (s.modFlt f).seq = s.seq := by cases s; rfl
@[simp] theorem State.modFlt_pm (s : State) (f : FaultState → FaultState) : (s.modFlt f).pm = s.pm := by cases s; rfl
@[simp] theorem State.modFlt_marg (s : State) (f : FaultState → FaultState) : (s.modFlt f).marg = s.marg := by cases s; rfl
@[simp] theorem State.modFlt_folio (s : State) (f : FaultState → FaultState) : (s.modFlt f).folio = s.folio := by cases s; rfl
@[simp] theorem State.modFlt_nvm (s : State) (f : FaultState → FaultState) : (s.modFlt f).nvm = s.nvm := by cases s; rfl
@[simp] theorem State.modFlt_tally (s : State) (f : FaultState → FaultState) : (s.modFlt f).tally = s.tally := by cases s; rfl
@[simp] theorem State.modFlt_readOut (s : State) (f : FaultState → FaultState) : (s.modFlt f).readOut = s.readOut := by cases s; rfl
@[simp] theorem State.modFlt_twin (s : State) (f : FaultState → FaultState) : (s.modFlt f).twin = s.twin := by cases s; rfl
@[simp] theorem State.modFlt_wdn (s : State) (f : FaultState → FaultState) : (s.modFlt f).wdn = s.wdn := by cases s; rfl
@[simp] theorem State.modFlt_ring (s : State) (f : FaultState → FaultState) : (s.modFlt f).ring = s.ring := by cases s; rfl
@[simp] theorem State.modFlt_sec (s : State) (f : FaultState → FaultState) : (s.modFlt f).sec = s.sec := by cases s; rfl
@[simp] theorem State.modFlt_rst (s : State) (f : FaultState → FaultState) : (s.modFlt f).rst = s.rst := by cases s; rfl
@[simp] theorem State.modFlt_regs (s : State) (f : FaultState → FaultState) : (s.modFlt f).regs = s.regs := by cases s; rfl
@[simp] theorem State.modFlt_reg (s : State) (f : FaultState → FaultState) (x : Nat) : (s.modFlt f).reg x = s.reg x := by cases s; rfl
@[simp] theorem State.modFlt_get (s : State) (f : FaultState → FaultState) (x : Field) : (s.modFlt f).get x = s.get x := by cases s; rfl
@[simp] theorem State.modFlt_flag (s : State) (f : FaultState → FaultState) (x : Field) : (s.modFlt f).flag x = s.flag x := by cases s; rfl

/-! `State.modEng` -/

@[simp] theorem State.modEng_pending (s : State) (f : EngineState → EngineState) : (s.modEng f).pending = s.pending := by cases s; rfl
@[simp] theorem State.modEng_portLatch (s : State) (f : EngineState → EngineState) : (s.modEng f).portLatch = s.portLatch := by cases s; rfl
@[simp] theorem State.modEng_freeCount (s : State) (f : EngineState → EngineState) : (s.modEng f).freeCount = s.freeCount := by cases s; rfl
@[simp] theorem State.modEng_tclk (s : State) (f : EngineState → EngineState) : (s.modEng f).tclk = s.tclk := by cases s; rfl
@[simp] theorem State.modEng_angPhase (s : State) (f : EngineState → EngineState) : (s.modEng f).angPhase = s.angPhase := by cases s; rfl
@[simp] theorem State.modEng_ang (s : State) (f : EngineState → EngineState) : (s.modEng f).ang = s.ang := by cases s; rfl
@[simp] theorem State.modEng_flt (s : State) (f : EngineState → EngineState) : (s.modEng f).flt = s.flt := by cases s; rfl
@[simp] theorem State.modEng_evq (s : State) (f : EngineState → EngineState) : (s.modEng f).evq = s.evq := by cases s; rfl
@[simp] theorem State.modEng_guard (s : State) (f : EngineState → EngineState) : (s.modEng f).guard = s.guard := by cases s; rfl
@[simp] theorem State.modEng_fine (s : State) (f : EngineState → EngineState) : (s.modEng f).fine = s.fine := by cases s; rfl
@[simp] theorem State.modEng_pool (s : State) (f : EngineState → EngineState) : (s.modEng f).pool = s.pool := by cases s; rfl
@[simp] theorem State.modEng_assay (s : State) (f : EngineState → EngineState) : (s.modEng f).assay = s.assay := by cases s; rfl
@[simp] theorem State.modEng_spare (s : State) (f : EngineState → EngineState) : (s.modEng f).spare = s.spare := by cases s; rfl
@[simp] theorem State.modEng_seq (s : State) (f : EngineState → EngineState) : (s.modEng f).seq = s.seq := by cases s; rfl
@[simp] theorem State.modEng_pm (s : State) (f : EngineState → EngineState) : (s.modEng f).pm = s.pm := by cases s; rfl
@[simp] theorem State.modEng_marg (s : State) (f : EngineState → EngineState) : (s.modEng f).marg = s.marg := by cases s; rfl
@[simp] theorem State.modEng_folio (s : State) (f : EngineState → EngineState) : (s.modEng f).folio = s.folio := by cases s; rfl
@[simp] theorem State.modEng_nvm (s : State) (f : EngineState → EngineState) : (s.modEng f).nvm = s.nvm := by cases s; rfl
@[simp] theorem State.modEng_tally (s : State) (f : EngineState → EngineState) : (s.modEng f).tally = s.tally := by cases s; rfl
@[simp] theorem State.modEng_readOut (s : State) (f : EngineState → EngineState) : (s.modEng f).readOut = s.readOut := by cases s; rfl
@[simp] theorem State.modEng_twin (s : State) (f : EngineState → EngineState) : (s.modEng f).twin = s.twin := by cases s; rfl
@[simp] theorem State.modEng_wdn (s : State) (f : EngineState → EngineState) : (s.modEng f).wdn = s.wdn := by cases s; rfl
@[simp] theorem State.modEng_ring (s : State) (f : EngineState → EngineState) : (s.modEng f).ring = s.ring := by cases s; rfl
@[simp] theorem State.modEng_sec (s : State) (f : EngineState → EngineState) : (s.modEng f).sec = s.sec := by cases s; rfl
@[simp] theorem State.modEng_rst (s : State) (f : EngineState → EngineState) : (s.modEng f).rst = s.rst := by cases s; rfl
@[simp] theorem State.modEng_regs (s : State) (f : EngineState → EngineState) : (s.modEng f).regs = s.regs := by cases s; rfl
@[simp] theorem State.modEng_reg (s : State) (f : EngineState → EngineState) (x : Nat) : (s.modEng f).reg x = s.reg x := by cases s; rfl
@[simp] theorem State.modEng_get (s : State) (f : EngineState → EngineState) (x : Field) : (s.modEng f).get x = s.get x := by cases s; rfl
@[simp] theorem State.modEng_flag (s : State) (f : EngineState → EngineState) (x : Field) : (s.modEng f).flag x = s.flag x := by cases s; rfl

/-! `State.modFolio` -/

@[simp] theorem State.modFolio_pending (s : State) (f : FolioState → FolioState) : (s.modFolio f).pending = s.pending := by cases s; rfl
@[simp] theorem State.modFolio_portLatch (s : State) (f : FolioState → FolioState) : (s.modFolio f).portLatch = s.portLatch := by cases s; rfl
@[simp] theorem State.modFolio_freeCount (s : State) (f : FolioState → FolioState) : (s.modFolio f).freeCount = s.freeCount := by cases s; rfl
@[simp] theorem State.modFolio_tclk (s : State) (f : FolioState → FolioState) : (s.modFolio f).tclk = s.tclk := by cases s; rfl
@[simp] theorem State.modFolio_angPhase (s : State) (f : FolioState → FolioState) : (s.modFolio f).angPhase = s.angPhase := by cases s; rfl
@[simp] theorem State.modFolio_ang (s : State) (f : FolioState → FolioState) : (s.modFolio f).ang = s.ang := by cases s; rfl
@[simp] theorem State.modFolio_flt (s : State) (f : FolioState → FolioState) : (s.modFolio f).flt = s.flt := by cases s; rfl
@[simp] theorem State.modFolio_evq (s : State) (f : FolioState → FolioState) : (s.modFolio f).evq = s.evq := by cases s; rfl
@[simp] theorem State.modFolio_guard (s : State) (f : FolioState → FolioState) : (s.modFolio f).guard = s.guard := by cases s; rfl
@[simp] theorem State.modFolio_eng (s : State) (f : FolioState → FolioState) : (s.modFolio f).eng = s.eng := by cases s; rfl
@[simp] theorem State.modFolio_fine (s : State) (f : FolioState → FolioState) : (s.modFolio f).fine = s.fine := by cases s; rfl
@[simp] theorem State.modFolio_pool (s : State) (f : FolioState → FolioState) : (s.modFolio f).pool = s.pool := by cases s; rfl
@[simp] theorem State.modFolio_assay (s : State) (f : FolioState → FolioState) : (s.modFolio f).assay = s.assay := by cases s; rfl
@[simp] theorem State.modFolio_spare (s : State) (f : FolioState → FolioState) : (s.modFolio f).spare = s.spare := by cases s; rfl
@[simp] theorem State.modFolio_seq (s : State) (f : FolioState → FolioState) : (s.modFolio f).seq = s.seq := by cases s; rfl
@[simp] theorem State.modFolio_pm (s : State) (f : FolioState → FolioState) : (s.modFolio f).pm = s.pm := by cases s; rfl
@[simp] theorem State.modFolio_marg (s : State) (f : FolioState → FolioState) : (s.modFolio f).marg = s.marg := by cases s; rfl
@[simp] theorem State.modFolio_nvm (s : State) (f : FolioState → FolioState) : (s.modFolio f).nvm = s.nvm := by cases s; rfl
@[simp] theorem State.modFolio_tally (s : State) (f : FolioState → FolioState) : (s.modFolio f).tally = s.tally := by cases s; rfl
@[simp] theorem State.modFolio_readOut (s : State) (f : FolioState → FolioState) : (s.modFolio f).readOut = s.readOut := by cases s; rfl
@[simp] theorem State.modFolio_twin (s : State) (f : FolioState → FolioState) : (s.modFolio f).twin = s.twin := by cases s; rfl
@[simp] theorem State.modFolio_wdn (s : State) (f : FolioState → FolioState) : (s.modFolio f).wdn = s.wdn := by cases s; rfl
@[simp] theorem State.modFolio_ring (s : State) (f : FolioState → FolioState) : (s.modFolio f).ring = s.ring := by cases s; rfl
@[simp] theorem State.modFolio_sec (s : State) (f : FolioState → FolioState) : (s.modFolio f).sec = s.sec := by cases s; rfl
@[simp] theorem State.modFolio_rst (s : State) (f : FolioState → FolioState) : (s.modFolio f).rst = s.rst := by cases s; rfl
@[simp] theorem State.modFolio_regs (s : State) (f : FolioState → FolioState) : (s.modFolio f).regs = s.regs := by cases s; rfl
@[simp] theorem State.modFolio_reg (s : State) (f : FolioState → FolioState) (x : Nat) : (s.modFolio f).reg x = s.reg x := by cases s; rfl
@[simp] theorem State.modFolio_get (s : State) (f : FolioState → FolioState) (x : Field) : (s.modFolio f).get x = s.get x := by cases s; rfl
@[simp] theorem State.modFolio_flag (s : State) (f : FolioState → FolioState) (x : Field) : (s.modFolio f).flag x = s.flag x := by cases s; rfl

/-! `State.modAssay` -/

@[simp] theorem State.modAssay_pending (s : State) (f : AssayState → AssayState) : (s.modAssay f).pending = s.pending := by cases s; rfl
@[simp] theorem State.modAssay_portLatch (s : State) (f : AssayState → AssayState) : (s.modAssay f).portLatch = s.portLatch := by cases s; rfl
@[simp] theorem State.modAssay_freeCount (s : State) (f : AssayState → AssayState) : (s.modAssay f).freeCount = s.freeCount := by cases s; rfl
@[simp] theorem State.modAssay_tclk (s : State) (f : AssayState → AssayState) : (s.modAssay f).tclk = s.tclk := by cases s; rfl
@[simp] theorem State.modAssay_angPhase (s : State) (f : AssayState → AssayState) : (s.modAssay f).angPhase = s.angPhase := by cases s; rfl
@[simp] theorem State.modAssay_ang (s : State) (f : AssayState → AssayState) : (s.modAssay f).ang = s.ang := by cases s; rfl
@[simp] theorem State.modAssay_flt (s : State) (f : AssayState → AssayState) : (s.modAssay f).flt = s.flt := by cases s; rfl
@[simp] theorem State.modAssay_evq (s : State) (f : AssayState → AssayState) : (s.modAssay f).evq = s.evq := by cases s; rfl
@[simp] theorem State.modAssay_guard (s : State) (f : AssayState → AssayState) : (s.modAssay f).guard = s.guard := by cases s; rfl
@[simp] theorem State.modAssay_eng (s : State) (f : AssayState → AssayState) : (s.modAssay f).eng = s.eng := by cases s; rfl
@[simp] theorem State.modAssay_fine (s : State) (f : AssayState → AssayState) : (s.modAssay f).fine = s.fine := by cases s; rfl
@[simp] theorem State.modAssay_pool (s : State) (f : AssayState → AssayState) : (s.modAssay f).pool = s.pool := by cases s; rfl
@[simp] theorem State.modAssay_spare (s : State) (f : AssayState → AssayState) : (s.modAssay f).spare = s.spare := by cases s; rfl
@[simp] theorem State.modAssay_seq (s : State) (f : AssayState → AssayState) : (s.modAssay f).seq = s.seq := by cases s; rfl
@[simp] theorem State.modAssay_pm (s : State) (f : AssayState → AssayState) : (s.modAssay f).pm = s.pm := by cases s; rfl
@[simp] theorem State.modAssay_marg (s : State) (f : AssayState → AssayState) : (s.modAssay f).marg = s.marg := by cases s; rfl
@[simp] theorem State.modAssay_folio (s : State) (f : AssayState → AssayState) : (s.modAssay f).folio = s.folio := by cases s; rfl
@[simp] theorem State.modAssay_nvm (s : State) (f : AssayState → AssayState) : (s.modAssay f).nvm = s.nvm := by cases s; rfl
@[simp] theorem State.modAssay_tally (s : State) (f : AssayState → AssayState) : (s.modAssay f).tally = s.tally := by cases s; rfl
@[simp] theorem State.modAssay_readOut (s : State) (f : AssayState → AssayState) : (s.modAssay f).readOut = s.readOut := by cases s; rfl
@[simp] theorem State.modAssay_twin (s : State) (f : AssayState → AssayState) : (s.modAssay f).twin = s.twin := by cases s; rfl
@[simp] theorem State.modAssay_wdn (s : State) (f : AssayState → AssayState) : (s.modAssay f).wdn = s.wdn := by cases s; rfl
@[simp] theorem State.modAssay_ring (s : State) (f : AssayState → AssayState) : (s.modAssay f).ring = s.ring := by cases s; rfl
@[simp] theorem State.modAssay_sec (s : State) (f : AssayState → AssayState) : (s.modAssay f).sec = s.sec := by cases s; rfl
@[simp] theorem State.modAssay_rst (s : State) (f : AssayState → AssayState) : (s.modAssay f).rst = s.rst := by cases s; rfl
@[simp] theorem State.modAssay_regs (s : State) (f : AssayState → AssayState) : (s.modAssay f).regs = s.regs := by cases s; rfl
@[simp] theorem State.modAssay_reg (s : State) (f : AssayState → AssayState) (x : Nat) : (s.modAssay f).reg x = s.reg x := by cases s; rfl
@[simp] theorem State.modAssay_get (s : State) (f : AssayState → AssayState) (x : Field) : (s.modAssay f).get x = s.get x := by cases s; rfl
@[simp] theorem State.modAssay_flag (s : State) (f : AssayState → AssayState) (x : Field) : (s.modAssay f).flag x = s.flag x := by cases s; rfl

/-! `State.modMarg` -/

@[simp] theorem State.modMarg_pending (s : State) (f : MargState → MargState) : (s.modMarg f).pending = s.pending := by cases s; rfl
@[simp] theorem State.modMarg_portLatch (s : State) (f : MargState → MargState) : (s.modMarg f).portLatch = s.portLatch := by cases s; rfl
@[simp] theorem State.modMarg_freeCount (s : State) (f : MargState → MargState) : (s.modMarg f).freeCount = s.freeCount := by cases s; rfl
@[simp] theorem State.modMarg_tclk (s : State) (f : MargState → MargState) : (s.modMarg f).tclk = s.tclk := by cases s; rfl
@[simp] theorem State.modMarg_angPhase (s : State) (f : MargState → MargState) : (s.modMarg f).angPhase = s.angPhase := by cases s; rfl
@[simp] theorem State.modMarg_ang (s : State) (f : MargState → MargState) : (s.modMarg f).ang = s.ang := by cases s; rfl
@[simp] theorem State.modMarg_flt (s : State) (f : MargState → MargState) : (s.modMarg f).flt = s.flt := by cases s; rfl
@[simp] theorem State.modMarg_evq (s : State) (f : MargState → MargState) : (s.modMarg f).evq = s.evq := by cases s; rfl
@[simp] theorem State.modMarg_guard (s : State) (f : MargState → MargState) : (s.modMarg f).guard = s.guard := by cases s; rfl
@[simp] theorem State.modMarg_eng (s : State) (f : MargState → MargState) : (s.modMarg f).eng = s.eng := by cases s; rfl
@[simp] theorem State.modMarg_fine (s : State) (f : MargState → MargState) : (s.modMarg f).fine = s.fine := by cases s; rfl
@[simp] theorem State.modMarg_pool (s : State) (f : MargState → MargState) : (s.modMarg f).pool = s.pool := by cases s; rfl
@[simp] theorem State.modMarg_assay (s : State) (f : MargState → MargState) : (s.modMarg f).assay = s.assay := by cases s; rfl
@[simp] theorem State.modMarg_spare (s : State) (f : MargState → MargState) : (s.modMarg f).spare = s.spare := by cases s; rfl
@[simp] theorem State.modMarg_seq (s : State) (f : MargState → MargState) : (s.modMarg f).seq = s.seq := by cases s; rfl
@[simp] theorem State.modMarg_pm (s : State) (f : MargState → MargState) : (s.modMarg f).pm = s.pm := by cases s; rfl
@[simp] theorem State.modMarg_folio (s : State) (f : MargState → MargState) : (s.modMarg f).folio = s.folio := by cases s; rfl
@[simp] theorem State.modMarg_nvm (s : State) (f : MargState → MargState) : (s.modMarg f).nvm = s.nvm := by cases s; rfl
@[simp] theorem State.modMarg_tally (s : State) (f : MargState → MargState) : (s.modMarg f).tally = s.tally := by cases s; rfl
@[simp] theorem State.modMarg_readOut (s : State) (f : MargState → MargState) : (s.modMarg f).readOut = s.readOut := by cases s; rfl
@[simp] theorem State.modMarg_twin (s : State) (f : MargState → MargState) : (s.modMarg f).twin = s.twin := by cases s; rfl
@[simp] theorem State.modMarg_wdn (s : State) (f : MargState → MargState) : (s.modMarg f).wdn = s.wdn := by cases s; rfl
@[simp] theorem State.modMarg_ring (s : State) (f : MargState → MargState) : (s.modMarg f).ring = s.ring := by cases s; rfl
@[simp] theorem State.modMarg_sec (s : State) (f : MargState → MargState) : (s.modMarg f).sec = s.sec := by cases s; rfl
@[simp] theorem State.modMarg_rst (s : State) (f : MargState → MargState) : (s.modMarg f).rst = s.rst := by cases s; rfl
@[simp] theorem State.modMarg_regs (s : State) (f : MargState → MargState) : (s.modMarg f).regs = s.regs := by cases s; rfl
@[simp] theorem State.modMarg_reg (s : State) (f : MargState → MargState) (x : Nat) : (s.modMarg f).reg x = s.reg x := by cases s; rfl
@[simp] theorem State.modMarg_get (s : State) (f : MargState → MargState) (x : Field) : (s.modMarg f).get x = s.get x := by cases s; rfl
@[simp] theorem State.modMarg_flag (s : State) (f : MargState → MargState) (x : Field) : (s.modMarg f).flag x = s.flag x := by cases s; rfl

/-! `State.modSec` -/

@[simp] theorem State.modSec_pending (s : State) (f : SecState → SecState) : (s.modSec f).pending = s.pending := by cases s; rfl
@[simp] theorem State.modSec_portLatch (s : State) (f : SecState → SecState) : (s.modSec f).portLatch = s.portLatch := by cases s; rfl
@[simp] theorem State.modSec_freeCount (s : State) (f : SecState → SecState) : (s.modSec f).freeCount = s.freeCount := by cases s; rfl
@[simp] theorem State.modSec_tclk (s : State) (f : SecState → SecState) : (s.modSec f).tclk = s.tclk := by cases s; rfl
@[simp] theorem State.modSec_angPhase (s : State) (f : SecState → SecState) : (s.modSec f).angPhase = s.angPhase := by cases s; rfl
@[simp] theorem State.modSec_ang (s : State) (f : SecState → SecState) : (s.modSec f).ang = s.ang := by cases s; rfl
@[simp] theorem State.modSec_flt (s : State) (f : SecState → SecState) : (s.modSec f).flt = s.flt := by cases s; rfl
@[simp] theorem State.modSec_evq (s : State) (f : SecState → SecState) : (s.modSec f).evq = s.evq := by cases s; rfl
@[simp] theorem State.modSec_guard (s : State) (f : SecState → SecState) : (s.modSec f).guard = s.guard := by cases s; rfl
@[simp] theorem State.modSec_eng (s : State) (f : SecState → SecState) : (s.modSec f).eng = s.eng := by cases s; rfl
@[simp] theorem State.modSec_fine (s : State) (f : SecState → SecState) : (s.modSec f).fine = s.fine := by cases s; rfl
@[simp] theorem State.modSec_pool (s : State) (f : SecState → SecState) : (s.modSec f).pool = s.pool := by cases s; rfl
@[simp] theorem State.modSec_assay (s : State) (f : SecState → SecState) : (s.modSec f).assay = s.assay := by cases s; rfl
@[simp] theorem State.modSec_spare (s : State) (f : SecState → SecState) : (s.modSec f).spare = s.spare := by cases s; rfl
@[simp] theorem State.modSec_seq (s : State) (f : SecState → SecState) : (s.modSec f).seq = s.seq := by cases s; rfl
@[simp] theorem State.modSec_pm (s : State) (f : SecState → SecState) : (s.modSec f).pm = s.pm := by cases s; rfl
@[simp] theorem State.modSec_marg (s : State) (f : SecState → SecState) : (s.modSec f).marg = s.marg := by cases s; rfl
@[simp] theorem State.modSec_folio (s : State) (f : SecState → SecState) : (s.modSec f).folio = s.folio := by cases s; rfl
@[simp] theorem State.modSec_nvm (s : State) (f : SecState → SecState) : (s.modSec f).nvm = s.nvm := by cases s; rfl
@[simp] theorem State.modSec_tally (s : State) (f : SecState → SecState) : (s.modSec f).tally = s.tally := by cases s; rfl
@[simp] theorem State.modSec_readOut (s : State) (f : SecState → SecState) : (s.modSec f).readOut = s.readOut := by cases s; rfl
@[simp] theorem State.modSec_twin (s : State) (f : SecState → SecState) : (s.modSec f).twin = s.twin := by cases s; rfl
@[simp] theorem State.modSec_wdn (s : State) (f : SecState → SecState) : (s.modSec f).wdn = s.wdn := by cases s; rfl
@[simp] theorem State.modSec_ring (s : State) (f : SecState → SecState) : (s.modSec f).ring = s.ring := by cases s; rfl
@[simp] theorem State.modSec_rst (s : State) (f : SecState → SecState) : (s.modSec f).rst = s.rst := by cases s; rfl
@[simp] theorem State.modSec_regs (s : State) (f : SecState → SecState) : (s.modSec f).regs = s.regs := by cases s; rfl
@[simp] theorem State.modSec_reg (s : State) (f : SecState → SecState) (x : Nat) : (s.modSec f).reg x = s.reg x := by cases s; rfl
@[simp] theorem State.modSec_get (s : State) (f : SecState → SecState) (x : Field) : (s.modSec f).get x = s.get x := by cases s; rfl
@[simp] theorem State.modSec_flag (s : State) (f : SecState → SecState) (x : Field) : (s.modSec f).flag x = s.flag x := by cases s; rfl

/-! `State.modNvm` -/

@[simp] theorem State.modNvm_pending (s : State) (f : NvmState → NvmState) : (s.modNvm f).pending = s.pending := by cases s; rfl
@[simp] theorem State.modNvm_portLatch (s : State) (f : NvmState → NvmState) : (s.modNvm f).portLatch = s.portLatch := by cases s; rfl
@[simp] theorem State.modNvm_freeCount (s : State) (f : NvmState → NvmState) : (s.modNvm f).freeCount = s.freeCount := by cases s; rfl
@[simp] theorem State.modNvm_tclk (s : State) (f : NvmState → NvmState) : (s.modNvm f).tclk = s.tclk := by cases s; rfl
@[simp] theorem State.modNvm_angPhase (s : State) (f : NvmState → NvmState) : (s.modNvm f).angPhase = s.angPhase := by cases s; rfl
@[simp] theorem State.modNvm_ang (s : State) (f : NvmState → NvmState) : (s.modNvm f).ang = s.ang := by cases s; rfl
@[simp] theorem State.modNvm_flt (s : State) (f : NvmState → NvmState) : (s.modNvm f).flt = s.flt := by cases s; rfl
@[simp] theorem State.modNvm_evq (s : State) (f : NvmState → NvmState) : (s.modNvm f).evq = s.evq := by cases s; rfl
@[simp] theorem State.modNvm_guard (s : State) (f : NvmState → NvmState) : (s.modNvm f).guard = s.guard := by cases s; rfl
@[simp] theorem State.modNvm_eng (s : State) (f : NvmState → NvmState) : (s.modNvm f).eng = s.eng := by cases s; rfl
@[simp] theorem State.modNvm_fine (s : State) (f : NvmState → NvmState) : (s.modNvm f).fine = s.fine := by cases s; rfl
@[simp] theorem State.modNvm_pool (s : State) (f : NvmState → NvmState) : (s.modNvm f).pool = s.pool := by cases s; rfl
@[simp] theorem State.modNvm_assay (s : State) (f : NvmState → NvmState) : (s.modNvm f).assay = s.assay := by cases s; rfl
@[simp] theorem State.modNvm_spare (s : State) (f : NvmState → NvmState) : (s.modNvm f).spare = s.spare := by cases s; rfl
@[simp] theorem State.modNvm_seq (s : State) (f : NvmState → NvmState) : (s.modNvm f).seq = s.seq := by cases s; rfl
@[simp] theorem State.modNvm_pm (s : State) (f : NvmState → NvmState) : (s.modNvm f).pm = s.pm := by cases s; rfl
@[simp] theorem State.modNvm_marg (s : State) (f : NvmState → NvmState) : (s.modNvm f).marg = s.marg := by cases s; rfl
@[simp] theorem State.modNvm_folio (s : State) (f : NvmState → NvmState) : (s.modNvm f).folio = s.folio := by cases s; rfl
@[simp] theorem State.modNvm_tally (s : State) (f : NvmState → NvmState) : (s.modNvm f).tally = s.tally := by cases s; rfl
@[simp] theorem State.modNvm_readOut (s : State) (f : NvmState → NvmState) : (s.modNvm f).readOut = s.readOut := by cases s; rfl
@[simp] theorem State.modNvm_twin (s : State) (f : NvmState → NvmState) : (s.modNvm f).twin = s.twin := by cases s; rfl
@[simp] theorem State.modNvm_wdn (s : State) (f : NvmState → NvmState) : (s.modNvm f).wdn = s.wdn := by cases s; rfl
@[simp] theorem State.modNvm_ring (s : State) (f : NvmState → NvmState) : (s.modNvm f).ring = s.ring := by cases s; rfl
@[simp] theorem State.modNvm_sec (s : State) (f : NvmState → NvmState) : (s.modNvm f).sec = s.sec := by cases s; rfl
@[simp] theorem State.modNvm_rst (s : State) (f : NvmState → NvmState) : (s.modNvm f).rst = s.rst := by cases s; rfl
@[simp] theorem State.modNvm_regs (s : State) (f : NvmState → NvmState) : (s.modNvm f).regs = s.regs := by cases s; rfl
@[simp] theorem State.modNvm_reg (s : State) (f : NvmState → NvmState) (x : Nat) : (s.modNvm f).reg x = s.reg x := by cases s; rfl
@[simp] theorem State.modNvm_get (s : State) (f : NvmState → NvmState) (x : Field) : (s.modNvm f).get x = s.get x := by cases s; rfl
@[simp] theorem State.modNvm_flag (s : State) (f : NvmState → NvmState) (x : Field) : (s.modNvm f).flag x = s.flag x := by cases s; rfl

/-! `State.modPool` -/

@[simp] theorem State.modPool_pending (s : State) (f : PoolState → PoolState) : (s.modPool f).pending = s.pending := by cases s; rfl
@[simp] theorem State.modPool_portLatch (s : State) (f : PoolState → PoolState) : (s.modPool f).portLatch = s.portLatch := by cases s; rfl
@[simp] theorem State.modPool_freeCount (s : State) (f : PoolState → PoolState) : (s.modPool f).freeCount = s.freeCount := by cases s; rfl
@[simp] theorem State.modPool_tclk (s : State) (f : PoolState → PoolState) : (s.modPool f).tclk = s.tclk := by cases s; rfl
@[simp] theorem State.modPool_angPhase (s : State) (f : PoolState → PoolState) : (s.modPool f).angPhase = s.angPhase := by cases s; rfl
@[simp] theorem State.modPool_ang (s : State) (f : PoolState → PoolState) : (s.modPool f).ang = s.ang := by cases s; rfl
@[simp] theorem State.modPool_flt (s : State) (f : PoolState → PoolState) : (s.modPool f).flt = s.flt := by cases s; rfl
@[simp] theorem State.modPool_evq (s : State) (f : PoolState → PoolState) : (s.modPool f).evq = s.evq := by cases s; rfl
@[simp] theorem State.modPool_guard (s : State) (f : PoolState → PoolState) : (s.modPool f).guard = s.guard := by cases s; rfl
@[simp] theorem State.modPool_eng (s : State) (f : PoolState → PoolState) : (s.modPool f).eng = s.eng := by cases s; rfl
@[simp] theorem State.modPool_fine (s : State) (f : PoolState → PoolState) : (s.modPool f).fine = s.fine := by cases s; rfl
@[simp] theorem State.modPool_assay (s : State) (f : PoolState → PoolState) : (s.modPool f).assay = s.assay := by cases s; rfl
@[simp] theorem State.modPool_spare (s : State) (f : PoolState → PoolState) : (s.modPool f).spare = s.spare := by cases s; rfl
@[simp] theorem State.modPool_seq (s : State) (f : PoolState → PoolState) : (s.modPool f).seq = s.seq := by cases s; rfl
@[simp] theorem State.modPool_pm (s : State) (f : PoolState → PoolState) : (s.modPool f).pm = s.pm := by cases s; rfl
@[simp] theorem State.modPool_marg (s : State) (f : PoolState → PoolState) : (s.modPool f).marg = s.marg := by cases s; rfl
@[simp] theorem State.modPool_folio (s : State) (f : PoolState → PoolState) : (s.modPool f).folio = s.folio := by cases s; rfl
@[simp] theorem State.modPool_nvm (s : State) (f : PoolState → PoolState) : (s.modPool f).nvm = s.nvm := by cases s; rfl
@[simp] theorem State.modPool_tally (s : State) (f : PoolState → PoolState) : (s.modPool f).tally = s.tally := by cases s; rfl
@[simp] theorem State.modPool_readOut (s : State) (f : PoolState → PoolState) : (s.modPool f).readOut = s.readOut := by cases s; rfl
@[simp] theorem State.modPool_twin (s : State) (f : PoolState → PoolState) : (s.modPool f).twin = s.twin := by cases s; rfl
@[simp] theorem State.modPool_wdn (s : State) (f : PoolState → PoolState) : (s.modPool f).wdn = s.wdn := by cases s; rfl
@[simp] theorem State.modPool_ring (s : State) (f : PoolState → PoolState) : (s.modPool f).ring = s.ring := by cases s; rfl
@[simp] theorem State.modPool_sec (s : State) (f : PoolState → PoolState) : (s.modPool f).sec = s.sec := by cases s; rfl
@[simp] theorem State.modPool_rst (s : State) (f : PoolState → PoolState) : (s.modPool f).rst = s.rst := by cases s; rfl
@[simp] theorem State.modPool_regs (s : State) (f : PoolState → PoolState) : (s.modPool f).regs = s.regs := by cases s; rfl
@[simp] theorem State.modPool_reg (s : State) (f : PoolState → PoolState) (x : Nat) : (s.modPool f).reg x = s.reg x := by cases s; rfl
@[simp] theorem State.modPool_get (s : State) (f : PoolState → PoolState) (x : Field) : (s.modPool f).get x = s.get x := by cases s; rfl
@[simp] theorem State.modPool_flag (s : State) (f : PoolState → PoolState) (x : Field) : (s.modPool f).flag x = s.flag x := by cases s; rfl

/-! `State.modSeq` -/

@[simp] theorem State.modSeq_pending (s : State) (f : SeqState → SeqState) : (s.modSeq f).pending = s.pending := by cases s; rfl
@[simp] theorem State.modSeq_portLatch (s : State) (f : SeqState → SeqState) : (s.modSeq f).portLatch = s.portLatch := by cases s; rfl
@[simp] theorem State.modSeq_freeCount (s : State) (f : SeqState → SeqState) : (s.modSeq f).freeCount = s.freeCount := by cases s; rfl
@[simp] theorem State.modSeq_tclk (s : State) (f : SeqState → SeqState) : (s.modSeq f).tclk = s.tclk := by cases s; rfl
@[simp] theorem State.modSeq_angPhase (s : State) (f : SeqState → SeqState) : (s.modSeq f).angPhase = s.angPhase := by cases s; rfl
@[simp] theorem State.modSeq_ang (s : State) (f : SeqState → SeqState) : (s.modSeq f).ang = s.ang := by cases s; rfl
@[simp] theorem State.modSeq_flt (s : State) (f : SeqState → SeqState) : (s.modSeq f).flt = s.flt := by cases s; rfl
@[simp] theorem State.modSeq_evq (s : State) (f : SeqState → SeqState) : (s.modSeq f).evq = s.evq := by cases s; rfl
@[simp] theorem State.modSeq_guard (s : State) (f : SeqState → SeqState) : (s.modSeq f).guard = s.guard := by cases s; rfl
@[simp] theorem State.modSeq_eng (s : State) (f : SeqState → SeqState) : (s.modSeq f).eng = s.eng := by cases s; rfl
@[simp] theorem State.modSeq_fine (s : State) (f : SeqState → SeqState) : (s.modSeq f).fine = s.fine := by cases s; rfl
@[simp] theorem State.modSeq_pool (s : State) (f : SeqState → SeqState) : (s.modSeq f).pool = s.pool := by cases s; rfl
@[simp] theorem State.modSeq_assay (s : State) (f : SeqState → SeqState) : (s.modSeq f).assay = s.assay := by cases s; rfl
@[simp] theorem State.modSeq_spare (s : State) (f : SeqState → SeqState) : (s.modSeq f).spare = s.spare := by cases s; rfl
@[simp] theorem State.modSeq_pm (s : State) (f : SeqState → SeqState) : (s.modSeq f).pm = s.pm := by cases s; rfl
@[simp] theorem State.modSeq_marg (s : State) (f : SeqState → SeqState) : (s.modSeq f).marg = s.marg := by cases s; rfl
@[simp] theorem State.modSeq_folio (s : State) (f : SeqState → SeqState) : (s.modSeq f).folio = s.folio := by cases s; rfl
@[simp] theorem State.modSeq_nvm (s : State) (f : SeqState → SeqState) : (s.modSeq f).nvm = s.nvm := by cases s; rfl
@[simp] theorem State.modSeq_tally (s : State) (f : SeqState → SeqState) : (s.modSeq f).tally = s.tally := by cases s; rfl
@[simp] theorem State.modSeq_readOut (s : State) (f : SeqState → SeqState) : (s.modSeq f).readOut = s.readOut := by cases s; rfl
@[simp] theorem State.modSeq_twin (s : State) (f : SeqState → SeqState) : (s.modSeq f).twin = s.twin := by cases s; rfl
@[simp] theorem State.modSeq_wdn (s : State) (f : SeqState → SeqState) : (s.modSeq f).wdn = s.wdn := by cases s; rfl
@[simp] theorem State.modSeq_ring (s : State) (f : SeqState → SeqState) : (s.modSeq f).ring = s.ring := by cases s; rfl
@[simp] theorem State.modSeq_sec (s : State) (f : SeqState → SeqState) : (s.modSeq f).sec = s.sec := by cases s; rfl
@[simp] theorem State.modSeq_rst (s : State) (f : SeqState → SeqState) : (s.modSeq f).rst = s.rst := by cases s; rfl
@[simp] theorem State.modSeq_regs (s : State) (f : SeqState → SeqState) : (s.modSeq f).regs = s.regs := by cases s; rfl
@[simp] theorem State.modSeq_reg (s : State) (f : SeqState → SeqState) (x : Nat) : (s.modSeq f).reg x = s.reg x := by cases s; rfl
@[simp] theorem State.modSeq_get (s : State) (f : SeqState → SeqState) (x : Field) : (s.modSeq f).get x = s.get x := by cases s; rfl
@[simp] theorem State.modSeq_flag (s : State) (f : SeqState → SeqState) (x : Field) : (s.modSeq f).flag x = s.flag x := by cases s; rfl

/-! `State.modRst` -/

@[simp] theorem State.modRst_pending (s : State) (f : ResetState → ResetState) : (s.modRst f).pending = s.pending := by cases s; rfl
@[simp] theorem State.modRst_portLatch (s : State) (f : ResetState → ResetState) : (s.modRst f).portLatch = s.portLatch := by cases s; rfl
@[simp] theorem State.modRst_freeCount (s : State) (f : ResetState → ResetState) : (s.modRst f).freeCount = s.freeCount := by cases s; rfl
@[simp] theorem State.modRst_tclk (s : State) (f : ResetState → ResetState) : (s.modRst f).tclk = s.tclk := by cases s; rfl
@[simp] theorem State.modRst_angPhase (s : State) (f : ResetState → ResetState) : (s.modRst f).angPhase = s.angPhase := by cases s; rfl
@[simp] theorem State.modRst_ang (s : State) (f : ResetState → ResetState) : (s.modRst f).ang = s.ang := by cases s; rfl
@[simp] theorem State.modRst_flt (s : State) (f : ResetState → ResetState) : (s.modRst f).flt = s.flt := by cases s; rfl
@[simp] theorem State.modRst_evq (s : State) (f : ResetState → ResetState) : (s.modRst f).evq = s.evq := by cases s; rfl
@[simp] theorem State.modRst_guard (s : State) (f : ResetState → ResetState) : (s.modRst f).guard = s.guard := by cases s; rfl
@[simp] theorem State.modRst_eng (s : State) (f : ResetState → ResetState) : (s.modRst f).eng = s.eng := by cases s; rfl
@[simp] theorem State.modRst_fine (s : State) (f : ResetState → ResetState) : (s.modRst f).fine = s.fine := by cases s; rfl
@[simp] theorem State.modRst_pool (s : State) (f : ResetState → ResetState) : (s.modRst f).pool = s.pool := by cases s; rfl
@[simp] theorem State.modRst_assay (s : State) (f : ResetState → ResetState) : (s.modRst f).assay = s.assay := by cases s; rfl
@[simp] theorem State.modRst_spare (s : State) (f : ResetState → ResetState) : (s.modRst f).spare = s.spare := by cases s; rfl
@[simp] theorem State.modRst_seq (s : State) (f : ResetState → ResetState) : (s.modRst f).seq = s.seq := by cases s; rfl
@[simp] theorem State.modRst_pm (s : State) (f : ResetState → ResetState) : (s.modRst f).pm = s.pm := by cases s; rfl
@[simp] theorem State.modRst_marg (s : State) (f : ResetState → ResetState) : (s.modRst f).marg = s.marg := by cases s; rfl
@[simp] theorem State.modRst_folio (s : State) (f : ResetState → ResetState) : (s.modRst f).folio = s.folio := by cases s; rfl
@[simp] theorem State.modRst_nvm (s : State) (f : ResetState → ResetState) : (s.modRst f).nvm = s.nvm := by cases s; rfl
@[simp] theorem State.modRst_tally (s : State) (f : ResetState → ResetState) : (s.modRst f).tally = s.tally := by cases s; rfl
@[simp] theorem State.modRst_readOut (s : State) (f : ResetState → ResetState) : (s.modRst f).readOut = s.readOut := by cases s; rfl
@[simp] theorem State.modRst_twin (s : State) (f : ResetState → ResetState) : (s.modRst f).twin = s.twin := by cases s; rfl
@[simp] theorem State.modRst_wdn (s : State) (f : ResetState → ResetState) : (s.modRst f).wdn = s.wdn := by cases s; rfl
@[simp] theorem State.modRst_ring (s : State) (f : ResetState → ResetState) : (s.modRst f).ring = s.ring := by cases s; rfl
@[simp] theorem State.modRst_sec (s : State) (f : ResetState → ResetState) : (s.modRst f).sec = s.sec := by cases s; rfl
@[simp] theorem State.modRst_regs (s : State) (f : ResetState → ResetState) : (s.modRst f).regs = s.regs := by cases s; rfl
@[simp] theorem State.modRst_reg (s : State) (f : ResetState → ResetState) (x : Nat) : (s.modRst f).reg x = s.reg x := by cases s; rfl
@[simp] theorem State.modRst_get (s : State) (f : ResetState → ResetState) (x : Field) : (s.modRst f).get x = s.get x := by cases s; rfl
@[simp] theorem State.modRst_flag (s : State) (f : ResetState → ResetState) (x : Field) : (s.modRst f).flag x = s.flag x := by cases s; rfl

/-! `State.modRing` -/

@[simp] theorem State.modRing_pending (s : State) (f : RingState → RingState) : (s.modRing f).pending = s.pending := by cases s; rfl
@[simp] theorem State.modRing_portLatch (s : State) (f : RingState → RingState) : (s.modRing f).portLatch = s.portLatch := by cases s; rfl
@[simp] theorem State.modRing_freeCount (s : State) (f : RingState → RingState) : (s.modRing f).freeCount = s.freeCount := by cases s; rfl
@[simp] theorem State.modRing_tclk (s : State) (f : RingState → RingState) : (s.modRing f).tclk = s.tclk := by cases s; rfl
@[simp] theorem State.modRing_angPhase (s : State) (f : RingState → RingState) : (s.modRing f).angPhase = s.angPhase := by cases s; rfl
@[simp] theorem State.modRing_ang (s : State) (f : RingState → RingState) : (s.modRing f).ang = s.ang := by cases s; rfl
@[simp] theorem State.modRing_flt (s : State) (f : RingState → RingState) : (s.modRing f).flt = s.flt := by cases s; rfl
@[simp] theorem State.modRing_evq (s : State) (f : RingState → RingState) : (s.modRing f).evq = s.evq := by cases s; rfl
@[simp] theorem State.modRing_guard (s : State) (f : RingState → RingState) : (s.modRing f).guard = s.guard := by cases s; rfl
@[simp] theorem State.modRing_eng (s : State) (f : RingState → RingState) : (s.modRing f).eng = s.eng := by cases s; rfl
@[simp] theorem State.modRing_fine (s : State) (f : RingState → RingState) : (s.modRing f).fine = s.fine := by cases s; rfl
@[simp] theorem State.modRing_pool (s : State) (f : RingState → RingState) : (s.modRing f).pool = s.pool := by cases s; rfl
@[simp] theorem State.modRing_assay (s : State) (f : RingState → RingState) : (s.modRing f).assay = s.assay := by cases s; rfl
@[simp] theorem State.modRing_spare (s : State) (f : RingState → RingState) : (s.modRing f).spare = s.spare := by cases s; rfl
@[simp] theorem State.modRing_seq (s : State) (f : RingState → RingState) : (s.modRing f).seq = s.seq := by cases s; rfl
@[simp] theorem State.modRing_pm (s : State) (f : RingState → RingState) : (s.modRing f).pm = s.pm := by cases s; rfl
@[simp] theorem State.modRing_marg (s : State) (f : RingState → RingState) : (s.modRing f).marg = s.marg := by cases s; rfl
@[simp] theorem State.modRing_folio (s : State) (f : RingState → RingState) : (s.modRing f).folio = s.folio := by cases s; rfl
@[simp] theorem State.modRing_nvm (s : State) (f : RingState → RingState) : (s.modRing f).nvm = s.nvm := by cases s; rfl
@[simp] theorem State.modRing_tally (s : State) (f : RingState → RingState) : (s.modRing f).tally = s.tally := by cases s; rfl
@[simp] theorem State.modRing_readOut (s : State) (f : RingState → RingState) : (s.modRing f).readOut = s.readOut := by cases s; rfl
@[simp] theorem State.modRing_twin (s : State) (f : RingState → RingState) : (s.modRing f).twin = s.twin := by cases s; rfl
@[simp] theorem State.modRing_wdn (s : State) (f : RingState → RingState) : (s.modRing f).wdn = s.wdn := by cases s; rfl
@[simp] theorem State.modRing_sec (s : State) (f : RingState → RingState) : (s.modRing f).sec = s.sec := by cases s; rfl
@[simp] theorem State.modRing_rst (s : State) (f : RingState → RingState) : (s.modRing f).rst = s.rst := by cases s; rfl
@[simp] theorem State.modRing_regs (s : State) (f : RingState → RingState) : (s.modRing f).regs = s.regs := by cases s; rfl
@[simp] theorem State.modRing_reg (s : State) (f : RingState → RingState) (x : Nat) : (s.modRing f).reg x = s.reg x := by cases s; rfl
@[simp] theorem State.modRing_get (s : State) (f : RingState → RingState) (x : Field) : (s.modRing f).get x = s.get x := by cases s; rfl
@[simp] theorem State.modRing_flag (s : State) (f : RingState → RingState) (x : Field) : (s.modRing f).flag x = s.flag x := by cases s; rfl

/-! `State.modSpare` -/

@[simp] theorem State.modSpare_pending (s : State) (f : SpareState → SpareState) : (s.modSpare f).pending = s.pending := by cases s; rfl
@[simp] theorem State.modSpare_portLatch (s : State) (f : SpareState → SpareState) : (s.modSpare f).portLatch = s.portLatch := by cases s; rfl
@[simp] theorem State.modSpare_freeCount (s : State) (f : SpareState → SpareState) : (s.modSpare f).freeCount = s.freeCount := by cases s; rfl
@[simp] theorem State.modSpare_tclk (s : State) (f : SpareState → SpareState) : (s.modSpare f).tclk = s.tclk := by cases s; rfl
@[simp] theorem State.modSpare_angPhase (s : State) (f : SpareState → SpareState) : (s.modSpare f).angPhase = s.angPhase := by cases s; rfl
@[simp] theorem State.modSpare_ang (s : State) (f : SpareState → SpareState) : (s.modSpare f).ang = s.ang := by cases s; rfl
@[simp] theorem State.modSpare_flt (s : State) (f : SpareState → SpareState) : (s.modSpare f).flt = s.flt := by cases s; rfl
@[simp] theorem State.modSpare_evq (s : State) (f : SpareState → SpareState) : (s.modSpare f).evq = s.evq := by cases s; rfl
@[simp] theorem State.modSpare_guard (s : State) (f : SpareState → SpareState) : (s.modSpare f).guard = s.guard := by cases s; rfl
@[simp] theorem State.modSpare_eng (s : State) (f : SpareState → SpareState) : (s.modSpare f).eng = s.eng := by cases s; rfl
@[simp] theorem State.modSpare_fine (s : State) (f : SpareState → SpareState) : (s.modSpare f).fine = s.fine := by cases s; rfl
@[simp] theorem State.modSpare_pool (s : State) (f : SpareState → SpareState) : (s.modSpare f).pool = s.pool := by cases s; rfl
@[simp] theorem State.modSpare_assay (s : State) (f : SpareState → SpareState) : (s.modSpare f).assay = s.assay := by cases s; rfl
@[simp] theorem State.modSpare_seq (s : State) (f : SpareState → SpareState) : (s.modSpare f).seq = s.seq := by cases s; rfl
@[simp] theorem State.modSpare_pm (s : State) (f : SpareState → SpareState) : (s.modSpare f).pm = s.pm := by cases s; rfl
@[simp] theorem State.modSpare_marg (s : State) (f : SpareState → SpareState) : (s.modSpare f).marg = s.marg := by cases s; rfl
@[simp] theorem State.modSpare_folio (s : State) (f : SpareState → SpareState) : (s.modSpare f).folio = s.folio := by cases s; rfl
@[simp] theorem State.modSpare_nvm (s : State) (f : SpareState → SpareState) : (s.modSpare f).nvm = s.nvm := by cases s; rfl
@[simp] theorem State.modSpare_tally (s : State) (f : SpareState → SpareState) : (s.modSpare f).tally = s.tally := by cases s; rfl
@[simp] theorem State.modSpare_readOut (s : State) (f : SpareState → SpareState) : (s.modSpare f).readOut = s.readOut := by cases s; rfl
@[simp] theorem State.modSpare_twin (s : State) (f : SpareState → SpareState) : (s.modSpare f).twin = s.twin := by cases s; rfl
@[simp] theorem State.modSpare_wdn (s : State) (f : SpareState → SpareState) : (s.modSpare f).wdn = s.wdn := by cases s; rfl
@[simp] theorem State.modSpare_ring (s : State) (f : SpareState → SpareState) : (s.modSpare f).ring = s.ring := by cases s; rfl
@[simp] theorem State.modSpare_sec (s : State) (f : SpareState → SpareState) : (s.modSpare f).sec = s.sec := by cases s; rfl
@[simp] theorem State.modSpare_rst (s : State) (f : SpareState → SpareState) : (s.modSpare f).rst = s.rst := by cases s; rfl
@[simp] theorem State.modSpare_regs (s : State) (f : SpareState → SpareState) : (s.modSpare f).regs = s.regs := by cases s; rfl
@[simp] theorem State.modSpare_reg (s : State) (f : SpareState → SpareState) (x : Nat) : (s.modSpare f).reg x = s.reg x := by cases s; rfl
@[simp] theorem State.modSpare_get (s : State) (f : SpareState → SpareState) (x : Field) : (s.modSpare f).get x = s.get x := by cases s; rfl
@[simp] theorem State.modSpare_flag (s : State) (f : SpareState → SpareState) (x : Field) : (s.modSpare f).flag x = s.flag x := by cases s; rfl

/-! `State.modTally` -/

@[simp] theorem State.modTally_pending (s : State) (f : TallyState → TallyState) : (s.modTally f).pending = s.pending := by cases s; rfl
@[simp] theorem State.modTally_portLatch (s : State) (f : TallyState → TallyState) : (s.modTally f).portLatch = s.portLatch := by cases s; rfl
@[simp] theorem State.modTally_freeCount (s : State) (f : TallyState → TallyState) : (s.modTally f).freeCount = s.freeCount := by cases s; rfl
@[simp] theorem State.modTally_tclk (s : State) (f : TallyState → TallyState) : (s.modTally f).tclk = s.tclk := by cases s; rfl
@[simp] theorem State.modTally_angPhase (s : State) (f : TallyState → TallyState) : (s.modTally f).angPhase = s.angPhase := by cases s; rfl
@[simp] theorem State.modTally_ang (s : State) (f : TallyState → TallyState) : (s.modTally f).ang = s.ang := by cases s; rfl
@[simp] theorem State.modTally_flt (s : State) (f : TallyState → TallyState) : (s.modTally f).flt = s.flt := by cases s; rfl
@[simp] theorem State.modTally_evq (s : State) (f : TallyState → TallyState) : (s.modTally f).evq = s.evq := by cases s; rfl
@[simp] theorem State.modTally_guard (s : State) (f : TallyState → TallyState) : (s.modTally f).guard = s.guard := by cases s; rfl
@[simp] theorem State.modTally_eng (s : State) (f : TallyState → TallyState) : (s.modTally f).eng = s.eng := by cases s; rfl
@[simp] theorem State.modTally_fine (s : State) (f : TallyState → TallyState) : (s.modTally f).fine = s.fine := by cases s; rfl
@[simp] theorem State.modTally_pool (s : State) (f : TallyState → TallyState) : (s.modTally f).pool = s.pool := by cases s; rfl
@[simp] theorem State.modTally_assay (s : State) (f : TallyState → TallyState) : (s.modTally f).assay = s.assay := by cases s; rfl
@[simp] theorem State.modTally_spare (s : State) (f : TallyState → TallyState) : (s.modTally f).spare = s.spare := by cases s; rfl
@[simp] theorem State.modTally_seq (s : State) (f : TallyState → TallyState) : (s.modTally f).seq = s.seq := by cases s; rfl
@[simp] theorem State.modTally_pm (s : State) (f : TallyState → TallyState) : (s.modTally f).pm = s.pm := by cases s; rfl
@[simp] theorem State.modTally_marg (s : State) (f : TallyState → TallyState) : (s.modTally f).marg = s.marg := by cases s; rfl
@[simp] theorem State.modTally_folio (s : State) (f : TallyState → TallyState) : (s.modTally f).folio = s.folio := by cases s; rfl
@[simp] theorem State.modTally_nvm (s : State) (f : TallyState → TallyState) : (s.modTally f).nvm = s.nvm := by cases s; rfl
@[simp] theorem State.modTally_readOut (s : State) (f : TallyState → TallyState) : (s.modTally f).readOut = s.readOut := by cases s; rfl
@[simp] theorem State.modTally_twin (s : State) (f : TallyState → TallyState) : (s.modTally f).twin = s.twin := by cases s; rfl
@[simp] theorem State.modTally_wdn (s : State) (f : TallyState → TallyState) : (s.modTally f).wdn = s.wdn := by cases s; rfl
@[simp] theorem State.modTally_ring (s : State) (f : TallyState → TallyState) : (s.modTally f).ring = s.ring := by cases s; rfl
@[simp] theorem State.modTally_sec (s : State) (f : TallyState → TallyState) : (s.modTally f).sec = s.sec := by cases s; rfl
@[simp] theorem State.modTally_rst (s : State) (f : TallyState → TallyState) : (s.modTally f).rst = s.rst := by cases s; rfl
@[simp] theorem State.modTally_regs (s : State) (f : TallyState → TallyState) : (s.modTally f).regs = s.regs := by cases s; rfl
@[simp] theorem State.modTally_reg (s : State) (f : TallyState → TallyState) (x : Nat) : (s.modTally f).reg x = s.reg x := by cases s; rfl
@[simp] theorem State.modTally_get (s : State) (f : TallyState → TallyState) (x : Field) : (s.modTally f).get x = s.get x := by cases s; rfl
@[simp] theorem State.modTally_flag (s : State) (f : TallyState → TallyState) (x : Field) : (s.modTally f).flag x = s.flag x := by cases s; rfl

/-! `State.modTwin` -/

@[simp] theorem State.modTwin_pending (s : State) (f : TwinState → TwinState) : (s.modTwin f).pending = s.pending := by cases s; rfl
@[simp] theorem State.modTwin_portLatch (s : State) (f : TwinState → TwinState) : (s.modTwin f).portLatch = s.portLatch := by cases s; rfl
@[simp] theorem State.modTwin_freeCount (s : State) (f : TwinState → TwinState) : (s.modTwin f).freeCount = s.freeCount := by cases s; rfl
@[simp] theorem State.modTwin_tclk (s : State) (f : TwinState → TwinState) : (s.modTwin f).tclk = s.tclk := by cases s; rfl
@[simp] theorem State.modTwin_angPhase (s : State) (f : TwinState → TwinState) : (s.modTwin f).angPhase = s.angPhase := by cases s; rfl
@[simp] theorem State.modTwin_ang (s : State) (f : TwinState → TwinState) : (s.modTwin f).ang = s.ang := by cases s; rfl
@[simp] theorem State.modTwin_flt (s : State) (f : TwinState → TwinState) : (s.modTwin f).flt = s.flt := by cases s; rfl
@[simp] theorem State.modTwin_evq (s : State) (f : TwinState → TwinState) : (s.modTwin f).evq = s.evq := by cases s; rfl
@[simp] theorem State.modTwin_guard (s : State) (f : TwinState → TwinState) : (s.modTwin f).guard = s.guard := by cases s; rfl
@[simp] theorem State.modTwin_eng (s : State) (f : TwinState → TwinState) : (s.modTwin f).eng = s.eng := by cases s; rfl
@[simp] theorem State.modTwin_fine (s : State) (f : TwinState → TwinState) : (s.modTwin f).fine = s.fine := by cases s; rfl
@[simp] theorem State.modTwin_pool (s : State) (f : TwinState → TwinState) : (s.modTwin f).pool = s.pool := by cases s; rfl
@[simp] theorem State.modTwin_assay (s : State) (f : TwinState → TwinState) : (s.modTwin f).assay = s.assay := by cases s; rfl
@[simp] theorem State.modTwin_spare (s : State) (f : TwinState → TwinState) : (s.modTwin f).spare = s.spare := by cases s; rfl
@[simp] theorem State.modTwin_seq (s : State) (f : TwinState → TwinState) : (s.modTwin f).seq = s.seq := by cases s; rfl
@[simp] theorem State.modTwin_pm (s : State) (f : TwinState → TwinState) : (s.modTwin f).pm = s.pm := by cases s; rfl
@[simp] theorem State.modTwin_marg (s : State) (f : TwinState → TwinState) : (s.modTwin f).marg = s.marg := by cases s; rfl
@[simp] theorem State.modTwin_folio (s : State) (f : TwinState → TwinState) : (s.modTwin f).folio = s.folio := by cases s; rfl
@[simp] theorem State.modTwin_nvm (s : State) (f : TwinState → TwinState) : (s.modTwin f).nvm = s.nvm := by cases s; rfl
@[simp] theorem State.modTwin_tally (s : State) (f : TwinState → TwinState) : (s.modTwin f).tally = s.tally := by cases s; rfl
@[simp] theorem State.modTwin_readOut (s : State) (f : TwinState → TwinState) : (s.modTwin f).readOut = s.readOut := by cases s; rfl
@[simp] theorem State.modTwin_wdn (s : State) (f : TwinState → TwinState) : (s.modTwin f).wdn = s.wdn := by cases s; rfl
@[simp] theorem State.modTwin_ring (s : State) (f : TwinState → TwinState) : (s.modTwin f).ring = s.ring := by cases s; rfl
@[simp] theorem State.modTwin_sec (s : State) (f : TwinState → TwinState) : (s.modTwin f).sec = s.sec := by cases s; rfl
@[simp] theorem State.modTwin_rst (s : State) (f : TwinState → TwinState) : (s.modTwin f).rst = s.rst := by cases s; rfl
@[simp] theorem State.modTwin_regs (s : State) (f : TwinState → TwinState) : (s.modTwin f).regs = s.regs := by cases s; rfl
@[simp] theorem State.modTwin_reg (s : State) (f : TwinState → TwinState) (x : Nat) : (s.modTwin f).reg x = s.reg x := by cases s; rfl
@[simp] theorem State.modTwin_get (s : State) (f : TwinState → TwinState) (x : Field) : (s.modTwin f).get x = s.get x := by cases s; rfl
@[simp] theorem State.modTwin_flag (s : State) (f : TwinState → TwinState) (x : Field) : (s.modTwin f).flag x = s.flag x := by cases s; rfl

/-! `State.modFine` -/

@[simp] theorem State.modFine_pending (s : State) (n : Nat) (f : FineRail → FineRail) : (s.modFine n f).pending = s.pending := by cases s; rfl
@[simp] theorem State.modFine_portLatch (s : State) (n : Nat) (f : FineRail → FineRail) : (s.modFine n f).portLatch = s.portLatch := by cases s; rfl
@[simp] theorem State.modFine_freeCount (s : State) (n : Nat) (f : FineRail → FineRail) : (s.modFine n f).freeCount = s.freeCount := by cases s; rfl
@[simp] theorem State.modFine_tclk (s : State) (n : Nat) (f : FineRail → FineRail) : (s.modFine n f).tclk = s.tclk := by cases s; rfl
@[simp] theorem State.modFine_angPhase (s : State) (n : Nat) (f : FineRail → FineRail) : (s.modFine n f).angPhase = s.angPhase := by cases s; rfl
@[simp] theorem State.modFine_ang (s : State) (n : Nat) (f : FineRail → FineRail) : (s.modFine n f).ang = s.ang := by cases s; rfl
@[simp] theorem State.modFine_flt (s : State) (n : Nat) (f : FineRail → FineRail) : (s.modFine n f).flt = s.flt := by cases s; rfl
@[simp] theorem State.modFine_evq (s : State) (n : Nat) (f : FineRail → FineRail) : (s.modFine n f).evq = s.evq := by cases s; rfl
@[simp] theorem State.modFine_guard (s : State) (n : Nat) (f : FineRail → FineRail) : (s.modFine n f).guard = s.guard := by cases s; rfl
@[simp] theorem State.modFine_eng (s : State) (n : Nat) (f : FineRail → FineRail) : (s.modFine n f).eng = s.eng := by cases s; rfl
@[simp] theorem State.modFine_pool (s : State) (n : Nat) (f : FineRail → FineRail) : (s.modFine n f).pool = s.pool := by cases s; rfl
@[simp] theorem State.modFine_assay (s : State) (n : Nat) (f : FineRail → FineRail) : (s.modFine n f).assay = s.assay := by cases s; rfl
@[simp] theorem State.modFine_spare (s : State) (n : Nat) (f : FineRail → FineRail) : (s.modFine n f).spare = s.spare := by cases s; rfl
@[simp] theorem State.modFine_seq (s : State) (n : Nat) (f : FineRail → FineRail) : (s.modFine n f).seq = s.seq := by cases s; rfl
@[simp] theorem State.modFine_pm (s : State) (n : Nat) (f : FineRail → FineRail) : (s.modFine n f).pm = s.pm := by cases s; rfl
@[simp] theorem State.modFine_marg (s : State) (n : Nat) (f : FineRail → FineRail) : (s.modFine n f).marg = s.marg := by cases s; rfl
@[simp] theorem State.modFine_folio (s : State) (n : Nat) (f : FineRail → FineRail) : (s.modFine n f).folio = s.folio := by cases s; rfl
@[simp] theorem State.modFine_nvm (s : State) (n : Nat) (f : FineRail → FineRail) : (s.modFine n f).nvm = s.nvm := by cases s; rfl
@[simp] theorem State.modFine_tally (s : State) (n : Nat) (f : FineRail → FineRail) : (s.modFine n f).tally = s.tally := by cases s; rfl
@[simp] theorem State.modFine_readOut (s : State) (n : Nat) (f : FineRail → FineRail) : (s.modFine n f).readOut = s.readOut := by cases s; rfl
@[simp] theorem State.modFine_twin (s : State) (n : Nat) (f : FineRail → FineRail) : (s.modFine n f).twin = s.twin := by cases s; rfl
@[simp] theorem State.modFine_wdn (s : State) (n : Nat) (f : FineRail → FineRail) : (s.modFine n f).wdn = s.wdn := by cases s; rfl
@[simp] theorem State.modFine_ring (s : State) (n : Nat) (f : FineRail → FineRail) : (s.modFine n f).ring = s.ring := by cases s; rfl
@[simp] theorem State.modFine_sec (s : State) (n : Nat) (f : FineRail → FineRail) : (s.modFine n f).sec = s.sec := by cases s; rfl
@[simp] theorem State.modFine_rst (s : State) (n : Nat) (f : FineRail → FineRail) : (s.modFine n f).rst = s.rst := by cases s; rfl
@[simp] theorem State.modFine_regs (s : State) (n : Nat) (f : FineRail → FineRail) : (s.modFine n f).regs = s.regs := by cases s; rfl
@[simp] theorem State.modFine_reg (s : State) (n : Nat) (f : FineRail → FineRail) (x : Nat) : (s.modFine n f).reg x = s.reg x := by cases s; rfl
@[simp] theorem State.modFine_get (s : State) (n : Nat) (f : FineRail → FineRail) (x : Field) : (s.modFine n f).get x = s.get x := by cases s; rfl
@[simp] theorem State.modFine_flag (s : State) (n : Nat) (f : FineRail → FineRail) (x : Field) : (s.modFine n f).flag x = s.flag x := by cases s; rfl

/-! `State.modGuard` -/

@[simp] theorem State.modGuard_pending (s : State) (n : Nat) (f : GuardRail → GuardRail) : (s.modGuard n f).pending = s.pending := by cases s; rfl
@[simp] theorem State.modGuard_portLatch (s : State) (n : Nat) (f : GuardRail → GuardRail) : (s.modGuard n f).portLatch = s.portLatch := by cases s; rfl
@[simp] theorem State.modGuard_freeCount (s : State) (n : Nat) (f : GuardRail → GuardRail) : (s.modGuard n f).freeCount = s.freeCount := by cases s; rfl
@[simp] theorem State.modGuard_tclk (s : State) (n : Nat) (f : GuardRail → GuardRail) : (s.modGuard n f).tclk = s.tclk := by cases s; rfl
@[simp] theorem State.modGuard_angPhase (s : State) (n : Nat) (f : GuardRail → GuardRail) : (s.modGuard n f).angPhase = s.angPhase := by cases s; rfl
@[simp] theorem State.modGuard_ang (s : State) (n : Nat) (f : GuardRail → GuardRail) : (s.modGuard n f).ang = s.ang := by cases s; rfl
@[simp] theorem State.modGuard_flt (s : State) (n : Nat) (f : GuardRail → GuardRail) : (s.modGuard n f).flt = s.flt := by cases s; rfl
@[simp] theorem State.modGuard_evq (s : State) (n : Nat) (f : GuardRail → GuardRail) : (s.modGuard n f).evq = s.evq := by cases s; rfl
@[simp] theorem State.modGuard_eng (s : State) (n : Nat) (f : GuardRail → GuardRail) : (s.modGuard n f).eng = s.eng := by cases s; rfl
@[simp] theorem State.modGuard_fine (s : State) (n : Nat) (f : GuardRail → GuardRail) : (s.modGuard n f).fine = s.fine := by cases s; rfl
@[simp] theorem State.modGuard_pool (s : State) (n : Nat) (f : GuardRail → GuardRail) : (s.modGuard n f).pool = s.pool := by cases s; rfl
@[simp] theorem State.modGuard_assay (s : State) (n : Nat) (f : GuardRail → GuardRail) : (s.modGuard n f).assay = s.assay := by cases s; rfl
@[simp] theorem State.modGuard_spare (s : State) (n : Nat) (f : GuardRail → GuardRail) : (s.modGuard n f).spare = s.spare := by cases s; rfl
@[simp] theorem State.modGuard_seq (s : State) (n : Nat) (f : GuardRail → GuardRail) : (s.modGuard n f).seq = s.seq := by cases s; rfl
@[simp] theorem State.modGuard_pm (s : State) (n : Nat) (f : GuardRail → GuardRail) : (s.modGuard n f).pm = s.pm := by cases s; rfl
@[simp] theorem State.modGuard_marg (s : State) (n : Nat) (f : GuardRail → GuardRail) : (s.modGuard n f).marg = s.marg := by cases s; rfl
@[simp] theorem State.modGuard_folio (s : State) (n : Nat) (f : GuardRail → GuardRail) : (s.modGuard n f).folio = s.folio := by cases s; rfl
@[simp] theorem State.modGuard_nvm (s : State) (n : Nat) (f : GuardRail → GuardRail) : (s.modGuard n f).nvm = s.nvm := by cases s; rfl
@[simp] theorem State.modGuard_tally (s : State) (n : Nat) (f : GuardRail → GuardRail) : (s.modGuard n f).tally = s.tally := by cases s; rfl
@[simp] theorem State.modGuard_readOut (s : State) (n : Nat) (f : GuardRail → GuardRail) : (s.modGuard n f).readOut = s.readOut := by cases s; rfl
@[simp] theorem State.modGuard_twin (s : State) (n : Nat) (f : GuardRail → GuardRail) : (s.modGuard n f).twin = s.twin := by cases s; rfl
@[simp] theorem State.modGuard_wdn (s : State) (n : Nat) (f : GuardRail → GuardRail) : (s.modGuard n f).wdn = s.wdn := by cases s; rfl
@[simp] theorem State.modGuard_ring (s : State) (n : Nat) (f : GuardRail → GuardRail) : (s.modGuard n f).ring = s.ring := by cases s; rfl
@[simp] theorem State.modGuard_sec (s : State) (n : Nat) (f : GuardRail → GuardRail) : (s.modGuard n f).sec = s.sec := by cases s; rfl
@[simp] theorem State.modGuard_rst (s : State) (n : Nat) (f : GuardRail → GuardRail) : (s.modGuard n f).rst = s.rst := by cases s; rfl
@[simp] theorem State.modGuard_regs (s : State) (n : Nat) (f : GuardRail → GuardRail) : (s.modGuard n f).regs = s.regs := by cases s; rfl
@[simp] theorem State.modGuard_reg (s : State) (n : Nat) (f : GuardRail → GuardRail) (x : Nat) : (s.modGuard n f).reg x = s.reg x := by cases s; rfl
@[simp] theorem State.modGuard_get (s : State) (n : Nat) (f : GuardRail → GuardRail) (x : Field) : (s.modGuard n f).get x = s.get x := by cases s; rfl
@[simp] theorem State.modGuard_flag (s : State) (n : Nat) (f : GuardRail → GuardRail) (x : Field) : (s.modGuard n f).flag x = s.flag x := by cases s; rfl

/-! `State.modMr` -/

@[simp] theorem State.modMr_pending (s : State) (n : Nat) (f : MargRail → MargRail) : (s.modMr n f).pending = s.pending := by cases s; rfl
@[simp] theorem State.modMr_portLatch (s : State) (n : Nat) (f : MargRail → MargRail) : (s.modMr n f).portLatch = s.portLatch := by cases s; rfl
@[simp] theorem State.modMr_freeCount (s : State) (n : Nat) (f : MargRail → MargRail) : (s.modMr n f).freeCount = s.freeCount := by cases s; rfl
@[simp] theorem State.modMr_tclk (s : State) (n : Nat) (f : MargRail → MargRail) : (s.modMr n f).tclk = s.tclk := by cases s; rfl
@[simp] theorem State.modMr_angPhase (s : State) (n : Nat) (f : MargRail → MargRail) : (s.modMr n f).angPhase = s.angPhase := by cases s; rfl
@[simp] theorem State.modMr_ang (s : State) (n : Nat) (f : MargRail → MargRail) : (s.modMr n f).ang = s.ang := by cases s; rfl
@[simp] theorem State.modMr_flt (s : State) (n : Nat) (f : MargRail → MargRail) : (s.modMr n f).flt = s.flt := by cases s; rfl
@[simp] theorem State.modMr_evq (s : State) (n : Nat) (f : MargRail → MargRail) : (s.modMr n f).evq = s.evq := by cases s; rfl
@[simp] theorem State.modMr_guard (s : State) (n : Nat) (f : MargRail → MargRail) : (s.modMr n f).guard = s.guard := by cases s; rfl
@[simp] theorem State.modMr_eng (s : State) (n : Nat) (f : MargRail → MargRail) : (s.modMr n f).eng = s.eng := by cases s; rfl
@[simp] theorem State.modMr_fine (s : State) (n : Nat) (f : MargRail → MargRail) : (s.modMr n f).fine = s.fine := by cases s; rfl
@[simp] theorem State.modMr_pool (s : State) (n : Nat) (f : MargRail → MargRail) : (s.modMr n f).pool = s.pool := by cases s; rfl
@[simp] theorem State.modMr_assay (s : State) (n : Nat) (f : MargRail → MargRail) : (s.modMr n f).assay = s.assay := by cases s; rfl
@[simp] theorem State.modMr_spare (s : State) (n : Nat) (f : MargRail → MargRail) : (s.modMr n f).spare = s.spare := by cases s; rfl
@[simp] theorem State.modMr_seq (s : State) (n : Nat) (f : MargRail → MargRail) : (s.modMr n f).seq = s.seq := by cases s; rfl
@[simp] theorem State.modMr_pm (s : State) (n : Nat) (f : MargRail → MargRail) : (s.modMr n f).pm = s.pm := by cases s; rfl
@[simp] theorem State.modMr_folio (s : State) (n : Nat) (f : MargRail → MargRail) : (s.modMr n f).folio = s.folio := by cases s; rfl
@[simp] theorem State.modMr_nvm (s : State) (n : Nat) (f : MargRail → MargRail) : (s.modMr n f).nvm = s.nvm := by cases s; rfl
@[simp] theorem State.modMr_tally (s : State) (n : Nat) (f : MargRail → MargRail) : (s.modMr n f).tally = s.tally := by cases s; rfl
@[simp] theorem State.modMr_readOut (s : State) (n : Nat) (f : MargRail → MargRail) : (s.modMr n f).readOut = s.readOut := by cases s; rfl
@[simp] theorem State.modMr_twin (s : State) (n : Nat) (f : MargRail → MargRail) : (s.modMr n f).twin = s.twin := by cases s; rfl
@[simp] theorem State.modMr_wdn (s : State) (n : Nat) (f : MargRail → MargRail) : (s.modMr n f).wdn = s.wdn := by cases s; rfl
@[simp] theorem State.modMr_ring (s : State) (n : Nat) (f : MargRail → MargRail) : (s.modMr n f).ring = s.ring := by cases s; rfl
@[simp] theorem State.modMr_sec (s : State) (n : Nat) (f : MargRail → MargRail) : (s.modMr n f).sec = s.sec := by cases s; rfl
@[simp] theorem State.modMr_rst (s : State) (n : Nat) (f : MargRail → MargRail) : (s.modMr n f).rst = s.rst := by cases s; rfl
@[simp] theorem State.modMr_regs (s : State) (n : Nat) (f : MargRail → MargRail) : (s.modMr n f).regs = s.regs := by cases s; rfl
@[simp] theorem State.modMr_reg (s : State) (n : Nat) (f : MargRail → MargRail) (x : Nat) : (s.modMr n f).reg x = s.reg x := by cases s; rfl
@[simp] theorem State.modMr_get (s : State) (n : Nat) (f : MargRail → MargRail) (x : Field) : (s.modMr n f).get x = s.get x := by cases s; rfl
@[simp] theorem State.modMr_flag (s : State) (n : Nat) (f : MargRail → MargRail) (x : Field) : (s.modMr n f).flag x = s.flag x := by cases s; rfl

/-! `State.modPp` -/

@[simp] theorem State.modPp_pending (s : State) (n : Nat) (f : PmPort → PmPort) : (s.modPp n f).pending = s.pending := by cases s; rfl
@[simp] theorem State.modPp_portLatch (s : State) (n : Nat) (f : PmPort → PmPort) : (s.modPp n f).portLatch = s.portLatch := by cases s; rfl
@[simp] theorem State.modPp_freeCount (s : State) (n : Nat) (f : PmPort → PmPort) : (s.modPp n f).freeCount = s.freeCount := by cases s; rfl
@[simp] theorem State.modPp_tclk (s : State) (n : Nat) (f : PmPort → PmPort) : (s.modPp n f).tclk = s.tclk := by cases s; rfl
@[simp] theorem State.modPp_angPhase (s : State) (n : Nat) (f : PmPort → PmPort) : (s.modPp n f).angPhase = s.angPhase := by cases s; rfl
@[simp] theorem State.modPp_ang (s : State) (n : Nat) (f : PmPort → PmPort) : (s.modPp n f).ang = s.ang := by cases s; rfl
@[simp] theorem State.modPp_flt (s : State) (n : Nat) (f : PmPort → PmPort) : (s.modPp n f).flt = s.flt := by cases s; rfl
@[simp] theorem State.modPp_evq (s : State) (n : Nat) (f : PmPort → PmPort) : (s.modPp n f).evq = s.evq := by cases s; rfl
@[simp] theorem State.modPp_guard (s : State) (n : Nat) (f : PmPort → PmPort) : (s.modPp n f).guard = s.guard := by cases s; rfl
@[simp] theorem State.modPp_eng (s : State) (n : Nat) (f : PmPort → PmPort) : (s.modPp n f).eng = s.eng := by cases s; rfl
@[simp] theorem State.modPp_fine (s : State) (n : Nat) (f : PmPort → PmPort) : (s.modPp n f).fine = s.fine := by cases s; rfl
@[simp] theorem State.modPp_pool (s : State) (n : Nat) (f : PmPort → PmPort) : (s.modPp n f).pool = s.pool := by cases s; rfl
@[simp] theorem State.modPp_assay (s : State) (n : Nat) (f : PmPort → PmPort) : (s.modPp n f).assay = s.assay := by cases s; rfl
@[simp] theorem State.modPp_spare (s : State) (n : Nat) (f : PmPort → PmPort) : (s.modPp n f).spare = s.spare := by cases s; rfl
@[simp] theorem State.modPp_seq (s : State) (n : Nat) (f : PmPort → PmPort) : (s.modPp n f).seq = s.seq := by cases s; rfl
@[simp] theorem State.modPp_marg (s : State) (n : Nat) (f : PmPort → PmPort) : (s.modPp n f).marg = s.marg := by cases s; rfl
@[simp] theorem State.modPp_folio (s : State) (n : Nat) (f : PmPort → PmPort) : (s.modPp n f).folio = s.folio := by cases s; rfl
@[simp] theorem State.modPp_nvm (s : State) (n : Nat) (f : PmPort → PmPort) : (s.modPp n f).nvm = s.nvm := by cases s; rfl
@[simp] theorem State.modPp_tally (s : State) (n : Nat) (f : PmPort → PmPort) : (s.modPp n f).tally = s.tally := by cases s; rfl
@[simp] theorem State.modPp_readOut (s : State) (n : Nat) (f : PmPort → PmPort) : (s.modPp n f).readOut = s.readOut := by cases s; rfl
@[simp] theorem State.modPp_twin (s : State) (n : Nat) (f : PmPort → PmPort) : (s.modPp n f).twin = s.twin := by cases s; rfl
@[simp] theorem State.modPp_wdn (s : State) (n : Nat) (f : PmPort → PmPort) : (s.modPp n f).wdn = s.wdn := by cases s; rfl
@[simp] theorem State.modPp_ring (s : State) (n : Nat) (f : PmPort → PmPort) : (s.modPp n f).ring = s.ring := by cases s; rfl
@[simp] theorem State.modPp_sec (s : State) (n : Nat) (f : PmPort → PmPort) : (s.modPp n f).sec = s.sec := by cases s; rfl
@[simp] theorem State.modPp_rst (s : State) (n : Nat) (f : PmPort → PmPort) : (s.modPp n f).rst = s.rst := by cases s; rfl
@[simp] theorem State.modPp_regs (s : State) (n : Nat) (f : PmPort → PmPort) : (s.modPp n f).regs = s.regs := by cases s; rfl
@[simp] theorem State.modPp_reg (s : State) (n : Nat) (f : PmPort → PmPort) (x : Nat) : (s.modPp n f).reg x = s.reg x := by cases s; rfl
@[simp] theorem State.modPp_get (s : State) (n : Nat) (f : PmPort → PmPort) (x : Field) : (s.modPp n f).get x = s.get x := by cases s; rfl
@[simp] theorem State.modPp_flag (s : State) (n : Nat) (f : PmPort → PmPort) (x : Field) : (s.modPp n f).flag x = s.flag x := by cases s; rfl

/-! `State.modPc` -/

@[simp] theorem State.modPc_pending (s : State) (n : Nat) (f : PoolConv → PoolConv) : (s.modPc n f).pending = s.pending := by cases s; rfl
@[simp] theorem State.modPc_portLatch (s : State) (n : Nat) (f : PoolConv → PoolConv) : (s.modPc n f).portLatch = s.portLatch := by cases s; rfl
@[simp] theorem State.modPc_freeCount (s : State) (n : Nat) (f : PoolConv → PoolConv) : (s.modPc n f).freeCount = s.freeCount := by cases s; rfl
@[simp] theorem State.modPc_tclk (s : State) (n : Nat) (f : PoolConv → PoolConv) : (s.modPc n f).tclk = s.tclk := by cases s; rfl
@[simp] theorem State.modPc_angPhase (s : State) (n : Nat) (f : PoolConv → PoolConv) : (s.modPc n f).angPhase = s.angPhase := by cases s; rfl
@[simp] theorem State.modPc_ang (s : State) (n : Nat) (f : PoolConv → PoolConv) : (s.modPc n f).ang = s.ang := by cases s; rfl
@[simp] theorem State.modPc_flt (s : State) (n : Nat) (f : PoolConv → PoolConv) : (s.modPc n f).flt = s.flt := by cases s; rfl
@[simp] theorem State.modPc_evq (s : State) (n : Nat) (f : PoolConv → PoolConv) : (s.modPc n f).evq = s.evq := by cases s; rfl
@[simp] theorem State.modPc_guard (s : State) (n : Nat) (f : PoolConv → PoolConv) : (s.modPc n f).guard = s.guard := by cases s; rfl
@[simp] theorem State.modPc_eng (s : State) (n : Nat) (f : PoolConv → PoolConv) : (s.modPc n f).eng = s.eng := by cases s; rfl
@[simp] theorem State.modPc_fine (s : State) (n : Nat) (f : PoolConv → PoolConv) : (s.modPc n f).fine = s.fine := by cases s; rfl
@[simp] theorem State.modPc_assay (s : State) (n : Nat) (f : PoolConv → PoolConv) : (s.modPc n f).assay = s.assay := by cases s; rfl
@[simp] theorem State.modPc_spare (s : State) (n : Nat) (f : PoolConv → PoolConv) : (s.modPc n f).spare = s.spare := by cases s; rfl
@[simp] theorem State.modPc_seq (s : State) (n : Nat) (f : PoolConv → PoolConv) : (s.modPc n f).seq = s.seq := by cases s; rfl
@[simp] theorem State.modPc_pm (s : State) (n : Nat) (f : PoolConv → PoolConv) : (s.modPc n f).pm = s.pm := by cases s; rfl
@[simp] theorem State.modPc_marg (s : State) (n : Nat) (f : PoolConv → PoolConv) : (s.modPc n f).marg = s.marg := by cases s; rfl
@[simp] theorem State.modPc_folio (s : State) (n : Nat) (f : PoolConv → PoolConv) : (s.modPc n f).folio = s.folio := by cases s; rfl
@[simp] theorem State.modPc_nvm (s : State) (n : Nat) (f : PoolConv → PoolConv) : (s.modPc n f).nvm = s.nvm := by cases s; rfl
@[simp] theorem State.modPc_tally (s : State) (n : Nat) (f : PoolConv → PoolConv) : (s.modPc n f).tally = s.tally := by cases s; rfl
@[simp] theorem State.modPc_readOut (s : State) (n : Nat) (f : PoolConv → PoolConv) : (s.modPc n f).readOut = s.readOut := by cases s; rfl
@[simp] theorem State.modPc_twin (s : State) (n : Nat) (f : PoolConv → PoolConv) : (s.modPc n f).twin = s.twin := by cases s; rfl
@[simp] theorem State.modPc_wdn (s : State) (n : Nat) (f : PoolConv → PoolConv) : (s.modPc n f).wdn = s.wdn := by cases s; rfl
@[simp] theorem State.modPc_ring (s : State) (n : Nat) (f : PoolConv → PoolConv) : (s.modPc n f).ring = s.ring := by cases s; rfl
@[simp] theorem State.modPc_sec (s : State) (n : Nat) (f : PoolConv → PoolConv) : (s.modPc n f).sec = s.sec := by cases s; rfl
@[simp] theorem State.modPc_rst (s : State) (n : Nat) (f : PoolConv → PoolConv) : (s.modPc n f).rst = s.rst := by cases s; rfl
@[simp] theorem State.modPc_regs (s : State) (n : Nat) (f : PoolConv → PoolConv) : (s.modPc n f).regs = s.regs := by cases s; rfl
@[simp] theorem State.modPc_reg (s : State) (n : Nat) (f : PoolConv → PoolConv) (x : Nat) : (s.modPc n f).reg x = s.reg x := by cases s; rfl
@[simp] theorem State.modPc_get (s : State) (n : Nat) (f : PoolConv → PoolConv) (x : Field) : (s.modPc n f).get x = s.get x := by cases s; rfl
@[simp] theorem State.modPc_flag (s : State) (n : Nat) (f : PoolConv → PoolConv) (x : Field) : (s.modPc n f).flag x = s.flag x := by cases s; rfl

/-! `State.modBn` -/

@[simp] theorem State.modBn_pending (s : State) (n : Nat) (f : BenchState → BenchState) : (s.modBn n f).pending = s.pending := by cases s; rfl
@[simp] theorem State.modBn_portLatch (s : State) (n : Nat) (f : BenchState → BenchState) : (s.modBn n f).portLatch = s.portLatch := by cases s; rfl
@[simp] theorem State.modBn_freeCount (s : State) (n : Nat) (f : BenchState → BenchState) : (s.modBn n f).freeCount = s.freeCount := by cases s; rfl
@[simp] theorem State.modBn_tclk (s : State) (n : Nat) (f : BenchState → BenchState) : (s.modBn n f).tclk = s.tclk := by cases s; rfl
@[simp] theorem State.modBn_angPhase (s : State) (n : Nat) (f : BenchState → BenchState) : (s.modBn n f).angPhase = s.angPhase := by cases s; rfl
@[simp] theorem State.modBn_ang (s : State) (n : Nat) (f : BenchState → BenchState) : (s.modBn n f).ang = s.ang := by cases s; rfl
@[simp] theorem State.modBn_flt (s : State) (n : Nat) (f : BenchState → BenchState) : (s.modBn n f).flt = s.flt := by cases s; rfl
@[simp] theorem State.modBn_evq (s : State) (n : Nat) (f : BenchState → BenchState) : (s.modBn n f).evq = s.evq := by cases s; rfl
@[simp] theorem State.modBn_guard (s : State) (n : Nat) (f : BenchState → BenchState) : (s.modBn n f).guard = s.guard := by cases s; rfl
@[simp] theorem State.modBn_eng (s : State) (n : Nat) (f : BenchState → BenchState) : (s.modBn n f).eng = s.eng := by cases s; rfl
@[simp] theorem State.modBn_fine (s : State) (n : Nat) (f : BenchState → BenchState) : (s.modBn n f).fine = s.fine := by cases s; rfl
@[simp] theorem State.modBn_assay (s : State) (n : Nat) (f : BenchState → BenchState) : (s.modBn n f).assay = s.assay := by cases s; rfl
@[simp] theorem State.modBn_spare (s : State) (n : Nat) (f : BenchState → BenchState) : (s.modBn n f).spare = s.spare := by cases s; rfl
@[simp] theorem State.modBn_seq (s : State) (n : Nat) (f : BenchState → BenchState) : (s.modBn n f).seq = s.seq := by cases s; rfl
@[simp] theorem State.modBn_pm (s : State) (n : Nat) (f : BenchState → BenchState) : (s.modBn n f).pm = s.pm := by cases s; rfl
@[simp] theorem State.modBn_marg (s : State) (n : Nat) (f : BenchState → BenchState) : (s.modBn n f).marg = s.marg := by cases s; rfl
@[simp] theorem State.modBn_folio (s : State) (n : Nat) (f : BenchState → BenchState) : (s.modBn n f).folio = s.folio := by cases s; rfl
@[simp] theorem State.modBn_nvm (s : State) (n : Nat) (f : BenchState → BenchState) : (s.modBn n f).nvm = s.nvm := by cases s; rfl
@[simp] theorem State.modBn_tally (s : State) (n : Nat) (f : BenchState → BenchState) : (s.modBn n f).tally = s.tally := by cases s; rfl
@[simp] theorem State.modBn_readOut (s : State) (n : Nat) (f : BenchState → BenchState) : (s.modBn n f).readOut = s.readOut := by cases s; rfl
@[simp] theorem State.modBn_twin (s : State) (n : Nat) (f : BenchState → BenchState) : (s.modBn n f).twin = s.twin := by cases s; rfl
@[simp] theorem State.modBn_wdn (s : State) (n : Nat) (f : BenchState → BenchState) : (s.modBn n f).wdn = s.wdn := by cases s; rfl
@[simp] theorem State.modBn_ring (s : State) (n : Nat) (f : BenchState → BenchState) : (s.modBn n f).ring = s.ring := by cases s; rfl
@[simp] theorem State.modBn_sec (s : State) (n : Nat) (f : BenchState → BenchState) : (s.modBn n f).sec = s.sec := by cases s; rfl
@[simp] theorem State.modBn_rst (s : State) (n : Nat) (f : BenchState → BenchState) : (s.modBn n f).rst = s.rst := by cases s; rfl
@[simp] theorem State.modBn_regs (s : State) (n : Nat) (f : BenchState → BenchState) : (s.modBn n f).regs = s.regs := by cases s; rfl
@[simp] theorem State.modBn_reg (s : State) (n : Nat) (f : BenchState → BenchState) (x : Nat) : (s.modBn n f).reg x = s.reg x := by cases s; rfl
@[simp] theorem State.modBn_get (s : State) (n : Nat) (f : BenchState → BenchState) (x : Field) : (s.modBn n f).get x = s.get x := by cases s; rfl
@[simp] theorem State.modBn_flag (s : State) (n : Nat) (f : BenchState → BenchState) (x : Field) : (s.modBn n f).flag x = s.flag x := by cases s; rfl

/-! `State.modQ` -/

@[simp] theorem State.modQ_pending (s : State) (n : Nat) (f : QuireState → QuireState) : (s.modQ n f).pending = s.pending := by cases s; rfl
@[simp] theorem State.modQ_portLatch (s : State) (n : Nat) (f : QuireState → QuireState) : (s.modQ n f).portLatch = s.portLatch := by cases s; rfl
@[simp] theorem State.modQ_freeCount (s : State) (n : Nat) (f : QuireState → QuireState) : (s.modQ n f).freeCount = s.freeCount := by cases s; rfl
@[simp] theorem State.modQ_tclk (s : State) (n : Nat) (f : QuireState → QuireState) : (s.modQ n f).tclk = s.tclk := by cases s; rfl
@[simp] theorem State.modQ_angPhase (s : State) (n : Nat) (f : QuireState → QuireState) : (s.modQ n f).angPhase = s.angPhase := by cases s; rfl
@[simp] theorem State.modQ_ang (s : State) (n : Nat) (f : QuireState → QuireState) : (s.modQ n f).ang = s.ang := by cases s; rfl
@[simp] theorem State.modQ_flt (s : State) (n : Nat) (f : QuireState → QuireState) : (s.modQ n f).flt = s.flt := by cases s; rfl
@[simp] theorem State.modQ_evq (s : State) (n : Nat) (f : QuireState → QuireState) : (s.modQ n f).evq = s.evq := by cases s; rfl
@[simp] theorem State.modQ_guard (s : State) (n : Nat) (f : QuireState → QuireState) : (s.modQ n f).guard = s.guard := by cases s; rfl
@[simp] theorem State.modQ_eng (s : State) (n : Nat) (f : QuireState → QuireState) : (s.modQ n f).eng = s.eng := by cases s; rfl
@[simp] theorem State.modQ_fine (s : State) (n : Nat) (f : QuireState → QuireState) : (s.modQ n f).fine = s.fine := by cases s; rfl
@[simp] theorem State.modQ_pool (s : State) (n : Nat) (f : QuireState → QuireState) : (s.modQ n f).pool = s.pool := by cases s; rfl
@[simp] theorem State.modQ_assay (s : State) (n : Nat) (f : QuireState → QuireState) : (s.modQ n f).assay = s.assay := by cases s; rfl
@[simp] theorem State.modQ_spare (s : State) (n : Nat) (f : QuireState → QuireState) : (s.modQ n f).spare = s.spare := by cases s; rfl
@[simp] theorem State.modQ_pm (s : State) (n : Nat) (f : QuireState → QuireState) : (s.modQ n f).pm = s.pm := by cases s; rfl
@[simp] theorem State.modQ_marg (s : State) (n : Nat) (f : QuireState → QuireState) : (s.modQ n f).marg = s.marg := by cases s; rfl
@[simp] theorem State.modQ_folio (s : State) (n : Nat) (f : QuireState → QuireState) : (s.modQ n f).folio = s.folio := by cases s; rfl
@[simp] theorem State.modQ_nvm (s : State) (n : Nat) (f : QuireState → QuireState) : (s.modQ n f).nvm = s.nvm := by cases s; rfl
@[simp] theorem State.modQ_tally (s : State) (n : Nat) (f : QuireState → QuireState) : (s.modQ n f).tally = s.tally := by cases s; rfl
@[simp] theorem State.modQ_readOut (s : State) (n : Nat) (f : QuireState → QuireState) : (s.modQ n f).readOut = s.readOut := by cases s; rfl
@[simp] theorem State.modQ_twin (s : State) (n : Nat) (f : QuireState → QuireState) : (s.modQ n f).twin = s.twin := by cases s; rfl
@[simp] theorem State.modQ_wdn (s : State) (n : Nat) (f : QuireState → QuireState) : (s.modQ n f).wdn = s.wdn := by cases s; rfl
@[simp] theorem State.modQ_ring (s : State) (n : Nat) (f : QuireState → QuireState) : (s.modQ n f).ring = s.ring := by cases s; rfl
@[simp] theorem State.modQ_sec (s : State) (n : Nat) (f : QuireState → QuireState) : (s.modQ n f).sec = s.sec := by cases s; rfl
@[simp] theorem State.modQ_rst (s : State) (n : Nat) (f : QuireState → QuireState) : (s.modQ n f).rst = s.rst := by cases s; rfl
@[simp] theorem State.modQ_regs (s : State) (n : Nat) (f : QuireState → QuireState) : (s.modQ n f).regs = s.regs := by cases s; rfl
@[simp] theorem State.modQ_reg (s : State) (n : Nat) (f : QuireState → QuireState) (x : Nat) : (s.modQ n f).reg x = s.reg x := by cases s; rfl
@[simp] theorem State.modQ_get (s : State) (n : Nat) (f : QuireState → QuireState) (x : Field) : (s.modQ n f).get x = s.get x := by cases s; rfl
@[simp] theorem State.modQ_flag (s : State) (n : Nat) (f : QuireState → QuireState) (x : Field) : (s.modQ n f).flag x = s.flag x := by cases s; rfl

/-! `State.modRs` -/

@[simp] theorem State.modRs_pending (s : State) (n : Nat) (f : RailSeq → RailSeq) : (s.modRs n f).pending = s.pending := by cases s; rfl
@[simp] theorem State.modRs_portLatch (s : State) (n : Nat) (f : RailSeq → RailSeq) : (s.modRs n f).portLatch = s.portLatch := by cases s; rfl
@[simp] theorem State.modRs_freeCount (s : State) (n : Nat) (f : RailSeq → RailSeq) : (s.modRs n f).freeCount = s.freeCount := by cases s; rfl
@[simp] theorem State.modRs_tclk (s : State) (n : Nat) (f : RailSeq → RailSeq) : (s.modRs n f).tclk = s.tclk := by cases s; rfl
@[simp] theorem State.modRs_angPhase (s : State) (n : Nat) (f : RailSeq → RailSeq) : (s.modRs n f).angPhase = s.angPhase := by cases s; rfl
@[simp] theorem State.modRs_ang (s : State) (n : Nat) (f : RailSeq → RailSeq) : (s.modRs n f).ang = s.ang := by cases s; rfl
@[simp] theorem State.modRs_flt (s : State) (n : Nat) (f : RailSeq → RailSeq) : (s.modRs n f).flt = s.flt := by cases s; rfl
@[simp] theorem State.modRs_evq (s : State) (n : Nat) (f : RailSeq → RailSeq) : (s.modRs n f).evq = s.evq := by cases s; rfl
@[simp] theorem State.modRs_guard (s : State) (n : Nat) (f : RailSeq → RailSeq) : (s.modRs n f).guard = s.guard := by cases s; rfl
@[simp] theorem State.modRs_eng (s : State) (n : Nat) (f : RailSeq → RailSeq) : (s.modRs n f).eng = s.eng := by cases s; rfl
@[simp] theorem State.modRs_fine (s : State) (n : Nat) (f : RailSeq → RailSeq) : (s.modRs n f).fine = s.fine := by cases s; rfl
@[simp] theorem State.modRs_pool (s : State) (n : Nat) (f : RailSeq → RailSeq) : (s.modRs n f).pool = s.pool := by cases s; rfl
@[simp] theorem State.modRs_assay (s : State) (n : Nat) (f : RailSeq → RailSeq) : (s.modRs n f).assay = s.assay := by cases s; rfl
@[simp] theorem State.modRs_spare (s : State) (n : Nat) (f : RailSeq → RailSeq) : (s.modRs n f).spare = s.spare := by cases s; rfl
@[simp] theorem State.modRs_pm (s : State) (n : Nat) (f : RailSeq → RailSeq) : (s.modRs n f).pm = s.pm := by cases s; rfl
@[simp] theorem State.modRs_marg (s : State) (n : Nat) (f : RailSeq → RailSeq) : (s.modRs n f).marg = s.marg := by cases s; rfl
@[simp] theorem State.modRs_folio (s : State) (n : Nat) (f : RailSeq → RailSeq) : (s.modRs n f).folio = s.folio := by cases s; rfl
@[simp] theorem State.modRs_nvm (s : State) (n : Nat) (f : RailSeq → RailSeq) : (s.modRs n f).nvm = s.nvm := by cases s; rfl
@[simp] theorem State.modRs_tally (s : State) (n : Nat) (f : RailSeq → RailSeq) : (s.modRs n f).tally = s.tally := by cases s; rfl
@[simp] theorem State.modRs_readOut (s : State) (n : Nat) (f : RailSeq → RailSeq) : (s.modRs n f).readOut = s.readOut := by cases s; rfl
@[simp] theorem State.modRs_twin (s : State) (n : Nat) (f : RailSeq → RailSeq) : (s.modRs n f).twin = s.twin := by cases s; rfl
@[simp] theorem State.modRs_wdn (s : State) (n : Nat) (f : RailSeq → RailSeq) : (s.modRs n f).wdn = s.wdn := by cases s; rfl
@[simp] theorem State.modRs_ring (s : State) (n : Nat) (f : RailSeq → RailSeq) : (s.modRs n f).ring = s.ring := by cases s; rfl
@[simp] theorem State.modRs_sec (s : State) (n : Nat) (f : RailSeq → RailSeq) : (s.modRs n f).sec = s.sec := by cases s; rfl
@[simp] theorem State.modRs_rst (s : State) (n : Nat) (f : RailSeq → RailSeq) : (s.modRs n f).rst = s.rst := by cases s; rfl
@[simp] theorem State.modRs_regs (s : State) (n : Nat) (f : RailSeq → RailSeq) : (s.modRs n f).regs = s.regs := by cases s; rfl
@[simp] theorem State.modRs_reg (s : State) (n : Nat) (f : RailSeq → RailSeq) (x : Nat) : (s.modRs n f).reg x = s.reg x := by cases s; rfl
@[simp] theorem State.modRs_get (s : State) (n : Nat) (f : RailSeq → RailSeq) (x : Field) : (s.modRs n f).get x = s.get x := by cases s; rfl
@[simp] theorem State.modRs_flag (s : State) (n : Nat) (f : RailSeq → RailSeq) (x : Field) : (s.modRs n f).flag x = s.flag x := by cases s; rfl

/-! `State.modSide` -/

@[simp] theorem State.modSide_pending (s : State) (n : Nat) (f : RingSide → RingSide) : (s.modSide n f).pending = s.pending := by cases s; rfl
@[simp] theorem State.modSide_portLatch (s : State) (n : Nat) (f : RingSide → RingSide) : (s.modSide n f).portLatch = s.portLatch := by cases s; rfl
@[simp] theorem State.modSide_freeCount (s : State) (n : Nat) (f : RingSide → RingSide) : (s.modSide n f).freeCount = s.freeCount := by cases s; rfl
@[simp] theorem State.modSide_tclk (s : State) (n : Nat) (f : RingSide → RingSide) : (s.modSide n f).tclk = s.tclk := by cases s; rfl
@[simp] theorem State.modSide_angPhase (s : State) (n : Nat) (f : RingSide → RingSide) : (s.modSide n f).angPhase = s.angPhase := by cases s; rfl
@[simp] theorem State.modSide_ang (s : State) (n : Nat) (f : RingSide → RingSide) : (s.modSide n f).ang = s.ang := by cases s; rfl
@[simp] theorem State.modSide_flt (s : State) (n : Nat) (f : RingSide → RingSide) : (s.modSide n f).flt = s.flt := by cases s; rfl
@[simp] theorem State.modSide_evq (s : State) (n : Nat) (f : RingSide → RingSide) : (s.modSide n f).evq = s.evq := by cases s; rfl
@[simp] theorem State.modSide_guard (s : State) (n : Nat) (f : RingSide → RingSide) : (s.modSide n f).guard = s.guard := by cases s; rfl
@[simp] theorem State.modSide_eng (s : State) (n : Nat) (f : RingSide → RingSide) : (s.modSide n f).eng = s.eng := by cases s; rfl
@[simp] theorem State.modSide_fine (s : State) (n : Nat) (f : RingSide → RingSide) : (s.modSide n f).fine = s.fine := by cases s; rfl
@[simp] theorem State.modSide_pool (s : State) (n : Nat) (f : RingSide → RingSide) : (s.modSide n f).pool = s.pool := by cases s; rfl
@[simp] theorem State.modSide_assay (s : State) (n : Nat) (f : RingSide → RingSide) : (s.modSide n f).assay = s.assay := by cases s; rfl
@[simp] theorem State.modSide_spare (s : State) (n : Nat) (f : RingSide → RingSide) : (s.modSide n f).spare = s.spare := by cases s; rfl
@[simp] theorem State.modSide_seq (s : State) (n : Nat) (f : RingSide → RingSide) : (s.modSide n f).seq = s.seq := by cases s; rfl
@[simp] theorem State.modSide_pm (s : State) (n : Nat) (f : RingSide → RingSide) : (s.modSide n f).pm = s.pm := by cases s; rfl
@[simp] theorem State.modSide_marg (s : State) (n : Nat) (f : RingSide → RingSide) : (s.modSide n f).marg = s.marg := by cases s; rfl
@[simp] theorem State.modSide_folio (s : State) (n : Nat) (f : RingSide → RingSide) : (s.modSide n f).folio = s.folio := by cases s; rfl
@[simp] theorem State.modSide_nvm (s : State) (n : Nat) (f : RingSide → RingSide) : (s.modSide n f).nvm = s.nvm := by cases s; rfl
@[simp] theorem State.modSide_tally (s : State) (n : Nat) (f : RingSide → RingSide) : (s.modSide n f).tally = s.tally := by cases s; rfl
@[simp] theorem State.modSide_readOut (s : State) (n : Nat) (f : RingSide → RingSide) : (s.modSide n f).readOut = s.readOut := by cases s; rfl
@[simp] theorem State.modSide_twin (s : State) (n : Nat) (f : RingSide → RingSide) : (s.modSide n f).twin = s.twin := by cases s; rfl
@[simp] theorem State.modSide_wdn (s : State) (n : Nat) (f : RingSide → RingSide) : (s.modSide n f).wdn = s.wdn := by cases s; rfl
@[simp] theorem State.modSide_sec (s : State) (n : Nat) (f : RingSide → RingSide) : (s.modSide n f).sec = s.sec := by cases s; rfl
@[simp] theorem State.modSide_rst (s : State) (n : Nat) (f : RingSide → RingSide) : (s.modSide n f).rst = s.rst := by cases s; rfl
@[simp] theorem State.modSide_regs (s : State) (n : Nat) (f : RingSide → RingSide) : (s.modSide n f).regs = s.regs := by cases s; rfl
@[simp] theorem State.modSide_reg (s : State) (n : Nat) (f : RingSide → RingSide) (x : Nat) : (s.modSide n f).reg x = s.reg x := by cases s; rfl
@[simp] theorem State.modSide_get (s : State) (n : Nat) (f : RingSide → RingSide) (x : Field) : (s.modSide n f).get x = s.get x := by cases s; rfl
@[simp] theorem State.modSide_flag (s : State) (n : Nat) (f : RingSide → RingSide) (x : Field) : (s.modSide n f).flag x = s.flag x := by cases s; rfl

/-! `State.modPair` -/

@[simp] theorem State.modPair_pending (s : State) (n : Nat) (f : WdnPair → WdnPair) : (s.modPair n f).pending = s.pending := by cases s; rfl
@[simp] theorem State.modPair_portLatch (s : State) (n : Nat) (f : WdnPair → WdnPair) : (s.modPair n f).portLatch = s.portLatch := by cases s; rfl
@[simp] theorem State.modPair_freeCount (s : State) (n : Nat) (f : WdnPair → WdnPair) : (s.modPair n f).freeCount = s.freeCount := by cases s; rfl
@[simp] theorem State.modPair_tclk (s : State) (n : Nat) (f : WdnPair → WdnPair) : (s.modPair n f).tclk = s.tclk := by cases s; rfl
@[simp] theorem State.modPair_angPhase (s : State) (n : Nat) (f : WdnPair → WdnPair) : (s.modPair n f).angPhase = s.angPhase := by cases s; rfl
@[simp] theorem State.modPair_ang (s : State) (n : Nat) (f : WdnPair → WdnPair) : (s.modPair n f).ang = s.ang := by cases s; rfl
@[simp] theorem State.modPair_flt (s : State) (n : Nat) (f : WdnPair → WdnPair) : (s.modPair n f).flt = s.flt := by cases s; rfl
@[simp] theorem State.modPair_evq (s : State) (n : Nat) (f : WdnPair → WdnPair) : (s.modPair n f).evq = s.evq := by cases s; rfl
@[simp] theorem State.modPair_guard (s : State) (n : Nat) (f : WdnPair → WdnPair) : (s.modPair n f).guard = s.guard := by cases s; rfl
@[simp] theorem State.modPair_eng (s : State) (n : Nat) (f : WdnPair → WdnPair) : (s.modPair n f).eng = s.eng := by cases s; rfl
@[simp] theorem State.modPair_fine (s : State) (n : Nat) (f : WdnPair → WdnPair) : (s.modPair n f).fine = s.fine := by cases s; rfl
@[simp] theorem State.modPair_pool (s : State) (n : Nat) (f : WdnPair → WdnPair) : (s.modPair n f).pool = s.pool := by cases s; rfl
@[simp] theorem State.modPair_assay (s : State) (n : Nat) (f : WdnPair → WdnPair) : (s.modPair n f).assay = s.assay := by cases s; rfl
@[simp] theorem State.modPair_spare (s : State) (n : Nat) (f : WdnPair → WdnPair) : (s.modPair n f).spare = s.spare := by cases s; rfl
@[simp] theorem State.modPair_seq (s : State) (n : Nat) (f : WdnPair → WdnPair) : (s.modPair n f).seq = s.seq := by cases s; rfl
@[simp] theorem State.modPair_pm (s : State) (n : Nat) (f : WdnPair → WdnPair) : (s.modPair n f).pm = s.pm := by cases s; rfl
@[simp] theorem State.modPair_marg (s : State) (n : Nat) (f : WdnPair → WdnPair) : (s.modPair n f).marg = s.marg := by cases s; rfl
@[simp] theorem State.modPair_folio (s : State) (n : Nat) (f : WdnPair → WdnPair) : (s.modPair n f).folio = s.folio := by cases s; rfl
@[simp] theorem State.modPair_nvm (s : State) (n : Nat) (f : WdnPair → WdnPair) : (s.modPair n f).nvm = s.nvm := by cases s; rfl
@[simp] theorem State.modPair_tally (s : State) (n : Nat) (f : WdnPair → WdnPair) : (s.modPair n f).tally = s.tally := by cases s; rfl
@[simp] theorem State.modPair_readOut (s : State) (n : Nat) (f : WdnPair → WdnPair) : (s.modPair n f).readOut = s.readOut := by cases s; rfl
@[simp] theorem State.modPair_twin (s : State) (n : Nat) (f : WdnPair → WdnPair) : (s.modPair n f).twin = s.twin := by cases s; rfl
@[simp] theorem State.modPair_ring (s : State) (n : Nat) (f : WdnPair → WdnPair) : (s.modPair n f).ring = s.ring := by cases s; rfl
@[simp] theorem State.modPair_sec (s : State) (n : Nat) (f : WdnPair → WdnPair) : (s.modPair n f).sec = s.sec := by cases s; rfl
@[simp] theorem State.modPair_rst (s : State) (n : Nat) (f : WdnPair → WdnPair) : (s.modPair n f).rst = s.rst := by cases s; rfl
@[simp] theorem State.modPair_regs (s : State) (n : Nat) (f : WdnPair → WdnPair) : (s.modPair n f).regs = s.regs := by cases s; rfl
@[simp] theorem State.modPair_reg (s : State) (n : Nat) (f : WdnPair → WdnPair) (x : Nat) : (s.modPair n f).reg x = s.reg x := by cases s; rfl
@[simp] theorem State.modPair_get (s : State) (n : Nat) (f : WdnPair → WdnPair) (x : Field) : (s.modPair n f).get x = s.get x := by cases s; rfl
@[simp] theorem State.modPair_flag (s : State) (n : Nat) (f : WdnPair → WdnPair) (x : Field) : (s.modPair n f).flag x = s.flag x := by cases s; rfl

/-! An event changes the registers, the queue of ring messages and the fault collector's inputs alone. -/

/-- `t` is `s` but for the registers, the queue of ring messages and the collector's inputs. -/
def EvtApart (s t : State) : Prop := ∃ r e f, t = { s with regs := r, evq := e, flt := f }

theorem EvtApart.put {s t : State} (h : EvtApart s t) (f : Field) (v : Nat) : EvtApart s (t.put f v) := by
  obtain ⟨r, e, g, rfl⟩ := h; exact ⟨_, e, g, rfl⟩

theorem EvtApart.modFlt {s t : State} (h : EvtApart s t) (f : FaultState → FaultState) : EvtApart s (t.modFlt f) := by
  obtain ⟨r, e, g, rfl⟩ := h; exact ⟨r, e, _, rfl⟩

theorem EvtApart.refl (s : State) : EvtApart s s := ⟨s.regs, s.evq, s.flt, rfl⟩

theorem State.ringEvent_eq (s : State) (n : Nat) : EvtApart s (s.ringEvent n) := by
  unfold State.ringEvent
  split
  · exact EvtApart.refl s
  · split
    · exact ⟨s.regs, _, s.flt, rfl⟩
    · exact ((((EvtApart.refl s).put _ _).put _ _).put _ _).modFlt _ |>.modFlt _

theorem State.event_eq (s : State) (n : Nat) : EvtApart s (s.event n) := by
  unfold State.event
  split
  · exact EvtApart.refl s
  · dsimp only
    split
    · obtain ⟨r, e, f, h⟩ := (s.put (evtStatus n) 1).ringEvent_eq n
      exact ⟨r, e, f, h⟩
    · exact (EvtApart.refl s).put _ _

theorem State.evtBit_eq (s : State) (x : Field) (n : Nat) : EvtApart s (s.evtBit x n) := by
  obtain ⟨r, e, f, h⟩ := (s.put x 1).event_eq n
  exact ⟨r, e, f, h⟩

theorem State.raiseOnce_eq (s : State) (a b c d e : Nat) : ∃ f, s.raiseOnce a b c d e = { s with flt := f } := by
  unfold State.raiseOnce
  split
  · exact ⟨s.flt, rfl⟩
  · exact ⟨_, rfl⟩

/-! `State.ringEvent` -/

@[simp] theorem State.ringEvent_pending (s : State) (n : Nat) : (s.ringEvent n).pending = s.pending := by
  obtain ⟨r, e, g, h⟩ := s.ringEvent_eq n; rw [h]
@[simp] theorem State.ringEvent_portLatch (s : State) (n : Nat) : (s.ringEvent n).portLatch = s.portLatch := by
  obtain ⟨r, e, g, h⟩ := s.ringEvent_eq n; rw [h]
@[simp] theorem State.ringEvent_freeCount (s : State) (n : Nat) : (s.ringEvent n).freeCount = s.freeCount := by
  obtain ⟨r, e, g, h⟩ := s.ringEvent_eq n; rw [h]
@[simp] theorem State.ringEvent_tclk (s : State) (n : Nat) : (s.ringEvent n).tclk = s.tclk := by
  obtain ⟨r, e, g, h⟩ := s.ringEvent_eq n; rw [h]
@[simp] theorem State.ringEvent_angPhase (s : State) (n : Nat) : (s.ringEvent n).angPhase = s.angPhase := by
  obtain ⟨r, e, g, h⟩ := s.ringEvent_eq n; rw [h]
@[simp] theorem State.ringEvent_ang (s : State) (n : Nat) : (s.ringEvent n).ang = s.ang := by
  obtain ⟨r, e, g, h⟩ := s.ringEvent_eq n; rw [h]
@[simp] theorem State.ringEvent_guard (s : State) (n : Nat) : (s.ringEvent n).guard = s.guard := by
  obtain ⟨r, e, g, h⟩ := s.ringEvent_eq n; rw [h]
@[simp] theorem State.ringEvent_eng (s : State) (n : Nat) : (s.ringEvent n).eng = s.eng := by
  obtain ⟨r, e, g, h⟩ := s.ringEvent_eq n; rw [h]
@[simp] theorem State.ringEvent_fine (s : State) (n : Nat) : (s.ringEvent n).fine = s.fine := by
  obtain ⟨r, e, g, h⟩ := s.ringEvent_eq n; rw [h]
@[simp] theorem State.ringEvent_pool (s : State) (n : Nat) : (s.ringEvent n).pool = s.pool := by
  obtain ⟨r, e, g, h⟩ := s.ringEvent_eq n; rw [h]
@[simp] theorem State.ringEvent_assay (s : State) (n : Nat) : (s.ringEvent n).assay = s.assay := by
  obtain ⟨r, e, g, h⟩ := s.ringEvent_eq n; rw [h]
@[simp] theorem State.ringEvent_spare (s : State) (n : Nat) : (s.ringEvent n).spare = s.spare := by
  obtain ⟨r, e, g, h⟩ := s.ringEvent_eq n; rw [h]
@[simp] theorem State.ringEvent_seq (s : State) (n : Nat) : (s.ringEvent n).seq = s.seq := by
  obtain ⟨r, e, g, h⟩ := s.ringEvent_eq n; rw [h]
@[simp] theorem State.ringEvent_pm (s : State) (n : Nat) : (s.ringEvent n).pm = s.pm := by
  obtain ⟨r, e, g, h⟩ := s.ringEvent_eq n; rw [h]
@[simp] theorem State.ringEvent_marg (s : State) (n : Nat) : (s.ringEvent n).marg = s.marg := by
  obtain ⟨r, e, g, h⟩ := s.ringEvent_eq n; rw [h]
@[simp] theorem State.ringEvent_folio (s : State) (n : Nat) : (s.ringEvent n).folio = s.folio := by
  obtain ⟨r, e, g, h⟩ := s.ringEvent_eq n; rw [h]
@[simp] theorem State.ringEvent_nvm (s : State) (n : Nat) : (s.ringEvent n).nvm = s.nvm := by
  obtain ⟨r, e, g, h⟩ := s.ringEvent_eq n; rw [h]
@[simp] theorem State.ringEvent_tally (s : State) (n : Nat) : (s.ringEvent n).tally = s.tally := by
  obtain ⟨r, e, g, h⟩ := s.ringEvent_eq n; rw [h]
@[simp] theorem State.ringEvent_readOut (s : State) (n : Nat) : (s.ringEvent n).readOut = s.readOut := by
  obtain ⟨r, e, g, h⟩ := s.ringEvent_eq n; rw [h]
@[simp] theorem State.ringEvent_twin (s : State) (n : Nat) : (s.ringEvent n).twin = s.twin := by
  obtain ⟨r, e, g, h⟩ := s.ringEvent_eq n; rw [h]
@[simp] theorem State.ringEvent_wdn (s : State) (n : Nat) : (s.ringEvent n).wdn = s.wdn := by
  obtain ⟨r, e, g, h⟩ := s.ringEvent_eq n; rw [h]
@[simp] theorem State.ringEvent_ring (s : State) (n : Nat) : (s.ringEvent n).ring = s.ring := by
  obtain ⟨r, e, g, h⟩ := s.ringEvent_eq n; rw [h]
@[simp] theorem State.ringEvent_sec (s : State) (n : Nat) : (s.ringEvent n).sec = s.sec := by
  obtain ⟨r, e, g, h⟩ := s.ringEvent_eq n; rw [h]
@[simp] theorem State.ringEvent_rst (s : State) (n : Nat) : (s.ringEvent n).rst = s.rst := by
  obtain ⟨r, e, g, h⟩ := s.ringEvent_eq n; rw [h]

/-! `State.event` -/

@[simp] theorem State.event_pending (s : State) (n : Nat) : (s.event n).pending = s.pending := by
  obtain ⟨r, e, g, h⟩ := s.event_eq n; rw [h]
@[simp] theorem State.event_portLatch (s : State) (n : Nat) : (s.event n).portLatch = s.portLatch := by
  obtain ⟨r, e, g, h⟩ := s.event_eq n; rw [h]
@[simp] theorem State.event_freeCount (s : State) (n : Nat) : (s.event n).freeCount = s.freeCount := by
  obtain ⟨r, e, g, h⟩ := s.event_eq n; rw [h]
@[simp] theorem State.event_tclk (s : State) (n : Nat) : (s.event n).tclk = s.tclk := by
  obtain ⟨r, e, g, h⟩ := s.event_eq n; rw [h]
@[simp] theorem State.event_angPhase (s : State) (n : Nat) : (s.event n).angPhase = s.angPhase := by
  obtain ⟨r, e, g, h⟩ := s.event_eq n; rw [h]
@[simp] theorem State.event_ang (s : State) (n : Nat) : (s.event n).ang = s.ang := by
  obtain ⟨r, e, g, h⟩ := s.event_eq n; rw [h]
@[simp] theorem State.event_guard (s : State) (n : Nat) : (s.event n).guard = s.guard := by
  obtain ⟨r, e, g, h⟩ := s.event_eq n; rw [h]
@[simp] theorem State.event_eng (s : State) (n : Nat) : (s.event n).eng = s.eng := by
  obtain ⟨r, e, g, h⟩ := s.event_eq n; rw [h]
@[simp] theorem State.event_fine (s : State) (n : Nat) : (s.event n).fine = s.fine := by
  obtain ⟨r, e, g, h⟩ := s.event_eq n; rw [h]
@[simp] theorem State.event_pool (s : State) (n : Nat) : (s.event n).pool = s.pool := by
  obtain ⟨r, e, g, h⟩ := s.event_eq n; rw [h]
@[simp] theorem State.event_assay (s : State) (n : Nat) : (s.event n).assay = s.assay := by
  obtain ⟨r, e, g, h⟩ := s.event_eq n; rw [h]
@[simp] theorem State.event_spare (s : State) (n : Nat) : (s.event n).spare = s.spare := by
  obtain ⟨r, e, g, h⟩ := s.event_eq n; rw [h]
@[simp] theorem State.event_seq (s : State) (n : Nat) : (s.event n).seq = s.seq := by
  obtain ⟨r, e, g, h⟩ := s.event_eq n; rw [h]
@[simp] theorem State.event_pm (s : State) (n : Nat) : (s.event n).pm = s.pm := by
  obtain ⟨r, e, g, h⟩ := s.event_eq n; rw [h]
@[simp] theorem State.event_marg (s : State) (n : Nat) : (s.event n).marg = s.marg := by
  obtain ⟨r, e, g, h⟩ := s.event_eq n; rw [h]
@[simp] theorem State.event_folio (s : State) (n : Nat) : (s.event n).folio = s.folio := by
  obtain ⟨r, e, g, h⟩ := s.event_eq n; rw [h]
@[simp] theorem State.event_nvm (s : State) (n : Nat) : (s.event n).nvm = s.nvm := by
  obtain ⟨r, e, g, h⟩ := s.event_eq n; rw [h]
@[simp] theorem State.event_tally (s : State) (n : Nat) : (s.event n).tally = s.tally := by
  obtain ⟨r, e, g, h⟩ := s.event_eq n; rw [h]
@[simp] theorem State.event_readOut (s : State) (n : Nat) : (s.event n).readOut = s.readOut := by
  obtain ⟨r, e, g, h⟩ := s.event_eq n; rw [h]
@[simp] theorem State.event_twin (s : State) (n : Nat) : (s.event n).twin = s.twin := by
  obtain ⟨r, e, g, h⟩ := s.event_eq n; rw [h]
@[simp] theorem State.event_wdn (s : State) (n : Nat) : (s.event n).wdn = s.wdn := by
  obtain ⟨r, e, g, h⟩ := s.event_eq n; rw [h]
@[simp] theorem State.event_ring (s : State) (n : Nat) : (s.event n).ring = s.ring := by
  obtain ⟨r, e, g, h⟩ := s.event_eq n; rw [h]
@[simp] theorem State.event_sec (s : State) (n : Nat) : (s.event n).sec = s.sec := by
  obtain ⟨r, e, g, h⟩ := s.event_eq n; rw [h]
@[simp] theorem State.event_rst (s : State) (n : Nat) : (s.event n).rst = s.rst := by
  obtain ⟨r, e, g, h⟩ := s.event_eq n; rw [h]

/-! `State.evtBit` -/

@[simp] theorem State.evtBit_pending (s : State) (x : Field) (n : Nat) : (s.evtBit x n).pending = s.pending := by
  obtain ⟨r, e, g, h⟩ := s.evtBit_eq x n; rw [h]
@[simp] theorem State.evtBit_portLatch (s : State) (x : Field) (n : Nat) : (s.evtBit x n).portLatch = s.portLatch := by
  obtain ⟨r, e, g, h⟩ := s.evtBit_eq x n; rw [h]
@[simp] theorem State.evtBit_freeCount (s : State) (x : Field) (n : Nat) : (s.evtBit x n).freeCount = s.freeCount := by
  obtain ⟨r, e, g, h⟩ := s.evtBit_eq x n; rw [h]
@[simp] theorem State.evtBit_tclk (s : State) (x : Field) (n : Nat) : (s.evtBit x n).tclk = s.tclk := by
  obtain ⟨r, e, g, h⟩ := s.evtBit_eq x n; rw [h]
@[simp] theorem State.evtBit_angPhase (s : State) (x : Field) (n : Nat) : (s.evtBit x n).angPhase = s.angPhase := by
  obtain ⟨r, e, g, h⟩ := s.evtBit_eq x n; rw [h]
@[simp] theorem State.evtBit_ang (s : State) (x : Field) (n : Nat) : (s.evtBit x n).ang = s.ang := by
  obtain ⟨r, e, g, h⟩ := s.evtBit_eq x n; rw [h]
@[simp] theorem State.evtBit_guard (s : State) (x : Field) (n : Nat) : (s.evtBit x n).guard = s.guard := by
  obtain ⟨r, e, g, h⟩ := s.evtBit_eq x n; rw [h]
@[simp] theorem State.evtBit_eng (s : State) (x : Field) (n : Nat) : (s.evtBit x n).eng = s.eng := by
  obtain ⟨r, e, g, h⟩ := s.evtBit_eq x n; rw [h]
@[simp] theorem State.evtBit_fine (s : State) (x : Field) (n : Nat) : (s.evtBit x n).fine = s.fine := by
  obtain ⟨r, e, g, h⟩ := s.evtBit_eq x n; rw [h]
@[simp] theorem State.evtBit_pool (s : State) (x : Field) (n : Nat) : (s.evtBit x n).pool = s.pool := by
  obtain ⟨r, e, g, h⟩ := s.evtBit_eq x n; rw [h]
@[simp] theorem State.evtBit_assay (s : State) (x : Field) (n : Nat) : (s.evtBit x n).assay = s.assay := by
  obtain ⟨r, e, g, h⟩ := s.evtBit_eq x n; rw [h]
@[simp] theorem State.evtBit_spare (s : State) (x : Field) (n : Nat) : (s.evtBit x n).spare = s.spare := by
  obtain ⟨r, e, g, h⟩ := s.evtBit_eq x n; rw [h]
@[simp] theorem State.evtBit_seq (s : State) (x : Field) (n : Nat) : (s.evtBit x n).seq = s.seq := by
  obtain ⟨r, e, g, h⟩ := s.evtBit_eq x n; rw [h]
@[simp] theorem State.evtBit_pm (s : State) (x : Field) (n : Nat) : (s.evtBit x n).pm = s.pm := by
  obtain ⟨r, e, g, h⟩ := s.evtBit_eq x n; rw [h]
@[simp] theorem State.evtBit_marg (s : State) (x : Field) (n : Nat) : (s.evtBit x n).marg = s.marg := by
  obtain ⟨r, e, g, h⟩ := s.evtBit_eq x n; rw [h]
@[simp] theorem State.evtBit_folio (s : State) (x : Field) (n : Nat) : (s.evtBit x n).folio = s.folio := by
  obtain ⟨r, e, g, h⟩ := s.evtBit_eq x n; rw [h]
@[simp] theorem State.evtBit_nvm (s : State) (x : Field) (n : Nat) : (s.evtBit x n).nvm = s.nvm := by
  obtain ⟨r, e, g, h⟩ := s.evtBit_eq x n; rw [h]
@[simp] theorem State.evtBit_tally (s : State) (x : Field) (n : Nat) : (s.evtBit x n).tally = s.tally := by
  obtain ⟨r, e, g, h⟩ := s.evtBit_eq x n; rw [h]
@[simp] theorem State.evtBit_readOut (s : State) (x : Field) (n : Nat) : (s.evtBit x n).readOut = s.readOut := by
  obtain ⟨r, e, g, h⟩ := s.evtBit_eq x n; rw [h]
@[simp] theorem State.evtBit_twin (s : State) (x : Field) (n : Nat) : (s.evtBit x n).twin = s.twin := by
  obtain ⟨r, e, g, h⟩ := s.evtBit_eq x n; rw [h]
@[simp] theorem State.evtBit_wdn (s : State) (x : Field) (n : Nat) : (s.evtBit x n).wdn = s.wdn := by
  obtain ⟨r, e, g, h⟩ := s.evtBit_eq x n; rw [h]
@[simp] theorem State.evtBit_ring (s : State) (x : Field) (n : Nat) : (s.evtBit x n).ring = s.ring := by
  obtain ⟨r, e, g, h⟩ := s.evtBit_eq x n; rw [h]
@[simp] theorem State.evtBit_sec (s : State) (x : Field) (n : Nat) : (s.evtBit x n).sec = s.sec := by
  obtain ⟨r, e, g, h⟩ := s.evtBit_eq x n; rw [h]
@[simp] theorem State.evtBit_rst (s : State) (x : Field) (n : Nat) : (s.evtBit x n).rst = s.rst := by
  obtain ⟨r, e, g, h⟩ := s.evtBit_eq x n; rw [h]

/-! `State.raiseOnce` -/

@[simp] theorem State.raiseOnce_pending (s : State) (a b c d e : Nat) : (s.raiseOnce a b c d e).pending = s.pending := by
  obtain ⟨g, h⟩ := s.raiseOnce_eq a b c d e; rw [h]
@[simp] theorem State.raiseOnce_portLatch (s : State) (a b c d e : Nat) : (s.raiseOnce a b c d e).portLatch = s.portLatch := by
  obtain ⟨g, h⟩ := s.raiseOnce_eq a b c d e; rw [h]
@[simp] theorem State.raiseOnce_freeCount (s : State) (a b c d e : Nat) : (s.raiseOnce a b c d e).freeCount = s.freeCount := by
  obtain ⟨g, h⟩ := s.raiseOnce_eq a b c d e; rw [h]
@[simp] theorem State.raiseOnce_tclk (s : State) (a b c d e : Nat) : (s.raiseOnce a b c d e).tclk = s.tclk := by
  obtain ⟨g, h⟩ := s.raiseOnce_eq a b c d e; rw [h]
@[simp] theorem State.raiseOnce_angPhase (s : State) (a b c d e : Nat) : (s.raiseOnce a b c d e).angPhase = s.angPhase := by
  obtain ⟨g, h⟩ := s.raiseOnce_eq a b c d e; rw [h]
@[simp] theorem State.raiseOnce_ang (s : State) (a b c d e : Nat) : (s.raiseOnce a b c d e).ang = s.ang := by
  obtain ⟨g, h⟩ := s.raiseOnce_eq a b c d e; rw [h]
@[simp] theorem State.raiseOnce_evq (s : State) (a b c d e : Nat) : (s.raiseOnce a b c d e).evq = s.evq := by
  obtain ⟨g, h⟩ := s.raiseOnce_eq a b c d e; rw [h]
@[simp] theorem State.raiseOnce_guard (s : State) (a b c d e : Nat) : (s.raiseOnce a b c d e).guard = s.guard := by
  obtain ⟨g, h⟩ := s.raiseOnce_eq a b c d e; rw [h]
@[simp] theorem State.raiseOnce_eng (s : State) (a b c d e : Nat) : (s.raiseOnce a b c d e).eng = s.eng := by
  obtain ⟨g, h⟩ := s.raiseOnce_eq a b c d e; rw [h]
@[simp] theorem State.raiseOnce_fine (s : State) (a b c d e : Nat) : (s.raiseOnce a b c d e).fine = s.fine := by
  obtain ⟨g, h⟩ := s.raiseOnce_eq a b c d e; rw [h]
@[simp] theorem State.raiseOnce_pool (s : State) (a b c d e : Nat) : (s.raiseOnce a b c d e).pool = s.pool := by
  obtain ⟨g, h⟩ := s.raiseOnce_eq a b c d e; rw [h]
@[simp] theorem State.raiseOnce_assay (s : State) (a b c d e : Nat) : (s.raiseOnce a b c d e).assay = s.assay := by
  obtain ⟨g, h⟩ := s.raiseOnce_eq a b c d e; rw [h]
@[simp] theorem State.raiseOnce_spare (s : State) (a b c d e : Nat) : (s.raiseOnce a b c d e).spare = s.spare := by
  obtain ⟨g, h⟩ := s.raiseOnce_eq a b c d e; rw [h]
@[simp] theorem State.raiseOnce_seq (s : State) (a b c d e : Nat) : (s.raiseOnce a b c d e).seq = s.seq := by
  obtain ⟨g, h⟩ := s.raiseOnce_eq a b c d e; rw [h]
@[simp] theorem State.raiseOnce_pm (s : State) (a b c d e : Nat) : (s.raiseOnce a b c d e).pm = s.pm := by
  obtain ⟨g, h⟩ := s.raiseOnce_eq a b c d e; rw [h]
@[simp] theorem State.raiseOnce_marg (s : State) (a b c d e : Nat) : (s.raiseOnce a b c d e).marg = s.marg := by
  obtain ⟨g, h⟩ := s.raiseOnce_eq a b c d e; rw [h]
@[simp] theorem State.raiseOnce_folio (s : State) (a b c d e : Nat) : (s.raiseOnce a b c d e).folio = s.folio := by
  obtain ⟨g, h⟩ := s.raiseOnce_eq a b c d e; rw [h]
@[simp] theorem State.raiseOnce_nvm (s : State) (a b c d e : Nat) : (s.raiseOnce a b c d e).nvm = s.nvm := by
  obtain ⟨g, h⟩ := s.raiseOnce_eq a b c d e; rw [h]
@[simp] theorem State.raiseOnce_tally (s : State) (a b c d e : Nat) : (s.raiseOnce a b c d e).tally = s.tally := by
  obtain ⟨g, h⟩ := s.raiseOnce_eq a b c d e; rw [h]
@[simp] theorem State.raiseOnce_readOut (s : State) (a b c d e : Nat) : (s.raiseOnce a b c d e).readOut = s.readOut := by
  obtain ⟨g, h⟩ := s.raiseOnce_eq a b c d e; rw [h]
@[simp] theorem State.raiseOnce_twin (s : State) (a b c d e : Nat) : (s.raiseOnce a b c d e).twin = s.twin := by
  obtain ⟨g, h⟩ := s.raiseOnce_eq a b c d e; rw [h]
@[simp] theorem State.raiseOnce_wdn (s : State) (a b c d e : Nat) : (s.raiseOnce a b c d e).wdn = s.wdn := by
  obtain ⟨g, h⟩ := s.raiseOnce_eq a b c d e; rw [h]
@[simp] theorem State.raiseOnce_ring (s : State) (a b c d e : Nat) : (s.raiseOnce a b c d e).ring = s.ring := by
  obtain ⟨g, h⟩ := s.raiseOnce_eq a b c d e; rw [h]
@[simp] theorem State.raiseOnce_sec (s : State) (a b c d e : Nat) : (s.raiseOnce a b c d e).sec = s.sec := by
  obtain ⟨g, h⟩ := s.raiseOnce_eq a b c d e; rw [h]
@[simp] theorem State.raiseOnce_rst (s : State) (a b c d e : Nat) : (s.raiseOnce a b c d e).rst = s.rst := by
  obtain ⟨g, h⟩ := s.raiseOnce_eq a b c d e; rw [h]
@[simp] theorem State.raiseOnce_reg (s : State) (a b c d e : Nat) (y : Nat) : (s.raiseOnce a b c d e).reg y = s.reg y := by
  obtain ⟨g, h⟩ := s.raiseOnce_eq a b c d e; rw [h]; rfl
@[simp] theorem State.raiseOnce_get (s : State) (a b c d e : Nat) (y : Field) : (s.raiseOnce a b c d e).get y = s.get y := by
  obtain ⟨g, h⟩ := s.raiseOnce_eq a b c d e; rw [h]; rfl
@[simp] theorem State.raiseOnce_flag (s : State) (a b c d e : Nat) (y : Field) : (s.raiseOnce a b c d e).flag y = s.flag y := by
  obtain ⟨g, h⟩ := s.raiseOnce_eq a b c d e; rw [h]; rfl

end Sys2Proof.Machine
end

