-- ==== Sys2Proof/Laws/Store.lean ====
section
/-! SUPPORT. Reading a register or a field after a write: the laws of the register store, of fields, and of the
operations that write them. -/

namespace Sys2Proof.Machine

/-! ### The store -/

theorem storeGet_storeInsert_self (st : RegStore) (x : Nat) (v : Word) : storeGet (storeInsert st x v) x = v.toNat := by
  induction st with
  | nil => simp [storeInsert, storeGet]
  | cons e rest ih =>
    obtain ⟨a, w⟩ := e
    simp only [storeInsert]
    split
    · simp [storeGet]
    · split
      · simp [storeGet]
      · next h => simp [storeGet, h, ih]

theorem storeGet_storeInsert_of_ne (st : RegStore) (x y : Nat) (v : Word) (h : y ≠ x) :
    storeGet (storeInsert st x v) y = storeGet st y := by
  induction st with
  | nil => simp [storeInsert, storeGet, Ne.symm h]
  | cons e rest ih =>
    obtain ⟨a, w⟩ := e
    simp only [storeInsert]
    split
    · simp [storeGet, Ne.symm h]
    · split
      · next hax => subst hax; simp [storeGet, Ne.symm h]
      · simp [storeGet, ih]

theorem storeGet_filter_self (st : RegStore) (x : Nat) : storeGet (st.filter fun e => e.1 != x) x = 0 := by
  induction st with
  | nil => rfl
  | cons e rest ih =>
    obtain ⟨a, w⟩ := e
    by_cases h : a = x <;> simp [h, storeGet, ih]

theorem storeGet_filter_of_ne (st : RegStore) (x y : Nat) (h : y ≠ x) :
    storeGet (st.filter fun e => e.1 != x) y = storeGet st y := by
  induction st with
  | nil => rfl
  | cons e rest ih =>
    obtain ⟨a, w⟩ := e
    by_cases hx : a = x
    · simp [hx, storeGet, ih, Ne.symm h]
    · simp [hx, storeGet, ih]

theorem storeGet_storeSet_self (st : RegStore) (x v : Nat) : storeGet (storeSet st x v) x = v % 4294967296 := by
  simp only [storeSet]
  split
  · next h => rw [storeGet_filter_self, h]
  · simp [storeGet_storeInsert_self]

theorem storeGet_storeSet_of_ne (st : RegStore) (x y v : Nat) (h : y ≠ x) :
    storeGet (storeSet st x v) y = storeGet st y := by
  simp only [storeSet]
  split
  · exact storeGet_filter_of_ne st x y h
  · exact storeGet_storeInsert_of_ne st x y _ h

/-! ### The canonical form -/

/-- No entry holds 0, and addresses rise from above `lo`. -/
def storeAbove (lo : Option Nat) : RegStore → Bool
  | [] => true
  | (a, w) :: rest => w != 0 && (match lo with | some l => decide (l < a) | none => true) && storeAbove (some a) rest

theorem storeWf_eq_above (st : RegStore) : storeWf st = storeAbove none st := by
  have step : ∀ (st : RegStore) (a : Nat) (w : Word), storeWf ((a, w) :: st) = (w != 0 && storeAbove (some a) st) := by
    intro st
    induction st with
    | nil => intro a w; simp [storeWf, storeAbove]
    | cons e rest ih => intro a w; obtain ⟨b, v⟩ := e; simp [storeWf, storeAbove, ih b v, Bool.and_assoc, Bool.and_left_comm]
  cases st with
  | nil => rfl
  | cons e rest => obtain ⟨a, w⟩ := e; simp [step, storeAbove]

theorem storeAbove_mono (st : RegStore) (l a : Nat) (h : l < a) (hs : storeAbove (some a) st = true) :
    storeAbove (some l) st = true := by
  cases st with
  | nil => rfl
  | cons e rest => obtain ⟨b, w⟩ := e; simp [storeAbove] at hs ⊢; exact ⟨⟨hs.1.1, by omega⟩, hs.2⟩

theorem storeAbove_insert (st : RegStore) (lo : Option Nat) (x : Nat) (v : Word) (hv : v ≠ 0)
    (hl : ∀ l, lo = some l → l < x) (hs : storeAbove lo st = true) : storeAbove lo (storeInsert st x v) = true := by
  induction st generalizing lo with
  | nil => cases lo <;> simp_all [storeInsert, storeAbove]
  | cons e rest ih =>
    obtain ⟨a, w⟩ := e
    simp only [storeInsert]
    simp only [storeAbove, Bool.and_eq_true] at hs
    split
    · next hx => cases lo <;> simp_all [storeAbove]
    · split
      · next _ hax => subst hax; cases lo <;> simp_all [storeAbove]
      · next hx hax =>
        have := ih (some a) (by intro l hl'; cases hl'; omega) hs.2
        simp [storeAbove, this]; cases lo <;> simp_all

theorem storeAbove_filter (st : RegStore) (lo : Option Nat) (x : Nat) (hs : storeAbove lo st = true) :
    storeAbove lo (st.filter fun e => e.1 != x) = true := by
  induction st generalizing lo with
  | nil => simp [storeAbove]
  | cons e rest ih =>
    obtain ⟨a, w⟩ := e
    simp only [storeAbove, Bool.and_eq_true] at hs
    by_cases h : a = x
    · simp only [h, List.filter_cons, bne_self_eq_false]
      apply ih
      cases lo with
      | none => cases rest with
        | nil => rfl
        | cons e' r' => obtain ⟨b, w'⟩ := e'; have := hs.2; simp [storeAbove] at this ⊢; exact ⟨this.1.1, this.2⟩
      | some l => exact storeAbove_mono rest l a (by simpa using hs.1.2) hs.2
    · have hb : (a != x) = true := by simp [h]
      simp only [List.filter_cons, hb, if_true, storeAbove, Bool.and_eq_true]
      exact ⟨hs.1, ih _ hs.2⟩

/-- A write keeps the canonical form. -/
theorem storeSet_wf (st : RegStore) (x v : Nat) (h : storeWf st = true) : storeWf (storeSet st x v) = true := by
  rw [storeWf_eq_above] at h ⊢
  simp only [storeSet]
  split
  · exact storeAbove_filter st none x h
  · next hv =>
    refine storeAbove_insert st none x _ ?_ (by simp) h
    intro h0
    apply hv
    have := congrArg BitVec.toNat h0
    simpa using this

/-! ### Registers -/

@[simp] theorem State.reg_setReg_self (s : State) (a v : Nat) : (s.setReg a v).reg a = v % 4294967296 :=
  storeGet_storeSet_self s.regs a v

theorem State.reg_setReg_of_ne (s : State) (a b v : Nat) (h : b ≠ a) : (s.setReg a v).reg b = s.reg b :=
  storeGet_storeSet_of_ne s.regs a b v h

theorem State.regs_wf_setReg (s : State) (a v : Nat) (h : storeWf s.regs = true) : storeWf (s.setReg a v).regs = true :=
  storeSet_wf s.regs a v h

/-! ### Fields -/

theorem Field.insert_div (f : Field) (w v : Nat) : f.insert w v / 2 ^ f.lo = w / 2 ^ (f.lo + f.width) * 2 ^ f.width + v % 2 ^ f.width := by
  have hp : 0 < 2 ^ f.lo := Nat.two_pow_pos _
  have hlt : w % 2 ^ f.lo < 2 ^ f.lo := Nat.mod_lt _ hp
  have : f.insert w v = (w / 2 ^ (f.lo + f.width) * 2 ^ f.width + v % 2 ^ f.width) * 2 ^ f.lo + w % 2 ^ f.lo := by
    simp only [Field.insert]
    conv => lhs; lhs; lhs; rhs; rw [Nat.pow_add, Nat.mul_comm]
    rw [Nat.add_mul, Nat.mul_assoc]
  rw [this, Nat.mul_comm, Nat.mul_add_div hp, Nat.div_eq_of_lt hlt, Nat.add_zero]

/-- A field written reads the value modulo its width. -/
@[simp] theorem Field.extract_insert (f : Field) (w v : Nat) : f.extract (f.insert w v) = v % 2 ^ f.width := by
  simp only [Field.extract, Field.insert_div]
  rw [Nat.mul_comm, Nat.mul_add_mod, Nat.mod_mod]

/-- The cut at 32 bits does not reach a field that lies within 32 bits. -/
theorem Field.extract_cut (f : Field) (w : Nat) (h : f.lo + f.width ≤ 32) : f.extract (w % 4294967296) = f.extract w := by
  simp only [Field.extract]
  have hsplit : (4294967296 : Nat) = 2 ^ f.lo * 2 ^ (32 - f.lo) := by
    rw [← Nat.pow_add]; have : f.lo + (32 - f.lo) = 32 := by omega
    rw [this]
  rw [hsplit, Nat.mod_mul_right_div_self]
  exact Nat.mod_mod_of_dvd _ (Nat.pow_dvd_pow 2 (by omega))

theorem State.get_put_self (s : State) (f : Field) (v : Nat) (h : f.lo + f.width ≤ 32) :
    (s.put f v).get f = v % 2 ^ f.width := by
  simp [State.get, State.put, Field.extract_cut _ _ h]

/-! ### Vectors by number -/

/-- Two changes of an entry that agree on the entry are one. -/
theorem vmod_congr {α : Type} [Inhabited α] {n : Nat} (v : Vector α n) (i : Nat) (f g : α → α) (h : f (vget v i) = g (vget v i)) :
    vmod v i f = vmod v i g := by
  unfold vmod
  split
  · next hi =>
    have e : vget v i = v[i] := by simp [vget, hi]
    rw [e] at h
    simp [h]
  · rfl

/-- The entry that was changed. -/
theorem vget_vmod_self {α : Type} [Inhabited α] {n : Nat} (v : Vector α n) (i : Nat) (f : α → α) (hi : i < n) :
    vget (vmod v i f) i = f (vget v i) := by
  simp [vget, vmod, hi]

/-- What a change of an entry leaves alone. -/
theorem vget_vmod_proj {α β : Type} [Inhabited α] {n : Nat} (v : Vector α n) (i j : Nat) (f : α → α) (g : α → β)
    (h : ∀ x, g (f x) = g x) : g (vget (vmod v i f) j) = g (vget v j) := by
  by_cases hi : i < n
  · by_cases hj : j < n
    · by_cases e : i = j
      · subst e; rw [vget_vmod_self v i f hi, h]
      · simp [vget, vmod, hi, hj, e]
    · simp [vget, vmod, hi, hj]
  · simp [vget, vmod, hi]

theorem State.addSat_get_of_ne (s : State) (f g : Field) (n : Nat) (h : g.addr ≠ f.addr) : (s.addSat f n).get g = s.get g := by
  simp only [State.get, State.addSat, State.put, State.reg_setReg_of_ne _ _ _ _ h]

theorem State.get_put_of_ne (s : State) (f g : Field) (v : Nat) (h : g.addr ≠ f.addr) : (s.put f v).get g = s.get g := by
  simp only [State.get, State.put, State.reg_setReg_of_ne _ _ _ _ h]

/-- A field above the one written is unchanged. -/
theorem Field.extract_insert_above (f g : Field) (w v : Nat) (h : f.lo + f.width ≤ g.lo) :
    g.extract (f.insert w v) = g.extract w := by
  simp only [Field.extract]
  congr 1
  obtain ⟨k, hk⟩ : ∃ k, g.lo = f.lo + f.width + k := ⟨g.lo - (f.lo + f.width), by omega⟩
  have hv : v % 2 ^ f.width < 2 ^ f.width := Nat.mod_lt _ (Nat.two_pow_pos _)
  have e1 : f.insert w v / 2 ^ (f.lo + f.width) = w / 2 ^ (f.lo + f.width) := by
    rw [Nat.pow_add, ← Nat.div_div_eq_div_mul, Field.insert_div, Nat.mul_comm,
      Nat.mul_add_div (Nat.two_pow_pos _), Nat.div_eq_of_lt hv, Nat.add_zero, Nat.pow_add]
  rw [hk, Nat.pow_add 2 (f.lo + f.width) k, ← Nat.div_div_eq_div_mul, e1, Nat.div_div_eq_div_mul]

/-- A field below the one written is unchanged. -/
theorem Field.extract_insert_below (f g : Field) (w v : Nat) (h : g.lo + g.width ≤ f.lo) :
    g.extract (f.insert w v) = g.extract w := by
  have key : ∀ x : Nat, g.extract x = g.extract (x % 2 ^ f.lo) := by
    intro x
    simp only [Field.extract]
    have hsplit : (2 : Nat) ^ f.lo = 2 ^ g.lo * 2 ^ (f.lo - g.lo) := by
      rw [← Nat.pow_add]; congr 1; omega
    rw [hsplit, Nat.mod_mul_right_div_self]
    exact (Nat.mod_mod_of_dvd _ (Nat.pow_dvd_pow 2 (by omega))).symm
  rw [key, key w]
  congr 1
  simp only [Field.insert]
  have hd : (2 : Nat) ^ f.lo ∣ w / 2 ^ (f.lo + f.width) * 2 ^ (f.lo + f.width) + v % 2 ^ f.width * 2 ^ f.lo :=
    Nat.dvd_add (Nat.dvd_trans (Nat.pow_dvd_pow 2 (by omega)) (Nat.dvd_mul_left _ _)) (Nat.dvd_mul_left _ _)
  obtain ⟨q, hq⟩ := hd
  rw [hq, Nat.mul_add_mod, Nat.mod_mod]

/-- Another field of the register written is unchanged. -/
theorem State.get_put_apart (s : State) (f g : Field) (v : Nat) (hg : g.lo + g.width ≤ 32)
    (h : f.lo + f.width ≤ g.lo ∨ g.lo + g.width ≤ f.lo) : (s.put f v).get g = s.get g := by
  by_cases ha : g.addr = f.addr
  · simp only [State.get, State.put, ha, State.reg_setReg_self, Field.extract_cut _ _ hg]
    cases h with
    | inl h => exact Field.extract_insert_above f g _ v h
    | inr h => exact Field.extract_insert_below f g _ v h
  · exact State.get_put_of_ne s f g v ha

theorem State.flag_put_of_ne (s : State) (f g : Field) (v : Nat) (h : g.addr ≠ f.addr) : (s.put f v).flag g = s.flag g := by
  simp only [State.flag, State.get_put_of_ne _ _ _ _ h]

theorem State.flag_put_apart (s : State) (f g : Field) (v : Nat) (hg : g.lo + g.width ≤ 32)
    (h : f.lo + f.width ≤ g.lo ∨ g.lo + g.width ≤ f.lo) : (s.put f v).flag g = s.flag g := by
  simp only [State.flag, State.get_put_apart _ _ _ _ hg h]

theorem State.flag_put_self (s : State) (f : Field) (v : Nat) (h : f.lo + f.width ≤ 32) :
    (s.put f v).flag f = (v % 2 ^ f.width != 0) := by
  simp only [State.flag, State.get_put_self _ _ _ h]

/-! ### Read latches -/

theorem State.latched_latch_self (s : State) (p : Port) (a v : Nat) : (s.latch p a v).latched p a = v % 4294967296 := by
  cases p <;> simp [State.latched, State.latch, portIdx, vmod, storeGet_storeSet_self]

theorem State.latched_latch_of_ne (s : State) (p : Port) (a b v : Nat) (h : b ≠ a) :
    (s.latch p a v).latched p b = s.latched p b := by
  cases p <;> simp [State.latched, State.latch, portIdx, vmod, storeGet_storeSet_of_ne _ _ _ _ h]

end Sys2Proof.Machine
end

