-- ==== Sys2Proof/Laws/Events.lean ====
section
/-! SUPPORT. What an event changes: the status bit of its group, and, where it is routed to the ring, what the ring's queue
shows. -/

namespace Sys2Proof.Machine

theorem State.reg_put_of_ne (s : State) (f : Field) (v a : Nat) (h : a ≠ f.addr) : (s.put f v).reg a = s.reg a := by
  simp only [State.put]
  rw [State.reg_setReg_of_ne _ _ _ _ h]

theorem State.ringEvent_reg (s : State) (n a : Nat) (h : a ∉ evtRegs n) : (s.ringEvent n).reg a = s.reg a := by
  simp only [evtRegs, List.mem_cons, not_or] at h
  obtain ⟨-, h2, h3, h4, -⟩ := h
  have e1 : F.RING_EVQ_DROPPED.addr = R.RING_EVQ := rfl
  have e2 : F.RING_EVT_EVQ_DROP.addr = R.RING_EVT := rfl
  have e3 : (evtStatus 231).addr = R.EVT_Gg_STATUS 7 := rfl
  unfold State.ringEvent
  split
  · rfl
  · split
    · rfl
    · simp only [State.send_reg, State.modFlt_reg, State.addSat]
      rw [State.reg_put_of_ne _ _ _ _ (e3 ▸ h2), State.reg_put_of_ne _ _ _ _ (e2 ▸ h4),
        State.reg_put_of_ne _ _ _ _ (e1 ▸ h3)]

theorem State.event_reg (s : State) (n a : Nat) (h : a ∉ evtRegs n) : (s.event n).reg a = s.reg a := by
  have h1 : a ≠ (evtStatus n).addr := by
    simp only [evtRegs, List.mem_cons, not_or] at h; exact h.1
  unfold State.event
  split
  · rfl
  · dsimp only
    split
    · rw [State.ringEvent_reg _ _ _ h, State.reg_put_of_ne _ _ _ _ h1]
    · exact State.reg_put_of_ne _ _ _ _ h1

theorem State.evtBit_reg (s : State) (f : Field) (n a : Nat) (h : a ∉ evtRegs n) (hf : a ≠ f.addr) :
    (s.evtBit f n).reg a = s.reg a := by
  rw [State.evtBit, State.event_reg _ _ _ h, State.reg_put_of_ne _ _ _ _ hf]

theorem State.event_get (s : State) (n : Nat) (g : Field) (h : g.addr ∉ evtRegs n) : (s.event n).get g = s.get g := by
  simp only [State.get, State.event_reg s n _ h]

theorem State.evtBit_get (s : State) (f : Field) (n : Nat) (g : Field) (h : g.addr ∉ evtRegs n) (hf : g.addr ≠ f.addr) :
    (s.evtBit f n).get g = s.get g := by
  simp only [State.get, State.evtBit_reg s f n _ h hf]

/-- The event registers lie in two blocks. -/
theorem not_evtRegs (a n : Nat) (hn : n < 256) (h : a < 0x0C00 ∨ 0x0D00 ≤ a ∧ a < 0x6800 ∨ 0x6900 ≤ a) : a ∉ evtRegs n := by
  simp only [evtRegs, R.EVT_Gg_STATUS, R.RING_EVQ, R.RING_EVT, List.mem_cons, List.not_mem_nil, or_false]
  omega

end Sys2Proof.Machine
end

