-- ==== Sys2Proof/Laws/Angle.lean ====
section
/-! SUPPORT. What the operations of the angle base leave as it was. -/

namespace Sys2Proof.Machine

theorem syncInc_get (s : State) (g : Field) (h : g.addr ≠ R.ANG_INC) : (syncInc s).get g = s.get g :=
  State.get_put_of_ne _ _ _ _ h
theorem syncPhaseOk_get (s : State) (g : Field) (h : g.addr ∉ evtRegs 20) (hg : g.lo + g.width ≤ 32)
    (h1 : g.addr ≠ R.ANG_STATUS ∨ g.lo + g.width ≤ F.ANG_STATUS_PHASE_OK.lo ∨ F.ANG_STATUS_PHASE_OK.lo + 1 ≤ g.lo) : (syncPhaseOk s).get g = s.get g := by
  have hp : ∀ v, (s.put F.ANG_STATUS_PHASE_OK v).get g = s.get g := by
    intro v
    rcases h1 with h1 | h1 | h1
    · exact State.get_put_of_ne _ _ _ _ h1
    · exact State.get_put_apart _ _ _ _ hg (.inr h1)
    · exact State.get_put_apart _ _ _ _ hg (.inl h1)
  unfold syncPhaseOk
  split
  · split
    · rfl
    · rw [State.event_get _ _ _ h, hp]
  · exact hp 0
theorem syncPhaseOk_ang (s : State) : (syncPhaseOk s).ang = s.ang := by
  unfold syncPhaseOk; split
  · split <;> simp
  · simp
theorem alignToEdge_get (s : State) (g : Field) (h : g.addr ∉ evtRegs 20) (hg : g.lo + g.width ≤ 32) (hi : g.addr ≠ R.ANG_INC)
    (h1 : g.addr ≠ R.ANG_STATUS ∨ g.lo + g.width ≤ F.ANG_STATUS_PHASE_OK.lo ∨ F.ANG_STATUS_PHASE_OK.lo + 1 ≤ g.lo) : (alignToEdge s).get g = s.get g := by
  unfold alignToEdge
  simp only [syncPhaseOk_get _ _ h hg h1, syncInc_get _ _ hi, State.modAng_get]
theorem alignToEdge_took (s : State) : (alignToEdge s).ang.took = s.ang.took := by
  simp [alignToEdge, syncPhaseOk_ang, syncInc, State.modAng]
theorem alignToEdge_sinceAcc (s : State) : (alignToEdge s).ang.sinceAcc = s.ang.sinceAcc := by
  simp [alignToEdge, syncPhaseOk_ang, syncInc, State.modAng]
theorem angleOf_eq (t : Stamp) : angleOf t = t.toNat % 1048576 := by simp [angleOf]
theorem angleOf_add (t : Stamp) (n : Nat) :
    angleOf (t + BitVec.ofNat 48 n) = (t.toNat + n % 281474976710656) % 281474976710656 % 1048576 := by
  simp [angleOf_eq, BitVec.toNat_add, BitVec.toNat_ofNat]
/-- R37: the next angle `a` has the angle `a`. -/
theorem angleOf_nextAngle (since : Stamp) (a : Nat) (h : a < 1048576) : angleOf (nextAngle since a) = a := by
  rw [nextAngle, angleOf_add, angleOf_eq]
  simp only [Nat.reducePow]
  rw [Nat.mod_mod_of_dvd _ (by decide : 1048576 ∣ 281474976710656), Nat.mod_eq_of_lt (a := _ % 1048576 + 1) (by omega)]
  omega
end Sys2Proof.Machine
end

