-- ==== Sys2Proof/Laws/Engine.lean ====
section
/-! SUPPORT. The command engine: the bytes of an SPI transaction, and the row of a command that every check passes. -/

namespace Sys2Proof.Machine

theorem beBytes_length (n v : Nat) : (beBytes n v).length = n := by simp [beBytes]

/-- What a transaction of four bytes or more does: what it leaves before its first byte acts, and what that byte makes of it. -/
theorem spiTransaction_long (s t : State) (b0 b1 b2 b3 : Byte) (body : List Byte) (extra : Nat) (tail : List Nat) (err : Bool)
    (h : spiSilent s = false) (ht : spiTail s (b0 :: b1 :: b2 :: b3 :: body) = (t, tail))
    (he : framingError (b0 :: b1 :: b2 :: b3 :: body) extra = err) :
    spiTransaction s (b0 :: b1 :: b2 :: b3 :: body) extra =
      if err then frameNotice (t.modEng fun e => { e with miso := toBytes (beBytes 4 (spiStatusWord t) ++ tail), frameErr := err })
        .host stBadFormat (natBytes (b0 :: b1 :: b2 :: b3 :: body)) true
      else
        match b0.toNat with
        | 0x5A => acceptPacket (t.modEng fun e => { e with miso := toBytes (beBytes 4 (spiStatusWord t) ++ tail), frameErr := err })
            .host (natBytes body)
        | 0xA5 => spiTake (t.modEng fun e => { e with miso := toBytes (beBytes 4 (spiStatusWord t) ++ tail), frameErr := err }) body.length
        | _ => t.modEng fun e => { e with miso := toBytes (beBytes 4 (spiStatusWord t) ++ tail), frameErr := err } := by
  have k : ∀ w, (beBytes 4 w).take (b0 :: b1 :: b2 :: b3 :: body).length = beBytes 4 w := by
    intro w; apply List.take_of_length_le; rw [beBytes_length]; simp
  simp only [spiTransaction, ht, he, k]
  rw [if_neg (by simp), if_neg (by simp [h])]
  rfl

theorem framingError_good (b0 : Byte) (body : List Byte) (h : b0 = 0 ∨ b0 = 0x5A ∨ b0 = 0xA5) :
    framingError (b0 :: 0 :: 0 :: 0 :: body) 0 = false := by
  rcases h with rfl | rfl | rfl <;> simp [framingError]

theorem framingError_bad (b0 b1 b2 b3 : Byte) (body : List Byte) (extra : Nat) (h : ¬(b1 = 0 ∧ b2 = 0 ∧ b3 = 0) ∨ extra ≠ 0) :
    framingError (b0 :: b1 :: b2 :: b3 :: body) extra = true := by
  simp only [framingError, Bool.or_eq_true, bne_iff_ne]
  rcases h with h | h
  · right
    simp only [List.drop_one, List.tail_cons, List.take_succ_cons, List.take_zero, List.any_cons, List.any_nil, Bool.or_false,
      Bool.or_eq_true, bne_iff_ne]
    by_cases h1 : b1 = 0
    · by_cases h2 : b2 = 0
      · right; right; intro h3; exact h ⟨h1, h2, h3⟩
      · right; left; exact h2
    · left; exact h1
  · left; left; right; exact h

theorem spiTail_write (s : State) (b1 b2 b3 : Byte) (body : List Byte) :
    spiTail s (0x5A :: b1 :: b2 :: b3 :: body) = (s, List.replicate body.length 0) := by
  simp [spiTail]

theorem spiTail_read (s : State) (b1 b2 b3 : Byte) (body : List Byte) (i : OutItem) (rest : List OutItem) (h : s.eng.outHost = i :: rest) :
    spiTail s (0xA5 :: b1 :: b2 :: b3 :: body) = (s, (itemBytes i ++ List.replicate body.length 0).take body.length) := by
  simp [spiTail, h]

theorem spiTail_status (s : State) : spiTail s [0, 0, 0, 0] = (s, []) := by
  simp [spiTail, freeBytes, State.drawn, below]

/-! ### The row of a command -/

/-- On a BOUNDED port a command runs when it starts. -/
theorem startCmd_bounded (s : State) (c : Cmd) (h : coherent s c.port = false) : startCmd s c = runCmd s c := by
  simp [startCmd, h]

/-- R389: a command that every check passes does the work of its opcode. -/
theorem runCmd_passes (s : State) (c : Cmd) (h : checksPass s c = true) : runCmd s c = runOpcode s c := by
  simp only [checksPass, Bool.and_eq_true, Bool.not_eq_true', Option.isNone_iff_eq_none] at h
  obtain ⟨⟨⟨⟨e, f⟩, g⟩, i⟩, j⟩ := h
  simp [runCmd, e, f, g, i, j]

theorem admitted_get (s : State) (c : Cmd) (f : Field) : (admitted s c).get f = s.get f := rfl

theorem portSecurity_admitted (s : State) (c : Cmd) (p : Port) : portSecurity (admitted s c) p = portSecurity s p := by
  have h1 : (admitted s c).security = s.security := rfl
  have h2 : sessionPort (admitted s c) = sessionPort s := by unfold sessionPort State.flag; rw [admitted_get]
  unfold portSecurity
  rw [h1, h2]

theorem checksPass_admitted (s : State) (c d : Cmd) : checksPass (admitted s c) d = checksPass s d := by
  have h1 : (admitted s c).mode = s.mode := rfl
  have h2 : twinRole (admitted s c) = twinRole s := rfl
  unfold checksPass
  rw [portSecurity_admitted, h1, h2]

theorem coherent_admitted (s : State) (c : Cmd) (p : Port) : coherent (admitted s c) p = coherent s p := by
  simp only [coherent, State.flag, admitted_get]

/-- A row of a command that is served starts it. -/
theorem commandRow_starts (s : State) (p : Port) (tag op : Nat) (params : List Word) (h : servedNow s p tag = true) :
    commandRow s p tag op params = startCmd (admitted s (rowCmd s p tag op params)) (rowCmd s p tag op params) := by
  simp only [servedNow, Bool.and_eq_true, Bool.not_eq_true', bne_iff_ne, ne_eq] at h
  obtain ⟨⟨⟨a, b⟩, c⟩, -⟩ := h
  have c' : (s.get F.SEC_STATE_DEBUG == 2) = false := by simpa using c
  unfold commandRow
  rw [if_neg (by simp only [a, b, c', Bool.not_true, Bool.false_or, Bool.false_and, Bool.false_eq_true, not_false_eq_true])]
  unfold admitted rowCmd
  dsimp only

/-- R389: a command that is served and that every check passes does the work of its opcode. -/
theorem commandRow_runs (s : State) (p : Port) (tag op : Nat) (params : List Word) (h1 : servedNow s p tag = true)
    (h2 : checksPass s (rowCmd s p tag op params) = true) :
    commandRow s p tag op params = runOpcode (admitted s (rowCmd s p tag op params)) (rowCmd s p tag op params) := by
  have d : coherent s (rowCmd s p tag op params).port = false := by
    simp only [servedNow, Bool.and_eq_true, Bool.not_eq_true'] at h1
    exact h1.2
  rw [commandRow_starts s p tag op params h1, startCmd_bounded _ _ (by rw [coherent_admitted]; exact d), runCmd_passes]
  rw [checksPass_admitted]; exact h2

end Sys2Proof.Machine
end

