-- ==== Sys2Proof/Laws/Rows.lean ====
section
/-! SUPPORT. Every command completes: its effect, and what follows it. One law for each constructor. -/

namespace Sys2Proof.Machine

theorem exec_referenceEdge (s : State) (spacing : Nat) (level : Bool) (held : Nat) :
    exec (.referenceEdge spacing level held) s =
      .next (settle s (if s.get F.ANG_CFG_SRC == 2 then s else syncAligned (edgeAndTally s (referencePin · spacing level held)))) := rfl

theorem exec_acquisitionComplete (s : State) (spacing : Nat) :
    exec (.acquisitionComplete spacing) s =
      .next (settle s (syncAligned (edgeAndTally s (acquisitionComplete · spacing)))) := rfl

theorem exec_holdoverEntry (s : State) :
    exec .holdoverEntry s =
      .next (settle s (syncAligned (holdoverEntry s))) := rfl

theorem exec_holdoverExpired (s : State) :
    exec .holdoverExpired s =
      .next (settle s (holdoverExpired s)) := rfl

theorem exec_angCfgWrite (s : State) (port : Port) (value : Word) :
    exec (.angCfgWrite port value) s =
      .next (settle s (writeRow s port R.ANG_CFG value.toNat)) := rfl

theorem exec_resel (s : State) (port : Port) :
    exec (.resel port) s =
      .next (settle s (writeRow s port R.ANG_CTRL (2 + 16 * s.get F.ANG_CTRL_HOP_IDX))) := rfl

theorem exec_hopStore (s : State) (port : Port) (hopIdx : Fin 8) :
    exec (.hopStore port hopIdx) s =
      .next (settle s (writeRow s port R.ANG_CTRL (1 + 16 * hopIdx))) := rfl

theorem exec_angIncWrite (s : State) (port : Port) (value : Word) :
    exec (.angIncWrite port value) s =
      .next (settle s (writeRow s port R.ANG_INC value.toNat)) := rfl

theorem exec_angFreeIncWrite (s : State) (port : Port) (value : Word) :
    exec (.angFreeIncWrite port value) s =
      .next (settle s (writeRow s port R.ANG_FREE_INC value.toNat)) := rfl

theorem exec_angPhaseWrite (s : State) (port : Port) (value : Word) :
    exec (.angPhaseWrite port value) s =
      .next (settle s (writeRow s port R.ANG_PHASE value.toNat)) := rfl

theorem exec_angStampRead (s : State) (port : Port) :
    exec (.angStampRead port) s =
      .next (settle s (readRow s port R.ANG_STAMP_HI)) := rfl

theorem exec_relock (s : State) (port : Port) :
    exec (.relock port) s =
      .next (settle s (writeRow s port R.CLK_CTRL 1)) := rfl

theorem exec_refReturn (s : State) (port : Port) :
    exec (.refReturn port) s =
      .next (settle s (writeRow s port R.CLK_CTRL 2)) := rfl

theorem exec_pllLossOfLock (s : State) :
    exec .pllLossOfLock s =
      .next (settle s (lossOfLock s)) := rfl

theorem exec_systemClockOverspeed (s : State) :
    exec .systemClockOverspeed s =
      .next (settle s (overspeed s)) := rfl

theorem exec_systemPllLock (s : State) :
    exec .systemPllLock s =
      .next (settle s (pllLock s)) := rfl

theorem exec_fallbackReturn (s : State) :
    exec .fallbackReturn s =
      .next (settle s (fallbackReturn s)) := rfl

theorem exec_bandSearchRetry (s : State) :
    exec .bandSearchRetry s =
      .next (settle s (bandSearchRetry s)) := rfl

theorem exec_fallbackMeasure (s : State) (freq : BitVec 16) :
    exec (.fallbackMeasure freq) s =
      .next (settle s (fallbackMeasure s freq.toNat)) := rfl

theorem exec_xinFailure (s : State) (symbols : BitVec 3) :
    exec (.xinFailure symbols) s =
      .next (settle s (xinFailure s symbols)) := rfl

theorem exec_tclkReturn (s : State) (us : Nat) :
    exec (.tclkReturn us) s =
      .next (settle s (tclkReturn s us)) := rfl

theorem exec_serdesPllLossOfLock (s : State) :
    exec .serdesPllLossOfLock s =
      .next (settle s (serdesLoss s)) := rfl

theorem exec_guardRawChange (s : State) (rail : Fin 64) (sense : Int) :
    exec (.guardRawChange rail sense) s =
      .next (settle s (guardRawChange s rail sense)) := rfl

theorem exec_guardFilterAssert (s : State) (rail : Fin 64) (uv spare : Bool) (edges : Nat) :
    exec (.guardFilterAssert rail uv spare edges) s =
      .next (settle s (filterAssert s rail uv spare edges)) := rfl

theorem exec_guardFilterDeassert (s : State) (rail : Fin 64) (uv spare : Bool) (edges : Nat) :
    exec (.guardFilterDeassert rail uv spare edges) s =
      .next (settle s (latchCondsOf (filterDeassert s rail uv spare edges) rail)) := rfl

theorem exec_guardThreshWrite (s : State) (rail : Fin 64) :
    exec (.guardThreshWrite rail) s =
      .next (settle s (latchCondsOf (guardThreshWrite s rail) rail)) := rfl

theorem exec_guardChangeoverEnd (s : State) (rail : Fin 64) :
    exec (.guardChangeoverEnd rail) s =
      .next (settle s (guardChangeoverEnd s rail)) := rfl

theorem exec_senseCommonModeError (s : State) (rail : Fin 64) :
    exec (.senseCommonModeError rail) s =
      .next (settle s (commonModeError s rail)) := rfl

theorem exec_senseCommonModeClear (s : State) (rail : Fin 64) :
    exec (.senseCommonModeClear rail) s =
      .next (settle s (commonModeClear s rail)) := rfl

theorem exec_pgFilterChange (s : State) (rail : Fin 64) (level : Bool) (edges : Nat) :
    exec (.pgFilterChange rail level edges) s =
      .next (settle s (latchCondsOf (pgFilterChange s rail level edges) rail)) := rfl

theorem exec_enReadbackMismatch (s : State) (rail : Fin 64) (level : Bool) (edges : Nat) :
    exec (.enReadbackMismatch rail level edges) s =
      .next (settle s (enReadback s rail level edges)) := rfl

theorem exec_enSet (s : State) (port : Port) (rail : Fin 64) (off : Bool) :
    exec (.enSet port rail off) s =
      .next (settle s (if off then latchOff (writeRow s port (R.RAILn_EN_CTRL rail) 3) rail else writeRow s port (R.RAILn_EN_CTRL rail) 1)) := rfl

theorem exec_enClr (s : State) (port : Port) (rail : Fin 64) :
    exec (.enClr port rail) s =
      .next (settle s (writeRow s port (R.RAILn_EN_CTRL rail) 2)) := rfl

theorem exec_guardProofStart (s : State) (rail : Fin 64) (uv : Bool) :
    exec (.guardProofStart rail uv) s =
      .next (settle s (proofStart s rail uv)) := rfl

theorem exec_guardProofSample (s : State) (rail : Fin 64) (asserted : Bool) :
    exec (.guardProofSample rail asserted) s =
      .next (settle s (proofSample s rail asserted)) := rfl

theorem exec_guardProofEnd (s : State) (rail : Fin 64) :
    exec (.guardProofEnd rail) s =
      .next (settle s (proofEnd s rail)) := rfl

theorem exec_substitutionStart (s : State) (checkOk : BitVec 8) :
    exec (.substitutionStart checkOk) s =
      .next (settle s (substStart s checkOk)) := rfl

theorem exec_substitutionStep (s : State) :
    exec .substitutionStep s =
      .next (settle s (substStep s)) := rfl

theorem exec_fineSample (s : State) (rail : Fin 64) (raw : Int) (back : Bool) :
    exec (.fineSample rail raw back) s =
      .next (settle s (railSample s rail raw back)) := rfl

theorem exec_fineCfgWrite (s : State) (port : Port) (rail : Fin 64) (value : Word) :
    exec (.fineCfgWrite port rail value) s =
      .next (settle s (writeRow s port (R.RAILn_FINE_CFG rail) value.toNat)) := rfl

theorem exec_fineRestart (s : State) (rail : Fin 64) :
    exec (.fineRestart rail) s =
      .next (settle s (fineRestart s rail)) := rfl

theorem exec_fineModulatorOverload (s : State) (rail : Fin 64) (negative : Bool) :
    exec (.fineModulatorOverload rail negative) s =
      .next (settle s (fineOverload s rail negative)) := rfl

theorem exec_fineWindowWrite (s : State) (port : Port) (rail : Fin 64) (hi : Bool) (value : Word) :
    exec (.fineWindowWrite port rail hi value) s =
      .next (settle s (writeRow s port (if hi then R.RAILn_FINE_WIN_HI rail else R.RAILn_FINE_WIN_LO rail) value.toNat)) := rfl

theorem exec_fineResultRead (s : State) (port : Port) (rail : Fin 64) :
    exec (.fineResultRead port rail) s =
      .next (settle s (readRow s port (R.RAILn_FINE_RESULT rail))) := rfl

theorem exec_calZero (s : State) (port : Port) (tag : BitVec 7) (params : List Word) :
    exec (.calZero port tag params) s =
      .next (settle s (commandRow s port tag.toNat 0x0200 params)) := rfl

theorem exec_calFull (s : State) (port : Port) (tag : BitVec 7) (params : List Word) :
    exec (.calFull port tag params) s =
      .next (settle s (commandRow s port tag.toNat 0x0201 params)) := rfl

theorem exec_calibrationAverageDone (s : State) (rail : Option (Fin 64)) :
    exec (.calibrationAverageDone rail) s =
      .next (settle s (match rail with | some n => railAverageDone s n | none => poolAverageDone s)) := rfl

theorem exec_calibrationCommit (s : State) (rail : Option (Fin 64)) :
    exec (.calibrationCommit rail) s =
      .next (settle s (match rail with | some n => railCalCommit s n | none => poolCalCommit s)) := rfl

theorem exec_calCoeffWrite (s : State) (port : Port) (rail : Fin 64) (gain : Bool) (value : Word) :
    exec (.calCoeffWrite port rail gain value) s =
      .next (settle s (writeRow s port (if gain then R.RAILn_CAL_GAIN rail else R.RAILn_CAL_OFFSET rail) value.toNat)) := rfl

theorem exec_benchStart (s : State) (port : Port) (bench : Fin 8) :
    exec (.benchStart port bench) s =
      .next (settle s (writeRow s port (R.BENCHb_CTRL bench) 1)) := rfl

theorem exec_benchStop (s : State) (port : Port) (bench : Fin 8) :
    exec (.benchStop port bench) s =
      .next (settle s (writeRow s port (R.BENCHb_CTRL bench) 2)) := rfl

theorem exec_benchTrig (s : State) (port : Port) (bench : Fin 8) :
    exec (.benchTrig port bench) s =
      .next (settle s (writeRow s port (R.BENCHb_CTRL bench) 4)) := rfl

theorem exec_benchItrig (s : State) (port : Port) (bench : Fin 8) :
    exec (.benchItrig port bench) s =
      .next (settle s (writeRow s port (R.BENCHb_CTRL bench) 8)) := rfl

theorem exec_pwmSyncEdge (s : State) (sel : Fin 4) (level : Bool) :
    exec (.pwmSyncEdge sel level) s =
      .next (settle s (pwmSyncEdge s sel level)) := rfl

theorem exec_benchAngleTrigger (s : State) (bench : Fin 8) (injected : Bool) :
    exec (.benchAngleTrigger bench injected) s =
      .next (settle s (benchAngle s bench injected)) := rfl

theorem exec_triggerDelayEnd (s : State) (bench : Fin 8) (injected : Bool) :
    exec (.triggerDelayEnd bench injected) s =
      .next (settle s (delayEnd s bench injected)) := rfl

theorem exec_poolSample (s : State) (conv : Fin 10) (raw : BitVec 24) (overload cmOut : Bool) :
    exec (.poolSample conv raw overload cmOut) s =
      .next (settle s (poolSample s conv raw.toInt overload cmOut)) := rfl

theorem exec_entryComplete (s : State) (conv : Fin 10) :
    exec (.entryComplete conv) s =
      .next (settle s (entryComplete s conv)) := rfl

theorem exec_benchLayoutWrite (s : State) (port : Port) (value : Word) :
    exec (.benchLayoutWrite port value) s =
      .next (settle s (writeRow s port R.BENCH_LAYOUT value.toNat)) := rfl

theorem exec_poolResultRead (s : State) (port : Port) (address : Nat) :
    exec (.poolResultRead port address) s =
      .next (settle s (if isPoolResult address then readRow s port address else s)) := rfl

theorem exec_poolCalWrite (s : State) (port : Port) (gain : Bool) (value : Word) :
    exec (.poolCalWrite port gain value) s =
      .next (settle s (writeRow s port (if gain then R.POOL_CAL_GAIN else R.POOL_CAL_OFFSET) value.toNat)) := rfl

theorem exec_holdupPoolConversion (s : State) (raw : BitVec 24) (overload cmOut : Bool) :
    exec (.holdupPoolConversion raw overload cmOut) s =
      .next (settle s (holdupConversion s raw.toInt overload cmOut)) := rfl

theorem exec_converterSubstitution (s : State) :
    exec .converterSubstitution s =
      .next (settle s (convSubst s)) := rfl

theorem exec_referenceWatch (s : State) (diff : Int) :
    exec (.referenceWatch diff) s =
      .next (settle s (referenceWatch s diff)) := rfl

theorem exec_referenceRatioRecord (s : State) :
    exec .referenceRatioRecord s =
      .next (settle s (referenceRecord s)) := rfl

theorem exec_referenceTriage (s : State) :
    exec .referenceTriage s =
      .next (settle s (referenceTriage s)) := rfl

theorem exec_assayRoundStart (s : State) :
    exec .assayRoundStart s =
      .next (settle s (roundStart s (assayStim s))) := rfl

theorem exec_assayConversionComplete (s : State) (conv : Fin 10) :
    exec (.assayConversionComplete conv) s =
      .next (settle s (conversionComplete s conv (assayStim s))) := rfl

theorem exec_assayRoundEnd (s : State) :
    exec .assayRoundEnd s =
      .next (settle s (roundEnd s)) := rfl

theorem exec_converterTriage (s : State) :
    exec .converterTriage s =
      .next (settle s (converterTriage s)) := rfl

theorem exec_railTriage (s : State) :
    exec .railTriage s =
      .next (settle s (railTriage s)) := rfl

theorem exec_spareSliceCheck (s : State) (spare : Fin 8) (raw0 raw1 : Int) :
    exec (.spareSliceCheck spare raw0 raw1) s =
      .next (settle s (spareCheck s spare raw0 raw1)) := rfl

theorem exec_sramCorrectedError (s : State) (row : Nat) :
    exec (.sramCorrectedError row) s =
      .next (settle s (sramError s row)) := rfl

theorem exec_quireUp (s : State) (port : Port) (quire : Fin 16) :
    exec (.quireUp port quire) s =
      .next (settle s (writeRow s port (R.QUIREq_CTRL quire) 1)) := rfl

theorem exec_quireDown (s : State) (port : Port) (quire : Fin 16) :
    exec (.quireDown port quire) s =
      .next (settle s (writeRow s port (R.QUIREq_CTRL quire) 2)) := rfl

theorem exec_quireCtrlResume (s : State) (port : Port) (quire : Fin 16) :
    exec (.quireCtrlResume port quire) s =
      .next (settle s (writeRow s port (R.QUIREq_CTRL quire) 4)) := rfl

theorem exec_seqCtrlUp (s : State) (port : Port) (mask : BitVec 16) :
    exec (.seqCtrlUp port mask) s =
      .next (settle s (writeRow s port R.SEQ_CTRL mask.toNat)) := rfl

theorem exec_seqCtrlDown (s : State) (port : Port) (mask : BitVec 16) :
    exec (.seqCtrlDown port mask) s =
      .next (settle s (writeRow s port R.SEQ_CTRL (65536 * mask.toNat))) := rfl

theorem exec_quireMembersWrite (s : State) (port : Port) (quire : Fin 16) (hi : Bool) (value : Word) :
    exec (.quireMembersWrite port quire hi value) s =
      .next (settle s (writeRow s port (if hi then R.QUIREq_MEMBERS_HI quire else R.QUIREq_MEMBERS_LO quire) value.toNat)) := rfl

theorem exec_stepAction (s : State) (quire : Fin 16) (off : BitVec 64) :
    exec (.stepAction quire off) s =
      .next (settle s (stepAction s quire off.toNat)) := rfl

theorem exec_angleGateOpen (s : State) (quire : Fin 16) (off : BitVec 64) :
    exec (.angleGateOpen quire off) s =
      .next (settle s (gateOpen s quire off.toNat)) := rfl

theorem exec_gateTimeout (s : State) (quire : Fin 16) (off : BitVec 64) :
    exec (.gateTimeout quire off) s =
      .next (settle s (gateTimeout s quire off.toNat)) := rfl

theorem exec_settleEnd (s : State) (quire : Fin 16) :
    exec (.settleEnd quire) s =
      .next (settle s (settleEnd s quire)) := rfl

theorem exec_stepComplete (s : State) (quire : Fin 16) :
    exec (.stepComplete quire) s =
      .next (settle s (stepComplete s quire)) := rfl

theorem exec_stepTimeout (s : State) (quire : Fin 16) :
    exec (.stepTimeout quire) s =
      .next (settle s (stepTimeout s quire)) := rfl

theorem exec_retryOffEnd (s : State) (quire : Fin 16) (off : BitVec 64) :
    exec (.retryOffEnd quire off) s =
      .next (settle s (retryOffEnd s quire off.toNat)) := rfl

theorem exec_railRetryOffEnd (s : State) (rail : Fin 64) (off : Bool) :
    exec (.railRetryOffEnd rail off) s =
      .next (settle s (railRetryOffEnd s rail off)) := rfl

theorem exec_railRetryTimeout (s : State) (rail : Fin 64) :
    exec (.railRetryTimeout rail) s =
      .next (settle s (railRetryTimeout s rail)) := rfl

theorem exec_railRetryDone (s : State) (rail : Fin 64) :
    exec (.railRetryDone rail) s =
      .next (settle s (railRetryDone s rail)) := rfl

theorem exec_retryBudgetRefill (s : State) (rail : Fin 64) :
    exec (.retryBudgetRefill rail) s =
      .next (settle s (budgetRefill s rail)) := rfl

theorem exec_quireShut (s : State) (quire : Fin 16) :
    exec (.quireShut quire) s =
      .next (settle s (quireShutOrder s quire)) := rfl

theorem exec_shutAll (s : State) :
    exec .shutAll s =
      .next (settle s (shutAllOrder s)) := rfl

theorem exec_hallmarkDownOrderStart (s : State) :
    exec .hallmarkDownOrderStart s =
      .next (settle s (hallmarkOrder s)) := rfl

theorem exec_hallmarkStageEnd (s : State) :
    exec .hallmarkStageEnd s =
      .next (settle s (hallmarkStageEnd s)) := rfl

theorem exec_barrierReleaseMatch (s : State) (quire : Fin 16) :
    exec (.barrierReleaseMatch quire) s =
      .next (settle s (barrierMatch s quire)) := rfl

theorem exec_margStart (s : State) (port : Port) (dir : BitVec 2) (rail : Fin 64) :
    exec (.margStart port dir rail) s =
      .next (settle s (writeRow s port R.MARG_CTRL (F.MARG_CTRL_START.insert (F.MARG_CTRL_DIR.insert rail dir.toNat) 1))) := rfl

theorem exec_margAbort (s : State) (port : Port) (rail : Fin 64) :
    exec (.margAbort port rail) s =
      .next (settle s (writeRow s port R.MARG_CTRL (F.MARG_CTRL_ABORT.insert rail 1))) := rfl

theorem exec_marginBaselineDone (s : State) (rail : Fin 64) :
    exec (.marginBaselineDone rail) s =
      .next (settle s (baselineDone s rail)) := rfl

theorem exec_marginCodeArrived (s : State) (rail : Fin 64) :
    exec (.marginCodeArrived rail) s =
      .next (settle s (codeArrived s rail)) := rfl

theorem exec_marginDwellEnd (s : State) (rail : Fin 64) :
    exec (.marginDwellEnd rail) s =
      .next (settle s (dwellEnd s rail)) := rfl

theorem exec_marginMeasureDone (s : State) (rail : Fin 64) :
    exec (.marginMeasureDone rail) s =
      .next (settle s (measureDone s rail)) := rfl

theorem exec_marginReturnDone (s : State) (rail : Fin 64) :
    exec (.marginReturnDone rail) s =
      .next (settle s (returnDone s rail)) := rfl

theorem exec_marginReturnTimeout (s : State) (rail : Fin 64) :
    exec (.marginReturnTimeout rail) s =
      .next (settle s (returnTimeout s rail)) := rfl

theorem exec_mrgComplianceLoss (s : State) (rail : Fin 64) :
    exec (.mrgComplianceLoss rail) s =
      .next (settle s (complianceLoss s rail)) := rfl

theorem exec_sndStart (s : State) (port : Port) :
    exec (.sndStart port) s =
      .next (settle s (writeRow s port R.SND_CTRL 1)) := rfl

theorem exec_sndStop (s : State) (port : Port) :
    exec (.sndStop port) s =
      .next (settle s (writeRow s port R.SND_CTRL 2)) := rfl

theorem exec_soundingTargetMatch (s : State) :
    exec .soundingTargetMatch s =
      .next (settle s (soundingMatch s)) := rfl

theorem exec_soundingDcStep (s : State) :
    exec .soundingDcStep s =
      .next (settle s (dcStep s)) := rfl

theorem exec_soundingTapSample (s : State) (rail : Fin 64) (raw : BitVec 24) (clip : Bool) :
    exec (.soundingTapSample rail raw clip) s =
      .next (settle s (tapSample s rail raw.toInt clip)) := rfl

theorem exec_soundingSettleEnd (s : State) :
    exec .soundingSettleEnd s =
      .next (settle s (settleDone s)) := rfl

theorem exec_soundingPointEnd (s : State) (rail : Fin 64) :
    exec (.soundingPointEnd rail) s =
      .next (settle s (pointEnd s rail)) := rfl

theorem exec_mlsPeriodEnd (s : State) (rail : Fin 64) :
    exec (.mlsPeriodEnd rail) s =
      .next (settle s (mlsPeriod s rail)) := rfl

theorem exec_soundingComplete (s : State) :
    exec .soundingComplete s =
      .next (settle s (soundingComplete s)) := rfl

theorem exec_soundingPauseTimeout (s : State) :
    exec .soundingPauseTimeout s =
      .next (settle s (pauseTimeout s)) := rfl

theorem exec_archiveWriteDone (s : State) :
    exec .archiveWriteDone s =
      .next (settle s (syncNvm (archiveDone s))) := rfl

theorem exec_pollRoundStart (s : State) (pm : Fin 4) :
    exec (.pollRoundStart pm) s =
      .next (settle s (pollRoundStart s pm)) := rfl

theorem exec_smbusTransactionDone (s : State) (pm : Fin 4) (result : SmbResult) (data : BitVec 16) (alertLow : Bool) :
    exec (.smbusTransactionDone pm result data alertLow) s =
      .next (settle s (transEnd s pm result data.toNat alertLow)) := rfl

theorem exec_smbusRetry (s : State) (pm : Fin 4) :
    exec (.smbusRetry pm) s =
      .next (settle s (pmRetry s pm)) := rfl

theorem exec_smbusTimeout (s : State) (pm : Fin 4) (alertLow : Bool) :
    exec (.smbusTimeout pm alertLow) s =
      .next (settle s (transEnd s pm .timeout 0 alertLow)) := rfl

theorem exec_busRecovery (s : State) (pm : Fin 4) (freed : Bool) :
    exec (.busRecovery pm freed) s =
      .next (settle s (recoverBus s pm freed)) := rfl

theorem exec_smbalertAssert (s : State) (pm : Fin 4) :
    exec (.smbalertAssert pm) s =
      .next (settle s (alertAssert s pm)) := rfl

theorem exec_smbalertStuckClear (s : State) (pm : Fin 4) :
    exec (.smbalertStuckClear pm) s =
      .next (settle s (alertStuckClear s pm)) := rfl

theorem exec_lostEntryPoll (s : State) (entry : Fin 128) :
    exec (.lostEntryPoll entry) s =
      .next (settle s (lostEntryPoll s entry)) := rfl

theorem exec_pmXferStart (s : State) (port : Port) (value : Word) :
    exec (.pmXferStart port value) s =
      .next (settle s (writeRow s port R.PM_XFER_CTRL (F.PM_XFER_CTRL_START.insert value.toNat 1))) := rfl

theorem exec_partnerCfgWrite (s : State) (port : Port) (entry : Fin 128) (value : Word) :
    exec (.partnerCfgWrite port entry value) s =
      .next (settle s (writeRow s port (R.PMPk_CFG entry) value.toNat)) := rfl

theorem exec_tallyRegWrite (s : State) (port : Port) (counter : Fin 32) (reg : Fin 3) (value : Word) :
    exec (.tallyRegWrite port counter reg value) s =
      .next (settle s (writeRow s port (match reg with | 0 => R.Tn_CMP counter | 1 => R.Tn_INTV counter | 2 => R.Tn_CFG counter) value.toNat)) := rfl

theorem exec_tallyWriteEffect (s : State) :
    exec .tallyWriteEffect s =
      .next (settle s (tallyEffectEdge 4 s)) := rfl

theorem exec_tallyMatch (s : State) (counter : Fin 32) :
    exec (.tallyMatch counter) s =
      .next (settle s (tallyMatchEdge s counter)) := rfl

theorem exec_tallyWrap (s : State) (counter : Fin 32) :
    exec (.tallyWrap counter) s =
      .next (settle s (tallyCarryEdge s counter)) := rfl

theorem exec_capEdge (s : State) (cap : Fin 8) (level : Bool) :
    exec (.capEdge cap level) s =
      .next (settle s (capEdgeTick s cap level)) := rfl

theorem exec_tallyCapRead (s : State) (port : Port) (counter : Fin 32) :
    exec (.tallyCapRead port counter) s =
      .next (settle s (readRow s port (R.Tn_CAP counter))) := rfl

theorem exec_tallyCountRead (s : State) (port : Port) (counter : Fin 32) :
    exec (.tallyCountRead port counter) s =
      .next (settle s (readRow s port (R.Tn_COUNT counter))) := rfl

theorem exec_evtOutPulseEnd (s : State) (output : Fin 4) :
    exec (.evtOutPulseEnd output) s =
      .next (settle s (outPulseEnd s output)) := rfl

theorem exec_faultMessage (s : State) (corrupt : Bool) :
    exec (.faultMessage corrupt) s =
      .next (settle s (if collectorRuns s then faultMessage s corrupt else s)) := rfl

theorem exec_condChange (s : State) (source : Fin 96) :
    exec (.condChange source) s =
      .next (settle s (if collectorRuns s then condChange s source else s)) := rfl

theorem exec_quietExpiry (s : State) (source : Fin 96) :
    exec (.quietExpiry source) s =
      .next (settle s (if collectorRuns s then quietExpiry s source else s)) := rfl

theorem exec_escalationWindowEnd (s : State) (source : Fin 96) :
    exec (.escalationWindowEnd source) s =
      .next (settle s (if collectorRuns s then escWindowEnd s source else s)) := rfl

theorem exec_reactionDispatch (s : State) (upTo : Fin 4) :
    exec (.reactionDispatch upTo) s =
      .next (settle s (if collectorRuns s then reactionDispatch s upTo else s)) := rfl

theorem exec_shadowExpiry (s : State) (list : Fin 8) :
    exec (.shadowExpiry list) s =
      .next (settle s (if collectorRuns s then shadowExpiry s list else s)) := rfl

theorem exec_fltClearWrite (s : State) (port : Port) (value : Word) :
    exec (.fltClearWrite port value) s =
      .next (settle s (writeRow s port R.FLT_CLEAR value.toNat)) := rfl

theorem exec_fltInjGo (s : State) (port : Port) (value : Word) :
    exec (.fltInjGo port value) s =
      .next (settle s (writeRow s port R.FLT_INJ (F.FLT_INJ_GO.insert value.toNat 1))) := rfl

theorem exec_recoveryCounterWrite (s : State) :
    exec .recoveryCounterWrite s =
      .next (settle s (recoveryWrite s)) := rfl

theorem exec_twinLinkHeartbeatSend (s : State) :
    exec .twinLinkHeartbeatSend s =
      .next (settle s (linkBeat s)) := rfl

theorem exec_twinLinkDown (s : State) :
    exec .twinLinkDown s =
      .next (settle s (linkDown s)) := rfl

theorem exec_twinLinkRetrain (s : State) (frames : Nat) :
    exec (.twinLinkRetrain frames) s =
      .next (settle s (linkRetrain s frames)) := rfl

theorem exec_latchMirrorFrame (s : State) (latches : BitVec 64) :
    exec (.latchMirrorFrame latches) s =
      .next (settle s (latchFrame s latches)) := rfl

theorem exec_dynamicImage (s : State) (image : DynImage) :
    exec (.dynamicImage image) s =
      .next (settle s (dynFrame s image)) := rfl

theorem exec_dynamicImageSend (s : State) :
    exec .dynamicImageSend s =
      .next (settle s (dynSend s)) := rfl

theorem exec_configImage (s : State) (image : CfgImage) :
    exec (.configImage image) s =
      .next (settle s (configFrame s image)) := rfl

theorem exec_configImageSend (s : State) :
    exec .configImageSend s =
      .next (settle s (configSend s)) := rfl

theorem exec_mirrorStale (s : State) :
    exec .mirrorStale s =
      .next (settle s (mirrorStale s)) := rfl

theorem exec_handoverFrame (s : State) (latches : BitVec 64) :
    exec (.handoverFrame latches) s =
      .next (settle s (handoverFrame s latches)) := rfl

theorem exec_takeoverFrame (s : State) :
    exec .takeoverFrame s =
      .next (settle s (takeoverFrame s)) := rfl

theorem exec_takeoverWaitEnd (s : State) :
    exec .takeoverWaitEnd s =
      .next (settle s (takeoverWaitEnd s)) := rfl

theorem exec_drivingFrame (s : State) :
    exec .drivingFrame s =
      .next (settle s (drivingFrame s)) := rfl

theorem exec_drivingTimeout (s : State) :
    exec .drivingTimeout s =
      .next (settle s (drivingTimeout s)) := rfl

theorem exec_handoverTimeout (s : State) :
    exec .handoverTimeout s =
      .next (settle s (handoverTimeout s)) := rfl

theorem exec_twinRingHeartbeatSend (s : State) :
    exec .twinRingHeartbeatSend s =
      .next (settle s (ringBeat s)) := rfl

theorem exec_wardenAckTimeout (s : State) :
    exec .wardenAckTimeout s =
      .next (settle s (ackTimeout s)) := rfl

theorem exec_hbAck (s : State) (port : RingPort) (cell : RingCell) :
    exec (.hbAck port cell) s =
      .next (settle s (twinRow s port cell 0xD (ackCell · cell))) := rfl

theorem exec_token (s : State) (port : RingPort) (cell : RingCell) :
    exec (.token port cell) s =
      .next (settle s (twinRow s port cell 0xB fun s => if payNat cell 0 1 = 3 then s else tokenCell s cell)) := rfl

theorem exec_heartbeat (s : State) (port : RingPort) (cell : RingCell) :
    exec (.heartbeat port cell) s =
      .next (settle s (twinRow s port cell 0xC (heartbeatCell · cell))) := rfl

theorem exec_wardenJudgment (s : State) :
    exec .wardenJudgment s =
      .next (settle s (judgeAll s)) := rfl

theorem exec_wdnPairNodesWrite (s : State) (port : Port) (pair : Fin 8) (value : Word) :
    exec (.wdnPairNodesWrite port pair value) s =
      .next (settle s (writeRow s port (R.WDN_PAIRk_NODES pair) value.toNat)) := rfl

theorem exec_wdnCfgWrite (s : State) (port : Port) (value : Word) :
    exec (.wdnCfgWrite port value) s =
      .next (settle s (writeRow s port R.WDN_CFG value.toNat)) := rfl

theorem exec_snapEdge (s : State) (level : Bool) :
    exec (.snapEdge level) s =
      .next (settle s (snapEdge s level)) := rfl

theorem exec_folioLatch (s : State) :
    exec .folioLatch s =
      .next (settle s ((latchFolio s).1)) := rfl

theorem exec_folioTargetMatch (s : State) :
    exec .folioTargetMatch s =
      .next (settle s (targetMatch s)) := rfl

theorem exec_folioTrig (s : State) (port : Port) :
    exec (.folioTrig port) s =
      .next (settle s (writeRow s port R.FOLIO_CTRL (2 ^ 31))) := rfl

theorem exec_folioCtrlArm (s : State) (port : Port) :
    exec (.folioCtrlArm port) s =
      .next (settle s (writeRow s port R.FOLIO_CTRL (2 ^ 30))) := rfl

theorem exec_folioDisarm (s : State) (port : Port) :
    exec (.folioDisarm port) s =
      .next (settle s (writeRow s port R.FOLIO_CTRL (2 ^ 29))) := rfl

theorem exec_folioCtrlRelease (s : State) (port : Port) (buffers : BitVec 4) :
    exec (.folioCtrlRelease port buffers) s =
      .next (settle s (writeRow s port R.FOLIO_CTRL buffers.toNat)) := rfl

theorem exec_folioDataRead (s : State) (port : Port) :
    exec (.folioDataRead port) s =
      .next (settle s (readRow s port R.FOLIO_DATA)) := rfl

theorem exec_ledgerStage (s : State) :
    exec .ledgerStage s =
      .next (settle s (ledgerStage s)) := rfl

theorem exec_nvmProgramUnitDone (s : State) (ok : Bool) :
    exec (.nvmProgramUnitDone ok) s =
      .next (settle s (unitDone s ok)) := rfl

theorem exec_nvmEraseDone (s : State) (ok : Bool) :
    exec (.nvmEraseDone ok) s =
      .next (settle s (eraseDone s ok)) := rfl

theorem exec_nvmUncorrectableRead (s : State) (address : BitVec 21) :
    exec (.nvmUncorrectableRead address) s =
      .next (settle s (uncorrectable s address.toNat)) := rfl

theorem exec_deviceLogWrite (s : State) :
    exec .deviceLogWrite s =
      .next (settle s (deviceLogWrite s)) := rfl

theorem exec_nvmStoreWrite (s : State) (port : Port) (config cal : Bool) :
    exec (.nvmStoreWrite port config cal) s =
      .next (settle s (writeRow s port R.NVM_STORE ((if config then 1 else 0) + (if cal then 2 else 0)))) := rfl

theorem exec_ldgRdDataRead (s : State) (port : Port) :
    exec (.ldgRdDataRead port) s =
      .next (settle s (readRow s port R.LDG_RD_DATA)) := rfl

theorem exec_ldgSecWrite (s : State) (port : Port) (value : Word) :
    exec (.ldgSecWrite port value) s =
      .next (settle s (writeRow s port R.LDG_SEC value.toNat)) := rfl

theorem exec_spiStatus (s : State) (mosi : List Byte) (extra : Fin 8) :
    exec (.spiStatus mosi extra) s =
      .next (settle s (spiTransaction s mosi extra)) := rfl

theorem exec_spiWrite (s : State) (mosi : List Byte) (extra : Fin 8) :
    exec (.spiWrite mosi extra) s =
      .next (settle s (spiTransaction s mosi extra)) := rfl

theorem exec_spiRead (s : State) (mosi : List Byte) (extra : Fin 8) :
    exec (.spiRead mosi extra) s =
      .next (settle s (spiTransaction s mosi extra)) := rfl

theorem exec_commandExecute (s : State) :
    exec .commandExecute s =
      .next (settle s (executeNext s)) := rfl

theorem exec_epochBoundary (s : State) :
    exec .epochBoundary s =
      .next (settle s (epochBoundary s)) := rfl

theorem exec_deliveryModeWrite (s : State) (port : Port) (target : Port) (value : Word) :
    exec (.deliveryModeWrite port target value) s =
      .next (settle s (writeRow s port (R.CMD_Pp_CFG (portIdx target)) value.toNat)) := rfl

theorem exec_deliveryModeSwitch (s : State) (port : Port) :
    exec (.deliveryModeSwitch port) s =
      .next (settle s (modeSwitch s port)) := rfl

theorem exec_lockstepMismatch (s : State) :
    exec .lockstepMismatch s =
      .next (settle s (lockstepMismatch s)) := rfl

theorem exec_engineWatchdog (s : State) :
    exec .engineWatchdog s =
      .next (settle s (engineWatchdog s)) := rfl

theorem exec_engineRestartComplete (s : State) :
    exec .engineRestartComplete s =
      .next (settle s (restartComplete s)) := rfl

theorem exec_status (s : State) (port : Port) (tag : BitVec 7) (params : List Word) :
    exec (.status port tag params) s =
      .next (settle s (commandRow s port tag.toNat 0x0001 params)) := rfl

theorem exec_echo (s : State) (port : Port) (tag : BitVec 7) (params : List Word) :
    exec (.echo port tag params) s =
      .next (settle s (commandRow s port tag.toNat 0x0002 params)) := rfl

theorem exec_colophonRead (s : State) (port : Port) (tag : BitVec 7) (params : List Word) :
    exec (.colophonRead port tag params) s =
      .next (settle s (commandRow s port tag.toNat 0x0003 params)) := rfl

theorem exec_regRead (s : State) (port : Port) (tag : BitVec 7) (params : List Word) :
    exec (.regRead port tag params) s =
      .next (settle s (commandRow s port tag.toNat 0x0010 params)) := rfl

theorem exec_regReadBlock (s : State) (port : Port) (tag : BitVec 7) (params : List Word) :
    exec (.regReadBlock port tag params) s =
      .next (settle s (commandRow s port tag.toNat 0x0011 params)) := rfl

theorem exec_regWrite (s : State) (port : Port) (tag : BitVec 7) (params : List Word) :
    exec (.regWrite port tag params) s =
      .next (settle s (commandRow s port tag.toNat 0x0012 params)) := rfl

theorem exec_regWriteList (s : State) (port : Port) (tag : BitVec 7) (params : List Word) :
    exec (.regWriteList port tag params) s =
      .next (settle s (commandRow s port tag.toNat 0x0013 params)) := rfl

theorem exec_regModify (s : State) (port : Port) (tag : BitVec 7) (params : List Word) :
    exec (.regModify port tag params) s =
      .next (settle s (commandRow s port tag.toNat 0x0014 params)) := rfl

theorem exec_registerWrite (s : State) (port : Port) (address : Nat) (value : Word) :
    exec (.registerWrite port address value) s =
      .next (settle s (writeRow s port address value.toNat)) := rfl

theorem exec_engineRestart (s : State) (port : Port) (tag : BitVec 7) (params : List Word) :
    exec (.engineRestart port tag params) s =
      .next (settle s (commandRow s port tag.toNat 0x0700 params)) := rfl

theorem exec_reset (s : State) (port : Port) (tag : BitVec 7) (params : List Word) :
    exec (.reset port tag params) s =
      .next (settle s (commandRow s port tag.toNat 0x0701 params)) := rfl

theorem exec_modeSet (s : State) (port : Port) (tag : BitVec 7) (params : List Word) :
    exec (.modeSet port tag params) s =
      .next (settle s (commandRow s port tag.toNat 0x0100 params)) := rfl

theorem exec_seqStart (s : State) (port : Port) (tag : BitVec 7) (params : List Word) :
    exec (.seqStart port tag params) s =
      .next (settle s (commandRow s port tag.toNat 0x0101 params)) := rfl

theorem exec_quireResume (s : State) (port : Port) (tag : BitVec 7) (params : List Word) :
    exec (.quireResume port tag params) s =
      .next (settle s (commandRow s port tag.toNat 0x0102 params)) := rfl

theorem exec_store (s : State) (port : Port) (tag : BitVec 7) (params : List Word) :
    exec (.store port tag params) s =
      .next (settle s (commandRow s port tag.toNat 0x0202 params)) := rfl

theorem exec_imageWrite (s : State) (port : Port) (tag : BitVec 7) (params : List Word) :
    exec (.imageWrite port tag params) s =
      .next (settle s (commandRow s port tag.toNat 0x0203 params)) := rfl

theorem exec_patchWrite (s : State) (port : Port) (tag : BitVec 7) (params : List Word) :
    exec (.patchWrite port tag params) s =
      .next (settle s (commandRow s port tag.toNat 0x0204 params)) := rfl

theorem exec_fuseProgram (s : State) (port : Port) (tag : BitVec 7) (params : List Word) :
    exec (.fuseProgram port tag params) s =
      .next (settle s (commandRow s port tag.toNat 0x0205 params)) := rfl

theorem exec_marginTest (s : State) (port : Port) (tag : BitVec 7) (params : List Word) :
    exec (.marginTest port tag params) s =
      .next (settle s (commandRow s port tag.toNat 0x0300 params)) := rfl

theorem exec_marginAbort (s : State) (port : Port) (tag : BitVec 7) (params : List Word) :
    exec (.marginAbort port tag params) s =
      .next (settle s (commandRow s port tag.toNat 0x0301 params)) := rfl

theorem exec_soundingStart (s : State) (port : Port) (tag : BitVec 7) (params : List Word) :
    exec (.soundingStart port tag params) s =
      .next (settle s (commandRow s port tag.toNat 0x0302 params)) := rfl

theorem exec_soundingStop (s : State) (port : Port) (tag : BitVec 7) (params : List Word) :
    exec (.soundingStop port tag params) s =
      .next (settle s (commandRow s port tag.toNat 0x0303 params)) := rfl

theorem exec_soundingRead (s : State) (port : Port) (tag : BitVec 7) (params : List Word) :
    exec (.soundingRead port tag params) s =
      .next (settle s (commandRow s port tag.toNat 0x0304 params)) := rfl

theorem exec_faultClear (s : State) (port : Port) (tag : BitVec 7) (params : List Word) :
    exec (.faultClear port tag params) s =
      .next (settle s (commandRow s port tag.toNat 0x0400 params)) := rfl

theorem exec_folioTake (s : State) (port : Port) (tag : BitVec 7) (params : List Word) :
    exec (.folioTake port tag params) s =
      .next (settle s (commandRow s port tag.toNat 0x0401 params)) := rfl

theorem exec_folioArm (s : State) (port : Port) (tag : BitVec 7) (params : List Word) :
    exec (.folioArm port tag params) s =
      .next (settle s (commandRow s port tag.toNat 0x0402 params)) := rfl

theorem exec_folioRead (s : State) (port : Port) (tag : BitVec 7) (params : List Word) :
    exec (.folioRead port tag params) s =
      .next (settle s (commandRow s port tag.toNat 0x0403 params)) := rfl

theorem exec_folioRelease (s : State) (port : Port) (tag : BitVec 7) (params : List Word) :
    exec (.folioRelease port tag params) s =
      .next (settle s (commandRow s port tag.toNat 0x0404 params)) := rfl

theorem exec_ledgerRead (s : State) (port : Port) (tag : BitVec 7) (params : List Word) :
    exec (.ledgerRead port tag params) s =
      .next (settle s (commandRow s port tag.toNat 0x0405 params)) := rfl

theorem exec_switchBack (s : State) (port : Port) (tag : BitVec 7) (params : List Word) :
    exec (.switchBack port tag params) s =
      .next (settle s (commandRow s port tag.toNat 0x0500 params)) := rfl

theorem exec_ringDiscover (s : State) (port : Port) (tag : BitVec 7) (params : List Word) :
    exec (.ringDiscover port tag params) s =
      .next (settle s (commandRow s port tag.toNat 0x0501 params)) := rfl

theorem exec_ringFolio (s : State) (port : Port) (tag : BitVec 7) (params : List Word) :
    exec (.ringFolio port tag params) s =
      .next (settle s (commandRow s port tag.toNat 0x0502 params)) := rfl

theorem exec_escortBegin (s : State) (port : Port) (tag : BitVec 7) (params : List Word) :
    exec (.escortBegin port tag params) s =
      .next (settle s (commandRow s port tag.toNat 0x0600 params)) := rfl

theorem exec_escortProve (s : State) (port : Port) (tag : BitVec 7) (params : List Word) :
    exec (.escortProve port tag params) s =
      .next (settle s (commandRow s port tag.toNat 0x0601 params)) := rfl

theorem exec_escortEnd (s : State) (port : Port) (tag : BitVec 7) (params : List Word) :
    exec (.escortEnd port tag params) s =
      .next (settle s (commandRow s port tag.toNat 0x0602 params)) := rfl

theorem exec_sealDevice (s : State) (port : Port) (tag : BitVec 7) (params : List Word) :
    exec (.sealDevice port tag params) s =
      .next (settle s (commandRow s port tag.toNat 0x0603 params)) := rfl

theorem exec_retire (s : State) (port : Port) (tag : BitVec 7) (params : List Word) :
    exec (.retire port tag params) s =
      .next (settle s (commandRow s port tag.toNat 0x0604 params)) := rfl

theorem exec_debugSet (s : State) (port : Port) (tag : BitVec 7) (params : List Word) :
    exec (.debugSet port tag params) s =
      .next (settle s (commandRow s port tag.toNat 0x0605 params)) := rfl

theorem exec_fuseBlowDone (s : State) (majority : Bool) (weak : Nat) :
    exec (.fuseBlowDone majority weak) s =
      .next (settle s (fuseBlowDone s majority weak)) := rfl

theorem exec_sessionTimeout (s : State) :
    exec .sessionTimeout s =
      .next (settle s (sessionTimeout s)) := rfl

theorem exec_challengeExpiry (s : State) :
    exec .challengeExpiry s =
      .next (settle s (dropChallenge s)) := rfl

theorem exec_escortLockoutEnd (s : State) :
    exec .escortLockoutEnd s =
      .next (settle s (lockoutEnd s)) := rfl

theorem exec_holdupEntry (s : State) (blown : Nat) :
    exec (.holdupEntry blown) s =
      .next (settle s (holdupEntry s blown)) := rfl

theorem exec_huPowerReturn (s : State) :
    exec .huPowerReturn s =
      .next (settle s (powerReturn s)) := rfl

theorem exec_holdupExit (s : State) :
    exec .holdupExit s =
      .next (settle s (holdupExit s)) := rfl

theorem exec_porAssert (s : State) :
    exec .porAssert s =
      .next (settle s (porAssert s)) := rfl

theorem exec_porRelease (s : State) :
    exec .porRelease s =
      .next (settle s (porRelease s)) := rfl

theorem exec_fuseRead (s : State) (weak : BitVec 16) (test : Bool) :
    exec (.fuseRead weak test) s =
      .next (settle s (fuseRead s weak.toNat test)) := rfl

theorem exec_configLoad (s : State) (huLow : Bool) :
    exec (.configLoad huLow) s =
      .next (settle s (configLoad s huLow)) := rfl

theorem exec_resetNAssert (s : State) :
    exec .resetNAssert s =
      .next (settle s (resetNLow s)) := rfl

theorem exec_deviceResetNvmDone (s : State) :
    exec .deviceResetNvmDone s =
      .next (settle s (deviceResetDone s)) := rfl

theorem exec_rstWdnGo (s : State) (port : Port) (sideB : Bool) (pair : Fin 8) :
    exec (.rstWdnGo port sideB pair) s =
      .next (settle s (writeRow s port R.RST_WDN (2 ^ 31 + (if sideB then 256 else 0) + pair))) := rfl

theorem exec_resetToken (s : State) (port : RingPort) (cell : RingCell) :
    exec (.resetToken port cell) s =
      .next (settle s (twinRow s port cell 0xB (resetToken · cell))) := rfl

theorem exec_autoStart (s : State) :
    exec .autoStart s =
      .next (settle s (autoStart s)) := rfl

theorem exec_ringPortUp (s : State) (port : RingPort) :
    exec (.ringPortUp port) s =
      .next (settle s (portUp s (portNum port))) := rfl

theorem exec_ringPortDown (s : State) (port : RingPort) :
    exec (.ringPortDown port) s =
      .next (settle s (portDown s (portNum port))) := rfl

theorem exec_portLoopbackDone (s : State) (port : RingPort) (pass : Bool) :
    exec (.portLoopbackDone port pass) s =
      .next (settle s (loopbackDone s (portNum port) pass)) := rfl

theorem exec_sparePortDailyLoopback (s : State) :
    exec .sparePortDailyLoopback s =
      .next (settle s (spareLoopback s)) := rfl

theorem exec_wrapEnd (s : State) (port : RingPort) :
    exec (.wrapEnd port) s =
      .next (settle s (wrapEnd s (portNum port))) := rfl

theorem exec_echoRequestSend (s : State) :
    exec .echoRequestSend s =
      .next (settle s (echoSend s)) := rfl

theorem exec_echoRequest (s : State) (port : RingPort) (token : BitVec 24) (turn : Nat) :
    exec (.echoRequest port token turn) s =
      .next (settle s (echoAnswer s (portNum port) token.toNat turn)) := rfl

theorem exec_echoReply (s : State) (port : RingPort) (low : BitVec 8) (turn trip : Nat) :
    exec (.echoReply port low turn trip) s =
      .next (settle s (echoReply s (portNum port) low.toNat turn trip)) := rfl

theorem exec_markSend (s : State) (elapsed : Nat) :
    exec (.markSend elapsed) s =
      .next (settle s (markSend s elapsed)) := rfl

theorem exec_angleIdleSend (s : State) :
    exec .angleIdleSend s =
      .next (settle s (angleIdleSend s)) := rfl

theorem exec_angleMark (s : State) (port : RingPort) (index : Fin 16) (elapsed residence spacing : Nat) (turned : Bool) :
    exec (.angleMark port index elapsed residence spacing turned) s =
      .next (settle s (syncAligned (angleMark s (portNum port) index elapsed residence spacing turned))) := rfl

theorem exec_markPathSwitch (s : State) :
    exec .markPathSwitch s =
      .next (settle s (markSwitch s)) := rfl

theorem exec_angle (s : State) (port : RingPort) (cell : RingCell) (age : Nat) :
    exec (.angle port cell age) s =
      .next (settle s (angleArrives s port cell age)) := rfl

theorem exec_discover (s : State) (port : RingPort) (cell : RingCell) (loopPs : Nat) :
    exec (.discover port cell loopPs) s =
      .next (settle s (discoverCell s port cell loopPs)) := rfl

theorem exec_discoveryTimeout (s : State) :
    exec .discoveryTimeout s =
      .next (settle s (discoveryTimeout s)) := rfl

theorem exec_command (s : State) (port : RingPort) (cell : RingCell) :
    exec (.command port cell) s =
      .next (settle s (commandCell s port cell)) := rfl

theorem exec_reply (s : State) :
    exec .reply s =
      .next (settle s (replySend s)) := rfl

theorem exec_event (s : State) :
    exec .event s =
      .next (settle s (eventSend s)) := rfl

theorem exec_telemetry (s : State) :
    exec .telemetry s =
      .next (settle s (telemetry s)) := rfl

theorem exec_arrival (s : State) (port : RingPort) (cell : RingCell) :
    exec (.arrival port cell) s =
      .next (settle s (cellRow s port cell 7 (arrivalCell · cell))) := rfl

theorem exec_arrivalRepeat (s : State) (quire : Fin 16) :
    exec (.arrivalRepeat quire) s =
      .next (settle s (arrivalRepeat s quire)) := rfl

theorem exec_release (s : State) (port : RingPort) (cell : RingCell) :
    exec (.release port cell) s =
      .next (settle s (cellRow s port cell 8 (releaseCell · cell))) := rfl

theorem exec_ringBarForce (s : State) (port : Port) (bar : Fin 4) :
    exec (.ringBarForce port bar) s =
      .next (settle s (writeRow s port (R.RING_BARk_CTRL bar) 2)) := rfl

theorem exec_ringBarClear (s : State) (port : Port) (bar : Fin 4) :
    exec (.ringBarClear port bar) s =
      .next (settle s (writeRow s port (R.RING_BARk_CTRL bar) 1)) := rfl

theorem exec_ringBarCfgWrite (s : State) (port : Port) (bar : Fin 4) (value : Word) :
    exec (.ringBarCfgWrite port bar value) s =
      .next (settle s (writeRow s port (R.RING_BARk_CFG bar) value.toNat)) := rfl

theorem exec_barrierAutoClear (s : State) (bar : Fin 4) :
    exec (.barrierAutoClear bar) s =
      .next (settle s (barAutoClear s bar)) := rfl

theorem exec_folio (s : State) (port : RingPort) (cell : RingCell) :
    exec (.folio port cell) s =
      .next (settle s (cellRow s port cell 9 (folioRequest · cell))) := rfl

theorem exec_folioAck (s : State) (port : RingPort) (cell : RingCell) :
    exec (.folioAck port cell) s =
      .next (settle s (cellRow s port cell 0xA (folioAck · cell))) := rfl

theorem exec_admission (s : State) (port : RingPort) (cell : RingCell) :
    exec (.admission port cell) s =
      .next (settle s (cellRow s port cell 0xE (admitCell · cell))) := rfl

theorem exec_masterLost (s : State) :
    exec .masterLost s =
      .next (settle s (masterLost s)) := rfl

theorem exec_ringCellForward (s : State) (port : RingPort) (cell : RingCell) (good : Bool) (codes : Nat) :
    exec (.ringCellForward port cell good codes) s =
      .next (settle s (codeErrors (cellForward s port cell good) (portNum port) codes)) := rfl

theorem exec_serdesPllLock (s : State) :
    exec .serdesPllLock s =
      .next (settle s (serdesLock s)) := rfl

theorem exec_linkHeartbeatFrame (s : State) (role : Fin 4) (ready : Bool) (seq : Word) :
    exec (.linkHeartbeatFrame role ready seq) s =
      .next (settle s (beatFrame s role ready seq.toNat)) := rfl

theorem exec_angrefAltEdge (s : State) (spacing : Nat) (level : Bool) (held : Nat) :
    exec (.angrefAltEdge spacing level held) s =
      .next (settle s (altPinChange s spacing level held)) := rfl

theorem exec_resetNRelease (s : State) :
    exec .resetNRelease s =
      .next (settle s (resetNHigh s)) := rfl

theorem exec_engineStart (s : State) :
    exec .engineStart s =
      .next (settle s (engineStart s)) := rfl

theorem exec_commandedResetStart (s : State) :
    exec .commandedResetStart s =
      .next (settle s (commandedReset s)) := rfl

theorem exec_commandedRestartStart (s : State) :
    exec .commandedRestartStart s =
      .next (settle s (commandedRestart s)) := rfl

theorem exec_assayConversionDue (s : State) (conv : Fin 10) :
    exec (.assayConversionDue conv) s =
      .next (settle s (conversionDue s conv)) := rfl

/-- Every command answers a next state, settled. -/
theorem exec_settles (i : Instr) (s : State) : ∃ t, exec i s = .next (settle s t) := by
  cases i with
  | referenceEdge spacing level held => exact ⟨_, exec_referenceEdge s spacing level held⟩
  | acquisitionComplete spacing => exact ⟨_, exec_acquisitionComplete s spacing⟩
  | holdoverEntry => exact ⟨_, exec_holdoverEntry s⟩
  | holdoverExpired => exact ⟨_, exec_holdoverExpired s⟩
  | angCfgWrite port value => exact ⟨_, exec_angCfgWrite s port value⟩
  | resel port => exact ⟨_, exec_resel s port⟩
  | hopStore port hopIdx => exact ⟨_, exec_hopStore s port hopIdx⟩
  | angIncWrite port value => exact ⟨_, exec_angIncWrite s port value⟩
  | angFreeIncWrite port value => exact ⟨_, exec_angFreeIncWrite s port value⟩
  | angPhaseWrite port value => exact ⟨_, exec_angPhaseWrite s port value⟩
  | angStampRead port => exact ⟨_, exec_angStampRead s port⟩
  | relock port => exact ⟨_, exec_relock s port⟩
  | refReturn port => exact ⟨_, exec_refReturn s port⟩
  | pllLossOfLock => exact ⟨_, exec_pllLossOfLock s⟩
  | systemClockOverspeed => exact ⟨_, exec_systemClockOverspeed s⟩
  | systemPllLock => exact ⟨_, exec_systemPllLock s⟩
  | fallbackReturn => exact ⟨_, exec_fallbackReturn s⟩
  | bandSearchRetry => exact ⟨_, exec_bandSearchRetry s⟩
  | fallbackMeasure freq => exact ⟨_, exec_fallbackMeasure s freq⟩
  | xinFailure symbols => exact ⟨_, exec_xinFailure s symbols⟩
  | tclkReturn us => exact ⟨_, exec_tclkReturn s us⟩
  | serdesPllLossOfLock => exact ⟨_, exec_serdesPllLossOfLock s⟩
  | guardRawChange rail sense => exact ⟨_, exec_guardRawChange s rail sense⟩
  | guardFilterAssert rail uv spare edges => exact ⟨_, exec_guardFilterAssert s rail uv spare edges⟩
  | guardFilterDeassert rail uv spare edges => exact ⟨_, exec_guardFilterDeassert s rail uv spare edges⟩
  | guardThreshWrite rail => exact ⟨_, exec_guardThreshWrite s rail⟩
  | guardChangeoverEnd rail => exact ⟨_, exec_guardChangeoverEnd s rail⟩
  | senseCommonModeError rail => exact ⟨_, exec_senseCommonModeError s rail⟩
  | senseCommonModeClear rail => exact ⟨_, exec_senseCommonModeClear s rail⟩
  | pgFilterChange rail level edges => exact ⟨_, exec_pgFilterChange s rail level edges⟩
  | enReadbackMismatch rail level edges => exact ⟨_, exec_enReadbackMismatch s rail level edges⟩
  | enSet port rail off => exact ⟨_, exec_enSet s port rail off⟩
  | enClr port rail => exact ⟨_, exec_enClr s port rail⟩
  | guardProofStart rail uv => exact ⟨_, exec_guardProofStart s rail uv⟩
  | guardProofSample rail asserted => exact ⟨_, exec_guardProofSample s rail asserted⟩
  | guardProofEnd rail => exact ⟨_, exec_guardProofEnd s rail⟩
  | substitutionStart checkOk => exact ⟨_, exec_substitutionStart s checkOk⟩
  | substitutionStep => exact ⟨_, exec_substitutionStep s⟩
  | fineSample rail raw back => exact ⟨_, exec_fineSample s rail raw back⟩
  | fineCfgWrite port rail value => exact ⟨_, exec_fineCfgWrite s port rail value⟩
  | fineRestart rail => exact ⟨_, exec_fineRestart s rail⟩
  | fineModulatorOverload rail negative => exact ⟨_, exec_fineModulatorOverload s rail negative⟩
  | fineWindowWrite port rail hi value => exact ⟨_, exec_fineWindowWrite s port rail hi value⟩
  | fineResultRead port rail => exact ⟨_, exec_fineResultRead s port rail⟩
  | calZero port tag params => exact ⟨_, exec_calZero s port tag params⟩
  | calFull port tag params => exact ⟨_, exec_calFull s port tag params⟩
  | calibrationAverageDone rail => exact ⟨_, exec_calibrationAverageDone s rail⟩
  | calibrationCommit rail => exact ⟨_, exec_calibrationCommit s rail⟩
  | calCoeffWrite port rail gain value => exact ⟨_, exec_calCoeffWrite s port rail gain value⟩
  | benchStart port bench => exact ⟨_, exec_benchStart s port bench⟩
  | benchStop port bench => exact ⟨_, exec_benchStop s port bench⟩
  | benchTrig port bench => exact ⟨_, exec_benchTrig s port bench⟩
  | benchItrig port bench => exact ⟨_, exec_benchItrig s port bench⟩
  | pwmSyncEdge sel level => exact ⟨_, exec_pwmSyncEdge s sel level⟩
  | benchAngleTrigger bench injected => exact ⟨_, exec_benchAngleTrigger s bench injected⟩
  | triggerDelayEnd bench injected => exact ⟨_, exec_triggerDelayEnd s bench injected⟩
  | poolSample conv raw overload cmOut => exact ⟨_, exec_poolSample s conv raw overload cmOut⟩
  | entryComplete conv => exact ⟨_, exec_entryComplete s conv⟩
  | benchLayoutWrite port value => exact ⟨_, exec_benchLayoutWrite s port value⟩
  | poolResultRead port address => exact ⟨_, exec_poolResultRead s port address⟩
  | poolCalWrite port gain value => exact ⟨_, exec_poolCalWrite s port gain value⟩
  | holdupPoolConversion raw overload cmOut => exact ⟨_, exec_holdupPoolConversion s raw overload cmOut⟩
  | converterSubstitution => exact ⟨_, exec_converterSubstitution s⟩
  | referenceWatch diff => exact ⟨_, exec_referenceWatch s diff⟩
  | referenceRatioRecord => exact ⟨_, exec_referenceRatioRecord s⟩
  | referenceTriage => exact ⟨_, exec_referenceTriage s⟩
  | assayRoundStart => exact ⟨_, exec_assayRoundStart s⟩
  | assayConversionComplete conv => exact ⟨_, exec_assayConversionComplete s conv⟩
  | assayRoundEnd => exact ⟨_, exec_assayRoundEnd s⟩
  | converterTriage => exact ⟨_, exec_converterTriage s⟩
  | railTriage => exact ⟨_, exec_railTriage s⟩
  | spareSliceCheck spare raw0 raw1 => exact ⟨_, exec_spareSliceCheck s spare raw0 raw1⟩
  | sramCorrectedError row => exact ⟨_, exec_sramCorrectedError s row⟩
  | quireUp port quire => exact ⟨_, exec_quireUp s port quire⟩
  | quireDown port quire => exact ⟨_, exec_quireDown s port quire⟩
  | quireCtrlResume port quire => exact ⟨_, exec_quireCtrlResume s port quire⟩
  | seqCtrlUp port mask => exact ⟨_, exec_seqCtrlUp s port mask⟩
  | seqCtrlDown port mask => exact ⟨_, exec_seqCtrlDown s port mask⟩
  | quireMembersWrite port quire hi value => exact ⟨_, exec_quireMembersWrite s port quire hi value⟩
  | stepAction quire off => exact ⟨_, exec_stepAction s quire off⟩
  | angleGateOpen quire off => exact ⟨_, exec_angleGateOpen s quire off⟩
  | gateTimeout quire off => exact ⟨_, exec_gateTimeout s quire off⟩
  | settleEnd quire => exact ⟨_, exec_settleEnd s quire⟩
  | stepComplete quire => exact ⟨_, exec_stepComplete s quire⟩
  | stepTimeout quire => exact ⟨_, exec_stepTimeout s quire⟩
  | retryOffEnd quire off => exact ⟨_, exec_retryOffEnd s quire off⟩
  | railRetryOffEnd rail off => exact ⟨_, exec_railRetryOffEnd s rail off⟩
  | railRetryTimeout rail => exact ⟨_, exec_railRetryTimeout s rail⟩
  | railRetryDone rail => exact ⟨_, exec_railRetryDone s rail⟩
  | retryBudgetRefill rail => exact ⟨_, exec_retryBudgetRefill s rail⟩
  | quireShut quire => exact ⟨_, exec_quireShut s quire⟩
  | shutAll => exact ⟨_, exec_shutAll s⟩
  | hallmarkDownOrderStart => exact ⟨_, exec_hallmarkDownOrderStart s⟩
  | hallmarkStageEnd => exact ⟨_, exec_hallmarkStageEnd s⟩
  | barrierReleaseMatch quire => exact ⟨_, exec_barrierReleaseMatch s quire⟩
  | margStart port dir rail => exact ⟨_, exec_margStart s port dir rail⟩
  | margAbort port rail => exact ⟨_, exec_margAbort s port rail⟩
  | marginBaselineDone rail => exact ⟨_, exec_marginBaselineDone s rail⟩
  | marginCodeArrived rail => exact ⟨_, exec_marginCodeArrived s rail⟩
  | marginDwellEnd rail => exact ⟨_, exec_marginDwellEnd s rail⟩
  | marginMeasureDone rail => exact ⟨_, exec_marginMeasureDone s rail⟩
  | marginReturnDone rail => exact ⟨_, exec_marginReturnDone s rail⟩
  | marginReturnTimeout rail => exact ⟨_, exec_marginReturnTimeout s rail⟩
  | mrgComplianceLoss rail => exact ⟨_, exec_mrgComplianceLoss s rail⟩
  | sndStart port => exact ⟨_, exec_sndStart s port⟩
  | sndStop port => exact ⟨_, exec_sndStop s port⟩
  | soundingTargetMatch => exact ⟨_, exec_soundingTargetMatch s⟩
  | soundingDcStep => exact ⟨_, exec_soundingDcStep s⟩
  | soundingTapSample rail raw clip => exact ⟨_, exec_soundingTapSample s rail raw clip⟩
  | soundingSettleEnd => exact ⟨_, exec_soundingSettleEnd s⟩
  | soundingPointEnd rail => exact ⟨_, exec_soundingPointEnd s rail⟩
  | mlsPeriodEnd rail => exact ⟨_, exec_mlsPeriodEnd s rail⟩
  | soundingComplete => exact ⟨_, exec_soundingComplete s⟩
  | soundingPauseTimeout => exact ⟨_, exec_soundingPauseTimeout s⟩
  | archiveWriteDone => exact ⟨_, exec_archiveWriteDone s⟩
  | pollRoundStart pm => exact ⟨_, exec_pollRoundStart s pm⟩
  | smbusTransactionDone pm result data alertLow => exact ⟨_, exec_smbusTransactionDone s pm result data alertLow⟩
  | smbusRetry pm => exact ⟨_, exec_smbusRetry s pm⟩
  | smbusTimeout pm alertLow => exact ⟨_, exec_smbusTimeout s pm alertLow⟩
  | busRecovery pm freed => exact ⟨_, exec_busRecovery s pm freed⟩
  | smbalertAssert pm => exact ⟨_, exec_smbalertAssert s pm⟩
  | smbalertStuckClear pm => exact ⟨_, exec_smbalertStuckClear s pm⟩
  | lostEntryPoll entry => exact ⟨_, exec_lostEntryPoll s entry⟩
  | pmXferStart port value => exact ⟨_, exec_pmXferStart s port value⟩
  | partnerCfgWrite port entry value => exact ⟨_, exec_partnerCfgWrite s port entry value⟩
  | tallyRegWrite port counter reg value => exact ⟨_, exec_tallyRegWrite s port counter reg value⟩
  | tallyWriteEffect => exact ⟨_, exec_tallyWriteEffect s⟩
  | tallyMatch counter => exact ⟨_, exec_tallyMatch s counter⟩
  | tallyWrap counter => exact ⟨_, exec_tallyWrap s counter⟩
  | capEdge cap level => exact ⟨_, exec_capEdge s cap level⟩
  | tallyCapRead port counter => exact ⟨_, exec_tallyCapRead s port counter⟩
  | tallyCountRead port counter => exact ⟨_, exec_tallyCountRead s port counter⟩
  | evtOutPulseEnd output => exact ⟨_, exec_evtOutPulseEnd s output⟩
  | faultMessage corrupt => exact ⟨_, exec_faultMessage s corrupt⟩
  | condChange source => exact ⟨_, exec_condChange s source⟩
  | quietExpiry source => exact ⟨_, exec_quietExpiry s source⟩
  | escalationWindowEnd source => exact ⟨_, exec_escalationWindowEnd s source⟩
  | reactionDispatch upTo => exact ⟨_, exec_reactionDispatch s upTo⟩
  | shadowExpiry list => exact ⟨_, exec_shadowExpiry s list⟩
  | fltClearWrite port value => exact ⟨_, exec_fltClearWrite s port value⟩
  | fltInjGo port value => exact ⟨_, exec_fltInjGo s port value⟩
  | recoveryCounterWrite => exact ⟨_, exec_recoveryCounterWrite s⟩
  | twinLinkHeartbeatSend => exact ⟨_, exec_twinLinkHeartbeatSend s⟩
  | twinLinkDown => exact ⟨_, exec_twinLinkDown s⟩
  | twinLinkRetrain frames => exact ⟨_, exec_twinLinkRetrain s frames⟩
  | latchMirrorFrame latches => exact ⟨_, exec_latchMirrorFrame s latches⟩
  | dynamicImage image => exact ⟨_, exec_dynamicImage s image⟩
  | dynamicImageSend => exact ⟨_, exec_dynamicImageSend s⟩
  | configImage image => exact ⟨_, exec_configImage s image⟩
  | configImageSend => exact ⟨_, exec_configImageSend s⟩
  | mirrorStale => exact ⟨_, exec_mirrorStale s⟩
  | handoverFrame latches => exact ⟨_, exec_handoverFrame s latches⟩
  | takeoverFrame => exact ⟨_, exec_takeoverFrame s⟩
  | takeoverWaitEnd => exact ⟨_, exec_takeoverWaitEnd s⟩
  | drivingFrame => exact ⟨_, exec_drivingFrame s⟩
  | drivingTimeout => exact ⟨_, exec_drivingTimeout s⟩
  | handoverTimeout => exact ⟨_, exec_handoverTimeout s⟩
  | twinRingHeartbeatSend => exact ⟨_, exec_twinRingHeartbeatSend s⟩
  | wardenAckTimeout => exact ⟨_, exec_wardenAckTimeout s⟩
  | hbAck port cell => exact ⟨_, exec_hbAck s port cell⟩
  | token port cell => exact ⟨_, exec_token s port cell⟩
  | heartbeat port cell => exact ⟨_, exec_heartbeat s port cell⟩
  | wardenJudgment => exact ⟨_, exec_wardenJudgment s⟩
  | wdnPairNodesWrite port pair value => exact ⟨_, exec_wdnPairNodesWrite s port pair value⟩
  | wdnCfgWrite port value => exact ⟨_, exec_wdnCfgWrite s port value⟩
  | snapEdge level => exact ⟨_, exec_snapEdge s level⟩
  | folioLatch => exact ⟨_, exec_folioLatch s⟩
  | folioTargetMatch => exact ⟨_, exec_folioTargetMatch s⟩
  | folioTrig port => exact ⟨_, exec_folioTrig s port⟩
  | folioCtrlArm port => exact ⟨_, exec_folioCtrlArm s port⟩
  | folioDisarm port => exact ⟨_, exec_folioDisarm s port⟩
  | folioCtrlRelease port buffers => exact ⟨_, exec_folioCtrlRelease s port buffers⟩
  | folioDataRead port => exact ⟨_, exec_folioDataRead s port⟩
  | ledgerStage => exact ⟨_, exec_ledgerStage s⟩
  | nvmProgramUnitDone ok => exact ⟨_, exec_nvmProgramUnitDone s ok⟩
  | nvmEraseDone ok => exact ⟨_, exec_nvmEraseDone s ok⟩
  | nvmUncorrectableRead address => exact ⟨_, exec_nvmUncorrectableRead s address⟩
  | deviceLogWrite => exact ⟨_, exec_deviceLogWrite s⟩
  | nvmStoreWrite port config cal => exact ⟨_, exec_nvmStoreWrite s port config cal⟩
  | ldgRdDataRead port => exact ⟨_, exec_ldgRdDataRead s port⟩
  | ldgSecWrite port value => exact ⟨_, exec_ldgSecWrite s port value⟩
  | spiStatus mosi extra => exact ⟨_, exec_spiStatus s mosi extra⟩
  | spiWrite mosi extra => exact ⟨_, exec_spiWrite s mosi extra⟩
  | spiRead mosi extra => exact ⟨_, exec_spiRead s mosi extra⟩
  | commandExecute => exact ⟨_, exec_commandExecute s⟩
  | epochBoundary => exact ⟨_, exec_epochBoundary s⟩
  | deliveryModeWrite port target value => exact ⟨_, exec_deliveryModeWrite s port target value⟩
  | deliveryModeSwitch port => exact ⟨_, exec_deliveryModeSwitch s port⟩
  | lockstepMismatch => exact ⟨_, exec_lockstepMismatch s⟩
  | engineWatchdog => exact ⟨_, exec_engineWatchdog s⟩
  | engineRestartComplete => exact ⟨_, exec_engineRestartComplete s⟩
  | status port tag params => exact ⟨_, exec_status s port tag params⟩
  | echo port tag params => exact ⟨_, exec_echo s port tag params⟩
  | colophonRead port tag params => exact ⟨_, exec_colophonRead s port tag params⟩
  | regRead port tag params => exact ⟨_, exec_regRead s port tag params⟩
  | regReadBlock port tag params => exact ⟨_, exec_regReadBlock s port tag params⟩
  | regWrite port tag params => exact ⟨_, exec_regWrite s port tag params⟩
  | regWriteList port tag params => exact ⟨_, exec_regWriteList s port tag params⟩
  | regModify port tag params => exact ⟨_, exec_regModify s port tag params⟩
  | registerWrite port address value => exact ⟨_, exec_registerWrite s port address value⟩
  | engineRestart port tag params => exact ⟨_, exec_engineRestart s port tag params⟩
  | reset port tag params => exact ⟨_, exec_reset s port tag params⟩
  | modeSet port tag params => exact ⟨_, exec_modeSet s port tag params⟩
  | seqStart port tag params => exact ⟨_, exec_seqStart s port tag params⟩
  | quireResume port tag params => exact ⟨_, exec_quireResume s port tag params⟩
  | store port tag params => exact ⟨_, exec_store s port tag params⟩
  | imageWrite port tag params => exact ⟨_, exec_imageWrite s port tag params⟩
  | patchWrite port tag params => exact ⟨_, exec_patchWrite s port tag params⟩
  | fuseProgram port tag params => exact ⟨_, exec_fuseProgram s port tag params⟩
  | marginTest port tag params => exact ⟨_, exec_marginTest s port tag params⟩
  | marginAbort port tag params => exact ⟨_, exec_marginAbort s port tag params⟩
  | soundingStart port tag params => exact ⟨_, exec_soundingStart s port tag params⟩
  | soundingStop port tag params => exact ⟨_, exec_soundingStop s port tag params⟩
  | soundingRead port tag params => exact ⟨_, exec_soundingRead s port tag params⟩
  | faultClear port tag params => exact ⟨_, exec_faultClear s port tag params⟩
  | folioTake port tag params => exact ⟨_, exec_folioTake s port tag params⟩
  | folioArm port tag params => exact ⟨_, exec_folioArm s port tag params⟩
  | folioRead port tag params => exact ⟨_, exec_folioRead s port tag params⟩
  | folioRelease port tag params => exact ⟨_, exec_folioRelease s port tag params⟩
  | ledgerRead port tag params => exact ⟨_, exec_ledgerRead s port tag params⟩
  | switchBack port tag params => exact ⟨_, exec_switchBack s port tag params⟩
  | ringDiscover port tag params => exact ⟨_, exec_ringDiscover s port tag params⟩
  | ringFolio port tag params => exact ⟨_, exec_ringFolio s port tag params⟩
  | escortBegin port tag params => exact ⟨_, exec_escortBegin s port tag params⟩
  | escortProve port tag params => exact ⟨_, exec_escortProve s port tag params⟩
  | escortEnd port tag params => exact ⟨_, exec_escortEnd s port tag params⟩
  | sealDevice port tag params => exact ⟨_, exec_sealDevice s port tag params⟩
  | retire port tag params => exact ⟨_, exec_retire s port tag params⟩
  | debugSet port tag params => exact ⟨_, exec_debugSet s port tag params⟩
  | fuseBlowDone majority weak => exact ⟨_, exec_fuseBlowDone s majority weak⟩
  | sessionTimeout => exact ⟨_, exec_sessionTimeout s⟩
  | challengeExpiry => exact ⟨_, exec_challengeExpiry s⟩
  | escortLockoutEnd => exact ⟨_, exec_escortLockoutEnd s⟩
  | holdupEntry blown => exact ⟨_, exec_holdupEntry s blown⟩
  | huPowerReturn => exact ⟨_, exec_huPowerReturn s⟩
  | holdupExit => exact ⟨_, exec_holdupExit s⟩
  | porAssert => exact ⟨_, exec_porAssert s⟩
  | porRelease => exact ⟨_, exec_porRelease s⟩
  | fuseRead weak test => exact ⟨_, exec_fuseRead s weak test⟩
  | configLoad huLow => exact ⟨_, exec_configLoad s huLow⟩
  | resetNAssert => exact ⟨_, exec_resetNAssert s⟩
  | deviceResetNvmDone => exact ⟨_, exec_deviceResetNvmDone s⟩
  | rstWdnGo port sideB pair => exact ⟨_, exec_rstWdnGo s port sideB pair⟩
  | resetToken port cell => exact ⟨_, exec_resetToken s port cell⟩
  | autoStart => exact ⟨_, exec_autoStart s⟩
  | ringPortUp port => exact ⟨_, exec_ringPortUp s port⟩
  | ringPortDown port => exact ⟨_, exec_ringPortDown s port⟩
  | portLoopbackDone port pass => exact ⟨_, exec_portLoopbackDone s port pass⟩
  | sparePortDailyLoopback => exact ⟨_, exec_sparePortDailyLoopback s⟩
  | wrapEnd port => exact ⟨_, exec_wrapEnd s port⟩
  | echoRequestSend => exact ⟨_, exec_echoRequestSend s⟩
  | echoRequest port token turn => exact ⟨_, exec_echoRequest s port token turn⟩
  | echoReply port low turn trip => exact ⟨_, exec_echoReply s port low turn trip⟩
  | markSend elapsed => exact ⟨_, exec_markSend s elapsed⟩
  | angleIdleSend => exact ⟨_, exec_angleIdleSend s⟩
  | angleMark port index elapsed residence spacing turned => exact ⟨_, exec_angleMark s port index elapsed residence spacing turned⟩
  | markPathSwitch => exact ⟨_, exec_markPathSwitch s⟩
  | angle port cell age => exact ⟨_, exec_angle s port cell age⟩
  | discover port cell loopPs => exact ⟨_, exec_discover s port cell loopPs⟩
  | discoveryTimeout => exact ⟨_, exec_discoveryTimeout s⟩
  | command port cell => exact ⟨_, exec_command s port cell⟩
  | reply => exact ⟨_, exec_reply s⟩
  | event => exact ⟨_, exec_event s⟩
  | telemetry => exact ⟨_, exec_telemetry s⟩
  | arrival port cell => exact ⟨_, exec_arrival s port cell⟩
  | arrivalRepeat quire => exact ⟨_, exec_arrivalRepeat s quire⟩
  | release port cell => exact ⟨_, exec_release s port cell⟩
  | ringBarForce port bar => exact ⟨_, exec_ringBarForce s port bar⟩
  | ringBarClear port bar => exact ⟨_, exec_ringBarClear s port bar⟩
  | ringBarCfgWrite port bar value => exact ⟨_, exec_ringBarCfgWrite s port bar value⟩
  | barrierAutoClear bar => exact ⟨_, exec_barrierAutoClear s bar⟩
  | folio port cell => exact ⟨_, exec_folio s port cell⟩
  | folioAck port cell => exact ⟨_, exec_folioAck s port cell⟩
  | admission port cell => exact ⟨_, exec_admission s port cell⟩
  | masterLost => exact ⟨_, exec_masterLost s⟩
  | ringCellForward port cell good codes => exact ⟨_, exec_ringCellForward s port cell good codes⟩
  | serdesPllLock => exact ⟨_, exec_serdesPllLock s⟩
  | linkHeartbeatFrame role ready seq => exact ⟨_, exec_linkHeartbeatFrame s role ready seq⟩
  | angrefAltEdge spacing level held => exact ⟨_, exec_angrefAltEdge s spacing level held⟩
  | resetNRelease => exact ⟨_, exec_resetNRelease s⟩
  | engineStart => exact ⟨_, exec_engineStart s⟩
  | commandedResetStart => exact ⟨_, exec_commandedResetStart s⟩
  | commandedRestartStart => exact ⟨_, exec_commandedRestartStart s⟩
  | assayConversionDue conv => exact ⟨_, exec_assayConversionDue s conv⟩




end Sys2Proof.Machine
end

