-- ==== Sys2Proof/Laws/Commands.lean ====
section
/-! SUPPORT. What each command row does once it is served and every check before its opcode's own passes: the work of the
opcode. -/

namespace Sys2Proof.Machine

/-- A condition may be added, and the effect written otherwise where it holds. -/
theorem rowDoes_of {row : Port → BitVec 7 → List Word → Instr} {op : Nat} {f g : State → Cmd → State} {cond : State → Cmd → Prop}
    (h : rowDoes row op (fun _ _ => True) f) (e : ∀ a c, cond a c → f a c = g a c) : rowDoes row op cond g := by
  intro s p tag params h1 h2 h3
  rw [h s p tag params h1 h2 trivial, e _ _ h3]

theorem row_calZero : rowDoes .calZero 0x0200 (fun _ _ => True) runCal := by
  intro s p tag params h1 h2 _
  rw [exec_calZero, commandRow_runs _ _ _ _ _ h1 h2]; rfl

theorem row_calFull : rowDoes .calFull 0x0201 (fun _ _ => True) runCal := by
  intro s p tag params h1 h2 _
  rw [exec_calFull, commandRow_runs _ _ _ _ _ h1 h2]; rfl

theorem row_status : rowDoes .status 0x0001 (fun _ _ => True) runStatus := by
  intro s p tag params h1 h2 _
  rw [exec_status, commandRow_runs _ _ _ _ _ h1 h2]; rfl

theorem row_echo : rowDoes .echo 0x0002 (fun _ _ => True) (fun s c => okReply s c c.params) := by
  intro s p tag params h1 h2 _
  rw [exec_echo, commandRow_runs _ _ _ _ _ h1 h2]; rfl

theorem row_colophonRead : rowDoes .colophonRead 0x0003 (fun _ _ => True) runColophon := by
  intro s p tag params h1 h2 _
  rw [exec_colophonRead, commandRow_runs _ _ _ _ _ h1 h2]; rfl

theorem row_regRead : rowDoes .regRead 0x0010 (fun _ _ => True) runRegRead := by
  intro s p tag params h1 h2 _
  rw [exec_regRead, commandRow_runs _ _ _ _ _ h1 h2]; rfl

theorem row_regReadBlock : rowDoes .regReadBlock 0x0011 (fun _ _ => True) runRegRead := by
  intro s p tag params h1 h2 _
  rw [exec_regReadBlock, commandRow_runs _ _ _ _ _ h1 h2]; rfl

theorem row_regWrite : rowDoes .regWrite 0x0012 (fun _ _ => True) runWrites := by
  intro s p tag params h1 h2 _
  rw [exec_regWrite, commandRow_runs _ _ _ _ _ h1 h2]; rfl

theorem row_regWriteList : rowDoes .regWriteList 0x0013 (fun _ _ => True) runWrites := by
  intro s p tag params h1 h2 _
  rw [exec_regWriteList, commandRow_runs _ _ _ _ _ h1 h2]; rfl

theorem row_regModify : rowDoes .regModify 0x0014 (fun _ _ => True) runModify := by
  intro s p tag params h1 h2 _
  rw [exec_regModify, commandRow_runs _ _ _ _ _ h1 h2]; rfl

theorem row_engineRestart : rowDoes .engineRestart 0x0700 (fun _ _ => True) runRestart := by
  intro s p tag params h1 h2 _
  rw [exec_engineRestart, commandRow_runs _ _ _ _ _ h1 h2]; rfl

theorem row_reset : rowDoes .reset 0x0701 (fun _ _ => True) runReset := by
  intro s p tag params h1 h2 _
  rw [exec_reset, commandRow_runs _ _ _ _ _ h1 h2]; rfl

theorem row_modeSet : rowDoes .modeSet 0x0100 (fun _ _ => True) runModeSet := by
  intro s p tag params h1 h2 _
  rw [exec_modeSet, commandRow_runs _ _ _ _ _ h1 h2]; rfl

theorem row_seqStart : rowDoes .seqStart 0x0101 (fun _ _ => True) runSeqStart := by
  intro s p tag params h1 h2 _
  rw [exec_seqStart, commandRow_runs _ _ _ _ _ h1 h2]; rfl

theorem row_quireResume : rowDoes .quireResume 0x0102 (fun _ _ => True) runResume := by
  intro s p tag params h1 h2 _
  rw [exec_quireResume, commandRow_runs _ _ _ _ _ h1 h2]; rfl

theorem row_store : rowDoes .store 0x0202 (fun _ _ => True) runStore := by
  intro s p tag params h1 h2 _
  rw [exec_store, commandRow_runs _ _ _ _ _ h1 h2]; rfl

theorem row_imageWrite : rowDoes .imageWrite 0x0203 (fun _ _ => True) runImageWrite := by
  intro s p tag params h1 h2 _
  rw [exec_imageWrite, commandRow_runs _ _ _ _ _ h1 h2]; rfl

theorem row_patchWrite : rowDoes .patchWrite 0x0204 (fun _ _ => True) runPatchWrite := by
  intro s p tag params h1 h2 _
  rw [exec_patchWrite, commandRow_runs _ _ _ _ _ h1 h2]; rfl

theorem row_fuseProgram : rowDoes .fuseProgram 0x0205 (fun _ _ => True) runFuseProgram := by
  intro s p tag params h1 h2 _
  rw [exec_fuseProgram, commandRow_runs _ _ _ _ _ h1 h2]; rfl

theorem row_marginTest : rowDoes .marginTest 0x0300 (fun _ _ => True) runMarginTest := by
  intro s p tag params h1 h2 _
  rw [exec_marginTest, commandRow_runs _ _ _ _ _ h1 h2]; rfl

theorem row_marginAbort : rowDoes .marginAbort 0x0301 (fun _ _ => True) runMarginAbort := by
  intro s p tag params h1 h2 _
  rw [exec_marginAbort, commandRow_runs _ _ _ _ _ h1 h2]; rfl

theorem row_soundingStart : rowDoes .soundingStart 0x0302 (fun _ _ => True) runSoundingStart := by
  intro s p tag params h1 h2 _
  rw [exec_soundingStart, commandRow_runs _ _ _ _ _ h1 h2]; rfl

theorem row_soundingStop : rowDoes .soundingStop 0x0303 (fun _ _ => True) runSoundingStop := by
  intro s p tag params h1 h2 _
  rw [exec_soundingStop, commandRow_runs _ _ _ _ _ h1 h2]; rfl

theorem row_soundingRead : rowDoes .soundingRead 0x0304 (fun _ _ => True) runSoundingRead := by
  intro s p tag params h1 h2 _
  rw [exec_soundingRead, commandRow_runs _ _ _ _ _ h1 h2]; rfl

theorem row_faultClear : rowDoes .faultClear 0x0400 (fun _ _ => True) runFaultClear := by
  intro s p tag params h1 h2 _
  rw [exec_faultClear, commandRow_runs _ _ _ _ _ h1 h2]; rfl

theorem row_folioTake : rowDoes .folioTake 0x0401 (fun _ _ => True) runFolioTake := by
  intro s p tag params h1 h2 _
  rw [exec_folioTake, commandRow_runs _ _ _ _ _ h1 h2]; rfl

theorem row_folioArm : rowDoes .folioArm 0x0402 (fun _ _ => True) runFolioArm := by
  intro s p tag params h1 h2 _
  rw [exec_folioArm, commandRow_runs _ _ _ _ _ h1 h2]; rfl

theorem row_folioRead : rowDoes .folioRead 0x0403 (fun _ _ => True) runFolioRead := by
  intro s p tag params h1 h2 _
  rw [exec_folioRead, commandRow_runs _ _ _ _ _ h1 h2]; rfl

theorem row_folioRelease : rowDoes .folioRelease 0x0404 (fun _ _ => True) runFolioRelease := by
  intro s p tag params h1 h2 _
  rw [exec_folioRelease, commandRow_runs _ _ _ _ _ h1 h2]; rfl

theorem row_ledgerRead : rowDoes .ledgerRead 0x0405 (fun _ _ => True) runLedgerRead := by
  intro s p tag params h1 h2 _
  rw [exec_ledgerRead, commandRow_runs _ _ _ _ _ h1 h2]; rfl

theorem row_switchBack : rowDoes .switchBack 0x0500 (fun _ _ => True) runSwitchBack := by
  intro s p tag params h1 h2 _
  rw [exec_switchBack, commandRow_runs _ _ _ _ _ h1 h2]; rfl

theorem row_ringDiscover : rowDoes .ringDiscover 0x0501 (fun _ _ => True) runDiscover := by
  intro s p tag params h1 h2 _
  rw [exec_ringDiscover, commandRow_runs _ _ _ _ _ h1 h2]; rfl

theorem row_ringFolio : rowDoes .ringFolio 0x0502 (fun _ _ => True) runRingFolio := by
  intro s p tag params h1 h2 _
  rw [exec_ringFolio, commandRow_runs _ _ _ _ _ h1 h2]; rfl

theorem row_escortBegin : rowDoes .escortBegin 0x0600 (fun _ _ => True) runEscortBegin := by
  intro s p tag params h1 h2 _
  rw [exec_escortBegin, commandRow_runs _ _ _ _ _ h1 h2]; rfl

theorem row_escortProve : rowDoes .escortProve 0x0601 (fun _ _ => True) runEscortProve := by
  intro s p tag params h1 h2 _
  rw [exec_escortProve, commandRow_runs _ _ _ _ _ h1 h2]; rfl

theorem row_escortEnd : rowDoes .escortEnd 0x0602 (fun _ _ => True) runEscortEnd := by
  intro s p tag params h1 h2 _
  rw [exec_escortEnd, commandRow_runs _ _ _ _ _ h1 h2]; rfl

theorem row_sealDevice : rowDoes .sealDevice 0x0603 (fun _ _ => True) runSeal := by
  intro s p tag params h1 h2 _
  rw [exec_sealDevice, commandRow_runs _ _ _ _ _ h1 h2]; rfl

theorem row_retire : rowDoes .retire 0x0604 (fun _ _ => True) runRetire := by
  intro s p tag params h1 h2 _
  rw [exec_retire, commandRow_runs _ _ _ _ _ h1 h2]; rfl

theorem row_debugSet : rowDoes .debugSet 0x0605 (fun _ _ => True) runDebugSet := by
  intro s p tag params h1 h2 _
  rw [exec_debugSet, commandRow_runs _ _ _ _ _ h1 h2]; rfl

end Sys2Proof.Machine
end

