-- ==== Sys2Proof/Laws/Fine.lean ====
section
/-! SUPPORT. Changes of one rail's guard path and fine path, and what the average of a calibration gives. -/

namespace Sys2Proof.Machine

theorem State.modGuard_congr (s : State) (n : Nat) (f g : GuardRail → GuardRail) (h : f (s.gr n) = g (s.gr n)) :
    s.modGuard n f = s.modGuard n g := by
  simp only [State.modGuard, vmod_congr _ _ _ _ h]

theorem State.modFine_congr (s : State) (n : Nat) (f g : FineRail → FineRail) (h : f (s.fr n) = g (s.fr n)) :
    s.modFine n f = s.modFine n g := by
  simp only [State.modFine, vmod_congr _ _ _ _ h]

theorem State.modFine_fr (s : State) (n : Nat) (f : FineRail → FineRail) (h : n < 64) : (s.modFine n f).fr n = f (s.fr n) :=
  vget_vmod_self _ _ _ h

/-- R102: an average that ended before its last sample is unstable. -/
theorem calResult_unstable (s : State) (c : CalRun) (offset : Int) (scale : Nat) (h : c.n < c.count) :
    calResult s c offset scale = (s, .error stCalUnstable) := by
  unfold calResult
  rw [if_pos h]

end Sys2Proof.Machine
end

