-- ==== Sys2Proof/Laws/Writes.lean ====
section
/-! SUPPORT. What a register write does once nothing refuses it: the value is stored, and the block acts. -/

namespace Sys2Proof.Machine

/-- A write that nothing refuses: the value is stored, and its block acts. -/
theorem writeRow_of_writable (s : State) (p : Port) (a v : Nat) (h : writable s p a v = true) :
    writeRow s p a v = regHook (written s a v) a (s.reg (elementOf s a)) v := by
  simp only [writable, Bool.and_eq_true, Bool.not_eq_true'] at h
  obtain ⟨⟨h1, h2⟩, h3⟩ := h
  cases hd : regDefAt a with
  | none => simp [hd] at h3
  | some d =>
    simp only [hd] at h3
    have hr : writeRefusal s p d a v = none := by simpa using h3
    simp [writeRow, h1, regWrite, hd, h2, hr, regApply, written]

theorem indexIn_mul (base stride count i : Nat) (hs : stride ≠ 0) (hi : i < count) :
    indexIn (base + stride * i) base stride count = some i := by
  have hp : 0 < stride := Nat.pos_of_ne_zero hs
  simp [indexIn, hs, hi, Nat.mul_div_cancel_left _ hp]

theorem indexIn_below (a base stride count : Nat) (h : a < base) : indexIn a base stride count = none := by
  simp [indexIn, h]

theorem indexIn_above (a base stride count : Nat) (hs : stride ≠ 0) (h : base + stride * count ≤ a) :
    indexIn a base stride count = none := by
  have hp : 0 < stride := Nat.pos_of_ne_zero hs
  have hc : ¬ ((a - base) / stride < count) := by
    rw [Nat.div_lt_iff_lt_mul hp, Nat.mul_comm]
    omega
  simp only [indexIn, hs, if_false, hc, and_false]
  split <;> rfl

/-! ### What a stored value leaves as it was -/

theorem written_eq (s : State) (a v : Nat) :
    written s a v = s ∨ ∃ w, written s a v = s.setReg (elementOf s a) w := by
  unfold written
  split
  · exact .inr ⟨_, rfl⟩
  · exact .inl rfl

theorem written_reg_of_ne (s : State) (a v x : Nat) (h : x ≠ elementOf s a) : (written s a v).reg x = s.reg x := by
  rcases written_eq s a v with e | ⟨w, e⟩ <;> rw [e]
  exact State.reg_setReg_of_ne s _ _ _ h

theorem written_get (s : State) (a v : Nat) (f : Field) (h : f.addr ≠ elementOf s a) : (written s a v).get f = s.get f := by
  simp only [State.get, written_reg_of_ne s a v _ h]

theorem written_flag (s : State) (a v : Nat) (f : Field) (h : f.addr ≠ elementOf s a) :
    (written s a v).flag f = s.flag f := by
  simp only [State.flag, written_get s a v f h]

/-! ### A field that a write stores -/

theorem Field.testBit_extract (f : Field) (w i : Nat) : (f.extract w).testBit i = (decide (i < f.width) && w.testBit (f.lo + i)) := by
  simp only [Field.extract, Nat.testBit_mod_two_pow, Nat.testBit_div_two_pow, Nat.add_comm]

/-- R2: a field that a write stores holds the value written. -/
theorem mergeWrite_extract (d : RegDef) (a old v : Nat) (f : Field) (hb : f.lo + f.width ≤ 32)
    (hm : ∀ i, i < f.width → (storedMask d a).testBit (f.lo + i) = true)
    (hw : ∀ i, i < f.width → d.w1c.testBit (f.lo + i) = false)
    (hs : storedMask d a < 4294967296) (hc : d.w1c < 4294967296) : f.extract (mergeWrite d a old v) = f.extract v := by
  apply Nat.eq_of_testBit_eq
  intro i
  simp only [Field.testBit_extract, mergeWrite]
  by_cases hi : i < f.width
  · have c1 : Nat.land d.w1c v < 2 ^ 32 := Nat.lt_of_le_of_lt Nat.and_le_left hc
    have e1 : (0xFFFFFFFF - Nat.land d.w1c v : Nat) = 2 ^ 32 - (Nat.land d.w1c v + 1) := by omega
    have e2 : (0xFFFFFFFF - storedMask d a : Nat) = 2 ^ 32 - (storedMask d a + 1) := by omega
    have t1 := Nat.testBit_two_pow_sub_succ c1 (f.lo + i)
    have t2 := Nat.testBit_two_pow_sub_succ (n := 32) hs (f.lo + i)
    have lt : f.lo + i < 32 := by omega
    rw [e1, e2]
    show (decide (i < f.width) && Nat.testBit ((_ ||| _) &&& _) (f.lo + i)) = _
    rw [Nat.testBit_and, Nat.testBit_or]
    show (decide (i < f.width) && ((Nat.testBit (old &&& _) (f.lo + i) || Nat.testBit (v &&& _) (f.lo + i)) && _)) = _
    rw [Nat.testBit_and, Nat.testBit_and, t1, t2, hm i hi]
    simp [lt, hi, hw i hi]
  · simp [hi]

theorem written_get_stored (s : State) (a v : Nat) (d : RegDef) (f : Field) (hd : regDefAt a = some d) (he : elementOf s a = f.addr)
    (hb : f.lo + f.width ≤ 32) (hm : ∀ i, i < f.width → (storedMask d a).testBit (f.lo + i) = true)
    (hw : ∀ i, i < f.width → d.w1c.testBit (f.lo + i) = false)
    (hs : storedMask d a < 4294967296) (hc : d.w1c < 4294967296) : (written s a v).get f = f.extract v := by
  simp only [written, hd, he, State.get, State.reg_setReg_self, Field.extract_cut _ _ hb]
  exact mergeWrite_extract d a _ v f hb hm hw hs hc

end Sys2Proof.Machine
end

