-- ==== Sys2Proof/Laws/Hooks.lean ====
section
/-! SUPPORT. What a block does when one of its registers is written: one law for each register that a command of its own
writes. -/

namespace Sys2Proof.Machine

/-- A command that is a register write: the write is stored, the block acts. -/
theorem write_row {c : Instr} {s : State} {p : Port} {a v : Nat} (f : State → State)
    (hx : exec c s = .next (settle s (writeRow s p a v))) (h : writable s p a v = true)
    (hk : ∀ t, regHook t a (s.reg (elementOf s a)) v = f t) :
    exec c s = .next (settle s (f (written s a v))) := by
  rw [hx, writeRow_of_writable s p a v h, hk]

/-! ### Registers that no index selects -/

theorem elementOf_self (s : State) (a : Nat) (h : a < 0x1A8C ∨ 0x2C80 ≤ a ∧ a < 0x7800 ∨ 0x7900 ≤ a) : elementOf s a = a := by
  have e : ∀ b, (0x1A8C ≤ b ∧ b < 0x2C80 ∨ 0x7800 ≤ b ∧ b < 0x7900) → a ≠ b := by omega
  simp only [elementOf]
  rw [if_neg (by omega), if_neg (e _ (by decide)), if_neg (e _ (by decide)), if_neg (e _ (by decide)), if_neg (e _ (by decide)),
    if_neg (e _ (by decide)), if_neg (e _ (by decide)), if_neg (e _ (by decide)), if_neg (e _ (by decide)),
    if_neg (by simp only [R.SND_RES_FREQ, R.SND_RES_PHASE]; omega), if_neg (by simp only [R.SND_SUM_H0, R.SND_ARC_CNT]; omega)]

/-! ### A rail's registers -/

/-- The register of rail `n` at offset `w`. -/
theorem regHook_rail (t : State) (n w old v : Nat) (hn : n < 64) (hw : w < 0x80) :
    regHook t (0x4000 + 0x80 * n + w) old v = hookRail t (0x4000 + 0x80 * n + w) old v := by
  have h : 0x4000 ≤ 0x4000 + 0x80 * n + w ∧ 0x4000 + 0x80 * n + w < 0x6000 := by omega
  simp only [regHook, h, and_self, if_true]

theorem railDiv (n w : Nat) (hw : w < 0x80) : (0x4000 + 0x80 * n + w - 0x4000) / 0x80 = n := by omega
theorem railMod (n w : Nat) (hw : w < 0x80) : (0x4000 + 0x80 * n + w) % 0x80 = w := by omega

theorem regHook_enCtrl (t : State) (n : Fin 64) (old v : Nat) :
    regHook t (R.RAILn_EN_CTRL n) old v = if bitOf v 1 then latchOff t n else if bitOf v 0 then latchOn t n else t := by
  have ha : R.RAILn_EN_CTRL n = 0x4000 + 0x80 * n + 0x1C := by simp only [R.RAILn_EN_CTRL]; omega
  rw [ha, regHook_rail t n 0x1C old v n.isLt (by decide)]
  simp only [hookRail, railMod n 0x1C (by decide), railDiv n 0x1C (by decide)]

theorem regHook_fineCfg (t : State) (n : Fin 64) (old v : Nat) :
    regHook t (R.RAILn_FINE_CFG n) old v = fineCfgWritten t n old := by
  have ha : R.RAILn_FINE_CFG n = 0x4000 + 0x80 * n + 0x40 := by simp only [R.RAILn_FINE_CFG]; omega
  rw [ha, regHook_rail t n 0x40 old v n.isLt (by decide)]
  simp only [hookRail, railMod n 0x40 (by decide), railDiv n 0x40 (by decide)]

theorem regHook_fineWinHi (t : State) (n : Fin 64) (old v : Nat) :
    regHook t (R.RAILn_FINE_WIN_HI n) old v = fineWindowWritten t n := by
  have ha : R.RAILn_FINE_WIN_HI n = 0x4000 + 0x80 * n + 0x50 := by simp only [R.RAILn_FINE_WIN_HI]; omega
  rw [ha, regHook_rail t n 0x50 old v n.isLt (by decide)]
  simp only [hookRail, railMod n 0x50 (by decide), railDiv n 0x50 (by decide)]

theorem regHook_fineWinLo (t : State) (n : Fin 64) (old v : Nat) :
    regHook t (R.RAILn_FINE_WIN_LO n) old v = fineWindowWritten t n := by
  have ha : R.RAILn_FINE_WIN_LO n = 0x4000 + 0x80 * n + 0x54 := by simp only [R.RAILn_FINE_WIN_LO]; omega
  rw [ha, regHook_rail t n 0x54 old v n.isLt (by decide)]
  simp only [hookRail, railMod n 0x54 (by decide), railDiv n 0x54 (by decide)]

theorem regHook_calOffset (t : State) (n : Fin 64) (old v : Nat) :
    regHook t (R.RAILn_CAL_OFFSET n) old v = calCoeffWrite t n false v := by
  have ha : R.RAILn_CAL_OFFSET n = 0x4000 + 0x80 * n + 0x6C := by simp only [R.RAILn_CAL_OFFSET]; omega
  rw [ha, regHook_rail t n 0x6C old v n.isLt (by decide)]
  simp only [hookRail, railMod n 0x6C (by decide), railDiv n 0x6C (by decide)]

theorem regHook_calGain (t : State) (n : Fin 64) (old v : Nat) :
    regHook t (R.RAILn_CAL_GAIN n) old v = calCoeffWrite t n true v := by
  have ha : R.RAILn_CAL_GAIN n = 0x4000 + 0x80 * n + 0x70 := by simp only [R.RAILn_CAL_GAIN]; omega
  rw [ha, regHook_rail t n 0x70 old v n.isLt (by decide)]
  simp only [hookRail, railMod n 0x70 (by decide), railDiv n 0x70 (by decide)]

/-! ### The registers below the rails, by their block -/

theorem quireCtrl_none (a : Nat) (h : a < 0x2404 ∨ 0x2804 ≤ a) : indexIn a (R.QUIREq_CTRL 0) 0x40 16 = none := by
  rcases h with h | h
  · exact indexIn_below _ _ _ _ (by simp only [R.QUIREq_CTRL]; omega)
  · exact indexIn_above _ _ _ _ (by decide) (by simp only [R.QUIREq_CTRL]; omega)

theorem regHook_angle (t : State) (a old v : Nat) (h1 : 0x0400 ≤ a) (h2 : a < 0x0800) : regHook t a old v = hookAngle t a old v := by
  simp only [regHook, quireCtrl_none a (by omega), Option.isSome_none, Bool.false_eq_true, or_false]
  rw [if_neg (by omega), if_neg (by simp only [R.SEQ_CTRL]; omega), if_pos ⟨h1, h2⟩]

theorem regHook_pool (t : State) (a old v : Nat) (h1 : 0x1800 ≤ a) (h2 : a < 0x2400) : regHook t a old v = hookPool t a v := by
  simp only [regHook, quireCtrl_none a (by omega), Option.isSome_none, Bool.false_eq_true, or_false]
  rw [if_neg (by omega), if_neg (by simp only [R.SEQ_CTRL]; omega), if_neg (by omega), if_pos ⟨h1, h2⟩]

theorem regHook_work (t : State) (a old v : Nat) (h1 : 0x2804 ≤ a) (h2 : a < 0x4000) (hs : a ≠ R.SEQ_CTRL) :
    regHook t a old v = hookWork t a old v := by
  simp only [regHook, quireCtrl_none a (by omega), Option.isSome_none, Bool.false_eq_true, or_false]
  rw [if_neg (by omega), if_neg hs, if_neg (by omega), if_neg (by omega), if_pos (by omega)]

theorem regHook_link (t : State) (a old v : Nat) (h : 0x6800 ≤ a ∧ a < 0x7400 ∨ 0x7C00 ≤ a) :
    regHook t a old v = hookLink t a old v := by
  simp only [regHook, quireCtrl_none a (by omega), Option.isSome_none, Bool.false_eq_true, or_false]
  rw [if_neg (by omega), if_neg (by simp only [R.SEQ_CTRL]; omega), if_neg (by omega), if_neg (by omega), if_neg (by omega),
    if_pos (by omega)]

theorem regHook_record (t : State) (a old v : Nat) (h : 0x0800 ≤ a ∧ a < 0x1800 ∨ 0x6000 ≤ a ∧ a < 0x6800) :
    regHook t a old v = hookRecord t a old v := by
  simp only [regHook, quireCtrl_none a (by omega), Option.isSome_none, Bool.false_eq_true, or_false]
  rw [if_neg (by omega), if_neg (by simp only [R.SEQ_CTRL]; omega), if_neg (by omega), if_neg (by omega), if_neg (by omega),
    if_neg (by simp only [R.RST_WDN]; omega)]

theorem regHook_angCfg (t : State) (old v : Nat) : regHook t R.ANG_CFG old v = angCfgWritten t old := by
  rw [regHook_angle t _ old v (by decide) (by decide)]
  simp only [hookAngle]
  rw [if_neg (by decide), if_pos trivial]

theorem regHook_angCtrl (t : State) (old v : Nat) : regHook t R.ANG_CTRL old v = 
    (let s := if bitOf v 1 then angResel t else t; if bitOf v 0 then hopStore s else s) := by
  rw [regHook_angle t _ old v (by decide) (by decide)]
  simp only [hookAngle]
  rw [if_neg (by decide), if_neg (by decide), if_pos trivial]

theorem regHook_angInc (t : State) (old v : Nat) : regHook t R.ANG_INC old v = angIncWrite t v := by
  rw [regHook_angle t _ old v (by decide) (by decide)]
  simp only [hookAngle]
  rw [if_neg (by decide), if_neg (by decide), if_neg (by decide), if_pos trivial]

theorem regHook_angFreeInc (t : State) (old v : Nat) : regHook t R.ANG_FREE_INC old v = angFreeIncWrite t v := by
  rw [regHook_angle t _ old v (by decide) (by decide)]
  simp only [hookAngle]
  rw [if_neg (by decide), if_neg (by decide), if_neg (by decide), if_neg (by decide), if_pos trivial]

theorem regHook_angPhase (t : State) (old v : Nat) : regHook t R.ANG_PHASE old v = angPhaseWrite t v := by
  rw [regHook_angle t _ old v (by decide) (by decide)]
  simp only [hookAngle]
  rw [if_neg (by decide), if_neg (by decide), if_neg (by decide), if_neg (by decide), if_neg (by decide), if_pos trivial]

theorem regHook_clkCtrl (t : State) (old v : Nat) : regHook t R.CLK_CTRL old v = 
    (let s := if bitOf v 0 then relock t else t; if bitOf v 1 then refReturn s else s) := by
  rw [regHook_angle t _ old v (by decide) (by decide)]
  simp only [hookAngle]
  rw [if_pos trivial]

theorem regHook_benchLayout (t : State) (old v : Nat) : regHook t R.BENCH_LAYOUT old v = poolServe (syncAssay (syncPoolMap t)) := by
  rw [regHook_pool t _ old v (by decide) (by decide)]
  simp only [hookPool]
  rw [if_pos trivial]

theorem regHook_poolCalOffset (t : State) (old v : Nat) : regHook t R.POOL_CAL_OFFSET old v = poolCoeffWrite t false v := by
  rw [regHook_pool t _ old v (by decide) (by decide)]
  simp only [hookPool]
  rw [if_neg (by decide), if_pos trivial]

theorem regHook_poolCalGain (t : State) (old v : Nat) : regHook t R.POOL_CAL_GAIN old v = poolCoeffWrite t true v := by
  rw [regHook_pool t _ old v (by decide) (by decide)]
  simp only [hookPool]
  rw [if_neg (by decide), if_neg (by decide), if_pos trivial]

theorem regHook_margCtrl (t : State) (old v : Nat) : regHook t R.MARG_CTRL old v = 
    (let n := F.MARG_CTRL_RAIL.extract v
     let s := if bitOf v 31 then abortTest t n 8 false false else t
     if bitOf v 30 ∧ F.MARG_CTRL_DIR.extract v ≠ 0 then startMargin s n (F.MARG_CTRL_DIR.extract v) else s) := by
  rw [regHook_work t _ old v (by decide) (by decide) (by decide)]
  simp only [hookWork]
  rw [if_pos trivial]

theorem regHook_sndCtrl (t : State) (old v : Nat) : regHook t R.SND_CTRL old v = 
    (let s := if bitOf v 1 then abortSounding t else t
     if bitOf v 0 then (startSounding s).setReg R.SND_CTRL 1 else s) := by
  rw [regHook_work t _ old v (by decide) (by decide) (by decide)]
  simp only [hookWork]
  rw [if_neg (by decide), if_pos trivial]

theorem regHook_pmXferCtrl (t : State) (old v : Nat) : regHook t R.PM_XFER_CTRL old v = if bitOf v 31 then xferStart t else t := by
  rw [regHook_work t _ old v (by decide) (by decide) (by decide)]
  simp only [hookWork]
  rw [if_neg (by decide), if_neg (by decide), if_pos trivial]

theorem regHook_fltClear (t : State) (old v : Nat) : regHook t R.FLT_CLEAR old v = hostClear t v := by
  rw [regHook_record t _ old v (by decide)]
  simp only [hookRecord]
  rw [if_pos trivial]

theorem regHook_fltInj (t : State) (old v : Nat) : regHook t R.FLT_INJ old v = injectWrite t v := by
  rw [regHook_record t _ old v (by decide)]
  simp only [hookRecord]
  rw [if_neg (by decide), if_pos trivial]

theorem regHook_folioCtrl (t : State) (old v : Nat) : regHook t R.FOLIO_CTRL old v = 
    (let s := if bitOf v 29 then folioDisarm t else t
     let s := if bitOf v 30 then folioArm s else s
     let s := folioRelease s (v % 16)
     if bitOf v 31 then folioTrigger s 1 else s) := by
  rw [regHook_record t _ old v (by decide)]
  simp only [hookRecord]
  rw [if_neg (by decide), if_neg (by decide), if_pos trivial]

theorem regHook_nvmStore (t : State) (old v : Nat) :
    regHook t R.NVM_STORE old v = if v % 4 = 0 then t else startStore t (bitOf v 0) (bitOf v 1) := by
  have i : indexIn R.NVM_STORE (R.QUIREq_CTRL 0) 0x40 16 = none := quireCtrl_none _ (by decide)
  simp only [regHook, i, Option.isSome_none, Bool.false_eq_true, or_false]
  rw [if_neg (by decide), if_neg (by decide), if_neg (by decide), if_neg (by decide), if_neg (by decide), if_neg (by decide)]
  simp only [hookRecord]
  rw [if_neg (by decide), if_neg (by decide), if_neg (by decide), if_pos trivial]

theorem regHook_ldgSec (t : State) (old v : Nat) : regHook t R.LDG_SEC old v = secWrite t v := by
  have i : indexIn R.LDG_SEC (R.QUIREq_CTRL 0) 0x40 16 = none := quireCtrl_none _ (by decide)
  simp only [regHook, i, Option.isSome_none, Bool.false_eq_true, or_false]
  rw [if_neg (by decide), if_neg (by decide), if_neg (by decide), if_neg (by decide), if_neg (by decide), if_neg (by decide)]
  simp only [hookRecord]
  rw [if_neg (by decide), if_neg (by decide), if_neg (by decide), if_neg (by decide), if_pos trivial]

theorem regHook_rstWdn (t : State) (old v : Nat) :
    regHook t R.RST_WDN old v = if bitOf v 31 then (resetOrder t).1 else t := by
  have i : indexIn R.RST_WDN (R.QUIREq_CTRL 0) 0x40 16 = none := quireCtrl_none _ (by decide)
  simp only [regHook, i, Option.isSome_none, Bool.false_eq_true, or_false]
  rw [if_neg (by decide), if_neg (by decide), if_neg (by decide), if_neg (by decide), if_neg (by decide), if_pos (by decide)]
  simp only [hookLink]
  rw [if_neg (by decide), if_neg (by decide), if_neg (by decide), if_neg (by decide), if_pos trivial]

theorem regHook_wdnCfg (t : State) (old v : Nat) : regHook t R.WDN_CFG old v = 
    (if F.WDN_CFG_HB_PER.extract old == t.get F.WDN_CFG_HB_PER then t else admitRequest t) := by
  rw [regHook_link t _ old v (by decide)]
  simp only [hookLink]
  rw [if_neg (by decide), if_neg (by decide), if_neg (by decide), if_pos trivial]

theorem regHook_cmdCfg (t : State) (p : Port) (old v : Nat) :
    regHook t (R.CMD_Pp_CFG (portIdx p)) old v = modeWritten t (portIdx p) := by
  cases p <;>
    (simp only [portIdx]
     rw [regHook_link t _ old v (by decide)]
     simp only [hookLink]
     rw [if_neg (by decide), if_neg (by decide), if_neg (by decide), if_neg (by decide), if_neg (by decide)])
  · rw [if_pos trivial]
  · rw [if_neg (by decide), if_pos trivial]

/-! ### Registers of which there are several -/

theorem indexIn_other (base w stride i k count : Nat) (hk : k < stride) (hw : w < stride) (h : k ≠ w) :
    indexIn (base + stride * i + k) (base + w) stride count = none := by
  have hs : stride ≠ 0 := by omega
  simp only [indexIn, hs, if_false]
  by_cases hlt : base + stride * i + k < base + w
  · rw [if_pos hlt]
  · rw [if_neg hlt, if_neg]
    rintro ⟨hm, -⟩
    have e : base + stride * i + k - (base + w) = stride * i + k - w := by omega
    rw [e] at hm
    obtain ⟨q, hq⟩ := Nat.dvd_of_mod_eq_zero hm
    by_cases hkw : w ≤ k
    · have : stride * i + (k - w) = stride * q := by omega
      have h2 : (stride * i + (k - w)) % stride = k - w := by
        rw [Nat.mul_add_mod, Nat.mod_eq_of_lt (by omega)]
      rw [this, Nat.mul_mod_right] at h2
      omega
    · have hi : 0 < i := by
        rcases Nat.eq_zero_or_pos i with h0 | h0
        · subst h0; omega
        · exact h0
      obtain ⟨j, rfl⟩ : ∃ j, i = j + 1 := ⟨i - 1, by omega⟩
      have : stride * j + (stride + k - w) = stride * q := by rw [Nat.mul_add] at hq; omega
      have h2 : (stride * j + (stride + k - w)) % stride = stride + k - w := by
        rw [Nat.mul_add_mod, Nat.mod_eq_of_lt (by omega)]
      rw [this, Nat.mul_mod_right] at h2
      omega

theorem regHook_benchCtrl (t : State) (b : Fin 8) (old v : Nat) : regHook t (R.BENCHb_CTRL b) old v =
    (let s := if bitOf v 0 then benchStart t b else t
     let s := if bitOf v 1 then benchStop s b else s
     let s := if bitOf v 3 then poolServe (injTrigger s b) else s
     if bitOf v 2 then poolServe (regTrigger s b) else s) := by
  have hb := b.isLt
  have h1 : R.BENCHb_CTRL b < 0x2000 := by simp only [R.BENCHb_CTRL]; omega
  have h2 : 0x1C24 ≤ R.BENCHb_CTRL b := by simp only [R.BENCHb_CTRL]; omega
  have e : ∀ x, (x < 0x1C24 ∨ 0x2000 ≤ x) → R.BENCHb_CTRL b ≠ x := by omega
  have i : indexIn (R.BENCHb_CTRL b) (R.BENCHb_CTRL 0) 0x20 8 = some b.val := indexIn_mul _ _ _ _ (by decide) hb
  rw [regHook_pool t _ old v (by omega) (by omega)]
  simp only [hookPool, i]
  rw [if_neg (e _ (by decide)), if_neg (e _ (by decide)), if_neg (e _ (by decide)), if_neg (e _ (by decide))]

theorem elementOf_pool (s : State) (a : Nat) (h1 : 0x1C00 ≤ a) (h2 : a < 0x2000) : elementOf s a = a := by
  have e : ∀ x, (x < 0x1C00 ∨ 0x2000 ≤ x) → a ≠ x := by omega
  simp only [elementOf]
  rw [if_neg (by omega), if_neg (e _ (by decide)), if_neg (e _ (by decide)), if_neg (e _ (by decide)), if_neg (e _ (by decide)),
    if_neg (e _ (by decide)), if_neg (e _ (by decide)), if_neg (e _ (by decide)), if_neg (e _ (by decide)),
    if_neg (by simp only [R.SND_RES_FREQ]; omega), if_neg (by simp only [R.SND_SUM_H0]; omega)]

theorem regHook_partner (t : State) (k : Fin 128) (old v : Nat) :
    regHook t (R.PMPk_CFG k) old v = partnerCfgWritten t k old := by
  have hk := k.isLt
  have h1 : R.PMPk_CFG k < 0x4000 := by simp only [R.PMPk_CFG]; omega
  have h2 : 0x3800 ≤ R.PMPk_CFG k := by simp only [R.PMPk_CFG]; omega
  have e : ∀ x, (x < 0x3800 ∨ 0x4000 ≤ x) → R.PMPk_CFG k ≠ x := by omega
  have i : indexIn (R.PMPk_CFG k) (R.PMPk_CFG 0) 0x10 128 = some k.val := indexIn_mul _ _ _ _ (by decide) hk
  have j : indexIn (R.PMPk_CFG k) (R.PMp_CFG 0) 0x40 4 = none :=
    indexIn_above _ _ _ _ (by decide) (by simp only [R.PMp_CFG]; omega)
  rw [regHook_work t _ old v (by omega) h1 (e _ (by decide))]
  simp only [hookWork, i, j]
  rw [if_neg (e _ (by decide)), if_neg (e _ (by decide)), if_neg (e _ (by decide))]

theorem regHook_tallyCmp (t : State) (n : Fin 32) (old v : Nat) : regHook t (R.Tn_CMP n) old v = tallyWrite t n 0 v := by
  have hn := n.isLt
  have h : 0x1000 ≤ R.Tn_CMP n ∧ R.Tn_CMP n < 0x1400 := by simp only [R.Tn_CMP]; omega
  have e : ∀ x, (x < 0x1000 ∨ 0x1400 ≤ x) → R.Tn_CMP n ≠ x := by omega
  have i : indexIn (R.Tn_CMP n) (R.Tn_CMP 0) 0x20 32 = some n.val := indexIn_mul _ _ _ _ (by decide) hn
  rw [regHook_record t _ old v (by omega)]
  simp only [hookRecord, i]
  rw [if_neg (e _ (by decide)), if_neg (e _ (by decide)), if_neg (e _ (by decide)), if_neg (e _ (by decide)),
    if_neg (e _ (by decide))]

theorem regHook_tallyIntv (t : State) (n : Fin 32) (old v : Nat) : regHook t (R.Tn_INTV n) old v = tallyWrite t n 1 v := by
  have hn := n.isLt
  have h : 0x1000 ≤ R.Tn_INTV n ∧ R.Tn_INTV n < 0x1400 := by simp only [R.Tn_INTV]; omega
  have e : ∀ x, (x < 0x1000 ∨ 0x1400 ≤ x) → R.Tn_INTV n ≠ x := by omega
  have i : indexIn (R.Tn_INTV n) (R.Tn_INTV 0) 0x20 32 = some n.val := indexIn_mul _ _ _ _ (by decide) hn
  have j : indexIn (R.Tn_INTV n) (R.Tn_CMP 0) 0x20 32 = none := by
    have hc : R.Tn_INTV n = 0x1000 + 0x20 * n + 0xC := by simp only [R.Tn_INTV]; omega
    rw [hc]; exact indexIn_other 0x1000 8 0x20 n 12 32 (by decide) (by decide) (by decide)
  rw [regHook_record t _ old v (by omega)]
  simp only [hookRecord, i, j]
  rw [if_neg (e _ (by decide)), if_neg (e _ (by decide)), if_neg (e _ (by decide)), if_neg (e _ (by decide)),
    if_neg (e _ (by decide))]

theorem regHook_tallyCfg (t : State) (n : Fin 32) (old v : Nat) : regHook t (R.Tn_CFG n) old v = tallyWrite t n 2 v := by
  have hn := n.isLt
  have h : 0x1000 ≤ R.Tn_CFG n ∧ R.Tn_CFG n < 0x1400 := by simp only [R.Tn_CFG]; omega
  have e : ∀ x, (x < 0x1000 ∨ 0x1400 ≤ x) → R.Tn_CFG n ≠ x := by omega
  have i : indexIn (R.Tn_CFG n) (R.Tn_CFG 0) 0x20 32 = some n.val := indexIn_mul _ _ _ _ (by decide) hn
  have j : ∀ w, 0 < w → w < 0x20 → indexIn (R.Tn_CFG n) (0x1000 + w) 0x20 32 = none :=
    fun w h0 hw => indexIn_other 0x1000 w 0x20 n 0 32 (by decide) hw (by omega)
  have j1 : indexIn (R.Tn_CFG n) (R.Tn_CMP 0) 0x20 32 = none := j 8 (by decide) (by decide)
  have j2 : indexIn (R.Tn_CFG n) (R.Tn_INTV 0) 0x20 32 = none := j 12 (by decide) (by decide)
  rw [regHook_record t _ old v (by omega)]
  simp only [hookRecord, i, j1, j2]
  rw [if_neg (e _ (by decide)), if_neg (e _ (by decide)), if_neg (e _ (by decide)), if_neg (e _ (by decide)),
    if_neg (e _ (by decide))]

theorem regHook_quireCtrl (t : State) (q : Fin 16) (old v : Nat) :
    regHook t (R.QUIREq_CTRL q) old v = hookStarts t (R.QUIREq_CTRL q) v := by
  have hq := q.isLt
  have i : indexIn (R.QUIREq_CTRL q) (R.QUIREq_CTRL 0) 0x40 16 = some q.val := indexIn_mul _ _ _ _ (by decide) hq
  simp only [regHook, i, Option.isSome_some, or_true, if_true]
  rw [if_neg (by simp only [R.QUIREq_CTRL]; omega)]

theorem regHook_seqCtrl (t : State) (old v : Nat) : regHook t R.SEQ_CTRL old v = hookStarts t R.SEQ_CTRL v := by
  simp only [regHook]
  rw [if_neg (by decide), if_pos (by decide)]

theorem elementOf_quireCtrl (s : State) (q : Fin 16) : elementOf s (R.QUIREq_CTRL q) = R.QUIREq_CTRL q := by
  have hq := q.isLt
  have h : 0x2400 ≤ R.QUIREq_CTRL q ∧ R.QUIREq_CTRL q < 0x2800 := by simp only [R.QUIREq_CTRL]; omega
  have m : (R.QUIREq_CTRL q - 0x2400) % 0x40 = 4 := by simp only [R.QUIREq_CTRL]; omega
  simp only [elementOf, h, and_self, if_true, m]
  rw [if_neg (by decide)]

theorem regHook_members (t : State) (q : Fin 16) (hi : Bool) (old v : Nat) :
    regHook t (if hi then R.QUIREq_MEMBERS_HI q else R.QUIREq_MEMBERS_LO q) old v = t := by
  have hq := q.isLt
  generalize ha : (if hi then R.QUIREq_MEMBERS_HI q else R.QUIREq_MEMBERS_LO q) = a
  have key : ∃ w, (w = 0xC ∨ w = 0x10) ∧ a = 0x2400 + 0x40 * q + w := by
    cases hi
    · exact ⟨0xC, .inl rfl, by subst ha; simp only [R.QUIREq_MEMBERS_LO, Bool.false_eq_true, if_false]; omega⟩
    · exact ⟨0x10, .inr rfl, by subst ha; simp only [R.QUIREq_MEMBERS_HI, if_true]; omega⟩
  obtain ⟨w, hw, rfl⟩ := key
  have i : indexIn (0x2400 + 0x40 * q + w) (R.QUIREq_CTRL 0) 0x40 16 = none :=
    indexIn_other 0x2400 4 0x40 q w 16 (by omega) (by decide) (by omega)
  have rec' : ∀ b st c, 0x2400 ≥ b + st * c → st ≠ 0 → indexIn (0x2400 + 0x40 * q + w) b st c = none :=
    fun b st c h1 h2 => indexIn_above _ _ _ _ h2 (Nat.le_trans h1 (by omega))
  simp only [regHook, i, Option.isSome_none, Bool.false_eq_true, or_false]
  rw [if_neg (by omega), if_neg (by simp only [R.SEQ_CTRL]; omega), if_neg (by omega), if_neg (by omega), if_neg (by omega),
    if_neg (by simp only [R.RST_WDN]; omega)]
  simp only [hookRecord]
  rw [if_neg (by simp only [R.FLT_CLEAR]; omega), if_neg (by simp only [R.FLT_INJ]; omega),
    if_neg (by simp only [R.FOLIO_CTRL]; omega), if_neg (by simp only [R.NVM_STORE]; omega),
    if_neg (by simp only [R.LDG_SEC]; omega), rec' _ _ _ (by decide) (by decide), rec' _ _ _ (by decide) (by decide),
    rec' _ _ _ (by decide) (by decide), rec' _ _ _ (by decide) (by decide)]

theorem regHook_barCfg (t : State) (k : Fin 4) (old v : Nat) : regHook t (R.RING_BARk_CFG k) old v = clearEntry t k := by
  have hk := k.isLt
  have h : 0x6940 ≤ R.RING_BARk_CFG k ∧ R.RING_BARk_CFG k < 0x69C0 := by simp only [R.RING_BARk_CFG]; omega
  have e : ∀ x, (x < 0x6940 ∨ 0x69C0 ≤ x) → R.RING_BARk_CFG k ≠ x := by omega
  have i : indexIn (R.RING_BARk_CFG k) (R.RING_BARk_CFG 0) 0x20 4 = some k.val := indexIn_mul _ _ _ _ (by decide) hk
  rw [regHook_link t _ old v (by omega)]
  simp only [hookLink, i]
  rw [if_neg (e _ (by decide)), if_neg (e _ (by decide)), if_neg (e _ (by decide)), if_neg (e _ (by decide)),
    if_neg (e _ (by decide)), if_neg (e _ (by decide)), if_neg (e _ (by decide))]

theorem regHook_barCtrl (t : State) (k : Fin 4) (old v : Nat) : regHook t (R.RING_BARk_CTRL k) old v =
    (let s := if bitOf v 0 then clearEntry t k else t; if bitOf v 1 then forceEntry s k else s) := by
  have hk := k.isLt
  have h : 0x6940 ≤ R.RING_BARk_CTRL k ∧ R.RING_BARk_CTRL k < 0x69C0 := by simp only [R.RING_BARk_CTRL]; omega
  have e : ∀ x, (x < 0x6940 ∨ 0x69C0 ≤ x) → R.RING_BARk_CTRL k ≠ x := by omega
  have i : indexIn (R.RING_BARk_CTRL k) (R.RING_BARk_CTRL 0) 0x20 4 = some k.val := indexIn_mul _ _ _ _ (by decide) hk
  have j : indexIn (R.RING_BARk_CTRL k) (R.RING_BARk_CFG 0) 0x20 4 = none := by
    have hc : R.RING_BARk_CTRL k = 0x6940 + 0x20 * k + 0xC := by simp only [R.RING_BARk_CTRL]; omega
    rw [hc]; exact indexIn_other 0x6940 0 0x20 k 12 4 (by decide) (by decide) (by decide)
  rw [regHook_link t _ old v (by omega)]
  simp only [hookLink, i, j]
  rw [if_neg (e _ (by decide)), if_neg (e _ (by decide)), if_neg (e _ (by decide)), if_neg (e _ (by decide)),
    if_neg (e _ (by decide)), if_neg (e _ (by decide)), if_neg (e _ (by decide))]

theorem regHook_pairNodes (t : State) (k : Fin 8) (old v : Nat) :
    regHook t (R.WDN_PAIRk_NODES k) old v = syncPair (t.modPair k fun _ => default) k := by
  have hk := k.isLt
  have h : 0x7144 ≤ R.WDN_PAIRk_NODES k ∧ R.WDN_PAIRk_NODES k < 0x71C0 := by simp only [R.WDN_PAIRk_NODES]; omega
  have e : ∀ x, (x < 0x7144 ∨ 0x71C0 ≤ x) → R.WDN_PAIRk_NODES k ≠ x := by omega
  have i : indexIn (R.WDN_PAIRk_NODES k) (R.WDN_PAIRk_NODES 0) 0x10 8 = some k.val := indexIn_mul _ _ _ _ (by decide) hk
  have j : ∀ b, b + 0x20 * 4 ≤ 0x7144 → indexIn (R.WDN_PAIRk_NODES k) b 0x20 4 = none :=
    fun b hb => indexIn_above _ _ _ _ (by decide) (by omega)
  rw [regHook_link t _ old v (by omega)]
  simp only [hookLink, i, j (R.RING_BARk_CFG 0) (by decide), j (R.RING_BARk_CTRL 0) (by decide)]
  rw [if_neg (e _ (by decide)), if_neg (e _ (by decide)), if_neg (e _ (by decide)), if_neg (e _ (by decide)),
    if_neg (e _ (by decide)), if_neg (e _ (by decide)), if_neg (e _ (by decide))]

/-! ### Starts of Quires -/

theorem startsOf_quire (q : Fin 16) (v : Nat) : startsOf (R.QUIREq_CTRL q) v = (if bitOf v 0 then [q.val] else [], if bitOf v 1 then [q.val] else []) := by
  have hq := q.isLt
  have i : indexIn (R.QUIREq_CTRL q) (R.QUIREq_CTRL 0) 0x40 16 = some q.val := indexIn_mul _ _ _ _ (by decide) hq
  simp only [startsOf, i]
  rw [if_neg (by simp only [R.QUIREq_CTRL, R.SEQ_CTRL]; omega)]

theorem hookStarts_quire (t : State) (q : Fin 16) (v : Nat) : hookStarts t (R.QUIREq_CTRL q) v =
    (let up := if bitOf v 0 then [q.val] else []
     let down := if bitOf v 1 then [q.val] else []
     let s := down.foldl startDown (up.foldl startUp (endAuto t 3))
     let s := if up.isEmpty && down.isEmpty then s else s.setReg (R.QUIREq_CTRL q) (v % 4)
     if bitOf v 2 then resume s q else s) := by
  have hq := q.isLt
  have i : indexIn (R.QUIREq_CTRL q) (R.QUIREq_CTRL 0) 0x40 16 = some q.val := indexIn_mul _ _ _ _ (by decide) hq
  simp only [hookStarts, startsOf_quire, i]

/-- The bits of a Quire's control word, one at a time: `f` and `g` start, `w` shows the word, `r` resumes. -/
theorem starts_only_up (f g r : State → Nat → State) (w : State → State) (t : State) (q : Nat) (b0 b1 b2 : Bool)
    (h0 : b0 = true) (h1 : b1 = false) (h2 : b2 = false) :
    (let up := if b0 then [q] else []
     let down := if b1 then [q] else []
     let s := down.foldl g (up.foldl f t)
     let s := if up.isEmpty && down.isEmpty then s else w s
     if b2 then r s q else s) = w (f t q) := by
  subst h0 h1 h2; rfl

theorem starts_only_down (f g r : State → Nat → State) (w : State → State) (t : State) (q : Nat) (b0 b1 b2 : Bool)
    (h0 : b0 = false) (h1 : b1 = true) (h2 : b2 = false) :
    (let up := if b0 then [q] else []
     let down := if b1 then [q] else []
     let s := down.foldl g (up.foldl f t)
     let s := if up.isEmpty && down.isEmpty then s else w s
     if b2 then r s q else s) = w (g t q) := by
  subst h0 h1 h2; rfl

theorem starts_only_resume (f g r : State → Nat → State) (w : State → State) (t : State) (q : Nat) (b0 b1 b2 : Bool)
    (h0 : b0 = false) (h1 : b1 = false) (h2 : b2 = true) :
    (let up := if b0 then [q] else []
     let down := if b1 then [q] else []
     let s := down.foldl g (up.foldl f t)
     let s := if up.isEmpty && down.isEmpty then s else w s
     if b2 then r s q else s) = r t q := by
  subst h0 h1 h2; rfl

/-- A write of 1, 2 or 4 to a Quire's control register; UP and DOWN read 1 while the sequence they start runs. -/
theorem hookStarts_up (t : State) (q : Fin 16) :
    hookStarts t (R.QUIREq_CTRL q) 1 = (startUp (endAuto t 3) q).setReg (R.QUIREq_CTRL q) 1 := by
  rw [hookStarts_quire]
  exact starts_only_up startUp startDown resume (·.setReg (R.QUIREq_CTRL q) 1) (endAuto t 3) q _ _ _ (by decide) (by decide)
    (by decide)

theorem hookStarts_down (t : State) (q : Fin 16) :
    hookStarts t (R.QUIREq_CTRL q) 2 = (startDown (endAuto t 3) q).setReg (R.QUIREq_CTRL q) 2 := by
  rw [hookStarts_quire]
  exact starts_only_down startUp startDown resume (·.setReg (R.QUIREq_CTRL q) 2) (endAuto t 3) q _ _ _ (by decide) (by decide)
    (by decide)

theorem hookStarts_resume (t : State) (q : Fin 16) : hookStarts t (R.QUIREq_CTRL q) 4 = resume (endAuto t 3) q := by
  rw [hookStarts_quire]
  exact starts_only_resume startUp startDown resume (·.setReg (R.QUIREq_CTRL q) 0) (endAuto t 3) q _ _ _ (by decide) (by decide)
    (by decide)

theorem hookStarts_seq (t : State) (v : Nat) : hookStarts t R.SEQ_CTRL v =
    (quireList (v / 65536)).foldl startDown ((quireList (v % 65536)).foldl startUp (endAuto t 3)) := by
  have i : indexIn R.SEQ_CTRL (R.QUIREq_CTRL 0) 0x40 16 = none := quireCtrl_none _ (by decide)
  simp only [hookStarts, startsOf, i, if_true]

theorem quireList_zero : quireList 0 = [] := by decide

/-! ### The words of MARG_CTRL -/

theorem marg_start_bits (n dir : Nat) (hn : n < 64) (hd : dir < 4) : 
   let v := F.MARG_CTRL_START.insert (F.MARG_CTRL_DIR.insert n dir) 1
   F.MARG_CTRL_RAIL.extract v = n ∧ bitOf v 31 = false ∧ bitOf v 30 = true ∧ F.MARG_CTRL_DIR.extract v = dir := by
  have e : F.MARG_CTRL_START.insert (F.MARG_CTRL_DIR.insert n dir) 1 = 1073741824 + 268435456 * dir + n := by
    simp only [Field.insert, F.MARG_CTRL_START, F.MARG_CTRL_DIR]; omega
  intro v
  have hv : v = 1073741824 + 268435456 * dir + n := e
  rw [hv]
  simp only [Field.extract, F.MARG_CTRL_RAIL, F.MARG_CTRL_DIR, bitOf, beq_iff_eq, beq_eq_false_iff_ne]
  refine ⟨?_, ?_, ?_, ?_⟩ <;> omega

theorem marg_abort_bits (n : Nat) (hn : n < 64) : 
   let v := F.MARG_CTRL_ABORT.insert n 1
   F.MARG_CTRL_RAIL.extract v = n ∧ bitOf v 31 = true ∧ bitOf v 30 = false := by
  have e : F.MARG_CTRL_ABORT.insert n 1 = 2147483648 + n := by
    simp only [Field.insert, F.MARG_CTRL_ABORT]; omega
  intro v
  have hv : v = 2147483648 + n := e
  rw [hv]
  simp only [Field.extract, F.MARG_CTRL_RAIL, bitOf, beq_iff_eq, beq_eq_false_iff_ne]
  refine ⟨?_, ?_, ?_⟩ <;> omega

end Sys2Proof.Machine
end

