-- ==== Sys2Proof/Laws/Jtag.lean ====
section
/-! SUPPORT. What an edge of TCK leaves alone. -/

namespace Sys2Proof.Machine

/-- What Capture-DR does beside its bits: at most, free values are drawn. -/
theorem tapCapture_eq (s : State) : ∃ n l, tapCapture s = ({ s with freeCount := n }, l) := by
  unfold tapCapture
  split
  · exact ⟨s.freeCount, _, rfl⟩
  · exact ⟨s.freeCount, _, rfl⟩
  · exact ⟨_, _, rfl⟩
  · exact ⟨_, _, rfl⟩

/-- The work at a rising edge of TCK changes the port's shift registers and the count of free values alone. -/
theorem tapWork_frame (s : State) (b : Bool) : ∃ tap n, tapWork s b = { s with freeCount := n, sec := { s.sec with tap := tap } } ∧
    tap.state = s.sec.tap.state ∧ tap.held = s.sec.tap.held ∧ tap.instr = s.sec.tap.instr := by
  unfold tapWork
  split
  · obtain ⟨n, l, e⟩ := tapCapture_eq s
    rw [e]; exact ⟨{ s.sec.tap with dr := l }, _, rfl, rfl, rfl, rfl⟩
  · exact ⟨_, _, rfl, rfl, rfl, rfl⟩
  · exact ⟨{ s.sec.tap with dr := _ }, s.freeCount, rfl, rfl, rfl, rfl⟩
  · exact ⟨{ s.sec.tap with ir := _ }, s.freeCount, rfl, rfl, rfl, rfl⟩
  · exact ⟨s.sec.tap, s.freeCount, rfl, rfl, rfl, rfl⟩

end Sys2Proof.Machine
end

