-- ==== Sys2Proof/Laws/Reads.lean ====
section
/-! SUPPORT. What a read of a register gives where no block shows it otherwise, and the reads that latch. -/

namespace Sys2Proof.Machine

/-- A rail's register shows its word. -/
theorem peek_rail (s : State) (a : Nat) (h1 : 0x4000 ≤ a) (h2 : a < 0x6000) : peek s a = s.reg a := by
  have e : ∀ x, (x < 0x4000 ∨ 0x6000 ≤ x) → a ≠ x := by omega
  have i0 : indexIn a (R.CMD_Pp_TAGk 0 0) 4 4 = none := indexIn_below _ _ _ _ (by simp only [R.CMD_Pp_TAGk]; omega)
  have i1 : indexIn a (R.CMD_Pp_TAGk 1 0) 4 4 = none := indexIn_below _ _ _ _ (by simp only [R.CMD_Pp_TAGk]; omega)
  have i2 : indexIn a (R.FLT_SRCs_STAT 0) 4 96 = none := indexIn_above _ _ _ _ (by decide) (by simp only [R.FLT_SRCs_STAT]; omega)
  simp only [peek, i0, i1, i2]
  rw [if_neg (by omega), if_neg (e _ (by decide)), if_neg (e _ (by decide)), if_neg (by omega), if_neg (e _ (by decide)),
    if_neg (e _ (by decide)), if_neg (by omega), if_neg (e _ (by decide)), if_neg (e _ (by decide)), if_neg (e _ (by decide)),
    if_neg (e _ (by decide)), if_neg (e _ (by decide)), if_neg (e _ (by decide)), if_neg (e _ (by decide)), if_neg (e _ (by decide)),
    if_neg (by omega), if_neg (e _ (by decide)), if_neg (e _ (by decide)), elementOf_self s a (by omega)]

theorem latchReg_fineResult (n : Fin 64) : latchReg (R.RAILn_FINE_RESULT n) = false := by
  have hn := n.isLt
  have hm : R.RAILn_FINE_RESULT n % 0x80 = 0x44 := by simp only [R.RAILn_FINE_RESULT]; omega
  have h : 0x4000 ≤ R.RAILn_FINE_RESULT n ∧ R.RAILn_FINE_RESULT n < 0x6000 := by simp only [R.RAILn_FINE_RESULT]; omega
  have i : ∀ b, b + 0x20 * 8 ≤ 0x4000 → indexIn (R.RAILn_FINE_RESULT n) b 0x20 8 = none :=
    fun b hb => indexIn_above _ _ _ _ (by decide) (by omega)
  have e : R.RAILn_FINE_RESULT n ≠ R.ANG_STAMP_LO := by simp only [R.ANG_STAMP_LO]; omega
  simp only [latchReg, i (R.BENCHb_RTAG 0) (by decide), i (R.BENCHb_RSTAMP_HI 0) (by decide), i (R.BENCHb_RSTAMP_LO 0) (by decide), hm]
  simp [e]
  intros
  decide

theorem isPoolResult_rail (a : Nat) (h1 : 0x4000 ≤ a) (h2 : a < 0x6000) : isPoolResult a = false := by
  have i : indexIn a (R.BENCH_REGk_RES 0) 4 48 = none := indexIn_above _ _ _ _ (by decide) (by simp only [R.BENCH_REGk_RES]; omega)
  have j : ∀ b, b < 8 → indexIn a (R.BENCHb_INJj_RES b 0) 4 4 = none :=
    fun b hb => indexIn_above _ _ _ _ (by decide) (by simp only [R.BENCHb_INJj_RES]; omega)
  have e : a ≠ R.POOL_HU_RES := by simp only [R.POOL_HU_RES]; omega
  simp only [isPoolResult, i, Option.isSome_none, Bool.false_or, Bool.or_eq_false_iff, beq_eq_false_iff_ne]
  refine ⟨?_, e⟩
  rw [List.any_eq_false]
  intro b hb
  rw [j b (by simpa [below] using hb)]
  decide

/-- R88: a read of a rail's result latches its sample for the port. -/
theorem readRow_fineResult (s : State) (p : Port) (n : Fin 64) :
    readRow s p (R.RAILn_FINE_RESULT n) = (fineResultRead s p n).readBack p (s.reg (R.RAILn_FINE_RESULT n)) := by
  have hn := n.isLt
  have h : 0x4000 ≤ R.RAILn_FINE_RESULT n ∧ R.RAILn_FINE_RESULT n < 0x6000 := by simp only [R.RAILn_FINE_RESULT]; omega
  have e : ∀ x, (x < 0x4000 ∨ 0x6000 ≤ x) → R.RAILn_FINE_RESULT n ≠ x := by omega
  have i : indexIn (R.RAILn_FINE_RESULT n) (R.RAILn_FINE_RESULT 0) 0x80 64 = some n.val := indexIn_mul _ _ _ _ (by decide) hn
  simp only [readRow, readReg, latchReg_fineResult n, isPoolResult_rail _ h.1 h.2, i, peek_rail s _ h.1 h.2]
  simp only [Bool.false_eq_true, if_false]
  rw [if_neg (e _ (by decide)), if_neg (e _ (by decide)), if_neg (e _ (by decide))]

/-- R246: a read of a counter's capture. -/
theorem readRow_tallyCap (s : State) (p : Port) (n : Fin 32) :
    readRow s p (R.Tn_CAP n) = (let (t, v) := capRead s n; t.readBack p v) := by
  have hn := n.isLt
  have h : 0x1000 ≤ R.Tn_CAP n ∧ R.Tn_CAP n < 0x1400 := by simp only [R.Tn_CAP]; omega
  have e : ∀ x, (x < 0x1000 ∨ 0x1400 ≤ x) → R.Tn_CAP n ≠ x := by omega
  have i : indexIn (R.Tn_CAP n) (R.Tn_CAP 0) 0x20 32 = some n.val := indexIn_mul _ _ _ _ (by decide) hn
  have j : indexIn (R.Tn_CAP n) (R.RAILn_FINE_RESULT 0) 0x80 64 = none := indexIn_below _ _ _ _ (by simp only [R.RAILn_FINE_RESULT]; omega)
  have b1 : ∀ b, 0x1400 ≤ b → indexIn (R.Tn_CAP n) b 0x20 8 = none := fun b hb => indexIn_below _ _ _ _ (by omega)
  have l : latchReg (R.Tn_CAP n) = false := by
    have e1 : R.Tn_CAP n ≠ R.ANG_STAMP_LO := e _ (by decide)
    have e2 : ¬ 0x4000 ≤ R.Tn_CAP n := by omega
    simp only [latchReg, b1 (R.BENCHb_RTAG 0) (by decide), b1 (R.BENCHb_RSTAMP_HI 0) (by decide), b1 (R.BENCHb_RSTAMP_LO 0) (by decide)]
    simp [e1, e2]
  have r : isPoolResult (R.Tn_CAP n) = false := by
    have i : indexIn (R.Tn_CAP n) (R.BENCH_REGk_RES 0) 4 48 = none := indexIn_below _ _ _ _ (by simp only [R.BENCH_REGk_RES]; omega)
    have k : ∀ b, b < 8 → indexIn (R.Tn_CAP n) (R.BENCHb_INJj_RES b 0) 4 4 = none :=
      fun b hb => indexIn_below _ _ _ _ (by simp only [R.BENCHb_INJj_RES]; omega)
    have e2 : R.Tn_CAP n ≠ R.POOL_HU_RES := e _ (by decide)
    simp only [isPoolResult, i, Option.isSome_none, Bool.false_or, Bool.or_eq_false_iff, beq_eq_false_iff_ne]
    refine ⟨?_, e2⟩
    rw [List.any_eq_false]
    intro b hb
    rw [k b (by simpa [below] using hb)]
    decide
  simp only [readRow, readReg, l, r, i, j]
  simp only [Bool.false_eq_true, if_false]
  rw [if_neg (e _ (by decide)), if_neg (e _ (by decide)), if_neg (e _ (by decide))]

/-- R256: a read of a counter takes its count. -/
theorem readRow_tallyCount (s : State) (p : Port) (n : Fin 32) :
    readRow s p (R.Tn_COUNT n) = s.readBack p (s.reg (R.Tn_COUNT n)) := by
  have hn := n.isLt
  have h : 0x1000 ≤ R.Tn_COUNT n ∧ R.Tn_COUNT n < 0x1400 := by simp only [R.Tn_COUNT]; omega
  have e : ∀ x, (x < 0x1000 ∨ 0x1400 ≤ x) → R.Tn_COUNT n ≠ x := by omega
  have i : indexIn (R.Tn_COUNT n) (R.Tn_CAP 0) 0x20 32 = none := by
    have hc : R.Tn_COUNT n = 0x1000 + 0x20 * n + 4 := by simp only [R.Tn_COUNT]; omega
    rw [hc]; exact indexIn_other 0x1000 0x10 0x20 n 4 32 (by decide) (by decide) (by decide)
  have j : indexIn (R.Tn_COUNT n) (R.RAILn_FINE_RESULT 0) 0x80 64 = none := indexIn_below _ _ _ _ (by simp only [R.RAILn_FINE_RESULT]; omega)
  have b1 : ∀ b, 0x1400 ≤ b → indexIn (R.Tn_COUNT n) b 0x20 8 = none := fun b hb => indexIn_below _ _ _ _ (by omega)
  have l : latchReg (R.Tn_COUNT n) = false := by
    have e1 : R.Tn_COUNT n ≠ R.ANG_STAMP_LO := e _ (by decide)
    have e2 : ¬ 0x4000 ≤ R.Tn_COUNT n := by omega
    simp only [latchReg, b1 (R.BENCHb_RTAG 0) (by decide), b1 (R.BENCHb_RSTAMP_HI 0) (by decide), b1 (R.BENCHb_RSTAMP_LO 0) (by decide)]
    simp [e1, e2]
  have r : isPoolResult (R.Tn_COUNT n) = false := by
    have i : indexIn (R.Tn_COUNT n) (R.BENCH_REGk_RES 0) 4 48 = none := indexIn_below _ _ _ _ (by simp only [R.BENCH_REGk_RES]; omega)
    have k : ∀ b, b < 8 → indexIn (R.Tn_COUNT n) (R.BENCHb_INJj_RES b 0) 4 4 = none :=
      fun b hb => indexIn_below _ _ _ _ (by simp only [R.BENCHb_INJj_RES]; omega)
    have e2 : R.Tn_COUNT n ≠ R.POOL_HU_RES := e _ (by decide)
    simp only [isPoolResult, i, Option.isSome_none, Bool.false_or, Bool.or_eq_false_iff, beq_eq_false_iff_ne]
    refine ⟨?_, e2⟩
    rw [List.any_eq_false]
    intro b hb
    rw [k b (by simpa [below] using hb)]
    decide
  have p0 : peek s (R.Tn_COUNT n) = s.reg (R.Tn_COUNT n) := by
    have i0 : indexIn (R.Tn_COUNT n) (R.CMD_Pp_TAGk 0 0) 4 4 = none := indexIn_below _ _ _ _ (by simp only [R.CMD_Pp_TAGk]; omega)
    have i1 : indexIn (R.Tn_COUNT n) (R.CMD_Pp_TAGk 1 0) 4 4 = none := indexIn_below _ _ _ _ (by simp only [R.CMD_Pp_TAGk]; omega)
    have i2 : indexIn (R.Tn_COUNT n) (R.FLT_SRCs_STAT 0) 4 96 = none :=
      indexIn_above _ _ _ _ (by decide) (by simp only [R.FLT_SRCs_STAT]; omega)
    simp only [peek, i0, i1, i2]
    rw [if_neg (by omega), if_neg (e _ (by decide)), if_neg (e _ (by decide)), if_neg (by omega), if_neg (e _ (by decide)),
      if_neg (e _ (by decide)), if_neg (by omega), if_neg (e _ (by decide)), if_neg (e _ (by decide)), if_neg (e _ (by decide)),
      if_neg (e _ (by decide)), if_neg (e _ (by decide)), if_neg (e _ (by decide)), if_neg (e _ (by decide)), if_neg (e _ (by decide)),
      if_neg (by omega), if_neg (e _ (by decide)), if_neg (e _ (by decide)), elementOf_self s _ (by omega)]
  simp only [readRow, readReg, l, r, i, j, p0]
  simp only [Bool.false_eq_true, if_false]
  rw [if_neg (e _ (by decide)), if_neg (e _ (by decide)), if_neg (e _ (by decide))]

/-- R326: a read of FOLIO_DATA. -/
theorem readRow_folioData (s : State) (p : Port) : readRow s p R.FOLIO_DATA = (folioDataRead s).1.readBack p (folioDataRead s).2 := by
  have l : latchReg R.FOLIO_DATA = false := by decide
  have r : isPoolResult R.FOLIO_DATA = false := by decide
  simp only [readRow, readReg, l, r]
  simp only [Bool.false_eq_true, if_false, if_true]
  rw [if_neg (by decide)]

/-- R337: a read of LDG_RD_DATA. -/
theorem readRow_ledgerData (s : State) (p : Port) :
    readRow s p R.LDG_RD_DATA = (ledgerDataRead s).1.readBack p (ledgerDataRead s).2 := by
  have l : latchReg R.LDG_RD_DATA = false := by decide
  have r : isPoolResult R.LDG_RD_DATA = false := by decide
  simp only [readRow, readReg, l, r]
  simp only [Bool.false_eq_true, if_false, if_true]
  rw [if_neg (by decide), if_neg (by decide)]

end Sys2Proof.Machine
end

