-- ==== Sys2Proof/Laws/Settle.lean ====
section
/-! SUPPORT. What follows a command: the form of every command's outcome, the TXDIS outputs it leaves, and when nothing
follows. -/

namespace Sys2Proof.Machine

/-- Every step answers a next state, settled. -/
theorem step_settles (s : State) : ∃ old t, step s = .next (settle old t) := by
  unfold step
  split
  · exact ⟨_, exec_settles _ _⟩
  · exact ⟨s, clockTick s, rfl⟩

/-! ### The TXDIS outputs -/

/-- The outputs are computed from the registers alone. -/
theorem syncTxdis_twice (s : State) : (syncTxdis (syncTxdis s)).ring.txdis = (syncTxdis s).ring.txdis := rfl

theorem txdisOk_syncTxdis (s : State) : txdisOk (syncTxdis s) = true := by
  simp only [txdisOk, syncTxdis_twice, beq_self_eq_true]

theorem txdisOk_settle (old s : State) : txdisOk (settle old s) = true := txdisOk_syncTxdis _

theorem syncTxdis_of_ok (s : State) (h : txdisOk s = true) : syncTxdis s = s := by
  simp only [txdisOk, beq_iff_eq] at h
  cases s with
  | mk pending regs portLatch freeCount tclk angPhase ang flt evq guard eng fine pool assay spare seq pm marg folio nvm tally readOut twin wdn ring sec rst =>
    cases ring
    simp only [syncTxdis, State.modRing] at h ⊢
    simp only [← h]

/-! ### When nothing follows -/

theorem modSeq_self (s : State) (f : SeqState → SeqState) (h : f s.seq = s.seq) : s.modSeq f = s := by
  simp only [State.modSeq, h]

theorem modEng_self (s : State) (f : EngineState → EngineState) (h : f s.eng = s.eng) : s.modEng f = s := by
  simp only [State.modEng, h]

theorem forEach_self (s : State) (l : List Nat) (f : State → Nat → State) (h : ∀ k ∈ l, f s k = s) : s.forEach l f = s := by
  induction l with
  | nil => rfl
  | cons a l ih =>
    simp only [State.forEach, List.foldl_cons, h a (List.mem_cons_self ..)]
    exact ih fun k hk => h k (List.mem_cons_of_mem _ hk)

theorem workGuardFaults_idle (old s : State) (h : workAtAll s = false) : workGuardFaults old s = s := by
  simp [workGuardFaults, h]

theorem workSpares_same (old s : State) (h1 : old.spare.sub = s.spare.sub) (h2 : old.spare.guardOnly = s.spare.guardOnly) :
    workSpares old s = s := by
  unfold workSpares
  rw [h1]
  cases s.spare.sub with
  | none => simp [h2]
  | some b => simp [h2]

theorem rampEnter_rests (s : State) (h : modeOk s = true) (hr : s.seq.ran = false) : rampEnter s = s := by
  have k : (s.modSeq fun t => { t with ran := false }) = s := by
    apply modSeq_self
    cases hq : s.seq
    simp only [hq] at hr
    simp only [hr]
  unfold rampEnter
  dsimp only
  rw [k]
  simp only [modeOk, Bool.and_eq_true, Bool.or_eq_true, bne_iff_ne, beq_iff_eq, Bool.not_eq_true', ne_eq] at h
  obtain ⟨-, h⟩ := h
  split
  · next hs =>
    split
    · rfl
    · next hn =>
      obtain ⟨⟨a, b⟩, c⟩ := h.resolve_left hn
      have st : anyStep s = true ∨ s.mode = mQuiescent ∧ anyEnabled s = true := by
        simpa [hr, quiescentLit, or_assoc] using hs
      have x1 : ¬ s.mode = mService := by
        rcases a with a | a
        · exact a
        · rintro e
          rcases st with st | ⟨st, -⟩
          · simp [st] at a
          · rw [e] at st; exact absurd st (by decide)
      have x2 : ¬ (s.mode = mGuard ∨ s.mode = mQuiescent) := by
        rintro (e | e)
        · have b := b.resolve_left (fun n => n e)
          rcases st with st | ⟨st, -⟩
          · simp [st] at b
          · rw [e] at st; exact absurd st (by decide)
        · have c := c.resolve_left (fun n => n e)
          rcases st with st | ⟨-, st⟩
          · simp [st] at c
          · simp [st] at c
      rw [if_neg x1, if_neg x2]
  · rfl

theorem modeSettle_rests (s : State) (h : modeRests s = true) : modeSettle s = s := by
  simp only [modeRests, Bool.and_eq_true, Bool.not_eq_true'] at h
  obtain ⟨⟨h1, h2⟩, ok⟩ := h
  unfold modeSettle
  rw [if_neg (by simp [h1]), rampEnter_rests s ok h2]
  simp only [modeOk, Bool.and_eq_true, Bool.or_eq_true, bne_iff_ne, ne_eq] at ok
  obtain ⟨⟨a, d⟩, -⟩ := ok
  unfold rampLeave
  split
  · rfl
  · next hs =>
    rw [if_neg (a.resolve_right hs), if_neg]
    rintro ⟨hg, he⟩
    rcases d with d | d | d
    · exact d hg
    · exact hs d
    · simp [d] at he

theorem finishC_none (s : State) (pred : Cmd → Bool) (status : Nat) (results : List Word)
    (h : (s.eng.cmds.all fun c => !(c.phase == .running && pred c)) = true) : finishC s pred status results = s := by
  have : s.eng.cmds.find? (fun c => c.phase == .running && pred c) = none := by
    simp only [List.find?_eq_none]
    simp only [List.all_eq_true, Bool.not_eq_true'] at h
    intro x hx; simp [h x hx]
  simp only [finishC, this]

theorem flushArrivals_none (s : State) (h : s.seq.arrivals.isEmpty = true) : flushArrivals s = s := by
  have h' : s.seq.arrivals = [] := by simpa using h
  have k : (s.modSeq fun t => { t with arrivals := [] }) = s := by
    apply modSeq_self
    cases hq : s.seq
    simp only [hq] at h'
    simp only [h']
  unfold flushArrivals
  dsimp only
  rw [k]
  apply forEach_self
  intro q _
  split
  · simp [h']
  · rfl

theorem markSuspended_self (s : State) (h : (s.eng.cmds.all fun c => decide (suspension s ≤ c.susp)) = true) : markSuspended s = s := by
  unfold markSuspended
  apply modEng_self
  have : (s.eng.cmds.map fun c => { c with susp := max c.susp (suspension s) }) = s.eng.cmds := by
    simp only [List.all_eq_true, decide_eq_true_eq] at h
    conv => rhs; rw [← List.map_id s.eng.cmds]
    apply List.map_congr_left
    intro c hc
    simp only [Nat.max_eq_left (h c hc), id]
  cases hq : s.eng
  simp only [hq] at this
  simp only [this]

theorem suspensionEvents_same (old s : State) (h1 : ((suspension old == 0) == (suspension s == 0)) = true)
    (h2 : (s.eng.cmds.all fun c => decide (suspension s ≤ c.susp)) = true) : suspensionEvents old s = s := by
  have h1' : suspension old = 0 ↔ suspension s = 0 := by
    simp only [beq_iff_eq] at h1
    constructor
    · intro h; simpa [h] using h1.symm
    · intro h; simpa [h] using h1
  unfold suspensionEvents
  have x1 : ¬ (suspension old = 0 ∧ suspension s ≠ 0) := fun ⟨a, b⟩ => b (h1'.mp a)
  have x2 : ¬ (suspension old ≠ 0 ∧ suspension s = 0) := fun ⟨a, b⟩ => a (h1'.mpr b)
  simp only [if_neg x1, if_neg x2]
  exact markSuspended_self s h2

end Sys2Proof.Machine
end

