-- ==== Sys2Proof/Tests/Slice0.lean ====
section
/-! SUPPORT. The sitting's own tests: what WellFormed refuses, fixed values that a standard gives, and for every
statement with hypotheses a state and operands that meet them, one conjunct for each of its clauses. -/

set_option linter.unusedVariables false

namespace Sys2Proof.Tests

set_option Elab.async false

open Sys2Proof Sys2Proof.Machine

/-! ### Small states and operands -/

def puts (s : State) (l : List (Field × Nat)) : State := l.foldl (fun s e => s.put e.1 e.2) s
def up : State := puts { State.reset with rst := ⟨.up, false, false, false, false, false⟩ }
  [(F.CMD_STATUS_ENGINE_UP, 1), (F.SEC_STATE_MODE, 0), (F.TWIN_STATUS_ROLE, 0)]
def pcw (k : PcKind) (marks left : Nat) : PcWork :=
  ⟨k, 0, 0, 0, false, false, false, 1, marks, left, [], 0, 4194304, 0, 0, false, false, false, false, false, [], 0, 0⟩
def mt (ph : MargPhase) (dirs : List Bool) (n : Nat) (sum base : Int) : MargTest :=
  ⟨false, 0, 0, 0, 0, dirs, ph, n, sum, base, 0, 0, 0, 0, false, 0, 0, false, false, false, false⟩
def snd (part : SndPart) (rails : List SndRail) : Sounding := ⟨rails, part, false, false, false, 0, 0, 0, 0, 0, 0, 0, 0, 0⟩
def cell (dest src : Nat) (payload : List Byte) : RingCell :=
  ⟨BitVec.ofNat 16 dest, BitVec.ofNat 16 src, 0, false, 0, 0, 1, payload ++ List.replicate (56 - payload.length) 0⟩
def dyn0 : DynImage := ⟨0, Vector.replicate 16 default, Vector.replicate 64 default, Vector.replicate 128 (0, 0), [], 0⟩
def tokenBytes (type : Byte) (mac : List Byte) : List Byte :=
  [type, 0, 0, 0, 0, 3, 0, 0, 0, 0, 0, 1, 0, 0, 0, 0, 0, 0, 0, 0, 0, 0, 0, 0] ++ mac
def cmd0 : Cmd := ⟨.host, 0, 0x0010, [0], none, none, 0, 0, 0, .slotted⟩
def oitem : OutItem := ⟨false, true, false, false, false, false, 5, 0x0001, 0, 0, 0, [], none⟩
def packet (hd : List Nat) : List Nat := hd ++ beBytes 4 (crc32 hd)

theorem crc_zeros (n a b : Nat) (h : (List.replicate 83 0).foldl crc32Byte a = b) :
    (List.replicate (83 + n) 0).foldl crc32Byte a = (List.replicate n 0).foldl crc32Byte b := by
  rw [← List.replicate_append_replicate, List.foldl_append, h]

theorem crc_fold_zeros : (List.replicate 664 0).foldl crc32Byte 1439268119 = 1797538390 :=
  (crc_zeros 581 _ 99058855 (by decide +kernel)).trans (
  (crc_zeros 498 _ 3960547259 (by decide +kernel)).trans (
  (crc_zeros 415 _ 1131474282 (by decide +kernel)).trans (
  (crc_zeros 332 _ 2263037697 (by decide +kernel)).trans (
  (crc_zeros 249 _ 71145597 (by decide +kernel)).trans (
  (crc_zeros 166 _ 3492042071 (by decide +kernel)).trans (
  (crc_zeros 83 _ 3327743557 (by decide +kernel)).trans (
  (crc_zeros 0 _ 1797538390 (by decide +kernel)).trans (
  rfl))))))))

theorem crc_of_hallmark (l : List Nat) (hl : l = List.replicate 664 0) :
    crc32 ([0x48, 0x4C, 0x4D, 0x4B, 0, 0, 2, 0xA8, 0, 1, 0, 0] ++ l) = 2497428905 := by
  have h : List.foldl crc32Byte 0xFFFFFFFF [0x48, 0x4C, 0x4D, 0x4B, 0, 0, 2, 0xA8, 0, 1, 0, 0] = 1439268119 := by decide +kernel
  have e : (([0x48, 0x4C, 0x4D, 0x4B, 0, 0, 2, 0xA8, 0, 1, 0, 0] ++ l).foldl crc32Byte 0xFFFFFFFF) = 1797538390 := by
    rw [List.foldl_append, h, hl, crc_fold_zeros]
  rw [crc32, e]
  decide +kernel

theorem hallmark_ok : hallmarkOk ([0x48, 0x4C, 0x4D, 0x4B, 0, 0, 2, 0xA8, 0, 1, 0, 0] ++
    beBytes 4 2497428905 ++ List.replicate 664 0) = true := by
  unfold hallmarkOk
  rw [show ∀ l m : List Nat, (List.take 12 ([0x48, 0x4C, 0x4D, 0x4B, 0, 0, 2, 0xA8, 0, 1, 0, 0] ++ l ++ m) ++
    List.drop 16 ([0x48, 0x4C, 0x4D, 0x4B, 0, 0, 2, 0xA8, 0, 1, 0, 0] ++ l ++ m)) =
    [0x48, 0x4C, 0x4D, 0x4B, 0, 0, 2, 0xA8, 0, 1, 0, 0] ++ List.drop 4 (l ++ m) from fun _ _ => rfl]
  rw [show List.drop 4 (beBytes 4 2497428905 ++ List.replicate 664 0) = List.replicate 664 0 by decide +kernel]
  rw [crc_of_hallmark _ rfl]
  decide +kernel

/-! ### WellFormed: one ill-formed term for each check -/

theorem test_wf_spacing :
    (Instr.referenceEdge 0 true 0).wf = false ∧ (Instr.referenceEdge 1 true 0).wf = true ∧
      (Instr.acquisitionComplete 0).wf = false ∧ (Instr.angrefAltEdge 0 true 0).wf = false := by decide

theorem test_wf_config_image :
    (Instr.configImage ⟨[(8, 1), (4, 1)], []⟩).wf = false ∧ (Instr.configImage ⟨[(6, 1)], []⟩).wf = false ∧
      (Instr.configImage ⟨[(4, 1), (8, 1)], []⟩).wf = true := by decide

theorem test_wf_spi :
    (Instr.spiStatus [0x5A] 0).wf = false ∧ (Instr.spiStatus [0xA5] 0).wf = false ∧ (Instr.spiWrite [0xA5] 0).wf = false ∧
      (Instr.spiRead [0x5A] 0).wf = false ∧ (Instr.spiStatus [] 0).wf = true := by decide

theorem test_wf_cell :
    (⟨1, 2, 0, false, 0, 0, 1, [0]⟩ : RingCell).wf = false ∧ (cell 1 2 []).wf = true := by decide

theorem test_wf_holdup : (Instr.holdupEntry 4).wf = false ∧ (Instr.holdupEntry 3).wf = true := by decide

theorem test_wf_reset : storeWf State.reset.regs = true := by decide +kernel

/-! ### Fixed values -/

/-- R361: the check value of the CRC-32 of IEEE 802.3 over the nine digits 1 to 9. -/
theorem test_crc32_digits : crc32 [0x31, 0x32, 0x33, 0x34, 0x35, 0x36, 0x37, 0x38, 0x39] = 0xCBF43926 := by decide +kernel

/-- R362: the CMAC of the empty message under the example key of NIST SP 800-38B. -/
theorem test_cmac_empty :
    cmac [0x2B, 0x7E, 0x15, 0x16, 0x28, 0xAE, 0xD2, 0xA6, 0xAB, 0xF7, 0x15, 0x88, 0x09, 0xCF, 0x4F, 0x3C] [] =
      [0xBB, 0x1D, 0x69, 0x29, 0xE9, 0x59, 0x37, 0x28, 0x7F, 0xA3, 0x7D, 0x12, 0x9B, 0x75, 0x67, 0x46] := by decide +kernel

/-- SHA-256 of the three letters abc, the example of FIPS 180-4. -/
theorem test_sha256_abc :
    sha256 [0x61, 0x62, 0x63] =
      [0xBA, 0x78, 0x16, 0xBF, 0x8F, 0x01, 0xCF, 0xEA, 0x41, 0x41, 0x40, 0xDE, 0x5D, 0xAE, 0x22, 0x23,
       0xB0, 0x03, 0x61, 0xA3, 0x96, 0x17, 0x7A, 0x9C, 0xB4, 0x10, 0xFF, 0x61, 0xF2, 0x00, 0x15, 0xAD] := by decide +kernel

/-- The table gives no row any bits: no word spells a command. -/
theorem test_decode_none (nbits w : Nat) : decodeTableWord nbits w = none := rfl


/-! ### Witnesses -/

theorem witness_AngleReference :
    (∃ (s : State) (spacing : Nat) (held : Nat) (t : Nat) (n : Nat), s.get F.ANG_CFG_SRC < 2 ∧ s.ang.pin ≠ some (activeLevel s) ∧ 16 ≤ held ∧ s.ang.acq = none ∧ s.ang.sinceAcc = some t ∧ gateOf s (t + (s.ang.gap + spacing)) = some n ∧ spacingInRange ((t + (s.ang.gap + spacing)) * edgeShare s) n = true ∧ s.locked = true ∧ s.holdover = false ∧ s.flag F.ANG_STATUS_ACQUIRE = false) ∧
    (∃ (s : State) (spacing : Nat) (m : Nat), s.ang.acq = some ⟨true, some m⟩ ∧ periodInRange (spacing * edgeShare s) = true ∧ within05 spacing m = true) ∧
    (∃ (s : State), angFree s = false ∧ s.angRun = true ∧ s.holdover = false ∧ (s.locked = false ∨ s.get F.ANG_STATUS_ACTIVE_SRC ≠ 0 ∨ s.get F.ANG_CFG_SRC ≠ 0 ∨ angEff s F.ANG_CFG_ALT_FAILOVER ≠ 1 ∨ altReady s = false)) ∧
    (∃ (s : State), s.holdover = true ∧ s.flag F.ANG_HOLD_MAX_CYCLES = true ∧ s.flag F.ANG_STATUS_HOLD_EXP = false) ∧
    (∃ (s : State) (spacing : Nat) (held : Nat), s.ang.altPin ≠ some (activeLevel s) ∧ 16 ≤ held ∧ s.get F.ANG_CFG_SRC = 0 ∧ s.get F.ANG_STATUS_ACTIVE_SRC = 0 ∧ angEff s F.ANG_CFG_ALT_FAILOVER = 1 ∧ s.locked = true ∧ gateOf s (s.ang.altGap + spacing) = some 1) ∧
    (∃ (s : State) (spacing : Nat) (held : Nat), s.ang.altPin ≠ some (activeLevel s) ∧ 16 ≤ held ∧ s.get F.ANG_CFG_SRC = 0 ∧ s.get F.ANG_STATUS_ACTIVE_SRC = 0 ∧ angEff s F.ANG_CFG_ALT_FAILOVER = 1 ∧ s.locked = true ∧ gateOf s (s.ang.altGap + spacing) ≠ some 1) ∧
    (∃ (s : State) (spacing : Nat) (level : Bool) (held : Nat), s.get F.ANG_CFG_SRC ≠ 2 ∧ levelTaken s.ang.pin level held = false) ∧
    (∃ (s : State) (spacing : Nat) (level : Bool) (held : Nat), s.get F.ANG_CFG_SRC ≠ 2 ∧ levelTaken s.ang.pin level held = true ∧ level ≠ activeLevel s) ∧
    (∃ (s : State) (spacing : Nat) (level : Bool) (held : Nat), s.get F.ANG_CFG_SRC = 2) ∧
    (∃ (s : State), angFree s = false ∧ s.angRun = true ∧ s.holdover = false ∧ s.locked = true ∧ s.get F.ANG_STATUS_ACTIVE_SRC = 0 ∧ s.get F.ANG_CFG_SRC = 0 ∧ angEff s F.ANG_CFG_ALT_FAILOVER = 1 ∧ altReady s = true) ∧
    (∃ (s : State) (spacing : Nat) (level : Bool) (held : Nat), levelTaken s.ang.altPin level held = false) ∧
    (∃ (s : State) (spacing : Nat) (level : Bool) (held : Nat), levelTaken s.ang.altPin level held = true ∧ level ≠ activeLevel s) ∧
    (∃ (s : State) (k : Nat), angFree s = true) ∧
    (∃ (s : State) (k : Nat) (q : _), angFree s = false ∧ s.ang.acq = some q ∧ q.edgeSeen = false) ∧
    (∃ (s : State) (k : Nat) (q : _), angFree s = false ∧ s.ang.acq = some q ∧ q.edgeSeen = true ∧ periodInRange (k * edgeShare s) = false) ∧
    (∃ (s : State) (k : Nat) (q : _), angFree s = false ∧ s.ang.acq = some q ∧ q.edgeSeen = true ∧ periodInRange (k * edgeShare s) = true ∧ (∀ m, q.meas = some m → within05 k m = false)) ∧
    (∃ (s : State) (k : Nat) (t : Nat), angFree s = false ∧ s.ang.acq = none ∧ s.ang.sinceAcc = some t ∧ gateOf s (t + k) = none ∧ s.ang.lastStray = none) ∧
    (∃ (s : State) (k : Nat) (t : Nat), angFree s = false ∧ s.ang.acq = none ∧ s.ang.sinceAcc = some t ∧ ∃ (q : _), gateOf s (t + k) = none ∧ s.ang.lastStray = some q ∧ within05 k q = false) ∧
    (∃ (s : State) (k : Nat) (t : Nat), angFree s = false ∧ s.ang.acq = none ∧ s.ang.sinceAcc = some t ∧ ∃ (q : _), gateOf s (t + k) = none ∧ s.ang.lastStray = some q ∧ within05 k q = true ∧ periodInRange (k * edgeShare s) = true) ∧
    (∃ (s : State) (k : Nat) (t : Nat), angFree s = false ∧ s.ang.acq = none ∧ s.ang.sinceAcc = some t ∧ ∃ (q : _), gateOf s (t + k) = none ∧ s.ang.lastStray = some q ∧ within05 k q = true ∧ periodInRange (k * edgeShare s) = false) ∧
    (∃ (s : State) (k : Nat) (t : Nat), angFree s = false ∧ s.ang.acq = none ∧ s.ang.sinceAcc = some t ∧ ∃ (n : Nat), gateOf s (t + k) = some n ∧ spacingInRange ((t + k) * edgeShare s) n = false) ∧
    (∃ (s : State) (k : Nat) (t : Nat), angFree s = false ∧ s.ang.acq = none ∧ s.ang.sinceAcc = some t ∧ ∃ (n : Nat), gateOf s (t + k) = some n ∧ spacingInRange ((t + k) * edgeShare s) n = true ∧ (s.holdover = true ∨ s.locked = false)) :=
  ⟨(⟨puts { up with ang := { (up).ang with acq := none, sinceAcc := some 0 } } [(F.ANG_STATUS_LOCKED, 1), (F.ANG_STATUS_ACQUIRE, 0), (F.ANG_PERIOD_PERIOD, 6553600)], 25600, 16, 0, 1, by decide +kernel⟩),
   (⟨{ up with ang := { (up).ang with acq := some ⟨true, some 10050⟩ } }, 10000, 10050, by decide +kernel⟩),
   (⟨puts { up with ang := { (up).ang with cfgEff := 0 } } [(F.ANG_STATUS_RUN, 1), (F.ANG_STATUS_HOLDOVER, 0)], by decide +kernel⟩),
   (⟨puts up [(F.ANG_STATUS_HOLDOVER, 1), (F.ANG_HOLD_MAX_CYCLES, 1), (F.ANG_STATUS_HOLD_EXP, 0)], by decide +kernel⟩),
   (⟨puts { up with ang := { (up).ang with cfgEff := BitVec.ofNat 32 (F.ANG_CFG_ALT_FAILOVER.insert 0 1) } } [(F.ANG_CFG_SRC, 0), (F.ANG_STATUS_ACTIVE_SRC, 0), (F.ANG_STATUS_LOCKED, 1), (F.ANG_PERIOD_PERIOD, 25600)], 101, 16, by decide +kernel⟩),
   (⟨puts { up with ang := { (up).ang with cfgEff := BitVec.ofNat 32 (F.ANG_CFG_ALT_FAILOVER.insert 0 1) } } [(F.ANG_CFG_SRC, 0), (F.ANG_STATUS_ACTIVE_SRC, 0), (F.ANG_STATUS_LOCKED, 1), (F.ANG_PERIOD_PERIOD, 25600)], 150, 16, by decide +kernel⟩),
   (⟨up, 0, true, 0, by decide +kernel⟩),
   (⟨up, 0, false, 16, by decide +kernel⟩),
   (⟨puts up [(F.ANG_CFG_SRC, 2)], 0, true, 0, by decide +kernel⟩),
   (⟨puts { up with ang := { (up).ang with cfgEff := BitVec.ofNat 32 (F.ANG_CFG_ALT_FAILOVER.insert 0 1), altGood := 8, altIdle := 0 } } [(F.ANG_STATUS_RUN, 1), (F.ANG_STATUS_LOCKED, 1), (F.ANG_STATUS_ACTIVE_SRC, 0), (F.ANG_CFG_SRC, 0), (F.ANG_STATUS_RUN, 1), (F.ANG_STATUS_LOCKED, 1)], by decide +kernel⟩),
   (⟨up, 0, true, 0, by decide +kernel⟩),
   (⟨up, 0, false, 16, by decide +kernel⟩),
   (⟨puts up [(F.ANG_CFG_SRC, 3)], 0, by decide +kernel⟩),
   (⟨{ up with ang := { (up).ang with acq := some ⟨false, none⟩ } }, 25600, ⟨false, none⟩, by decide +kernel⟩),
   (⟨{ up with ang := { (up).ang with acq := some ⟨true, none⟩ } }, 1, ⟨true, none⟩, by decide +kernel⟩),
   (⟨{ up with ang := { (up).ang with acq := some ⟨true, none⟩ } }, 25600, ⟨true, none⟩, by decide +kernel, rfl, by decide +kernel, by decide +kernel, fun m h => by cases h⟩),
   (⟨{ up with ang := { (up).ang with acq := none, sinceAcc := some 0, lastStray := none } }, 100, 0, by decide +kernel⟩),
   (⟨{ up with ang := { (up).ang with acq := none, sinceAcc := some 0, lastStray := some 7 } }, 100, 0, by decide +kernel, by decide +kernel, by decide +kernel, 7, by decide +kernel⟩),
   (⟨{ up with ang := { (up).ang with acq := none, sinceAcc := some 0, lastStray := some 25600 } }, 25600, 0, by decide +kernel, by decide +kernel, by decide +kernel, 25600, by decide +kernel⟩),
   (⟨{ up with ang := { (up).ang with acq := none, sinceAcc := some 0, lastStray := some 100 } }, 100, 0, by decide +kernel, by decide +kernel, by decide +kernel, 100, by decide +kernel⟩),
   (⟨puts { up with ang := { (up).ang with acq := none, sinceAcc := some 0 } } [(F.ANG_PERIOD_PERIOD, 25600)], 100, 0, by decide +kernel, by decide +kernel, by decide +kernel, 1, by decide +kernel⟩),
   (⟨puts { up with ang := { (up).ang with acq := none, sinceAcc := some 0 } } [(F.ANG_PERIOD_PERIOD, 6553600)], 25600, 0, by decide +kernel, by decide +kernel, by decide +kernel, 1, by decide +kernel⟩)⟩

theorem witness_AngleWrites :
    (∃ (s : State) (p : Port) (v : Word), writable s p R.ANG_CFG v.toNat = true ∧ F.ANG_CFG_SRC.extract (s.reg R.ANG_CFG) ≠ (written s R.ANG_CFG v.toNat).get F.ANG_CFG_SRC) ∧
    (∃ (s : State) (p : Port) (v : Word), writable s p R.ANG_CFG v.toNat = true ∧ F.ANG_CFG_SRC.extract (s.reg R.ANG_CFG) = (written s R.ANG_CFG v.toNat).get F.ANG_CFG_SRC ∧ angFree (written s R.ANG_CFG v.toNat) = false) ∧
    (∃ (s : State) (p : Port) (v : Word), writable s p R.ANG_CFG v.toNat = true ∧ F.ANG_CFG_SRC.extract (s.reg R.ANG_CFG) = (written s R.ANG_CFG v.toNat).get F.ANG_CFG_SRC ∧ angFree (written s R.ANG_CFG v.toNat) = true) ∧
    (∃ (s : State) (p : Port), writable s p R.ANG_CTRL (2 + 16 * s.get F.ANG_CTRL_HOP_IDX) = true) ∧
    (∃ (s : State) (p : Port) (v : Word), writable s p R.ANG_INC v.toNat = true ∧ s.get F.ANG_CFG_SRC = 3) ∧
    (∃ (s : State) (p : Port) (v : Word), writable s p R.ANG_INC v.toNat = true ∧ s.get F.ANG_CFG_SRC ≠ 3) ∧
    (∃ (s : State) (p : Port) (v : Word), writable s p R.ANG_FREE_INC v.toNat = true) ∧
    (∃ (s : State) (p : Port) (v : Word), writable s p R.ANG_PHASE v.toNat = true ∧ s.locked = false) ∧
    (∃ (s : State) (p : Port) (v : Word), writable s p R.ANG_PHASE v.toNat = true ∧ s.locked = true) :=
  ⟨(⟨up, .host, 3, by decide +kernel⟩),
   (⟨up, .host, 0, by decide +kernel⟩),
   (⟨puts up [(F.ANG_CFG_SRC, 3)], .host, 3, by decide +kernel⟩),
   (⟨up, .host, by decide +kernel⟩),
   (⟨puts up [(F.ANG_CFG_SRC, 3)], .host, 0, by decide +kernel⟩),
   (⟨up, .host, 0, by decide +kernel⟩),
   (⟨up, .host, 0, by decide +kernel⟩),
   (⟨puts up [(F.ANG_STATUS_LOCKED, 0)], .host, 0, by decide +kernel⟩),
   (⟨puts up [(F.ANG_STATUS_LOCKED, 1)], .host, 0, by decide +kernel⟩)⟩

theorem witness_HopStore :
    (∃ (s : State) (p : Port) (k : Fin 8), writable s p R.ANG_CTRL (1 + 16 * k) = true ∧ s.locked = true) ∧
    (∃ (s : State) (p : Port) (k : Fin 8), writable s p R.ANG_CTRL (1 + 16 * k) = true ∧ s.locked = false) :=
  ⟨(⟨puts up [(F.ANG_STATUS_LOCKED, 1)], .host, 0, by decide +kernel⟩),
   (⟨up, .host, 0, by decide +kernel⟩)⟩

theorem witness_StampReads :
    ∃ (s : State) (p : Port) (q : Port) (a : Nat), q ≠ p :=
  ⟨up, .host, .ring, 0, by decide +kernel⟩

theorem witness_Clocks :
    (∃ (s : State) (p : Port), writable s p R.CLK_CTRL 1 = true ∧ s.rst.phase ≠ .por) ∧
    (∃ (s : State) (p : Port), writable s p R.CLK_CTRL 2 = true ∧ s.rst.phase ≠ .por ∧ s.flag F.CLK_STATUS_XIN_OK = true ∧ s.flag F.CLK_STATUS_PLL_REF = true) ∧
    (∃ (s : State) (p : Port), writable s p R.CLK_CTRL 2 = true ∧ (s.flag F.CLK_STATUS_XIN_OK = false ∨ s.flag F.CLK_STATUS_PLL_REF = false)) ∧
    (∃ (s : State), s.flag F.CLK_STATUS_SYS_LOCK = true) ∧
    (∃ (s : State), s.flag F.CLK_STATUS_FALLBACK = false) ∧
    (∃ (s : State), s.rst.phase ≠ .por ∧ s.flag F.CLK_STATUS_FALLBACK = true ∧ s.flag F.CLK_STATUS_SYS_LOCK = false ∧ s.get F.CLK_STATUS_PLL_REF ≠ 4) ∧
    (∃ (s : State), s.flag F.CLK_STATUS_RETURN_WAIT = true ∧ s.ang.relocking = true) ∧
    (∃ (s : State), s.flag F.CLK_STATUS_FALLBACK = true) ∧
    (∃ (s : State) (freq : BitVec 16), s.rst.phase ≠ .por ∧ s.flag F.CLK_STATUS_FALLBACK = true) ∧
    (∃ (s : State), s.flag F.CLK_STATUS_FALLBACK = false) ∧
    (∃ (s : State) (symbols : BitVec 3), s.flag F.CLK_STATUS_XIN_OK = true ∧ s.flag F.CLK_STATUS_TCLK_ON_RC = false ∧ ∃ (i : Nat), s.get F.CLK_STATUS_PLL_REF = 0 ∧ s.flag F.CLK_CFG_RING_REF_EN = true ∧ ((below 3).find? fun i => symbols.getLsbD i) = some i) ∧
    (∃ (s : State) (symbols : BitVec 3), s.flag F.CLK_STATUS_XIN_OK = true ∧ s.flag F.CLK_STATUS_TCLK_ON_RC = false ∧ s.get F.CLK_STATUS_PLL_REF = 0 ∧ (s.flag F.CLK_CFG_RING_REF_EN = false ∨ ((below 3).find? fun i => symbols.getLsbD i) = none)) ∧
    (∃ (s : State) (symbols : BitVec 3), s.flag F.CLK_STATUS_XIN_OK = true ∧ s.flag F.CLK_STATUS_TCLK_ON_RC = false ∧ s.get F.CLK_STATUS_PLL_REF ≠ 0) ∧
    (∃ (s : State) (us : Nat), s.rst.phase ≠ .por ∧ 1000 ≤ us) ∧
    (∃ (s : State), s.flag F.CLK_STATUS_SERDES_LOCK = true) ∧
    (∃ (s : State), s.rst.phase ≠ .por ∧ s.get F.CLK_STATUS_PLL_REF ≠ 4) ∧
    (∃ (s : State) (us : Nat), s.rst.phase ≠ .por ∧ us < 1000) ∧
    (∃ (s : State) (symbols : BitVec 3), s.flag F.CLK_STATUS_XIN_OK = true ∧ s.flag F.CLK_STATUS_TCLK_ON_RC = true ∧ s.get F.CLK_STATUS_PLL_REF ≠ 0) :=
  ⟨(⟨up, .host, by decide +kernel⟩),
   (⟨puts up [(F.CLK_STATUS_XIN_OK, 1), (F.CLK_STATUS_PLL_REF, 1)], .host, by decide +kernel⟩),
   (⟨up, .host, by decide +kernel⟩),
   (⟨puts up [(F.CLK_STATUS_SYS_LOCK, 1)], by decide +kernel⟩),
   (⟨puts up [(F.CLK_STATUS_FALLBACK, 0)], by decide +kernel⟩),
   (⟨puts up [(F.CLK_STATUS_FALLBACK, 1), (F.CLK_STATUS_SYS_LOCK, 0)], by decide +kernel⟩),
   (⟨puts { up with ang := { (up).ang with relocking := true } } [(F.CLK_STATUS_RETURN_WAIT, 1)], by decide +kernel⟩),
   (⟨puts up [(F.CLK_STATUS_FALLBACK, 1)], by decide +kernel⟩),
   (⟨puts up [(F.CLK_STATUS_FALLBACK, 1)], 0, by decide +kernel⟩),
   (⟨puts up [(F.CLK_STATUS_FALLBACK, 0)], by decide +kernel⟩),
   (⟨puts up [(F.CLK_STATUS_XIN_OK, 1), (F.CLK_STATUS_TCLK_ON_RC, 0), (F.CLK_STATUS_PLL_REF, 0), (F.CLK_CFG_RING_REF_EN, 1)], 6, by decide +kernel, by decide +kernel, 1, by decide +kernel⟩),
   (⟨puts up [(F.CLK_STATUS_XIN_OK, 1), (F.CLK_STATUS_TCLK_ON_RC, 0), (F.CLK_STATUS_PLL_REF, 0)], 0, by decide +kernel⟩),
   (⟨puts up [(F.CLK_STATUS_XIN_OK, 1), (F.CLK_STATUS_TCLK_ON_RC, 0), (F.CLK_STATUS_PLL_REF, 1)], 0, by decide +kernel⟩),
   (⟨up, 1000, by decide +kernel⟩),
   (⟨puts up [(F.CLK_STATUS_SERDES_LOCK, 1)], by decide +kernel⟩),
   (⟨up, by decide +kernel⟩),
   (⟨up, 0, by decide +kernel⟩),
   (⟨puts up [(F.CLK_STATUS_XIN_OK, 1), (F.CLK_STATUS_TCLK_ON_RC, 1), (F.CLK_STATUS_PLL_REF, 1)], 0, by decide +kernel⟩)⟩

theorem witness_GuardComparators :
    (∃ (s : State) (n : Fin 64) (uv : Bool) (spare : Bool) (edges : Nat), filterRuns s n uv spare = true ∧ rawOut s n uv = true ∧ max 1 (filterN (if uv then (s.gr n).eff.uvFilt else (s.gr n).eff.ovFilt)) ≤ edges) ∧
    (∃ (s : State) (n : Fin 64) (uv : Bool) (spare : Bool) (edges : Nat), filterRuns s n uv spare = true ∧ rawOut s n uv = false ∧ filterOff (if uv then (s.gr n).eff.uvFilt else (s.gr n).eff.ovFilt) ≤ edges) ∧
    (∃ (s : State) (n : Fin 64) (new : GuardThr) (rest : List GuardThr), (s.gr n).thrPend = new :: rest) ∧
    (∃ (s : State) (n : Fin 64) (o : GuardThr) (rest : List GuardThr), (s.gr n).old = o :: rest) ∧
    (∃ (s : State) (n : Fin 64) (uv : Bool) (spare : Bool) (edges : Nat), filterRuns s n uv spare = true ∧ rawOut s n uv = true ∧ ((s.gr n).out uv spare = false) ∧ edges < max 1 (filterN (if uv then (s.gr n).eff.uvFilt else (s.gr n).eff.ovFilt))) ∧
    (∃ (s : State) (n : Fin 64) (uv : Bool) (spare : Bool) (edges : Nat), filterRuns s n uv spare = true ∧ rawOut s n uv = false ∧ ((s.gr n).out uv spare = true) ∧ edges < filterOff (if uv then (s.gr n).eff.uvFilt else (s.gr n).eff.ovFilt)) ∧
    (∃ (f : Nat), f < 256) ∧
    (∃ (s : State) (n : Nat), n < 64) ∧
    (∃ (s : State) (n : Nat) (uv : Bool) (p : Proof), (s.gr n).proof = some p) ∧
    (∃ (g : GuardRail) (o : GuardThr), g.old = [o]) :=
  ⟨(⟨puts (State.modGuard up 0 (fun x => { x with eff := ⟨0, 0, 0, 2, 2⟩ })) [((F.RAILn_GUARD_CFG_USE 0), 1), ((F.RAILn_GUARD_STATUS_OV_RAW 0), 1)], 0, false, false, 3, by decide +kernel⟩),
   (⟨puts up [((F.RAILn_GUARD_CFG_USE 63), 1)], 63, false, false, 2, by decide +kernel⟩),
   (⟨(State.modGuard up 0 (fun x => { x with thrPend := default :: ([]) })), 0, default, [], by decide +kernel⟩),
   (⟨(State.modGuard up 0 (fun x => { x with old := default :: ([]) })), 0, default, [], by decide +kernel⟩),
   (⟨puts up [((F.RAILn_GUARD_CFG_USE 0), 1), ((F.RAILn_GUARD_STATUS_OV_RAW 0), 1)], 0, false, false, 0, by decide +kernel⟩),
   (⟨puts (State.modGuard up 0 (fun x => { x with ownOv := true })) [((F.RAILn_GUARD_CFG_USE 0), 1)], 0, false, false, 1, by decide +kernel⟩),
   (⟨0, by decide +kernel⟩),
   (⟨up, 0, by decide +kernel⟩),
   (⟨(State.modGuard up 63 (fun x => { x with proof := some default })), 63, false, default, by decide +kernel⟩),
   (⟨{ (default : GuardRail) with old := [default] }, default, by decide +kernel⟩)⟩

theorem witness_RailPins :
    (∃ (s : State) (n : Fin 64), railUse s n = true ∧ s.flag (F.RAILn_GUARD_STATUS_CM_ERR n) = false) ∧
    (∃ (s : State) (n : Fin 64) (level : Bool) (edges : Nat), (railUse s n = false ∨ s.flag (F.RAILn_GUARD_CFG_PG_USE n) = false)) ∧
    (∃ (s : State) (n : Fin 64) (level : Bool) (edges : Nat), railUse s n = true ∧ s.flag (F.RAILn_GUARD_CFG_PG_USE n) = true ∧ pgFilterN s n ≤ edges ∧ enLatch s n = true) ∧
    (∃ (s : State) (n : Fin 64) (level : Bool) (edges : Nat), 20 ≤ edges ∧ s.flag (F.RAILn_GUARD_STATUS_EN_DRIVE n) = true ∧ level = enLevel s n) ∧
    (∃ (s : State) (n : Fin 64) (level : Bool) (edges : Nat), 20 ≤ edges ∧ s.flag (F.RAILn_GUARD_STATUS_EN_DRIVE n) = true ∧ level ≠ enLevel s n ∧ (s.flag (F.RAILn_GUARD_CFG_EN_OD n) = false ∨ enLevel s n = false) ∧ railUse s n = true ∧ s.condStands 4 n = false) ∧
    (∃ (s : State) (p : Port) (n : Fin 64), writable s p (R.RAILn_EN_CTRL n) 1 = true) ∧
    (∃ (s : State) (p : Port) (n : Fin 64), writable s p (R.RAILn_EN_CTRL n) 2 = true) ∧
    (∃ (s : State) (p : Port) (n : Fin 64), writable s p (R.RAILn_EN_CTRL n) 3 = true) ∧
    (∃ (s : State) (n : Fin 64), railUse s n = false ∧ s.flag (F.RAILn_GUARD_STATUS_CM_ERR n) = false) ∧
    (∃ (s : State) (n : Fin 64) (level : Bool) (edges : Nat), (edges < 20 ∨ s.flag (F.RAILn_GUARD_STATUS_EN_DRIVE n) = false)) ∧
    (∃ (s : State) (n : Nat), enLatch s n = false ∧ onDropped s = false) ∧
    (∃ (s : State) (n : Nat), (enLatch s n = true ∨ onDropped s = true)) ∧
    (∃ (s : State) (n : Nat), enLatch s n = true) ∧
    (∃ (s : State) (n : Nat), enLatch s n = false) :=
  ⟨(⟨puts up [((F.RAILn_GUARD_CFG_USE 0), 1), ((F.RAILn_GUARD_STATUS_CM_ERR 0), 0)], 0, by decide +kernel⟩),
   (⟨up, 0, true, 1000, by decide +kernel⟩),
   (⟨puts up [((F.RAILn_GUARD_CFG_USE 0), 1), ((F.RAILn_GUARD_CFG_PG_USE 0), 1), ((F.RAILn_GUARD_STATUS_EN_LATCH 0), 1)], 0, true, 0, by decide +kernel⟩),
   (⟨puts up [((F.RAILn_GUARD_STATUS_EN_DRIVE 0), 1)], 0, false, 20, by decide +kernel⟩),
   (⟨puts up [((F.RAILn_GUARD_STATUS_EN_DRIVE 0), 1), ((F.RAILn_GUARD_CFG_USE 0), 1)], 0, true, 20, by decide +kernel⟩),
   (⟨up, .host, 0, by decide +kernel⟩),
   (⟨up, .host, 0, by decide +kernel⟩),
   (⟨up, .host, 0, by decide +kernel⟩),
   (⟨puts up [((F.RAILn_GUARD_STATUS_CM_ERR 0), 0)], 0, by decide +kernel⟩),
   (⟨up, 0, true, 1000, by decide +kernel⟩),
   (⟨up, 0, by decide +kernel⟩),
   (⟨puts up [((F.RAILn_GUARD_STATUS_EN_LATCH 63), 1)], 63, by decide +kernel⟩),
   (⟨puts up [((F.RAILn_GUARD_STATUS_EN_LATCH 0), 1)], 0, by decide +kernel⟩),
   (⟨up, 0, by decide +kernel⟩)⟩

theorem witness_GuardProofs :
    (∃ (s : State) (n : Fin 64) (uv : Bool) (r : Int), railUse s n = true ∧ (s.gr n).proof = none ∧ s.flag (if uv then F.RAILn_GUARD_STATUS_UV_FAILED n else F.RAILn_GUARD_STATUS_OV_FAILED n) = false ∧ proofCode s n = some r ∧ s.flag (F.RAILn_GUARD_STATUS_SUBST n) = false ∧ (uv = true → r + 32 ≤ 4095) ∧ (uv = false → 0 ≤ r - 32) ∧ s.flag (if uv then F.RAILn_GUARD_STATUS_UV_RAW n else F.RAILn_GUARD_STATUS_OV_RAW n) = false) ∧
    (∃ (s : State) (n : Fin 64) (uv : Bool), railUse s n = true ∧ (s.gr n).proof = none ∧ s.flag (if uv then F.RAILn_GUARD_STATUS_UV_FAILED n else F.RAILn_GUARD_STATUS_OV_FAILED n) = false ∧ (proofCode s n = none ∨ s.flag (F.RAILn_GUARD_STATUS_SUBST n) = true ∧ s.flag (if uv then F.RAILn_GUARD_STATUS_UV_RAW n else F.RAILn_GUARD_STATUS_OV_RAW n) = false)) ∧
    (∃ (s : State) (n : Fin 64) (uv : Bool), (s.gr n).proof = some ⟨uv, false, false⟩) ∧
    (∃ (s : State) (n : Fin 64) (uv : Bool) (stuck : Bool), (s.gr n).proof = some ⟨uv, stuck, false⟩) ∧
    (∃ (s : State) (n : Fin 64) (uv : Bool) (stuck : Bool), (s.gr n).proof = some ⟨uv, stuck, true⟩) ∧
    (∃ (s : State) (n : Fin 64) (uv : Bool) (r : Int), railUse s n = true ∧ (s.gr n).proof = none ∧ s.flag (if uv then F.RAILn_GUARD_STATUS_UV_FAILED n else F.RAILn_GUARD_STATUS_OV_FAILED n) = false ∧ proofCode s n = some r ∧ s.flag (if uv then F.RAILn_GUARD_STATUS_UV_RAW n else F.RAILn_GUARD_STATUS_OV_RAW n) = true ∧ 32 ≤ (if uv then r - ((s.gr n).eff.uv : Nat) else (((s.gr n).eff.ov : Nat) : Int) - r)) ∧
    (∃ (s : State) (n : Fin 64) (uv : Bool) (r : Int), railUse s n = true ∧ (s.gr n).proof = none ∧ s.flag (if uv then F.RAILn_GUARD_STATUS_UV_FAILED n else F.RAILn_GUARD_STATUS_OV_FAILED n) = false ∧ proofCode s n = some r ∧ s.flag (if uv then F.RAILn_GUARD_STATUS_UV_RAW n else F.RAILn_GUARD_STATUS_OV_RAW n) = true ∧ (if uv then r - ((s.gr n).eff.uv : Nat) else (((s.gr n).eff.ov : Nat) : Int) - r) < 32) ∧
    (∃ (s : State) (ok : BitVec 8) (n : Nat) (cmp : Option Bool) (rest : List (Nat × Option Bool)), s.spare.slices = (n, cmp) :: rest ∧ s.spare.sub = none ∧ s.mode ≠ mHoldup ∧ ∃ (t : State) (k : Nat), pickSpare ((s.modSpare fun p => { p with slices := rest }).evtBit F.TWIN_EVT_SUB_START 140) n ok (freeSpares ((s.modSpare fun p => { p with slices := rest }).evtBit F.TWIN_EVT_SUB_START 140)) = (t, some k)) ∧
    (∃ (s : State) (ok : BitVec 8) (n : Nat) (cmp : Option Bool) (rest : List (Nat × Option Bool)), s.spare.slices = (n, cmp) :: rest ∧ s.spare.sub = none ∧ s.mode ≠ mHoldup ∧ ∃ (t : State), pickSpare ((s.modSpare fun p => { p with slices := rest }).evtBit F.TWIN_EVT_SUB_START 140) n ok (freeSpares ((s.modSpare fun p => { p with slices := rest }).evtBit F.TWIN_EVT_SUB_START 140)) = (t, none)) ∧
    (∃ (s : State) (b : Subst), s.spare.sub = some b ∧ b.step < 5 ∧ b.step ≠ 2) ∧
    (∃ (s : State) (b : Subst), s.spare.sub = some b ∧ b.step = 5) ∧
    (∃ (s : State) (b : Subst), s.spare.sub = some b ∧ b.step = 6) ∧
    (∃ (s : State) (b : Subst), s.spare.sub = some b ∧ b.step = 2) :=
  ⟨(⟨puts (State.modFine ((State.modGuard up 0 (fun x => { x with proof := none }))) 0 (fun x => { x with lastValid := some (100 * 2048) })) [((F.RAILn_GUARD_CFG_USE 0), 1), ((F.RAILn_GUARD_STATUS_SUBST 0), 0)], 0, false, 100, by decide +kernel⟩),
   (⟨puts (State.modGuard up 0 (fun x => { x with proof := none })) [((F.RAILn_GUARD_CFG_USE 0), 1)], 0, true, by decide +kernel⟩),
   (⟨(State.modGuard up 0 (fun x => { x with proof := some ⟨false, false, false⟩ })), 0, false, by decide +kernel⟩),
   (⟨(State.modGuard up 0 (fun x => { x with proof := some ⟨false, true, false⟩ })), 0, false, true, by decide +kernel⟩),
   (⟨(State.modGuard up 0 (fun x => { x with proof := some ⟨false, true, true⟩ })), 0, false, true, by decide +kernel⟩),
   (⟨puts (State.modGuard ((State.modFine ((State.modGuard up 0 (fun x => { x with proof := none }))) 0 (fun x => { x with lastValid := some 0 }))) 0 (fun x => { x with eff := ⟨32, 0, 0, 0, 0⟩ })) [((F.RAILn_GUARD_CFG_USE 0), 1), ((F.RAILn_GUARD_STATUS_OV_RAW 0), 1)], 0, false, 0, by decide +kernel⟩),
   (⟨puts (State.modGuard ((State.modFine ((State.modGuard up 0 (fun x => { x with proof := none }))) 0 (fun x => { x with lastValid := some 2048 }))) 0 (fun x => { x with eff := ⟨32, 0, 0, 0, 0⟩ })) [((F.RAILn_GUARD_CFG_USE 0), 1), ((F.RAILn_GUARD_STATUS_OV_RAW 0), 1)], 0, false, 1, by decide +kernel⟩),
   (⟨{ up with spare := { (up).spare with slices := (5, none) :: ([]), sub := none } }, 1, 5, none, [], by decide +kernel, by decide +kernel, by decide +kernel, _, 0, Prod.ext rfl (by decide +kernel)⟩),
   (⟨{ up with spare := { (up).spare with slices := (5, none) :: ([]), sub := none } }, 0, 5, none, [], by decide +kernel, by decide +kernel, by decide +kernel, _, Prod.ext rfl (by decide +kernel)⟩),
   (⟨{ up with spare := { (up).spare with sub := some (⟨63, 3, 4⟩) } }, ⟨63, 3, 4⟩, by decide +kernel⟩),
   (⟨{ up with spare := { (up).spare with sub := some (⟨63, 3, 5⟩) } }, ⟨63, 3, 5⟩, by decide +kernel⟩),
   (⟨{ up with spare := { (up).spare with sub := some (⟨63, 3, 6⟩) } }, ⟨63, 3, 6⟩, by decide +kernel⟩),
   (⟨{ up with spare := { (up).spare with sub := some (⟨63, 3, 2⟩) } }, ⟨63, 3, 2⟩, by decide +kernel⟩)⟩

theorem witness_FinePath :
    (∃ (s : State) (n : Fin 64) (raw : Int) (back : Bool), fineRun s n = true) ∧
    (∃ (s : State) (n : Fin 64) (k : Nat), (s.fr n).offPend = none ∧ (s.fr n).gainPend = none ∧ (s.fr n).pend = some k ∧ fineWanted s n = true ∧ fineRun s n = true) ∧
    (∃ (s : State) (n : Fin 64) (neg : Bool), fineRun s n = true ∧ (s.fr n).ovl = none) ∧
    (∃ (s : State) (p : Port) (n : Fin 64) (hi : Bool) (v : Word), writable s p (if hi then R.RAILn_FINE_WIN_HI n else R.RAILn_FINE_WIN_LO n) v.toNat = true) ∧
    (∃ (s : State) (p : Port) (n : Fin 64) (v : Word), writable s p (R.RAILn_FINE_CFG n) v.toNat = true) ∧
    (∃ (s : State) (p : Port) (n : Fin 64) (gain : Bool) (v : Word), writable s p (if gain then R.RAILn_CAL_GAIN n else R.RAILn_CAL_OFFSET n) v.toNat = true) ∧
    (∃ (s : State) (n : Fin 64) (k : Nat), (s.fr n).offPend = none ∧ (s.fr n).gainPend = none ∧ (s.fr n).pend = some k ∧ fineWanted s n = true ∧ fineRun s n = false) ∧
    (∃ (s : State) (n : Fin 64), (s.fr n).pend = none) ∧
    (∃ (s : State) (n : Nat) (raw : Int) (back : Bool) (quiet : Bool) (stim : Bool), fineRun s n = true) ∧
    (∃ (s : State) (n : Fin 64) (k : Nat), ((s.fr n).fresh = false ∨ (s.fr n).freshAt ≠ s.tclk)) ∧
    (∃ (s : State) (n : Fin 64) (k : Nat), (s.fr n).fresh = true ∧ (s.fr n).freshAt = s.tclk) :=
  ⟨(⟨puts up [((F.RAILn_FINE_STATE_RUN 0), 1)], 0, 0, false, by decide +kernel⟩),
   (⟨puts (State.modFine ((State.modFine ((State.modFine up 0 (fun x => { x with offPend := none }))) 0 (fun x => { x with gainPend := none }))) 0 (fun x => { x with pend := some 8 })) [((F.RAILn_GUARD_CFG_USE 0), 1), ((F.RAILn_FINE_STATE_RUN 0), 1)], 0, 8, by decide +kernel⟩),
   (⟨puts (State.modFine up 0 (fun x => { x with ovl := none })) [((F.RAILn_FINE_STATE_RUN 0), 1)], 0, false, by decide +kernel⟩),
   (⟨up, .host, 0, false, 0, by decide +kernel⟩),
   (⟨up, .host, 0, 0, by decide +kernel⟩),
   (⟨up, .host, 0, false, 0, by decide +kernel⟩),
   (⟨puts (State.modFine ((State.modFine ((State.modFine up 0 (fun x => { x with offPend := none }))) 0 (fun x => { x with gainPend := none }))) 0 (fun x => { x with pend := some 4 })) [((F.RAILn_GUARD_CFG_USE 0), 1)], 0, 4, by decide +kernel⟩),
   (⟨(State.modFine up 0 (fun x => { x with pend := none })), 0, by decide +kernel⟩),
   (⟨puts up [((F.RAILn_FINE_STATE_RUN 0), 1)], 0, 0, false, false, false, by decide +kernel⟩),
   (⟨up, 0, 0, by decide +kernel⟩),
   (⟨State.modFine up 0 (fun x => { x with fresh := true, freshAt := up.tclk }), 0, 4, by decide +kernel⟩)⟩

theorem witness_Calibrations :
    (∃ (s : State) (n : Nat) (gain : Bool) (v : Nat), fineRun s n = true) ∧
    (∃ (s : State) (n : Nat) (v : Nat), (s.fr n).offPend = some v ∧ (s.fr n).gainPend = none) ∧
    (∃ (s : State) (n : Nat) (v : Nat), (s.fr n).offPend = none ∧ (s.fr n).gainPend = some v) ∧
    (∃ (s : State) (n : Fin 64) (c : _), (s.fr n).cal = some c ∧ c.ended = true ∧ c.commit = none ∧ c.n < c.count) ∧
    (∃ (s : State) (n : Fin 64) (c : _) (coef : Nat) (mean : Int), (s.fr n).cal = some c ∧ c.commit = some (coef, mean) ∧ c.full = false) ∧
    (∃ (s : State) (n : Fin 64) (c : _) (coef : Nat) (mean : Int), (s.fr n).cal = some c ∧ c.commit = some (coef, mean) ∧ c.full = true) ∧
    (∃ (s : State) (c : _), s.pool.cal = some c ∧ c.run.ended = true ∧ c.run.commit = none ∧ c.run.n < c.run.count) ∧
    (∃ (s : State) (c : _) (coef : Nat) (mean : Int), s.pool.cal = some c ∧ c.run.commit = some (coef, mean)) :=
  ⟨(⟨puts up [((F.RAILn_FINE_STATE_RUN 0), 1)], 0, false, 0, by decide +kernel⟩),
   (⟨(State.modFine ((State.modFine up 0 (fun x => { x with gainPend := none }))) 0 (fun x => { x with offPend := some 1 })), 0, 1, by decide +kernel⟩),
   (⟨(State.modFine ((State.modFine up 0 (fun x => { x with offPend := none }))) 0 (fun x => { x with gainPend := some 1 })), 0, 1, by decide +kernel⟩),
   (⟨(State.modFine up 0 (fun x => { x with cal := some ⟨true, 16, 3, 0, 0, 0, 9, 0, 1, true, none⟩ })), 0, ⟨true, 16, 3, 0, 0, 0, 9, 0, 1, true, none⟩, by decide +kernel⟩),
   (⟨(State.modFine up 0 (fun x => { x with cal := some ⟨false, 16, 3, 0, 0, 0, 9, 0, 1, true, some (5, 6)⟩ })), 0, ⟨false, 16, 3, 0, 0, 0, 9, 0, 1, true, some (5, 6)⟩, 5, 6, by decide +kernel⟩),
   (⟨(State.modFine up 0 (fun x => { x with cal := some ⟨true, 16, 3, 0, 0, 0, 9, 0, 1, true, some (5, 6)⟩ })), 0, ⟨true, 16, 3, 0, 0, 0, 9, 0, 1, true, some (5, 6)⟩, 5, 6, by decide +kernel⟩),
   (⟨{ up with pool := { (up).pool with cal := some (⟨0, 1, 0, 0, ⟨true, 16, 3, 0, 0, 0, 9, 0, 1, true, none⟩, true⟩) } }, ⟨0, 1, 0, 0, ⟨true, 16, 3, 0, 0, 0, 9, 0, 1, true, none⟩, true⟩, by decide +kernel⟩),
   (⟨{ up with pool := { (up).pool with cal := some (⟨0, 1, 0, 0, ⟨true, 16, 3, 0, 0, 0, 9, 0, 1, true, some (5, 6)⟩, true⟩) } }, ⟨0, 1, 0, 0, ⟨true, 16, 3, 0, 0, 0, 9, 0, 1, true, some (5, 6)⟩, true⟩, 5, 6, by decide +kernel⟩)⟩

theorem witness_Benches :
    (∃ (s : State) (p : Port) (b : Fin 8), writable s p (R.BENCHb_CTRL b) 1 = true) ∧
    (∃ (s : State) (b : _), benchStartRefused s b = false ∧ benchStopped (((s.put (F.BENCHb_STATUS_ROVR b) 0).put (F.BENCHb_STATUS_IOVR b) 0).modBn b fun t => { t with passCnt := 0 }) b = true) ∧
    (∃ (s : State) (p : Port) (b : Fin 8), writable s p (R.BENCHb_CTRL b) 2 = true) ∧
    (∃ (s : State) (p : Port) (b : Fin 8), writable s p (R.BENCHb_CTRL b) 4 = true) ∧
    (∃ (s : State) (p : Port) (b : Fin 8), writable s p (R.BENCHb_CTRL b) 8 = true) ∧
    (∃ (s : State) (p : Port) (v : Word), writable s p R.BENCH_LAYOUT v.toNat = true) ∧
    (∃ (s : State) (p : Port) (gain : Bool) (v : Word), writable s p (if gain then R.POOL_CAL_GAIN else R.POOL_CAL_OFFSET) v.toNat = true) ∧
    (∃ (s : State) (b : Nat), benchStopped s b = false ∧ benchQuiet s b = false ∧ s.get (F.BENCHb_CFG_MODE b) ≠ 1 ∧ (s.bn b).passOn = true) ∧
    (∃ (s : State) (b : Nat), benchStopped s b = false ∧ benchQuiet s b = false ∧ (s.bn b).passOn = false ∧ (s.bn b).regDelay = none ∧ s.flag (F.BENCHb_STATUS_REG_PEND b) = false ∧ trigDelay s b false = none ∧ (s.bn b).injOn = false) ∧
    (∃ (s : State) (b : Nat), benchStopped s b = false ∧ benchQuiet s b = false ∧ (s.bn b).passOn = false ∧ (s.bn b).regDelay = none ∧ s.flag (F.BENCHb_STATUS_REG_PEND b) = false ∧ trigDelay s b false = none ∧ (s.bn b).injOn = true) ∧
    (∃ (s : State) (b : Nat), benchStopped s b = false ∧ benchQuiet s b = false ∧ (s.bn b).injOn = true) ∧
    (∃ (s : State) (b : Nat), (benchStopped s b = true ∨ benchQuiet s b = true)) ∧
    (∃ (s : State) (b : Nat) (d : TrigDelay), benchStopped s b = false ∧ benchQuiet s b = false ∧ (s.bn b).passOn = false ∧ (s.bn b).regDelay = none ∧ s.flag (F.BENCHb_STATUS_REG_PEND b) = false ∧ trigDelay s b false = some d) ∧
    (∃ (s : State) (b : Nat), benchStopped s b = false ∧ benchQuiet s b = false ∧ s.get (F.BENCHb_CFG_MODE b) = 1 ∧ ((s.bn b).passOn = true ∨ (s.bn b).regDelay.isSome = true ∨ s.flag (F.BENCHb_STATUS_REG_PEND b) = true)) ∧
    (∃ (s : State) (b : Nat), (s.get (F.BENCHb_TRIG_SRC b) = 2 ∨ s.get (F.BENCHb_TRIG_DELAY b) = 0)) ∧
    (∃ (s : State) (b : Nat), s.get (F.BENCHb_TRIG_SRC b) ≠ 2 ∧ s.get (F.BENCHb_TRIG_DELAY b) ≠ 0 ∧ s.flag (F.BENCHb_TRIG_DLY_ANG b) = true) ∧
    (∃ (s : State) (b : Nat), s.get (F.BENCHb_TRIG_SRC b) ≠ 2 ∧ s.get (F.BENCHb_TRIG_DELAY b) ≠ 0 ∧ s.flag (F.BENCHb_TRIG_DLY_ANG b) = false) ∧
    (∃ (s : State) (b : Fin 8), s.get (F.BENCHb_CFG_MODE b) ≠ 2) ∧
    (∃ (s : State) (b : Fin 8), s.get (F.BENCHb_CFG_MODE b) = 2 ∧ (s.bn b).stepNext < (benchSlice s b).length) ∧
    (∃ (s : State) (b : Fin 8), s.get (F.BENCHb_CFG_MODE b) = 2 ∧ (benchSlice s b).length ≤ (s.bn b).stepNext) ∧
    (∃ (since : Stamp) (a : Nat), a < 2 ^ 20) :=
  ⟨(⟨puts up [(F.BENCH_LAYOUT_ALL8, 1)], .host, 0, by decide +kernel⟩),
   (⟨puts up [(F.BENCH_LAYOUT_ALL8, 1)], 0, by decide +kernel⟩),
   (⟨up, .host, 0, by decide +kernel⟩),
   (⟨up, .host, 0, by decide +kernel⟩),
   (⟨up, .host, 0, by decide +kernel⟩),
   (⟨up, .host, BitVec.ofNat 32 (F.BENCH_LAYOUT_ALL8.insert 0 1), by decide +kernel⟩),
   (⟨up, .host, false, 0, by decide +kernel⟩),
   (⟨puts (State.modBn ((State.modBn up 0 (fun x => { x with passOn := true }))) 0 (fun x => { x with passOn := true })) [((F.BENCHb_STATUS_STATE 0), 1)], 0, by decide +kernel⟩),
   (⟨puts (State.modBn ((State.modBn ((State.modBn up 0 (fun x => { x with passOn := false }))) 0 (fun x => { x with regDelay := none }))) 0 (fun x => { x with injOn := false })) [((F.BENCHb_STATUS_REG_PEND 0), 0), ((F.BENCHb_STATUS_STATE 0), 1)], 0, by decide +kernel⟩),
   (⟨puts (State.modBn ((State.modBn ((State.modBn up 0 (fun x => { x with passOn := false }))) 0 (fun x => { x with regDelay := none }))) 0 (fun x => { x with injOn := true })) [((F.BENCHb_STATUS_REG_PEND 0), 0), ((F.BENCHb_STATUS_STATE 0), 1)], 0, by decide +kernel⟩),
   (⟨puts (State.modBn up 0 (fun x => { x with injOn := true })) [((F.BENCHb_STATUS_STATE 0), 1)], 0, by decide +kernel⟩),
   (⟨up, 0, by decide +kernel⟩),
   (⟨puts (State.modBn ((State.modBn up 0 (fun x => { x with passOn := false }))) 0 (fun x => { x with regDelay := none })) [((F.BENCHb_STATUS_REG_PEND 0), 0), ((F.BENCHb_STATUS_STATE 0), 1), ((F.BENCHb_TRIG_SRC 0), 1), ((F.BENCHb_TRIG_DELAY 0), 125)], 0, .tclk 128, by decide +kernel⟩),
   (⟨puts up [((F.BENCHb_CFG_MODE 0), 1), ((F.BENCHb_STATUS_STATE 0), 1), ((F.BENCHb_CFG_MODE 0), 1), ((F.BENCHb_STATUS_REG_PEND 0), 1)], 0, by decide +kernel⟩),
   (⟨up, 0, by decide +kernel⟩),
   (⟨puts up [((F.BENCHb_TRIG_DELAY 0), 1), ((F.BENCHb_TRIG_DLY_ANG 0), 1)], 0, by decide +kernel⟩),
   (⟨puts up [((F.BENCHb_TRIG_DELAY 0), 1), ((F.BENCHb_TRIG_DLY_ANG 0), 0)], 0, by decide +kernel⟩),
   (⟨up, 0, by decide +kernel⟩),
   (⟨puts up [((F.BENCHb_CFG_MODE 0), 2)], 0, by decide +kernel⟩),
   (⟨puts (State.modBn up 0 (fun x => { x with stepNext := 32 })) [((F.BENCHb_CFG_MODE 0), 2)], 0, by decide +kernel⟩),
   (⟨default, 0, by decide +kernel⟩)⟩

theorem witness_PoolWork :
    (∃ (s : State) (sel : Fin 4) (level : Bool), s.pool.pwm.getLsbD sel ≠ level) ∧
    (∃ (s : State) (b : Fin 8), benchStopped s b = false ∧ s.get (F.BENCHb_ITRIG_SRC b) = 2 ∧ angleReached s (s.bn b).injFrom (s.get (F.BENCHb_ITRIG_TARGET b)) = true) ∧
    (∃ (s : State) (b : Fin 8), benchStopped s b = false ∧ s.get (F.BENCHb_TRIG_SRC b) = 2 ∧ angleReached s (s.bn b).regFrom (s.get (F.BENCHb_TRIG_TARGET b)) = true) ∧
    (∃ (s : State) (b : Fin 8) (d : TrigDelay), (s.bn b).injDelay = some d ∧ d.over s = true) ∧
    (∃ (s : State) (b : Fin 8) (d : TrigDelay), (s.bn b).regDelay = some d ∧ d.over s = true) ∧
    (∃ (s : State) (n : Fin 10) (raw : BitVec 24) (ovl : Bool) (cm : Bool) (w : PcWork), (s.pc n).work = some w ∧ (w.kind == .cal) = false) ∧
    (∃ (s : State) (n : Fin 10) (w : PcWork) (b : Fin 8) (inj : Bool) (k : Nat), (s.pc n).work = some w ∧ w.kind = .entry b inj k ∧ w.through = true) ∧
    (∃ (s : State) (raw : BitVec 24) (n : _), ((below 8).filterMap (posConv s)).head? = some n ∧ s.mode = mHoldup ∧ s.flag F.POOL_HU_CFG_EN = true) ∧
    (∃ (s : State) (n : Nat) (rest : List Nat) (pos : Nat) (k : Nat) (more : List Nat), s.spare.convs = n :: rest ∧ s.mode ≠ mHoldup ∧ convPos (s.modSpare fun p => { p with convs := rest }) n = some pos ∧ freeConvSpares (s.modSpare fun p => { p with convs := rest }) = k :: more) ∧
    (∃ (s : State) (p : Port) (a : Nat), isPoolResult a = true ∧ latchReg a = false ∧ a ≠ R.ANG_STAMP_HI) ∧
    (∃ (s : State) (b : Fin 8), (benchStopped s b = true ∨ s.get (F.BENCHb_ITRIG_SRC b) ≠ 2 ∨ angleReached s (s.bn b).injFrom (s.get (F.BENCHb_ITRIG_TARGET b)) = false)) ∧
    (∃ (s : State) (b : Fin 8), (benchStopped s b = true ∨ s.get (F.BENCHb_TRIG_SRC b) ≠ 2 ∨ angleReached s (s.bn b).regFrom (s.get (F.BENCHb_TRIG_TARGET b)) = false)) :=
  ⟨(⟨up, 0, true, by decide +kernel⟩),
   (⟨puts { up with ang := { (up).ang with stamp := 100 } } [((F.BENCHb_ITRIG_SRC 0), 2), ((F.BENCHb_STATUS_STATE 0), 1), (F.ANG_STATUS_RUN, 1), ((F.BENCHb_ITRIG_TARGET 0), 50)], 0, by decide +kernel⟩),
   (⟨puts { up with ang := { (up).ang with stamp := 100 } } [((F.BENCHb_TRIG_SRC 0), 2), ((F.BENCHb_STATUS_STATE 0), 1), (F.ANG_STATUS_RUN, 1), ((F.BENCHb_TRIG_TARGET 0), 50)], 0, by decide +kernel⟩),
   (⟨(State.modBn up 0 (fun x => { x with injDelay := some (.tclk 0) })), 0, .tclk 0, by decide +kernel⟩),
   (⟨puts (State.modBn up 7 (fun x => { x with regDelay := some (.angle 0) })) [(F.ANG_STATUS_RUN, 1)], 7, .angle 0, by decide +kernel⟩),
   (⟨(State.modPc up 9 (fun x => { x with work := some (pcw .node 0 2) })), 9, 0, false, false, pcw .node 0 2, by decide +kernel⟩),
   (⟨(State.modPc up 0 (fun x => { x with work := some (pcw (.entry 0 false 0) 0 0) })), 0, pcw (.entry 0 false 0) 0 0, 0, false, 0, by decide +kernel⟩),
   (⟨puts up [(F.SEC_STATE_MODE, 4), (F.POOL_HU_CFG_EN, 1)], 0, 0, by decide +kernel⟩),
   (⟨puts { up with spare := { (up).spare with convs := 7 :: ([]) } } [((F.PCn_STATUS_ROLE 8), 1)], 7, [], 7, 8, [], by decide +kernel⟩),
   (⟨up, .host, (R.BENCH_REGk_RES 47), by decide +kernel⟩),
   (⟨up, 0, by decide +kernel⟩),
   (⟨up, 0, by decide +kernel⟩)⟩

theorem witness_References :
    (∃ (s : State) (diff : Int), assayMode s = true ∧ s.flag F.ASSAY_CFG_REF_EN = true ∧ (let t := s.putS F.ASSAY_REF_DIFF_DIFF (clampInt (-32768) 32767 diff); (diff.natAbs : Int) ≤ (t.get F.ASSAY_REF_TOL_TOL : Int))) ∧
    (∃ (s : State) (diff : Int), assayMode s = true ∧ s.flag F.ASSAY_CFG_REF_EN = true ∧ (let t := s.putS F.ASSAY_REF_DIFF_DIFF (clampInt (-32768) 32767 diff); (t.get F.ASSAY_REF_TOL_TOL : Int) < diff.natAbs)) ∧
    (∃ (s : State) (diff : Int), (assayMode s = false ∨ s.flag F.ASSAY_CFG_REF_EN = false)) ∧
    (∃ (s : State), assayMode s = true ∧ s.spare.vrefWorn.getLsbD 2 = false ∧ s.assay.ref = none ∧ s.assay.refMiss = 0) ∧
    (∃ (s : State), assayMode s = true ∧ s.spare.vrefWorn.getLsbD 2 = false ∧ s.assay.ref = none ∧ 0 < s.assay.refMiss) ∧
    (∃ (s : State) (r : RefRun), s.assay.ref = some r ∧ r.triage = false ∧ assayMode s = true ∧ r.asked = false) ∧
    (∃ (s : State) (r : RefRun), s.assay.ref = some r ∧ r.triage = false ∧ assayMode s = true ∧ ∃ (b : Nat) (c : Nat), r.asked = true ∧ r.b = some b ∧ r.c = some c) ∧
    (∃ (s : State) (b : Nat) (c : Nat), s.assay.refMiss = 0 ∧ s.assay.recorded = false) ∧
    (∃ (s : State) (r : RefRun), s.assay.triage = some .reference ∧ s.assay.ref = some r ∧ (s.spare.vrefRole ≠ 0 ∨ s.spare.vrefWorn.getLsbD 2 = true)) ∧
    (∃ (s : State) (r : RefRun), s.assay.triage = some .reference ∧ s.assay.ref = some r ∧ s.spare.vrefRole = 0 ∧ s.spare.vrefWorn.getLsbD 2 = false ∧ r.asked = false) ∧
    (∃ (s : State) (r : RefRun), s.assay.triage = some .reference ∧ s.assay.ref = some r ∧ s.spare.vrefRole = 0 ∧ s.spare.vrefWorn.getLsbD 2 = false ∧ ∃ (b : Nat) (c : Nat), r.asked = true ∧ r.b = some b ∧ r.c = some c) ∧
    (∃ (s : State) (b : Nat) (c : Nat), (let db : Int := (b : Int) - (s.get F.ASSAY_REF_RATIO_B0 : Nat); (let dc : Int := (c : Int) - (s.get F.ASSAY_REF_RATIO_C0 : Nat); (let tol : Int := (s.get F.ASSAY_REF_TOL_TOL : Nat); (let worn (part : Nat) := (referenceSubst (endTriage s .reference 1 part 15 0) part).modAssay; s.assay.recorded = true ∧ ((dc - db).natAbs : Int) ≤ tol ∧ tol < db.natAbs))))) ∧
    (∃ (s : State) (b : Nat) (c : Nat), (let db : Int := (b : Int) - (s.get F.ASSAY_REF_RATIO_B0 : Nat); (let dc : Int := (c : Int) - (s.get F.ASSAY_REF_RATIO_C0 : Nat); (let tol : Int := (s.get F.ASSAY_REF_TOL_TOL : Nat); (let worn (part : Nat) := (referenceSubst (endTriage s .reference 1 part 15 0) part).modAssay; s.assay.recorded = true ∧ tol < (dc - db).natAbs ∧ (dc.natAbs : Int) ≤ tol ∧ tol < db.natAbs))))) ∧
    (∃ (s : State) (b : Nat) (c : Nat), (let db : Int := (b : Int) - (s.get F.ASSAY_REF_RATIO_B0 : Nat); (let dc : Int := (c : Int) - (s.get F.ASSAY_REF_RATIO_C0 : Nat); (let tol : Int := (s.get F.ASSAY_REF_TOL_TOL : Nat); (let worn (part : Nat) := (referenceSubst (endTriage s .reference 1 part 15 0) part).modAssay; (db.natAbs : Int) ≤ tol))))) ∧
    (∃ (s : State) (b : Nat) (c : Nat), s.assay.refMiss = 0 ∧ s.assay.recorded = true ∧ s.spare.vrefRole = 0 ∧ (let t := s.modAssay fun a => { a with ref := none }; refMoved t c (t.get F.ASSAY_REF_RATIO_C0) = true ∧ refMoved t b (t.get F.ASSAY_REF_RATIO_B0) = true)) ∧
    (∃ (s : State) (b : Nat) (c : Nat), s.assay.refMiss = 0 ∧ s.assay.recorded = true ∧ s.spare.vrefRole = 0 ∧ (let t := s.modAssay fun a => { a with ref := none }; refMoved t c (t.get F.ASSAY_REF_RATIO_C0) = true ∧ refMoved t b (t.get F.ASSAY_REF_RATIO_B0) = false)) :=
  ⟨(⟨puts up [(F.ASSAY_CFG_REF_EN, 1)], 0, by decide +kernel⟩),
   (⟨puts up [(F.ASSAY_CFG_REF_EN, 1)], 1, by decide +kernel⟩),
   (⟨up, 0, by decide +kernel⟩),
   (⟨{ up with assay := { (up).assay with ref := none, refMiss := 0 } }, by decide +kernel⟩),
   (⟨{ up with assay := { (up).assay with ref := none, refMiss := 1 } }, by decide +kernel⟩),
   (⟨{ up with assay := { (up).assay with ref := some (⟨false, false, none, none⟩) } }, ⟨false, false, none, none⟩, by decide +kernel⟩),
   (⟨{ up with assay := { (up).assay with ref := some (⟨false, true, some 5, some 6⟩) } }, ⟨false, true, some 5, some 6⟩, by decide +kernel, by decide +kernel, by decide +kernel, 5, 6, by decide +kernel⟩),
   (⟨{ up with assay := { (up).assay with refMiss := 0, recorded := false } }, 0, 0, by decide +kernel⟩),
   (⟨{ up with assay := { (up).assay with triage := some .reference, ref := some (⟨true, true, none, none⟩) }, spare := { (up).spare with vrefRole := 1 } }, ⟨true, true, none, none⟩, by decide +kernel⟩),
   (⟨{ up with assay := { (up).assay with triage := some .reference, ref := some (⟨true, false, none, none⟩) }, spare := { (up).spare with vrefRole := 0 } }, ⟨true, false, none, none⟩, by decide +kernel⟩),
   (⟨{ up with assay := { (up).assay with triage := some .reference, ref := some (⟨true, true, some 5, some 6⟩) }, spare := { (up).spare with vrefRole := 0 } }, ⟨true, true, some 5, some 6⟩, by decide +kernel, by decide +kernel, by decide +kernel, by decide +kernel, 5, 6, by decide +kernel⟩),
   (⟨{ up with assay := { (up).assay with recorded := true } }, 9, 9, by decide +kernel⟩),
   (⟨{ up with assay := { (up).assay with recorded := true } }, 9, 0, by decide +kernel⟩),
   (⟨up, 0, 0, by decide +kernel⟩),
   (⟨{ up with assay := { (up).assay with refMiss := 0, recorded := true }, spare := { (up).spare with vrefRole := 0 } }, 9, 9, by decide +kernel⟩),
   (⟨{ up with assay := { (up).assay with refMiss := 0, recorded := true }, spare := { (up).spare with vrefRole := 0 } }, 0, 9, by decide +kernel⟩)⟩

theorem witness_Assay :
    (∃ (s : State), assayMode s = true ∧ s.flag F.ASSAY_CFG_CONV_EN = true ∧ s.assay.roundOn = false) ∧
    (∃ (s : State), (assayMode s = false ∨ s.flag F.ASSAY_CFG_CONV_EN = false ∨ s.assay.roundOn = true)) ∧
    (∃ (s : State) (n : _) (stim : Bool) (p : Nat), nextConv s s.assay.nextPos = some p ∧ (let t := s.modAssay fun a => { a with nextPos := (p + 1) % 8 }; railCheckSkipped t n stim = true)) ∧
    (∃ (s : State) (n : _) (stim : Bool) (p : Nat), nextConv s s.assay.nextPos = some p ∧ (let t := s.modAssay fun a => { a with nextPos := (p + 1) % 8 }; railCheckSkipped t n stim = false)) ∧
    (∃ (s : State) (n : Fin 10), ((s.pc n).need = true ∨ (s.assay.jobs.any fun j => (jobConvs s j).contains n.val) = true)) ∧
    (∃ (s : State) (n : Fin 10) (w : PcWork), (s.pc n).work = some w ∧ w.through = true ∧ w.kind = .node) ∧
    (∃ (s : State) (n : Fin 10) (w : PcWork), (s.pc n).work = some w ∧ w.through = true ∧ ∃ (r : Nat), w.kind = .railCheck r) ∧
    (∃ (s : State) (n : Fin 10) (w : PcWork), (s.pc n).work = some w ∧ w.through = true ∧ w.kind = .triage) ∧
    (∃ (s : State) (n : Fin 10) (w : PcWork), (s.pc n).work = some w ∧ w.through = true ∧ ∃ (r : Nat), w.kind = .recheck r) ∧
    (∃ (s : State) (n : Fin 10) (w : PcWork), (s.pc n).work = some w ∧ w.through = true ∧ ∃ (c : Bool), w.kind = .ref c) ∧
    (∃ (s : State), s.assay.roundOn = true) ∧
    (∃ (s : State), s.assay.roundOn = false) ∧
    (∃ (s : State) (n : Nat) (round : Nat) (x : Nat) (a : Nat) (b : Nat) (u : Int) (w1 : Int) (w2 : Int), s.assay.triage = some (.converter n round) ∧ assayFrozen s = false ∧ s.assay.group = [x, a, b] ∧ gotOf s x = some u ∧ gotOf s a = some w1 ∧ gotOf s b = some w2 ∧ convDiffer s w1 w2 = true) ∧
    (∃ (s : State) (n : Nat) (round : Nat) (x : Nat) (a : Nat) (b : Nat) (u : Int) (w1 : Int) (w2 : Int), s.assay.triage = some (.converter n round) ∧ assayFrozen s = false ∧ s.assay.group = [x, a, b] ∧ gotOf s x = some u ∧ gotOf s a = some w1 ∧ gotOf s b = some w2 ∧ convDiffer s w1 w2 = false ∧ convDiffer s u w1 = true ∧ convDiffer s u w2 = true) ∧
    (∃ (s : State) (n : Nat) (round : Nat) (x : Nat) (a : Nat) (b : Nat) (u : Int) (w1 : Int) (w2 : Int), s.assay.triage = some (.converter n round) ∧ assayFrozen s = false ∧ s.assay.group = [x, a, b] ∧ gotOf s x = some u ∧ gotOf s a = some w1 ∧ gotOf s b = some w2 ∧ convDiffer s w1 w2 = false ∧ (convDiffer s u w1 = false ∨ convDiffer s u w2 = false)) ∧
    (∃ (s : State) (n : Nat) (c1 : Nat) (p1 : Int) (fs : Int) (cnt : Nat) (c2 : Nat) (pool : Int), s.assay.triage = some (.rail n c1 p1 fs cnt) ∧ assayFrozen s = false ∧ s.assay.group = [c2] ∧ gotOf s c2 = some pool) ∧
    (∃ (s : State) (n : Nat) (c1 : Nat) (c2 : Nat) (p1 : Int) (fs : Int) (cnt : Nat) (pool : Int), (let clear (s : State) := s.modAssay fun a => { a with railMiss := vmod a.railMiss n fun _ => 0 }; (let ended (o : Nat) := endTriage s (.rail n c1 p1 fs cnt) o (sliceOf s n) c1 c2; poolsDiffer s p1 pool = false ∧ railDiffer s p1 fs cnt = true ∧ railDiffer s pool fs cnt = true))) ∧
    (∃ (s : State) (n : Nat) (c1 : Nat) (c2 : Nat) (p1 : Int) (fs : Int) (cnt : Nat) (pool : Int), (let clear (s : State) := s.modAssay fun a => { a with railMiss := vmod a.railMiss n fun _ => 0 }; (let ended (o : Nat) := endTriage s (.rail n c1 p1 fs cnt) o (sliceOf s n) c1 c2; poolsDiffer s p1 pool = true ∧ railDiffer s p1 fs cnt = true ∧ railDiffer s pool fs cnt = false))) ∧
    (∃ (s : State) (n : Nat) (c1 : Nat) (c2 : Nat) (p1 : Int) (fs : Int) (cnt : Nat) (pool : Int), (let clear (s : State) := s.modAssay fun a => { a with railMiss := vmod a.railMiss n fun _ => 0 }; (let ended (o : Nat) := endTriage s (.rail n c1 p1 fs cnt) o (sliceOf s n) c1 c2; poolsDiffer s p1 pool = false ∧ railDiffer s pool fs cnt = false))) ∧
    (∃ (s : State) (n : Nat), assayFrozen s = true ∧ ∃ (round : Nat), s.assay.triage = some (.converter n round)) ∧
    (∃ (s : State) (n : Nat), assayFrozen s = true ∧ ∃ (c1 : Nat) (p1 : Int) (fs : Int) (cnt : Nat), s.assay.triage = some (.rail n c1 p1 fs cnt)) :=
  ⟨(⟨puts { up with assay := { (up).assay with roundOn := false } } [(F.ASSAY_CFG_CONV_EN, 1)], by decide +kernel⟩),
   (⟨up, by decide +kernel⟩),
   (⟨up, 0, false, 0, by decide +kernel⟩),
   (⟨puts up [(F.ASSAY_CFG_RAIL_EN, 1), ((F.RAILn_GUARD_CFG_USE 63), 1), ((F.RAILn_FINE_STATE_RUN 63), 1), (F.BENCH_MAP_POS 0, 0)], 63, false, 0, by decide +kernel⟩),
   (⟨(State.modPc up 9 (fun x => { x with need := true })), 9, by decide +kernel⟩),
   (⟨(State.modPc up 0 (fun x => { x with work := some (pcw (.node) 0 0) })), 0, pcw (.node) 0 0, by decide +kernel⟩),
   (⟨(State.modPc up 0 (fun x => { x with work := some (pcw (.railCheck 63) 0 0) })), 0, pcw (.railCheck 63) 0 0, by decide +kernel, by decide +kernel, 63, by decide +kernel⟩),
   (⟨(State.modPc up 0 (fun x => { x with work := some (pcw (.triage) 0 0) })), 0, pcw (.triage) 0 0, by decide +kernel⟩),
   (⟨(State.modPc up 0 (fun x => { x with work := some (pcw (.recheck 63) 0 0) })), 0, pcw (.recheck 63) 0 0, by decide +kernel, by decide +kernel, 63, by decide +kernel⟩),
   (⟨(State.modPc up 0 (fun x => { x with work := some (pcw (.ref true) 0 0) })), 0, pcw (.ref true) 0 0, by decide +kernel, by decide +kernel, true, by decide +kernel⟩),
   (⟨{ up with assay := { (up).assay with roundOn := true } }, by decide +kernel⟩),
   (⟨{ up with assay := { (up).assay with roundOn := false } }, by decide +kernel⟩),
   (⟨puts { up with assay := { (up).assay with triage := some (.converter 0 1), group := [0, 1, 2], got := [(0, 0), (1, 0), (2, 9)] } } [(F.ASSAY_CONV_TOL_TOL, 0)], 0, 1, 0, 1, 2, 0, 0, 9, by decide +kernel⟩),
   (⟨puts { up with assay := { (up).assay with triage := some (.converter 0 1), group := [0, 1, 2], got := [(0, 9), (1, 0), (2, 0)] } } [(F.ASSAY_CONV_TOL_TOL, 0)], 0, 1, 0, 1, 2, 9, 0, 0, by decide +kernel⟩),
   (⟨puts { up with assay := { (up).assay with triage := some (.converter 0 1), group := [0, 1, 2], got := [(0, 0), (1, 0), (2, 0)] } } [(F.ASSAY_CONV_TOL_TOL, 0)], 0, 1, 0, 1, 2, 0, 0, 0, by decide +kernel⟩),
   (⟨{ up with assay := { (up).assay with triage := some (.rail 63 0 0 0 4), group := [1], got := [(1, 7)] } }, 63, 0, 0, 0, 4, 1, 7, by decide +kernel⟩),
   (⟨up, 0, 0, 1, 9, 0, 4, 9, by decide +kernel⟩),
   (⟨up, 0, 0, 1, 9, 0, 4, 0, by decide +kernel⟩),
   (⟨up, 0, 0, 0, 0, 0, 0, 0, by decide +kernel⟩),
   (⟨{ up with assay := { (up).assay with triage := some (.converter 0 1), refMiss := 1 } }, 0, by decide +kernel, 1, by decide +kernel⟩),
   (⟨{ up with assay := { (up).assay with triage := some (.rail 0 0 9 0 4), refMiss := 1 } }, 0, by decide +kernel, 0, 9, 0, 4, by decide +kernel⟩)⟩

theorem witness_SpareChecks :
    (∃ (s : State) (k : Fin 8) (raw0 : Int) (raw1 : Int), (s.flag F.ASSAY_CFG_SPARE_EN = false ∨ s.assay.spareDue.getLsbD k = false)) ∧
    (∃ (s : State) (k : Fin 8) (raw0 : Int) (raw1 : Int) (m0 : Int) (m1 : Int), s.flag F.ASSAY_CFG_SPARE_EN = true ∧ assayMode s = true ∧ s.mode ≠ mQuiescent ∧ s.get (F.SPAREk_STATUS_STATE k) = 0 ∧ s.assay.spareDue.getLsbD k = true ∧ s.assay.median0 = some m0 ∧ s.assay.median1 = some m1 ∧ assayFrozen s = false ∧ (let t := (s.modAssay fun a => { a with spareDue := a.spareDue &&& ~~~(1#8 <<< k.val) }).addWrap (F.SPAREk_CNT_CHECKS k); spareMisses t (64 + k) raw0 raw1 m0 m1 = false)) ∧
    (∃ (s : State), max 1 (s.get F.ASSAY_CFG_SPARE_PER) ≤ s.assay.sparePer + 1) ∧
    (∃ (s : State), s.assay.sparePer + 1 < max 1 (s.get F.ASSAY_CFG_SPARE_PER)) ∧
    (∃ (s : State) (row : Nat), (s.spare.sramErr.any fun e => e.1 == row && decide (s.tclk - e.2 ≤ day)) = false) ∧
    (∃ (s : State) (row : Nat), (s.spare.sramErr.any fun e => e.1 == row && decide (s.tclk - e.2 ≤ day)) = true ∧ s.spare.sramWorn.contains row = false ∧ s.get F.SPR_STATUS_SRAM_USED < 32) :=
  ⟨(⟨up, 0, 0, 0, by decide +kernel⟩),
   (⟨puts { up with assay := { (up).assay with median0 := some 0, median1 := some 0, spareDue := 255 } } [(F.ASSAY_CFG_SPARE_EN, 1), ((F.SPAREk_STATUS_STATE 7), 0), (F.SEC_STATE_MODE, 2)], 7, 0, 0, 0, 0, by decide +kernel⟩),
   (⟨up, by decide +kernel⟩),
   (⟨puts up [(F.ASSAY_CFG_SPARE_PER, 2)], by decide +kernel⟩),
   (⟨up, 0, by decide +kernel⟩),
   (⟨{ up with spare := { (up).spare with sramErr := [(5, 0)] } }, 5, by decide +kernel⟩)⟩

theorem witness_QuireControl :
    (∃ (s : State) (p : Port) (q : Fin 16), writable s p (R.QUIREq_CTRL q) 1 = true) ∧
    (∃ (s : State) (p : Port) (q : Fin 16), writable s p (R.QUIREq_CTRL q) 2 = true) ∧
    (∃ (s : State) (p : Port) (q : Fin 16), writable s p (R.QUIREq_CTRL q) 4 = true) ∧
    (∃ (s : State) (p : Port) (m : BitVec 16), writable s p R.SEQ_CTRL m.toNat = true) ∧
    (∃ (s : State) (p : Port) (m : BitVec 16), writable s p R.SEQ_CTRL (65536 * m.toNat) = true) ∧
    (∃ (s : State) (p : Port) (q : Fin 16) (hi : Bool) (v : Word), writable s p (if hi then R.QUIREq_MEMBERS_HI q else R.QUIREq_MEMBERS_LO q) v.toNat = true) ∧
    (∃ (s : State) (q : Nat), s.flag ⟨R.QUIREq_CTRL q, 0, 1⟩ = true ∧ s.flag ⟨R.QUIREq_CTRL q, 1, 1⟩ = false ∧ qState s q = qUpRun) ∧
    (∃ (s : State) (q : Nat), s.flag ⟨R.QUIREq_CTRL q, 1, 1⟩ = true ∧ s.flag ⟨R.QUIREq_CTRL q, 0, 1⟩ = false ∧ qState s q = qDownRun) ∧
    (∃ (s : State) (q : _), (qState s q = qOn ∨ qState s q = qOff ∨ qState s q = qStopped)) ∧
    (∃ (s : State) (q : Nat), qState s q = qOff) ∧
    (∃ (s : State) (q : Nat), qState s q = qStopped ∧ curDown s q = false) ∧
    (∃ (s : State) (q : Nat) (i : Nat), stepValid s q false i = false) ∧
    (∃ (s : State) (q : Nat) (i : Nat), stepValid s q true i = false) :=
  ⟨(⟨puts up [(F.SEC_STATE_MODE, 1)], .host, 15, by decide +kernel⟩),
   (⟨puts up [(F.SEC_STATE_MODE, 1), ((F.QUIREq_STATUS_STATE 0), qOn)], .host, 0, by decide +kernel⟩),
   (⟨up, .host, 0, by decide +kernel⟩),
   (⟨up, .host, 0, by decide +kernel⟩),
   (⟨up, .host, 0, by decide +kernel⟩),
   (⟨up, .host, 0, false, 0, by decide +kernel⟩),
   (⟨puts up [(⟨R.QUIREq_CTRL 15, 0, 1⟩, 1), ((F.QUIREq_STATUS_STATE 15), qUpRun)], 15, by decide +kernel⟩),
   (⟨puts up [(⟨R.QUIREq_CTRL 0, 1, 1⟩, 1), ((F.QUIREq_STATUS_STATE 0), qDownRun)], 0, by decide +kernel⟩),
   (⟨up, 0, by decide +kernel⟩),
   (⟨up, 0, by decide +kernel⟩),
   (⟨puts up [((F.QUIREq_STATUS_STATE 0), qStopped)], 0, by decide +kernel⟩),
   (⟨up, 0, 0, by decide +kernel⟩),
   (⟨up, 0, 0, by decide +kernel⟩)⟩

theorem witness_QuireSteps :
    (∃ (s : State) (q : Fin 16) (off : BitVec 64), seqRuns s = true ∧ (s.qu q).phase = .action) ∧
    (∃ (s : State) (q : Fin 16) (off : BitVec 64), seqRuns s = true ∧ (s.qu q).phase = .gate ∧ s.angRun = true ∧ (windowOpen (stepGet s q (curDown s q) (curStep s q) 4 (F.QUIREq_STEP4_ANG_OPEN q)) (stepGet s q (curDown s q) (curStep s q) 5 (F.QUIREq_STEP5_ANG_CLOSE q)) (angleOf s.ang.stamp) = true ∨ angPassed s (stepGet s q (curDown s q) (curStep s q) 4 (F.QUIREq_STEP4_ANG_OPEN q)) = true)) ∧
    (∃ (s : State) (q : Fin 16) (off : BitVec 64), seqRuns s = true ∧ (s.qu q).phase = .gate ∧ s.flag (F.QUIREq_CFG_GATE_TO q) = true) ∧
    (∃ (s : State) (q : Fin 16), (s.qu q).phase = .wait ∧ s.flag F.SEQ_STATUS_HALT_SUSP = false) ∧
    (∃ (s : State) (q : Fin 16), seqRuns s = true ∧ (s.qu q).phase = .wait ∧ openConds (latchConds s q) q % 32 = 0) ∧
    (∃ (s : State) (q : Fin 16), seqRuns s = true ∧ (s.qu q).phase = .wait ∧ openConds (latchConds s q) q % 32 ≠ 0) ∧
    (∃ (s : State) (q : Fin 16), seqRuns s = true ∧ (s.qu q).phase = .wait ∧ stepGet s q (curDown s q) (curStep s q) 3 (F.QUIREq_STEP3_TIMEOUT q) ≠ 0 ∧ ((railList (curRails s q)).any fun n => (s.fr n).outage != 0) = false ∧ openConds (latchConds s q) q % 32 ≠ 0 ∧ curDown s q = true) ∧
    (∃ (s : State) (q : Fin 16), seqRuns s = true ∧ (s.qu q).phase = .wait ∧ stepGet s q (curDown s q) (curStep s q) 3 (F.QUIREq_STEP3_TIMEOUT q) ≠ 0 ∧ ((railList (curRails s q)).any fun n => (s.fr n).outage != 0) = false ∧ openConds (latchConds s q) q % 32 ≠ 0 ∧ curDown s q = false) ∧
    (∃ (s : State) (q : Fin 16), seqRuns s = true ∧ stepGet s q (curDown s q) (curStep s q) 3 (F.QUIREq_STEP3_TIMEOUT q) ≠ 0 ∧ ((railList (curRails s q)).any fun n => (s.fr n).outage != 0) = false ∧ (s.qu q).phase = .wait ∧ openConds (latchConds s q) q % 32 = 0 ∧ barSelected (latchConds s q) q = true) ∧
    (∃ (s : State) (q : Fin 16), seqRuns s = true ∧ stepGet s q (curDown s q) (curStep s q) 3 (F.QUIREq_STEP3_TIMEOUT q) ≠ 0 ∧ ((railList (curRails s q)).any fun n => (s.fr n).outage != 0) = false ∧ (s.qu q).phase = .bar none ∧ qState s q ≠ qHeld) ∧
    (∃ (s : State) (q : Fin 16), seqRuns s = true ∧ stepGet s q (curDown s q) (curStep s q) 3 (F.QUIREq_STEP3_TIMEOUT q) ≠ 0 ∧ ((railList (curRails s q)).any fun n => (s.fr n).outage != 0) = false ∧ (s.qu q).phase = .bar none ∧ qState s q = qHeld) ∧
    (∃ (s : State) (q : Nat) (n : Nat), qState s q = qHeld) ∧
    (∃ (s : State) (q : Fin 16) (off : BitVec 64), seqRuns s = true ∧ (s.qu q).phase = .retryOff ∧ curFlag s q F.QUIREq_STEP2_ANG_GATE = true) ∧
    (∃ (s : State) (q : Fin 16) (off : BitVec 64), seqRuns s = true ∧ (s.qu q).phase = .retryOff ∧ curFlag s q F.QUIREq_STEP2_ANG_GATE = false) ∧
    (∃ (s : State) (q : Fin 16) (t : Stamp), (s.qu q).phase = .bar (some t) ∧ s.angRun = true ∧ stampReached s.ang.stamp t = true ∧ seqRuns s = true) ∧
    (∃ (s : State) (q : Nat) (cause : Nat) (holding : Nat), (s.put (F.QUIREq_STATUS_CAUSE q) cause).get (F.QUIREq_STATUS_ATTEMPT q) ≠ stepGet (s.put (F.QUIREq_STATUS_CAUSE q) cause) q false (curStep (s.put (F.QUIREq_STATUS_CAUSE q) cause) q) 2 (F.QUIREq_STEP2_RETRY q)) :=
  ⟨(⟨(State.modQ up 0 (fun x => { x with phase := .action })), 0, 0, by decide +kernel⟩),
   (⟨puts (State.modQ up 0 (fun x => { x with phase := .gate })) [(F.ANG_STATUS_RUN, 1)], 0, 0, by decide +kernel⟩),
   (⟨puts (State.modQ up 0 (fun x => { x with phase := .gate })) [((F.QUIREq_CFG_GATE_TO 0), 1)], 0, 0, by decide +kernel⟩),
   (⟨puts (State.modQ up 0 (fun x => { x with phase := .wait })) [(F.SEQ_STATUS_HALT_SUSP, 0)], 0, by decide +kernel⟩),
   (⟨(State.modQ up 0 (fun x => { x with phase := .wait })), 0, by decide +kernel⟩),
   (⟨(State.setReg ((State.modQ up 0 (fun x => { x with phase := .wait }))) (R.quireStep 0 0 2) 0x08000000), 0, by decide +kernel⟩),
   (⟨puts (State.setReg ((State.setReg ((State.modQ up 0 (fun x => { x with phase := .wait }))) (R.quireStep 0 16 2) 0x08000000)) (R.quireStep 0 16 3) 0x10000) [((F.QUIREq_STATUS_DIR 0), 1)], 0, by decide +kernel⟩),
   (⟨(State.setReg ((State.setReg ((State.modQ up 0 (fun x => { x with phase := .wait }))) (R.quireStep 0 0 2) 0x08000000)) (R.quireStep 0 0 3) 0x10000), 0, by decide +kernel⟩),
   (⟨(State.setReg ((State.setReg ((State.modQ up 0 (fun x => { x with phase := .wait }))) (R.quireStep 0 0 2) 0x20000000)) (R.quireStep 0 0 3) 0x10000), 0, by decide +kernel⟩),
   (⟨(State.setReg ((State.modQ up 0 (fun x => { x with phase := .bar none }))) (R.quireStep 0 0 3) 0x10000), 0, by decide +kernel⟩),
   (⟨puts (State.setReg ((State.modQ up 0 (fun x => { x with phase := .bar none }))) (R.quireStep 0 0 3) 0x10000) [((F.QUIREq_STATUS_STATE 0), qHeld)], 0, by decide +kernel⟩),
   (⟨puts up [((F.QUIREq_STATUS_STATE 15), qHeld)], 15, 63, by decide +kernel⟩),
   (⟨(State.setReg ((State.modQ up 0 (fun x => { x with phase := .retryOff }))) (R.quireStep 0 0 2) 0x40000000), 0, 0, by decide +kernel⟩),
   (⟨(State.modQ up 0 (fun x => { x with phase := .retryOff })), 0, 0, by decide +kernel⟩),
   (⟨puts (State.modQ up 0 (fun x => { x with phase := .bar (some default) })) [(F.ANG_STATUS_RUN, 1)], 0, default, by decide +kernel⟩),
   (⟨(State.setReg up (R.quireStep 0 0 2) 0x00100000), 0, 0, 0, by decide +kernel⟩)⟩

theorem witness_QuireOrders :
    (∃ (s : State) (n : Fin 64) (q : Nat), quireOf s n = some q ∧ seqRuns s = true ∧ (s.rs n).cycle = .off ∧ qState s q = qOn) ∧
    (∃ (s : State) (n : Fin 64) (q : Nat), quireOf s n = some q ∧ seqRuns s = true ∧ (s.rs n).cycle = .off) ∧
    (∃ (s : State) (n : Fin 64), seqRuns s = true ∧ (s.rs n).cycle = .waiting ∧ cycleHolds (latchCycle s n) n = true) ∧
    (∃ (s : State) (n : Fin 64) (q : Nat) (k : Nat) (i : Nat), quireOf s n = some q ∧ (s.rs n).enabler = some (k, i) ∧ seqRuns s = true ∧ (s.rs n).cycle = .waiting ∧ stepGet s k false i 3 (F.QUIREq_STEP3_TIMEOUT k) ≠ 0 ∧ (s.fr n).outage = 0 ∧ cycleHolds (latchCycle s n) n = false) ∧
    (∃ (s : State) (n : Fin 64), enLatch s n = true ∧ s.condStands 0 n = false ∧ s.condStands 2 n = false ∧ s.condStands 3 n = false) ∧
    (∃ (s : State) (q : Fin 16), s.seq.inbox.contains (.shut q) = true) ∧
    (∃ (s : State), s.seq.inbox.contains .shutAll = true) ∧
    (∃ (s : State), s.seq.inbox.contains .hallmark = true) ∧
    (∃ (s : State) (k : Nat), s.flag F.SEQ_STATUS_HM_RUN = true ∧ s.seq.hmLast = false ∧ nextStage s (s.get F.SEQ_STATUS_HM_STAGE + 1) = some k) ∧
    (∃ (s : State), s.flag F.SEQ_STATUS_HM_RUN = true ∧ s.seq.hmLast = false ∧ nextStage s (s.get F.SEQ_STATUS_HM_STAGE + 1) = none) ∧
    (∃ (s : State), s.flag F.SEQ_STATUS_HM_RUN = true ∧ s.seq.hmLast = true) ∧
    (∃ (s : State) (qs : Nat) (k : Nat), s.flag F.SEQ_STATUS_HM_RUN = false ∧ s.seq.haltOff = some (qs, k)) ∧
    (∃ (s : State) (qs : Nat) (k : Nat) (fuel : Nat), hmStageValid s k = false) ∧
    (∃ (s : State), s.flag F.SEQ_STATUS_HM_RUN = false ∧ s.seq.haltOff = none) ∧
    (∃ (s : State) (q : Nat), s.mode = mCommission) ∧
    (∃ (s : State) (q : Nat), s.mode ≠ mCommission ∧ s.flag F.SEQ_STATUS_HALT_SUSP = false ∧ (qState s q = qOff ∨ qState s q = qHallmark ∨ qState s q = qShutting)) ∧
    (∃ (s : State) (q : Nat), s.mode ≠ mCommission ∧ s.flag F.SEQ_STATUS_HALT_SUSP = true) ∧
    (∃ (s : State) (q : Nat), s.mode ≠ mCommission ∧ qState s q = qOn ∧ s.flag F.SEQ_STATUS_HALT_SUSP = false ∧ ((endCycles s (members s q)).qu q).phase = .idle) :=
  ⟨(⟨puts (State.modRs up 0 (fun x => { x with cycle := .off })) [((F.QUIREq_STATUS_STATE 0), qOn), ((F.QUIREq_MEMBERS_LO_RAILS 0), 1)], 0, 0, by decide +kernel⟩),
   (⟨puts (State.modRs up 0 (fun x => { x with cycle := .off })) [((F.QUIREq_MEMBERS_LO_RAILS 0), 1)], 0, 0, by decide +kernel⟩),
   (⟨(State.modRs up 0 (fun x => { x with cycle := .waiting })), 0, by decide +kernel⟩),
   (⟨puts (State.modRs ((State.setReg ((State.setReg ((State.modFine ((State.modRs ((State.modRs up 0 (fun x => { x with enabler := some (0, 0) }))) 0 (fun x => { x with cycle := .waiting }))) 0 (fun x => { x with outage := 0 }))) (R.quireStep 0 0 3) 0x10000)) (R.quireStep 0 0 2) 0x02000000)) 0 (fun x => { x with enabler := some (0, 0), cycle := .waiting })) [((F.QUIREq_MEMBERS_LO_RAILS 0), 1)], 0, 0, 0, 0, by decide +kernel⟩),
   (⟨puts up [((F.RAILn_GUARD_STATUS_EN_LATCH 0), 1)], 0, by decide +kernel⟩),
   (⟨{ up with seq := { (up).seq with inbox := [.shut 0] } }, 0, by decide +kernel⟩),
   (⟨{ up with seq := { (up).seq with inbox := [.shutAll] } }, by decide +kernel⟩),
   (⟨{ up with seq := { (up).seq with inbox := [.hallmark] } }, by decide +kernel⟩),
   (⟨puts (State.setReg ({ up with seq := { (up).seq with hmLast := false } }) (R.hmStage 1 2) 0x80) [(F.SEQ_STATUS_HM_RUN, 1)], 1, by decide +kernel⟩),
   (⟨puts { up with seq := { (up).seq with hmLast := false } } [(F.SEQ_STATUS_HM_RUN, 1)], by decide +kernel⟩),
   (⟨puts { up with seq := { (up).seq with hmLast := true } } [(F.SEQ_STATUS_HM_RUN, 1)], by decide +kernel⟩),
   (⟨puts { up with seq := { (up).seq with haltOff := some (0, 0) } } [(F.SEQ_STATUS_HM_RUN, 0)], 0, 0, by decide +kernel⟩),
   (⟨up, 0, 0, 0, by decide +kernel⟩),
   (⟨puts { up with seq := { (up).seq with haltOff := none } } [(F.SEQ_STATUS_HM_RUN, 0)], by decide +kernel⟩),
   (⟨puts up [(F.SEC_STATE_MODE, 0)], 0, by decide +kernel⟩),
   (⟨puts up [(F.SEQ_STATUS_HALT_SUSP, 0), (F.SEC_STATE_MODE, 1)], 0, by decide +kernel⟩),
   (⟨puts up [(F.SEQ_STATUS_HALT_SUSP, 1), (F.SEC_STATE_MODE, 1)], 15, by decide +kernel⟩),
   (⟨puts up [(F.SEQ_STATUS_HALT_SUSP, 0), (F.SEC_STATE_MODE, 1), ((F.QUIREq_STATUS_STATE 0), qOn)], 0, by decide +kernel⟩)⟩

theorem witness_MarginTests :
    (∃ (s : State) (p : Port) (dir : BitVec 2) (n : Fin 64), dir ≠ 0#2 ∧ writable s p R.MARG_CTRL (F.MARG_CTRL_START.insert (F.MARG_CTRL_DIR.insert n dir.toNat) 1) = true) ∧
    (∃ (s : State) (p : Port) (n : Fin 64), writable s p R.MARG_CTRL (F.MARG_CTRL_ABORT.insert n 1) = true) ∧
    (∃ (s : State) (n : Nat) (dir : Nat), margSrc s n ≠ 2) ∧
    (∃ (s : State) (n : Fin 64) (t : MargTest) (u : State) (base : Int), (s.mr n).test = some t ∧ t.phase = .baseline ∧ margAvg s n ≤ t.n ∧ s.rounded t.sum (margAvg s n) = (u, base) ∧ (let v := u.modTest n fun t => { t with base := base }; base < 524288)) ∧
    (∃ (s : State) (n : Fin 64) (t : MargTest) (u : State) (base : Int), (s.mr n).test = some t ∧ t.phase = .baseline ∧ margAvg s n ≤ t.n ∧ s.rounded t.sum (margAvg s n) = (u, base) ∧ (let v := u.modTest n fun t => { t with base := base }; 524288 ≤ base ∧ (t.dirs.any fun d => nearGuard v n d (predicted v n { t with base := base } d)) = true)) ∧
    (∃ (s : State) (n : Fin 64) (t : MargTest) (u : State) (base : Int), (s.mr n).test = some t ∧ t.phase = .baseline ∧ margAvg s n ≤ t.n ∧ s.rounded t.sum (margAvg s n) = (u, base) ∧ (let v := u.modTest n fun t => { t with base := base }; 524288 ≤ base ∧ (t.dirs.any fun d => nearGuard v n d (predicted v n { t with base := base } d)) = false)) ∧
    (∃ (s : State) (n : Fin 64) (t : MargTest), inSubst s n = false ∧ sndOn s n = false ∧ (s.mr n).test = some t ∧ t.pmbus = false ∧ t.phase = .stepping) ∧
    (∃ (s : State) (n : Fin 64) (t : MargTest), inSubst s n = false ∧ sndOn s n = false ∧ (s.mr n).test = some t ∧ t.pmbus = false ∧ t.phase = .returning) ∧
    (∃ (s : State) (n : Fin 64) (t : MargTest), (s.mr n).test = some t ∧ t.phase = .dwell) ∧
    (∃ (s : State) (n : Fin 64) (t : MargTest) (u : State) (q : Int), (s.mr n).test = some t ∧ t.phase = .measuring ∧ margAvg s n ≤ t.n ∧ s.approx ((t.sum - margAvg s n * t.base) * 100000) (margAvg s n * t.base.toNat) = (u, q)) ∧
    (∃ (s : State) (n : Fin 64) (t : MargTest), (s.mr n).test = some t ∧ t.pmbus = false ∧ t.phase = .window ∧ t.ended = false ∧ windowInside s n = true ∧ (let u := (setCode s n 0).modTest n fun t => { t with dirs := t.dirs.tail, stepped := false }; t.dirs.tail = [])) ∧
    (∃ (s : State) (n : Fin 64) (t : MargTest), (s.mr n).test = some t ∧ t.pmbus = false ∧ t.phase = .window ∧ t.ended = false ∧ windowInside s n = true ∧ (let u := (setCode s n 0).modTest n fun t => { t with dirs := t.dirs.tail, stepped := false }; t.dirs.tail ≠ [])) ∧
    (∃ (s : State) (n : Fin 64) (t : MargTest), (s.mr n).test = some t ∧ t.pmbus = false ∧ t.phase = .window ∧ t.ended = false ∧ windowInside s n = false) ∧
    (∃ (s : State) (n : Fin 64), mrgDrives s n = true) ∧
    (∃ (s : State) (n : Fin 64), mrgDrives s n = false) ∧
    (∃ (s : State) (n : Nat) (t : MargTest), (s.mr n).test = some t) ∧
    (∃ (s : State) (n : Nat), (margCode s n = targetCode s n ∨ inSubst s n = true)) ∧
    (∃ (s : State) (n : Nat), n < 64 ∧ inSubst s n = false ∧ margCode s n ≠ targetCode s n ∧ (let k : Int := (((s.mr n).acc + slewRate s n) / 1024 : Nat); margCode s n < targetCode s n)) ∧
    (∃ (s : State) (n : Nat), n < 64 ∧ inSubst s n = false ∧ margCode s n ≠ targetCode s n ∧ (let k : Int := (((s.mr n).acc + slewRate s n) / 1024 : Nat); targetCode s n < margCode s n)) ∧
    (∃ (s : State) (n : Nat), (s.mr n).test = none) ∧
    (∃ (s : State) (n : Nat) (t : MargTest), (s.mr n).test = some t ∧ t.forced = true) ∧
    (∃ (s : State) (n : Nat) (t : MargTest), (s.mr n).test = some t ∧ t.forced = false) ∧
    (∃ (s : State) (n : Nat), (s.mr n).test = none ∧ sndOn s n = false ∧ margCode s n ≠ 0) :=
  ⟨(⟨puts (State.setReg up (R.margCap 0) 0xFFFFFFFF) [(F.SEC_STATE_MODE, 3), ((F.MARGn_CFG_SRC 0), 1), ((F.RAILn_GUARD_STATUS_EN_LATCH 0), 1), ((F.RAILn_FINE_STATE_RUN 0), 1)], .host, 3, 0, by decide +kernel⟩),
   (⟨up, .host, 0, by decide +kernel⟩),
   (⟨up, 0, 0, by decide +kernel⟩),
   (⟨(State.modMr up 0 (fun x => { x with test := some (mt .baseline [true, false] 16 0 0) })), 0, mt .baseline [true, false] 16 0 0, ((State.modMr up 0 (fun x => { x with test := some (mt .baseline [true, false] 16 0 0) }))), 0, by decide +kernel⟩),
   (⟨(State.modMr up 0 (fun x => { x with test := some (mt .baseline [true, false] 16 8388608 0) })), 0, mt .baseline [true, false] 16 8388608 0, ((State.modMr up 0 (fun x => { x with test := some (mt .baseline [true, false] 16 8388608 0) }))), 524288, by decide +kernel⟩),
   (⟨puts (State.modMr up 0 (fun x => { x with test := some (mt .baseline [true, false] 16 32768000 0) })) [((F.RAILn_GUARD_OV_THRESH 0), 4095), ((F.RAILn_GUARD_OV_CEIL 0), 4095)], 0, mt .baseline [true, false] 16 32768000 0, (puts (State.modMr up 0 (fun x => { x with test := some (mt .baseline [true, false] 16 32768000 0) })) [((F.RAILn_GUARD_OV_THRESH 0), 4095), ((F.RAILn_GUARD_OV_CEIL 0), 4095)]), 2048000, by decide +kernel⟩),
   (⟨(State.modMr up 0 (fun x => { x with test := some (mt .stepping [true] 0 0 0) })), 0, mt .stepping [true] 0 0 0, by decide +kernel⟩),
   (⟨(State.modMr up 0 (fun x => { x with test := some (mt .returning [true] 0 0 0) })), 0, mt .returning [true] 0 0 0, by decide +kernel⟩),
   (⟨(State.modMr up 0 (fun x => { x with test := some (mt .dwell [true] 0 0 0) })), 0, mt .dwell [true] 0 0 0, by decide +kernel⟩),
   (⟨(State.modMr up 0 (fun x => { x with test := some (mt .measuring [true] 16 16000 1000) })), 0, mt .measuring [true] 16 16000 1000, ((State.modMr up 0 (fun x => { x with test := some (mt .measuring [true] 16 16000 1000) }))), 0, by decide +kernel⟩),
   (⟨puts (State.modMr up 0 (fun x => { x with test := some (mt .window [true] 0 0 0) })) [((F.RAILn_FINE_STATE_WIN 0), 1)], 0, mt .window [true] 0 0 0, by decide +kernel⟩),
   (⟨puts (State.modMr up 0 (fun x => { x with test := some (mt .window [true, false] 0 0 0) })) [((F.RAILn_FINE_STATE_WIN 0), 1)], 0, mt .window [true, false] 0 0 0, by decide +kernel⟩),
   (⟨(State.modMr up 0 (fun x => { x with test := some (mt .window [true, false] 0 0 0) })), 0, mt .window [true, false] 0 0 0, by decide +kernel⟩),
   (⟨puts up [((F.RAILn_GUARD_CFG_USE 0), 1), ((F.MARGn_CFG_SRC 0), 1)], 0, by decide +kernel⟩),
   (⟨up, 0, by decide +kernel⟩),
   (⟨(State.modMr up 63 (fun x => { x with test := some (mt .dwell [true] 0 0 0) })), 63, mt .dwell [true] 0 0 0, by decide +kernel⟩),
   (⟨up, 0, by decide +kernel⟩),
   (⟨(State.modMr up 0 (fun x => { x with test := some { mt .stepping [true] 0 0 0 with hiCode := 5 } })), 0, by decide +kernel⟩),
   (⟨puts up [((F.MARGn_STATUS_CODE 63), 7)], 63, by decide +kernel⟩),
   (⟨(State.modMr up 0 (fun x => { x with test := none })), 0, by decide +kernel⟩),
   (⟨(State.modMr up 0 (fun x => { x with test := some ({ mt .dwell [true] 0 0 0 with forced := true }) })), 0, { mt .dwell [true] 0 0 0 with forced := true }, by decide +kernel⟩),
   (⟨(State.modMr up 0 (fun x => { x with test := some ({ mt .dwell [true] 0 0 0 with forced := false }) })), 0, { mt .dwell [true] 0 0 0 with forced := false }, by decide +kernel⟩),
   (⟨puts (State.modMr up 63 (fun x => { x with test := none })) [((F.MARGn_STATUS_CODE 63), 7)], 63, by decide +kernel⟩)⟩

theorem witness_Soundings :
    (∃ (s : State) (p : Port), writable s p R.SND_CTRL 1 = true) ∧
    (∃ (s : State) (p : Port), writable s p R.SND_CTRL 2 = true) ∧
    (∃ (s : State) (w : Sounding), s.marg.snd = some w ∧ w.part = .target ∧ w.pausedFb = false ∧ w.pausedHalt = false ∧ s.flag F.CLK_STATUS_FALLBACK = false ∧ s.angRun = true ∧ stampReached s.ang.stamp (stampOf (s.reg R.SND_AT_HI) (s.reg R.SND_AT_LO)) = true) ∧
    (∃ (s : State), s.flag F.CLK_STATUS_FALLBACK = true) ∧
    (∃ (s : State) (w : Sounding), s.marg.snd = some w ∧ w.part = .complete ∧ (let u := s.live.foldl (fun s r => summarise s r w.wasPaused) s; u.flag F.SND_CFG_ARCHIVE = false)) ∧
    (∃ (s : State) (w : Sounding), s.marg.snd = some w ∧ w.part = .complete ∧ (let u := s.live.foldl (fun s r => summarise s r w.wasPaused) s; u.flag F.SND_CFG_ARCHIVE = true ∧ u.live ≠ [])) ∧
    (∃ (s : State) (w : Sounding), s.marg.snd = some w ∧ w.pausedFb = true) ∧
    (∃ (s : State) (n : Nat) (t : List Word) (f : List Word) (m : Nat × List Word × List Word) (rest : List (Nat × List Word × List Word)), s.marg.arcQueue = (n, t, f) :: m :: rest ∧ archiveDead s n ((vget s.marg.archive n).seq % 10) true = false ∧ archiveDead s n (compactTrend (vget s.marg.archive n).trend).length false = false) ∧
    (∃ (s : State) (n : Nat) (t : List Word) (f : List Word) (m : Nat × List Word × List Word) (rest : List (Nat × List Word × List Word)), s.marg.arcQueue = (n, t, f) :: m :: rest ∧ archiveDead s n ((vget s.marg.archive n).seq % 10) true = false ∧ archiveDead s n (compactTrend (vget s.marg.archive n).trend).length false = false ∧ n < 64) ∧
    (∃ (s : State), s.marg.arcQueue = []) ∧
    (∃ (s : State) (n : Nat) (capped : Bool), sndOn s n = true ∧ (let u := leaveRail s n capped; u.live.isEmpty = true)) ∧
    (∃ (s : State) (n : Nat) (capped : Bool), sndOn s n = true ∧ (let u := leaveRail s n capped; u.live.isEmpty = false)) ∧
    (∃ (s : State) (w : Sounding), s.marg.snd = some w ∧ w.pausedFb = false ∧ w.pausedHalt = false ∧ w.part = .plus) ∧
    (∃ (s : State) (w : Sounding) (k : Nat), s.marg.snd = some w ∧ w.pausedFb = false ∧ w.pausedHalt = false ∧ w.part = .settle k) ∧
    (∃ (s : State) (w : Sounding) (r : SndRail) (k : Nat) (n : Fin 64) (f : LockIn), s.marg.snd = some w ∧ s.sndRails.find? (·.rail == n.val) = some r ∧ w.part = .integ k ∧ r.left = false ∧ r.ran = false ∧ w.pausedFb = false ∧ w.pausedHalt = false ∧ r.fit.solve (tapMag (pointInc s k)) = some f ∧ r.halv < 3 ∧ (sdev s n * r.base.1.natAbs * 65536) ^ 2 < (f.a * f.a + f.b * f.b).natAbs * (10000 * r.base.2) ^ 2) ∧
    (∃ (s : State) (w : Sounding) (r : SndRail) (k : Nat) (n : Fin 64) (f : LockIn), s.marg.snd = some w ∧ s.sndRails.find? (·.rail == n.val) = some r ∧ w.part = .integ k ∧ r.left = false ∧ r.ran = false ∧ w.pausedFb = false ∧ w.pausedHalt = false ∧ r.fit.solve (tapMag (pointInc s k)) = some f ∧ (f.a * f.a + f.b * f.b).natAbs * (10000 * r.base.2) ^ 2 ≤ (sdev s n * r.base.1.natAbs * 65536) ^ 2) ∧
    (∃ (s : State) (w : Sounding) (r : SndRail) (n : Fin 64), s.marg.snd = some w ∧ s.sndRails.find? (·.rail == n.val) = some r ∧ w.part = .mls ∧ r.left = false ∧ r.done = false ∧ w.pausedFb = false ∧ w.pausedHalt = false ∧ r.period ≠ 0 ∧ r.period < mlsReps s) ∧
    (∃ (s : State) (w : Sounding) (r : SndRail) (n : Fin 64), s.marg.snd = some w ∧ s.sndRails.find? (·.rail == n.val) = some r ∧ w.part = .mls ∧ r.left = false ∧ r.done = false ∧ w.pausedFb = false ∧ w.pausedHalt = false ∧ r.period = 0 ∧ r.devSeen = true ∧ r.halv < 3) ∧
    (∃ (s : State) (w : Sounding) (r : SndRail) (n : Fin 64) (raw : BitVec 24) (clip : Bool) (u : State) (code : Int) (beyond : Bool), s.marg.snd = some w ∧ s.sndRails.find? (·.rail == n.val) = some r ∧ w.part = .base ∧ r.left = false ∧ w.pausedFb = false ∧ w.pausedHalt = false ∧ calibrate s n raw.toInt = (u, code, beyond)) ∧
    (∃ (s : State) (w : Sounding) (k : Nat), s.marg.snd = some w ∧ w.pausedFb = false ∧ w.pausedHalt = false ∧ w.part = .integ k ∧ w.div < 7) ∧
    (∃ (s : State) (w : Sounding) (k : Nat), s.marg.snd = some w ∧ w.pausedFb = false ∧ w.pausedHalt = false ∧ w.part = .integ k ∧ 7 ≤ w.div) :=
  ⟨(⟨puts (State.setReg up (R.margCap 0) 0xFFFFFFFF) [(F.SEC_STATE_MODE, 3), ((F.MARGn_CFG_SRC 0), 1), ((F.RAILn_GUARD_STATUS_EN_LATCH 0), 1), ((F.RAILn_FINE_STATE_RUN 0), 1), (F.SND_RAILS_LO_RAILS, 1), (F.SND_AMP_AMP, 1), (F.SND_FREQ_F_START, 10), (F.SND_FREQ_F_STOP, 40000), (F.CLK_STATUS_FALLBACK, 0)], .host, by decide +kernel⟩),
   (⟨up, .host, by decide +kernel⟩),
   (⟨puts { up with marg := { (up).marg with snd := some (snd .target []) } } [(F.CLK_STATUS_FALLBACK, 0), (F.ANG_STATUS_RUN, 1)], snd .target [], by decide +kernel⟩),
   (⟨puts up [(F.CLK_STATUS_FALLBACK, 1)], by decide +kernel⟩),
   (⟨{ up with marg := { (up).marg with snd := some (snd .complete []) } }, snd .complete [], by decide +kernel⟩),
   (⟨puts { up with marg := { (up).marg with snd := some (snd .complete [{ (default : SndRail) with rail := 0, dcAmp := 32768, plus := (32768, 1), minus := (0, 1), pts := [⟨0, 1, 32768, 0, 0, 1, 0, true, false, false, false, false⟩] }]) } } [(F.SND_CFG_ARCHIVE, 1)], snd .complete [{ (default : SndRail) with rail := 0, dcAmp := 32768, plus := (32768, 1), minus := (0, 1), pts := [⟨0, 1, 32768, 0, 0, 1, 0, true, false, false, false, false⟩] }], by decide +kernel⟩),
   (⟨{ up with marg := { (up).marg with snd := some ({ snd .plus [] with pausedFb := true }) } }, { snd .plus [] with pausedFb := true }, by decide +kernel⟩),
   (⟨{ up with marg := { (up).marg with arcQueue := (0, ([]), ([])) :: default :: ([]) } }, 0, [], [], default, [], by decide +kernel⟩),
   (⟨{ up with marg := { (up).marg with arcQueue := (0, ([]), ([])) :: default :: ([]) } }, 0, [], [], default, [], by decide +kernel⟩),
   (⟨{ up with marg := { (up).marg with arcQueue := [] } }, by decide +kernel⟩),
   (⟨{ up with marg := { (up).marg with snd := some ({ snd .base [{ (default : SndRail) with rail := 0 }] with start := 0 }) } }, 0, false, by decide +kernel⟩),
   (⟨{ up with marg := { (up).marg with snd := some ({ snd .base [{ (default : SndRail) with rail := 0 }, { (default : SndRail) with rail := 63 }] with start := 0 }) } }, 0, false, by decide +kernel⟩),
   (⟨{ up with marg := { (up).marg with snd := some (snd .plus []) } }, snd .plus [], by decide +kernel⟩),
   (⟨{ up with marg := { (up).marg with snd := some (snd (.settle 31) []) } }, snd (.settle 31) [], 31, by decide +kernel⟩),
   (⟨{ up with marg := { up.marg with snd := some ({ snd (.integ 1) [{ (default : SndRail) with rail := 63, base := (0, 1), fit := ⟨4, 0, 0, 1, 0, 1, 0, 1, 0, 0⟩ }] with start := 0 }) } }, { snd (.integ 1) [{ (default : SndRail) with rail := 63, base := (0, 1), fit := ⟨4, 0, 0, 1, 0, 1, 0, 1, 0, 0⟩ }] with start := 0 }, { (default : SndRail) with rail := 63, base := (0, 1), fit := ⟨4, 0, 0, 1, 0, 1, 0, 1, 0, 0⟩ }, 1, 63, (((⟨4, 0, 0, 1, 0, 1, 0, 1, 0, 0⟩ : FitSums).solve (tapMag (pointInc up 1))).getD ⟨0, 0, 0⟩), by decide +kernel⟩),
   (⟨{ up with marg := { up.marg with snd := some ({ snd (.integ 1) [{ (default : SndRail) with rail := 63, base := (1, 1), fit := ⟨4, 0, 0, 1, 0, 1, 0, 0, 0, 0⟩ }] with start := 0 }) } }, { snd (.integ 1) [{ (default : SndRail) with rail := 63, base := (1, 1), fit := ⟨4, 0, 0, 1, 0, 1, 0, 0, 0, 0⟩ }] with start := 0 }, { (default : SndRail) with rail := 63, base := (1, 1), fit := ⟨4, 0, 0, 1, 0, 1, 0, 0, 0, 0⟩ }, 1, 63, (((⟨4, 0, 0, 1, 0, 1, 0, 0, 0, 0⟩ : FitSums).solve (tapMag (pointInc up 1))).getD ⟨0, 0, 0⟩), by decide +kernel⟩),
   (⟨{ up with marg := { (up).marg with snd := some (snd .mls [{ (default : SndRail) with rail := 63, dcAmp := 3, amp := 2 , period := 1 }]) } }, snd .mls [{ (default : SndRail) with rail := 63, dcAmp := 3, amp := 2 , period := 1 }], { (default : SndRail) with rail := 63, dcAmp := 3, amp := 2 , period := 1 }, 63, by decide +kernel⟩),
   (⟨{ up with marg := { (up).marg with snd := some ({ snd .mls [{ (default : SndRail) with rail := 63, devSeen := true }] with start := 0 }) } }, { snd .mls [{ (default : SndRail) with rail := 63, devSeen := true }] with start := 0 }, { (default : SndRail) with rail := 63, devSeen := true }, 63, by decide +kernel⟩),
   (⟨{ up with marg := { (up).marg with snd := some (snd .base [{ (default : SndRail) with rail := 63, dcAmp := 3, amp := 2  }]) } }, snd .base [{ (default : SndRail) with rail := 63, dcAmp := 3, amp := 2  }], { (default : SndRail) with rail := 63, dcAmp := 3, amp := 2  }, 63, 5, false, ({ up with marg := { (up).marg with snd := some (snd .base [{ (default : SndRail) with rail := 63, dcAmp := 3, amp := 2  }]) } }), 0, false, by decide +kernel⟩),
   (⟨{ up with marg := { (up).marg with snd := some ({ snd (.integ 3) [] with start := 0 }) } }, { snd (.integ 3) [] with start := 0 }, 3, by decide +kernel⟩),
   (⟨{ up with marg := { (up).marg with snd := some ({ snd (.integ 3) [] with start := 0, div := 7 }) } }, { snd (.integ 3) [] with start := 0, div := 7 }, 3, by decide +kernel⟩)⟩

theorem witness_RegulatorTransactions :
    (∃ (s : State) (p : Fin 4) (r : PmTrans) (result : SmbResult) (data : BitVec 16) (alertLow : Bool), (s.pp p).run = some r ∧ r.kind ≠ 5 ∧ (s.pp p).retryWait = false ∧ (s.pp p).blocked = false ∧ busResult (s.pp p) r result = .ok ∧ ((s.putB (F.PMp_STATUS_ALERT_LOW p) alertLow).pp p).noAck < 8 ∧ (let u := ((((s.putB (F.PMp_STATUS_ALERT_LOW p) alertLow).modPp p fun t => { t with run := none, bus := none }).addWrap (F.PMp_CNT_DONE p)).put (F.PMp_STATUS_STUCK p) 0).endCond 31 p; r.cls = 3)) ∧
    (∃ (s : State) (p : Fin 4) (r : PmTrans) (result : SmbResult) (data : BitVec 16) (alertLow : Bool), (s.pp p).run = some r ∧ r.kind ≠ 5 ∧ (s.pp p).retryWait = false ∧ (s.pp p).blocked = false ∧ busResult (s.pp p) r result = .ok ∧ ((s.putB (F.PMp_STATUS_ALERT_LOW p) alertLow).pp p).noAck < 8 ∧ (let u := ((((s.putB (F.PMp_STATUS_ALERT_LOW p) alertLow).modPp p fun t => { t with run := none, bus := none }).addWrap (F.PMp_CNT_DONE p)).put (F.PMp_STATUS_STUCK p) 0).endCond 31 p; r.cls = 4)) ∧
    (∃ (s : State) (p : Fin 4) (r : PmTrans) (alertLow : Bool), (s.pp p).run = some r ∧ r.kind ≠ 5 ∧ r.once = false ∧ (s.pp p).retryWait = false ∧ (s.pp p).blocked = false ∧ ((s.putB (F.PMp_STATUS_ALERT_LOW p) alertLow).pp p).noAck < 8 ∧ (s.pp p).tries < (s.putB (F.PMp_STATUS_ALERT_LOW p) alertLow).get (F.PMp_CFG_RETRY p)) ∧
    (∃ (s : State) (p : Fin 4) (r : PmTrans) (alertLow : Bool), (s.pp p).run = some r ∧ r.cls = 3 ∧ r.kind ≠ 5 ∧ (s.pp p).retryWait = false ∧ (s.pp p).blocked = false ∧ ((s.putB (F.PMp_STATUS_ALERT_LOW p) alertLow).pp p).noAck < 8 ∧ (s.putB (F.PMp_STATUS_ALERT_LOW p) alertLow).get (F.PMp_CFG_RETRY p) ≤ (s.pp p).tries) ∧
    (∃ (s : State) (p : Fin 4), (s.pp p).run = none) ∧
    (∃ (s : State) (p : Fin 4), (s.pp p).run = none) ∧
    (∃ (s : State) (r : PmTrans), r.kind = 5) ∧
    (∃ (s : State) (r : PmTrans), r.kind ≠ 5) ∧
    (∃ (s : State) (r : PmTrans), r.kind ≠ 5 ∧ s.flag (F.PMPk_CFG_PAGE_EN r.entry) = true) ∧
    (∃ (s : State) (r : PmTrans), r.kind ≠ 5 ∧ s.flag (F.PMPk_CFG_PAGE_EN r.entry) = false) ∧
    (∃ (s : State) (p : Nat) (r : PmTrans) (rest : List PmTrans), p < 4 ∧ (let u := pollTurn (alertLevel s p) p; pmWaiting u p = r :: rest ∧ (u.pp p).run = none ∧ (u.pp p).blocked = false ∧ u.flag (F.PMp_CFG_EN p) = true ∧ u.get F.TWIN_STATUS_ROLE < 2 ∧ (u.mode ≠ mHoldup ∨ r.cls = 0))) :=
  ⟨(⟨(State.modPp ((State.modPp ((State.modPp up 3 (fun x => { x with retryWait := false }))) 3 (fun x => { x with blocked := false }))) 3 (fun x => { x with run := some (⟨3, 96, 4, 2, 3, 0, false⟩) })), 3, ⟨3, 96, 4, 2, 3, 0, false⟩, .ok, 7, true, by decide +kernel⟩),
   (⟨(State.modPp ((State.modPp ((State.modPp up 3 (fun x => { x with retryWait := false }))) 3 (fun x => { x with blocked := false }))) 3 (fun x => { x with run := some (⟨4, 96, 1, 0x79, 0, 0, false⟩) })), 3, ⟨4, 96, 1, 0x79, 0, 0, false⟩, .ok, 7, true, by decide +kernel⟩),
   (⟨puts (State.modPp ((State.modPp ((State.modPp up 3 (fun x => { x with retryWait := false }))) 3 (fun x => { x with blocked := false }))) 3 (fun x => { x with run := some (⟨4, 96, 1, 0x79, 0, 0, false⟩) })) [((F.PMp_CFG_RETRY 3), 1)], 3, ⟨4, 96, 1, 0x79, 0, 0, false⟩, true, by decide +kernel⟩),
   (⟨(State.modPp ((State.modPp ((State.modPp up 3 (fun x => { x with retryWait := false }))) 3 (fun x => { x with blocked := false }))) 3 (fun x => { x with run := some (⟨3, 96, 1, 2, 3, 0, false⟩) })), 3, ⟨3, 96, 1, 2, 3, 0, false⟩, true, by decide +kernel⟩),
   (⟨(State.modPp up 0 (fun x => { x with run := none })), 0, by decide +kernel⟩),
   (⟨(State.modPp up 0 (fun x => { x with run := none })), 0, by decide +kernel⟩),
   (⟨up, ⟨2, 0, 5, 0x0C, 0, 0, false⟩, by decide +kernel⟩),
   (⟨up, default, by decide +kernel⟩),
   (⟨puts up [((F.PMPk_CFG_PAGE_EN 127), 1)], ⟨3, 127, 4, 0x79, 0, 0, false⟩, by decide +kernel⟩),
   (⟨puts up [((F.PMPk_CFG_PAGE_EN 127), 0)], ⟨3, 127, 4, 0x79, 0, 0, false⟩, by decide +kernel⟩),
   (⟨puts (State.modPp up 3 (fun x => { x with host := some ⟨3, 96, 1, 2, 3, 0, false⟩ })) [((F.PMp_CFG_EN 3), 1)], 3, ⟨3, 96, 1, 2, 3, 0, false⟩, [], by decide +kernel⟩)⟩

theorem witness_RegulatorPorts :
    (∃ (s : State) (p : Fin 4), s.flag (F.PMp_CFG_EN p) = true ∧ pollPer s p ≠ 0 ∧ pmSuspended s = false ∧ s.flag (F.PMp_STATUS_STUCK p) = false ∧ (s.pp p).roundOn = false) ∧
    (∃ (s : State) (p : Fin 4), s.flag (F.PMp_CFG_EN p) = true ∧ pollPer s p ≠ 0 ∧ pmSuspended s = false ∧ s.flag (F.PMp_STATUS_STUCK p) = false ∧ (s.pp p).roundOn = true) ∧
    (∃ (s : State) (p : Fin 4), s.flag (F.PMp_CFG_EN p) = true ∧ pollPer s p ≠ 0 ∧ pmSuspended s = false ∧ s.flag (F.PMp_STATUS_STUCK p) = true) ∧
    (∃ (s : State) (p : Fin 4), (s.flag (F.PMp_CFG_EN p) = false ∨ pollPer s p = 0 ∨ pmSuspended s = true)) ∧
    (∃ (s : State) (p : Fin 4), s.get (F.PMp_CFG_ALERT_MODE p) = 1 ∧ s.flag (F.PMp_STATUS_ALERT_LOW p) = true ∧ alertsServed s p = true) ∧
    (∃ (s : State) (p : Fin 4), s.get (F.PMp_CFG_ALERT_MODE p) = 0) ∧
    (∃ (s : State) (p : Fin 4), s.get (F.PMp_CFG_ALERT_MODE p) = 2 ∧ s.flag (F.PMp_STATUS_ALERT_LOW p) = true ∧ alertsServed s p = true ∧ (s.pp p).extraRan = false) ∧
    (∃ (s : State) (p : Fin 4) (r : PmTrans), (s.pp p).run = some r) ∧
    (∃ (s : State) (p : Fin 4) (r : PmTrans), (s.pp p).run = some r ∧ (s.pp p).host = none ∧ (s.pp p).margin = []) ∧
    (∃ (s : State) (p : Fin 4) (freed : Bool), (s.pp p).run = none ∧ (s.pp p).blocked = false) ∧
    (∃ (s : State) (k : Fin 128), entryValid s k = true ∧ entryLost s k = true ∧ pmSuspended s = false ∧ pollPer s (portOf k) ≠ 0 ∧ entrySkipped s s.tclk k = false ∧ (s.pp (portOf k)).lostQ.contains k.val = false) ∧
    (∃ (s : State) (k : Fin 128), (entryValid s k = false ∨ entryLost s k = false ∨ pmSuspended s = true ∨ pollPer s (portOf k) = 0)) ∧
    (∃ (s : State) (k : Nat) (w : Nat), ((below 16).any fun b => bitOf w b && !bitOf (s.get (F.PMPk_STATUS_STATUS_WORD k)) b && bitOf ((s.put (F.PMPk_STATUS_STATUS_WORD k) w).get (F.PMPk_MASK_EVT_MASK k)) b) = false ∧ Nat.land w (s.get (F.PMPk_MASK_FAULT_MASK k)) ≠ 0 ∧ (s.put (F.PMPk_STATUS_STATUS_WORD k) w).flag (F.PMPk_STATUS_FAULT k) = false ∧ (let u := ((((s.put (F.PMPk_STATUS_STATUS_WORD k) w).put (F.PMPk_STATUS_FAULT k) 1).raise 29 0 1 k (k + 256 * lowestBit (Nat.land w (s.get (F.PMPk_MASK_FAULT_MASK k)))))).put (F.PMPk_STATUS_FAILS k) 0; entryLost u k = false)) ∧
    (∃ (s : State) (k : Nat) (w : Nat), ((below 16).any fun b => bitOf w b && !bitOf (s.get (F.PMPk_STATUS_STATUS_WORD k)) b && bitOf ((s.put (F.PMPk_STATUS_STATUS_WORD k) w).get (F.PMPk_MASK_EVT_MASK k)) b) = false ∧ Nat.land w (s.get (F.PMPk_MASK_FAULT_MASK k)) = 0 ∧ (let v := s.put (F.PMPk_STATUS_STATUS_WORD k) w; v.flag (F.PMPk_STATUS_FAULT k) = true ∧ (let u := (((v.put (F.PMPk_STATUS_FAULT k) 0).endCond 29 k).modPp (portOf k) fun t => { t with faultEnd := some (k, v.tclk) }).put (F.PMPk_STATUS_FAILS k) 0; entryLost u k = false))) ∧
    (∃ (s : State) (k : Nat) (w : Nat), ((below 16).any fun b => bitOf w b && !bitOf (s.get (F.PMPk_STATUS_STATUS_WORD k)) b && bitOf ((s.put (F.PMPk_STATUS_STATUS_WORD k) w).get (F.PMPk_MASK_EVT_MASK k)) b) = false ∧ Nat.land w (s.get (F.PMPk_MASK_FAULT_MASK k)) = 0 ∧ (let v := s.put (F.PMPk_STATUS_STATUS_WORD k) w; v.flag (F.PMPk_STATUS_FAULT k) = false ∧ (let u := (v.endCond 29 k).put (F.PMPk_STATUS_FAILS k) 0; entryLost u k = true))) ∧
    (∃ (s : State) (p : Port) (k : Fin 128) (v : Word), writable s p (R.PMPk_CFG k) v.toNat = true) ∧
    (∃ (s : State) (p : Port) (v : Word), writable s p R.PM_XFER_CTRL (F.PM_XFER_CTRL_START.insert v.toNat 1) = true) ∧
    (∃ (s : State), (s.flag F.PM_XFER_STATUS_BUSY = true ∨ pmSuspended s = true ∨ xferPair (s.get F.PM_XFER_CTRL_CODE) (s.get F.PM_XFER_CTRL_KIND) = false)) ∧
    (∃ (s : State) (p : Nat) (r : PmTrans) (outcome : Nat) (data : Nat), entryValid s r.entry = false) :=
  ⟨(⟨puts (State.modPp up 0 (fun x => { x with roundOn := false })) [((F.PMp_CFG_EN 0), 1), ((F.PMp_STATUS_STUCK 0), 0), ((F.PMp_CFG_EN 0), 1), ((F.PMp_CFG_PER 0), 1)], 0, by decide +kernel⟩),
   (⟨puts (State.modPp up 0 (fun x => { x with roundOn := true })) [((F.PMp_CFG_EN 0), 1), ((F.PMp_STATUS_STUCK 0), 0), ((F.PMp_CFG_EN 0), 1), ((F.PMp_CFG_PER 0), 1)], 0, by decide +kernel⟩),
   (⟨puts up [((F.PMp_CFG_EN 3), 1), ((F.PMp_STATUS_STUCK 3), 1), ((F.PMp_CFG_EN 3), 1), ((F.PMp_CFG_PER 3), 1)], 3, by decide +kernel⟩),
   (⟨up, 3, by decide +kernel⟩),
   (⟨puts up [((F.PMp_CFG_ALERT_MODE 3), 1), ((F.PMp_STATUS_ALERT_LOW 3), 1), ((F.PMp_CFG_EN 3), 1)], 3, by decide +kernel⟩),
   (⟨puts up [((F.PMp_CFG_ALERT_MODE 0), 0)], 0, by decide +kernel⟩),
   (⟨puts (State.modPp up 0 (fun x => { x with extraRan := false })) [((F.PMp_CFG_ALERT_MODE 0), 2), ((F.PMp_STATUS_ALERT_LOW 0), 1), ((F.PMp_CFG_EN 0), 1)], 0, by decide +kernel⟩),
   (⟨(State.modPp up 0 (fun x => { x with run := some (⟨3, 0, 1, 2, 3, 0, false⟩) })), 0, ⟨3, 0, 1, 2, 3, 0, false⟩, by decide +kernel⟩),
   (⟨(State.modPp ((State.modPp ((State.modPp up 0 (fun x => { x with host := none }))) 0 (fun x => { x with margin := [] }))) 0 (fun x => { x with run := some (⟨3, 0, 1, 2, 3, 0, false⟩) })), 0, ⟨3, 0, 1, 2, 3, 0, false⟩, by decide +kernel⟩),
   (⟨(State.modPp ((State.modPp up 0 (fun x => { x with run := none }))) 0 (fun x => { x with blocked := false })), 0, false, by decide +kernel⟩),
   (⟨puts up [((F.PMPk_CFG_VALID 127), 1), ((F.PMPk_STATUS_LOST 127), 1), ((F.PMp_CFG_EN 3), 1), ((F.PMp_CFG_PER 3), 1)], 127, by decide +kernel⟩),
   (⟨up, 0, by decide +kernel⟩),
   (⟨puts up [((F.PMPk_MASK_FAULT_MASK 0), 1)], 0, 1, by decide +kernel⟩),
   (⟨puts up [((F.PMPk_STATUS_FAULT 0), 1)], 0, 0, by decide +kernel⟩),
   (⟨puts up [((F.PMPk_STATUS_LOST 127), 1)], 127, 0, by decide +kernel⟩),
   (⟨up, .host, 127, 0x80000010, by decide +kernel⟩),
   (⟨up, .ring, 0, by decide +kernel⟩),
   (⟨up, by decide +kernel⟩),
   (⟨up, 3, ⟨3, 127, 4, 0x79, 0, 0, false⟩, 1, 0, by decide +kernel⟩)⟩

theorem witness_TallyCounters :
    (∃ (s : State) (p : Port) (n : Fin 32) (v : Word), writable s p (R.Tn_CMP n) v.toNat = true) ∧
    (∃ (s : State) (p : Port) (n : Fin 32) (v : Word), writable s p (R.Tn_INTV n) v.toNat = true) ∧
    (∃ (s : State) (p : Port) (n : Fin 32) (v : Word), writable s p (R.Tn_CFG n) v.toNat = true) ∧
    (∃ (s : State) (w : TallyWrite) (rest : List TallyWrite), s.tally.writes = w :: rest ∧ w.left ≤ 1) ∧
    (∃ (s : State) (w : TallyWrite) (rest : List TallyWrite), s.tally.writes = w :: rest ∧ 1 < w.left) ∧
    (∃ (s : State), s.tally.writes = []) ∧
    (∃ (s : State) (n : Fin 32), (tclkEdge s).get (F.Tn_STATUS_MCOUNT n) ≠ s.get (F.Tn_STATUS_MCOUNT n)) ∧
    (∃ (s : State) (n : Fin 32), (tclkEdge s).get (F.Tn_STATUS_MCOUNT n) = s.get (F.Tn_STATUS_MCOUNT n)) ∧
    (∃ (s : State) (t : TallyState) (n : Nat), tSource s n = 0) ∧
    (∃ (s : State) (t : TallyState) (n : Nat), tSource s n = 1) ∧
    (∃ (s : State) (t : TallyState) (n : Nat), tSource s n = 2) ∧
    (∃ (s : State) (t : TallyState) (n : Nat), tSource s n = 3 ∧ ∃ (c : Nat) (l : Bool), t.cap = some (c, l)) ∧
    (∃ (s : State) (t : TallyState) (n : Nat), tSource s n = 3 ∧ t.cap = none) ∧
    (∃ (s : State) (t : TallyState) (n : Nat), tSource s n = 4) ∧
    (∃ (s : State) (n : _) (step : Nat), tCount s n + step < 2 ^ 32 ∧ step < 2 ^ 32 ∧ ((tCmp s n + 2 ^ 32 - tCount s n) % 2 ^ 32 = 0 ∨ step < (tCmp s n + 2 ^ 32 - tCount s n) % 2 ^ 32)) ∧
    (∃ (s : State) (n : Nat) (step : Nat), tCount s n + step < 2 ^ 32 ∧ step < 2 ^ 32 ∧ (1 ≤ (tCmp s n + 2 ^ 32 - tCount s n) % 2 ^ 32 ∧ (tCmp s n + 2 ^ 32 - tCount s n) % 2 ^ 32 ≤ step)) ∧
    (∃ (s : State) (n : _) (cmp : Nat), (let t := (((s.put (F.Tn_STATUS_MATCH n) 1).event (32 + n)).setReg (R.Tn_MATCHED n) cmp).addWrap (F.Tn_STATUS_MCOUNT n); t.flag (F.Tn_CFG_AUTO n) = false)) ∧
    (∃ (s : State) (n : Nat) (cmp : Nat), (let t := (((s.put (F.Tn_STATUS_MATCH n) 1).event (32 + n)).setReg (R.Tn_MATCHED n) cmp).addWrap (F.Tn_STATUS_MCOUNT n); t.flag (F.Tn_CFG_AUTO n) = true)) ∧
    (∃ (s : State) (n : Fin 32), s.tally.carry.getLsbD n = true ∧ tSource s (n + 1) = 4 ∧ n.val < 31) ∧
    (∃ (s : State) (n : Fin 32), (s.tally.carry.getLsbD n = false ∨ tSource s (n + 1) ≠ 4 ∨ n.val = 31)) :=
  ⟨(⟨up, .host, 0, 0, by decide +kernel⟩),
   (⟨up, .host, 0, 0, by decide +kernel⟩),
   (⟨up, .host, 0, 0, by decide +kernel⟩),
   (⟨{ up with tally := { (up).tally with writes := [⟨3, 0, 7, 0⟩] } }, ⟨3, 0, 7, 0⟩, [], by decide +kernel⟩),
   (⟨{ up with tally := { (up).tally with writes := (⟨31, 0, 5, 2⟩) :: ([]) } }, ⟨31, 0, 5, 2⟩, [], by decide +kernel⟩),
   (⟨{ up with tally := { (up).tally with writes := [] } }, by decide +kernel⟩),
   (⟨(puts { up with angPhase := 28672 } [(F.CLK_STATUS_FALLBACK, 0)]).setReg (R.Tn_CMP 0) 1, 0, by decide +kernel⟩),
   (⟨(puts { up with angPhase := 28672 } [(F.CLK_STATUS_FALLBACK, 0)]).setReg (R.Tn_CMP 0) 1, 1, by decide +kernel⟩),
   (⟨puts up [((F.Tn_CFG_SRC 31), 0)], up.tally, 31, by decide +kernel⟩),
   (⟨puts up [((F.Tn_CFG_SRC 31), 1)], up.tally, 31, by decide +kernel⟩),
   (⟨puts up [((F.Tn_CFG_SRC 31), 2)], up.tally, 31, by decide +kernel⟩),
   (⟨puts up [((F.Tn_CFG_SRC 31), 3)], { up.tally with cap := some (7, true) }, 31, by decide +kernel, 7, true, by decide +kernel⟩),
   (⟨puts up [((F.Tn_CFG_SRC 31), 3)], up.tally, 31, by decide +kernel⟩),
   (⟨puts up [((F.Tn_CFG_SRC 31), 4)], up.tally, 31, by decide +kernel⟩),
   (⟨up, 0, 0, by decide +kernel⟩),
   (⟨puts up [((F.Tn_CMP_CMP 31), 4294967295)], 31, 4294967295, by decide +kernel⟩),
   (⟨up, 0, 0, by decide +kernel⟩),
   (⟨puts up [((F.Tn_CFG_AUTO 0), 1)], 0, 0, by decide +kernel⟩),
   (⟨puts { up with tally := { (up).tally with carry := 0x40000000 } } [((F.Tn_CFG_SRC 31), 4)], 30, by decide +kernel⟩),
   (⟨up, 0, by decide +kernel⟩)⟩

theorem witness_TallyCaptures :
    (∃ (s : State) (cap : Fin 8) (level : Bool), s.tally.level.getLsbD cap ≠ level) ∧
    (∃ (s : State) (n : Nat), 4 ≤ (vget ((s.put (F.Tn_STATUS_CAP_SEEN n) 1).event 24).tally.caps n).length) ∧
    (∃ (s : State) (n : _), (vget ((s.put (F.Tn_STATUS_CAP_SEEN n) 1).event 24).tally.caps n).length < 4) ∧
    (∃ (s : State) (p : Port) (n : Fin 32) (v : Nat) (rest : List Nat), vget s.tally.caps n = v :: rest) ∧
    (∃ (s : State) (k : Fin 4), s.get (F.TALLY_OUTk_MODE k) = 1) ∧
    (∃ (s : State) (k : Fin 4), s.get (F.TALLY_OUTk_MODE k) ≠ 1) :=
  ⟨(⟨up, 0, true, by decide +kernel⟩),
   (⟨{ up with tally := { (up).tally with caps := (Vector.replicate 32 [1, 2, 3, 4]) } }, 0, by decide +kernel⟩),
   (⟨up, 0, by decide +kernel⟩),
   (⟨{ up with tally := { (up).tally with caps := (Vector.replicate 32 [1, 2]) } }, .host, 31, 1, [2], by decide +kernel⟩),
   (⟨puts up [((F.TALLY_OUTk_MODE 0), 1)], 0, by decide +kernel⟩),
   (⟨up, 0, by decide +kernel⟩)⟩

theorem witness_FaultMessages :
    (∃ (s : State) (m : FaultMsg) (rest : List FaultMsg), collectorRuns s = true ∧ s.flt.msgs = m :: rest) ∧
    (∃ (s : State) (i : Fin 96), collectorRuns s = true ∧ s.condLevel i = true ∧ fltState s i = 2) ∧
    (∃ (s : State) (i : Fin 96), collectorRuns s = true ∧ s.condLevel i = false ∧ fltState s i = 1 ∧ fltClass s i < 2) ∧
    (∃ (s : State) (i : Fin 96), collectorRuns s = true ∧ fltState s i = 2 ∧ (let u := s.addSat (F.FLT_SRCs_STAT_WCNT i); (u.get (F.FLT_SRCs_CFG_ESC_LIMIT i) = 0 ∨ u.get (F.FLT_SRCs_STAT_WCNT i) ≤ u.get (F.FLT_SRCs_CFG_ESC_LIMIT i)))) ∧
    (∃ (s : State) (i : Fin 96), collectorRuns s = true ∧ fltState s i = 2 ∧ (let u := s.addSat (F.FLT_SRCs_STAT_WCNT i); u.get (F.FLT_SRCs_CFG_ESC_LIMIT i) ≠ 0 ∧ u.get (F.FLT_SRCs_CFG_ESC_LIMIT i) < u.get (F.FLT_SRCs_STAT_WCNT i))) ∧
    (∃ (s : State) (i : Fin 96), collectorRuns s = true) ∧
    (∃ (s : State) (l : Fin 8), collectorRuns s = true) ∧
    (∃ (s : State) (corrupt : Bool) (i : Fin 96) (l : Fin 8) (upTo : Fin 4), collectorRuns s = false) :=
  ⟨(⟨{ up with flt := { (up).flt with msgs := [⟨9, 0, 1, 0, false⟩] } }, ⟨9, 0, 1, 0, false⟩, [], by decide +kernel⟩),
   (⟨puts { up with flt := { (up).flt with conds := [⟨0, ⟨95, 0, 1, 0, false⟩⟩] } } [((F.FLT_SRCs_STAT_STATE 95), 2)], 95, by decide +kernel⟩),
   (⟨puts up [((F.FLT_SRCs_STAT_STATE 95), 1)], 95, by decide +kernel⟩),
   (⟨puts up [((F.FLT_SRCs_STAT_STATE 0), 2)], 0, by decide +kernel⟩),
   (⟨puts up [((F.FLT_SRCs_STAT_STATE 0), 2), ((F.FLT_SRCs_STAT_WCNT 0), 1), ((F.FLT_SRCs_CFG_ESC_LIMIT 0), 1)], 0, by decide +kernel⟩),
   (⟨up, 0, by decide +kernel⟩),
   (⟨up, 0, by decide +kernel⟩),
   (⟨State.reset, false, 0, 0, 0, by decide +kernel⟩)⟩

theorem witness_FaultStates :
    (∃ (s : State) (m : FaultMsg), m.cls = 2) ∧
    (∃ (s : State) (m : FaultMsg), m.cls ≠ 2 ∧ fltState s m.source = 3) ∧
    (∃ (s : State) (m : FaultMsg), m.cls ≠ 2 ∧ m.cls < 4 ∧ fltState s m.source ≠ 3) ∧
    (∃ (s : State) (m : FaultMsg), m.cls ≠ 2 ∧ m.cls < 4 ∧ fltState s m.source ≠ 3 ∧ fltState s m.source = 0) ∧
    (∃ (s : State) (m : FaultMsg), m.cls ≠ 2 ∧ m.cls < 4 ∧ fltState s m.source ≠ 3 ∧ fltState s m.source ≠ 0) :=
  ⟨(⟨puts up [((F.FLT_SRCs_STAT_STATE 95), 0)], ⟨95, 0, 2, 0, false⟩, by decide +kernel⟩),
   (⟨puts up [((F.FLT_SRCs_STAT_STATE 95), 3)], ⟨95, 0, 1, 0, false⟩, by decide +kernel⟩),
   (⟨puts up [((F.FLT_SRCs_STAT_STATE 95), 0)], ⟨95, 0, 1, 0, false⟩, by decide +kernel⟩),
   (⟨puts up [((F.FLT_SRCs_STAT_STATE 95), 0)], ⟨95, 0, 1, 0, false⟩, by decide +kernel⟩),
   (⟨puts up [((F.FLT_SRCs_STAT_STATE 95), 2)], ⟨95, 0, 3, 0, false⟩, by decide +kernel⟩)⟩

theorem witness_ReactionOrder :
    (∃ (r : Reaction) (l : List Reaction), l.Pairwise (fun a b => b.msg.cls ≤ a.msg.cls)) ∧
    (∃ (r : Reaction) (l : List Reaction), l.Pairwise (fun a b => b.msg.cls ≤ a.msg.cls) ∧ ∃ (c : Nat), c ≠ r.msg.cls) :=
  ⟨(⟨⟨⟨1, 0, 1, 0, false⟩, .none, 0⟩, [⟨⟨2, 0, 2, 0, false⟩, .none, 0⟩, ⟨⟨3, 0, 0, 0, false⟩, .none, 0⟩], by decide +kernel⟩),
   (⟨⟨⟨1, 0, 1, 0, false⟩, .none, 0⟩, [⟨⟨2, 0, 2, 0, false⟩, .none, 0⟩, ⟨⟨3, 0, 0, 0, false⟩, .none, 0⟩], by decide +kernel, 0, by decide +kernel⟩)⟩

theorem witness_FaultReactions :
    (∃ (s : State) (r : Reaction), headReaction s = some r ∧ r.stage = 0 ∧ (s.flag (F.FLT_SRCs_CFG_FOLIO r.msg.source) = true ∨ r.msg.cls = 2)) ∧
    (∃ (s : State) (r : Reaction), headReaction s = some r ∧ r.stage = 0 ∧ s.flag (F.FLT_SRCs_CFG_FOLIO r.msg.source) = false ∧ r.msg.cls ≠ 2) ∧
    (∃ (s : State) (r : Reaction), headReaction s = some r ∧ r.stage = 1) ∧
    (∃ (s : State) (r : Reaction) (upTo : Fin 4), collectorRuns s = true ∧ headReaction s = some r ∧ r.stage = 2 ∧ (upTo = 0 ∨ upTo = 3) ∧ (let u := syncFaults (setHead s none); (let v := if bitOf u.folio.trig 2 then (latchFolio u).1 else u; (let w := if r.msg.cls = 2 then abortWork v 6 true else v; partnerEnded w r = false)))) ∧
    (∃ (s : State) (r : Reaction) (upTo : Fin 4), collectorRuns s = true ∧ headReaction s = some r ∧ r.stage = 2 ∧ (upTo = 0 ∨ upTo = 3) ∧ (let u := syncFaults (setHead s none); (let v := if bitOf u.folio.trig 2 then (latchFolio u).1 else u; (let w := if r.msg.cls = 2 then abortWork v 6 true else v; partnerEnded w r = true)))) ∧
    (∃ (s : State) (upTo : Fin 4), collectorRuns s = true ∧ headReaction s = none) ∧
    (∃ (s : State) (q : Nat) (n : Nat), 2 ≤ twinRole s) ∧
    (∃ (s : State) (q : Nat) (n : Nat), 2 ≤ twinRole s ∧ twinRole s = q) ∧
    (∃ (s : State) (n : Nat) (q : Nat), twinRole s < 2 ∧ quireOf s n = some q ∧ s.seq.inbox.contains (.shut q) = false) ∧
    (∃ (s : State) (p : Port) (v : Word), writable s p R.FLT_CLEAR v.toNat = true) ∧
    (∃ (s : State) (i : Nat), i < 96) ∧
    (∃ (s : State) (i : Nat) (c : Cond), (s.flt.conds.find? fun c => c.msg.source == i) = some c ∧ ((s.put (F.FLT_SRCs_STAT_STATE i) 0).put (F.FLT_SRCs_STAT_CLASS i) 0).flt.conds = s.flt.conds) ∧
    (∃ (s : State) (p : Port) (v : Word), writable s p R.FLT_INJ (F.FLT_INJ_GO.insert v.toNat 1) = true) ∧
    (∃ (s : State), s.nvm.cntDirty = true) :=
  ⟨(⟨{ up with flt := { (up).flt with queue := [⟨⟨5, 0, 2, 0, false⟩, .none, 0⟩] } }, ⟨⟨5, 0, 2, 0, false⟩, .none, 0⟩, by decide +kernel⟩),
   (⟨puts { up with flt := { (up).flt with queue := [(⟨⟨5, 0, 1, 0, false⟩, .none, 0⟩ : Reaction)] } } [((F.FLT_SRCs_CFG_FOLIO ((⟨⟨5, 0, 1, 0, false⟩, .none, 0⟩ : Reaction)).msg.source), 0)], (⟨⟨5, 0, 1, 0, false⟩, .none, 0⟩ : Reaction), by decide +kernel⟩),
   (⟨{ up with flt := { (up).flt with queue := [⟨⟨5, 0, 1, 0, false⟩, .none, 1⟩] } }, ⟨⟨5, 0, 1, 0, false⟩, .none, 1⟩, by decide +kernel⟩),
   (⟨{ up with flt := { (up).flt with queue := [⟨⟨5, 0, 1, 0, false⟩, .none, 2⟩] } }, ⟨⟨5, 0, 1, 0, false⟩, .none, 2⟩, 3, by decide +kernel⟩),
   (⟨(State.modPp ({ up with flt := { (up).flt with queue := [⟨⟨29, 0, 1, 3, false⟩, .none, 2⟩] } }) 0 (fun x => { x with faultEnd := some (3, 0) })), ⟨⟨29, 0, 1, 3, false⟩, .none, 2⟩, 0, by decide +kernel⟩),
   (⟨up, 0, by decide +kernel⟩),
   (⟨puts up [(F.TWIN_STATUS_ROLE, 2)], 0, 0, by decide +kernel⟩),
   (⟨puts up [(F.TWIN_STATUS_ROLE, 2), (F.TWIN_STATUS_ROLE, 2)], 2, 0, by decide +kernel⟩),
   (⟨puts up [((F.QUIREq_MEMBERS_LO_RAILS 3), 1)], 0, 3, by decide +kernel⟩),
   (⟨up, .host, 0, by decide +kernel⟩),
   (⟨up, 0, by decide +kernel⟩),
   (⟨{ up with flt := { (up).flt with conds := [⟨0, ⟨95, 0, 1, 0, false⟩⟩] } }, 95, ⟨0, ⟨95, 0, 1, 0, false⟩⟩, by decide +kernel⟩),
   (⟨puts up [(F.SEC_STATE_FACTORY, 1)], .host, 0, by decide +kernel⟩),
   (⟨{ up with nvm := { (up).nvm with cntDirty := true } }, by decide +kernel⟩)⟩

theorem witness_TwinLink :
    (∃ (s : State), isTwin s = true ∧ s.mode ≠ mHoldup) ∧
    (∃ (s : State), linkUp s = true ∧ 5 ≤ s.get F.TWIN_STATUS_LINK_AGE) ∧
    (∃ (s : State), (linkUp s = false ∨ s.get F.TWIN_STATUS_LINK_AGE < 5)) ∧
    (∃ (s : State) (frames : Nat), linkUp s = false ∧ isTwin s = true ∧ s.mode ≠ mHoldup ∧ 8 ≤ frames) ∧
    (∃ (s : State) (frames : Nat), linkUp s = false ∧ isTwin s = true ∧ s.mode ≠ mHoldup ∧ frames < 8) ∧
    (∃ (s : State) (role : Fin 4) (ready : Bool) (seq : Word), isTwin s = true ∧ s.mode ≠ mHoldup ∧ (let u := (((goodFrame s).put F.TWIN_STATUS_PEER_ROLE role).putB F.TWIN_STATUS_PEER_READY ready).modTwin fun t => { t with peerSeq := seq.toNat }; role ≠ 1)) ∧
    (∃ (s : State) (role : Fin 4) (ready : Bool) (seq : Word), isTwin s = true ∧ s.mode ≠ mHoldup ∧ (let u := (((goodFrame s).put F.TWIN_STATUS_PEER_ROLE role).putB F.TWIN_STATUS_PEER_READY ready).modTwin fun t => { t with peerSeq := seq.toNat }; role = 1)) ∧
    (∃ (s : State), (isTwin s = false ∨ s.flag F.RING_GRANT_HB_OK = false ∨ s.security = secRetired)) ∧
    (∃ (s : State) (l : BitVec 64), isTwin s = true ∧ s.mode ≠ mHoldup ∧ mirrors (goodFrame s) = true) ∧
    (∃ (s : State) (c : CfgImage), isTwin s = true ∧ s.mode ≠ mHoldup ∧ mirrors (goodFrame s) = true) ∧
    (∃ (s : State) (d : DynImage), isTwin s = true ∧ s.mode ≠ mHoldup ∧ twinRole (goodFrame s) ≠ 1 ∧ mirrors (goodFrame s) = false) ∧
    (∃ (s : State), isTwin s = true ∧ s.mode ≠ mHoldup ∧ twinRole s = 1 ∧ linkUp s = true) ∧
    (∃ (s : State), 2 ≤ twinRole s) ∧
    (∃ (s : State), twinRole s < 2) ∧
    (∃ (s : State) (l : BitVec 64), mirrors s = false ∧ (isTwin s = false ∨ s.mode = mHoldup)) ∧
    (∃ (s : State) (l : BitVec 64), mirrors s = false ∧ (isTwin s = false ∨ s.mode = mHoldup)) :=
  ⟨(⟨puts up [(F.TWIN_CFG_SIDE, 1)], by decide +kernel⟩),
   (⟨puts up [(F.TWIN_STATUS_LINK_UP, 1), (F.TWIN_STATUS_LINK_AGE, 5)], by decide +kernel⟩),
   (⟨up, by decide +kernel⟩),
   (⟨puts up [(F.TWIN_CFG_SIDE, 1)], 8, by decide +kernel⟩),
   (⟨puts up [(F.TWIN_CFG_SIDE, 1)], 0, by decide +kernel⟩),
   (⟨puts up [(F.TWIN_CFG_SIDE, 1)], 0, false, 0, by decide +kernel⟩),
   (⟨puts up [(F.TWIN_CFG_SIDE, 1)], 1, false, 0, by decide +kernel⟩),
   (⟨up, by decide +kernel⟩),
   (⟨puts up [(F.TWIN_CFG_SIDE, 1), (F.TWIN_STATUS_ROLE, 2), (F.TWIN_STATUS_LINK_UP, 1)], 0, by decide +kernel⟩),
   (⟨puts up [(F.TWIN_CFG_SIDE, 1), (F.TWIN_STATUS_ROLE, 2), (F.TWIN_STATUS_LINK_UP, 1)], ⟨[], []⟩, by decide +kernel⟩),
   (⟨puts up [(F.TWIN_CFG_SIDE, 1), (F.TWIN_STATUS_ROLE, 2)], dyn0, by decide +kernel⟩),
   (⟨puts up [(F.TWIN_CFG_SIDE, 1), (F.TWIN_STATUS_ROLE, 1), (F.TWIN_STATUS_LINK_UP, 1)], by decide +kernel⟩),
   (⟨puts up [(F.TWIN_STATUS_ROLE, 2)], by decide +kernel⟩),
   (⟨up, by decide +kernel⟩),
   (⟨up, 0, by decide +kernel⟩),
   (⟨up, 0, by decide +kernel⟩)⟩

theorem witness_RoleChanges :
    (∃ (s : State) (l : BitVec 64), isTwin s = true ∧ s.mode ≠ mHoldup ∧ mirrors (goodFrame s) = true ∧ (let u := applyLatch (twinEvt (goodFrame s) F.TWIN_EVT_HO_RECV 5) l.toNat (2 ^ 64 - 1 - l.toNat); u.twin.change = .none ∧ roleFrozen u = false)) ∧
    (∃ (s : State) (l : BitVec 64), isTwin s = true ∧ s.mode ≠ mHoldup ∧ mirrors (goodFrame s) = true ∧ (let u := applyLatch (twinEvt (goodFrame s) F.TWIN_EVT_HO_RECV 5) l.toNat (2 ^ 64 - 1 - l.toNat); u.twin.change = .none ∧ roleFrozen u = true)) ∧
    (∃ (s : State) (l : BitVec 64), isTwin s = true ∧ s.mode ≠ mHoldup ∧ mirrors (goodFrame s) = true ∧ (let u := applyLatch (twinEvt (goodFrame s) F.TWIN_EVT_HO_RECV 5) l.toNat (2 ^ 64 - 1 - l.toNat); u.twin.change = .incoming false)) ∧
    (∃ (s : State) (l : BitVec 64), isTwin s = true ∧ s.mode ≠ mHoldup ∧ mirrors (goodFrame s) = true ∧ (let u := applyLatch (twinEvt (goodFrame s) F.TWIN_EVT_HO_RECV 5) l.toNat (2 ^ 64 - 1 - l.toNat); u.twin.change = .incoming true)) ∧
    (∃ (s : State), isTwin s = true ∧ s.mode ≠ mHoldup ∧ twinRole (goodFrame s) = 1 ∧ isTwin (goodFrame s) = true ∧ (goodFrame s).twin.change = .none ∧ (goodFrame s).mode ≠ mHoldup ∧ roleFrozen (goodFrame s) = false) ∧
    (∃ (s : State), isTwin s = true ∧ s.mode ≠ mHoldup ∧ roleFrozen (goodFrame s) = true) ∧
    (∃ (s : State) (stale : Bool), s.twin.change = .incoming stale ∧ s.mode ≠ mHoldup) ∧
    (∃ (s : State) (stale : Bool), s.twin.change = .incoming stale ∧ s.mode = mHoldup) ∧
    (∃ (s : State), isTwin s = true ∧ s.mode ≠ mHoldup ∧ (goodFrame s).twin.change = .outgoing) ∧
    (∃ (s : State), s.twin.change = .outgoing) ∧
    (∃ (s : State), s.flag F.TWIN_STATUS_HO_PEND = true ∧ s.seq.hoRails = []) :=
  ⟨(⟨puts up [(F.TWIN_CFG_SIDE, 1), (F.TWIN_STATUS_ROLE, 2), (F.TWIN_STATUS_LINK_UP, 1)], 0, by decide +kernel⟩),
   (⟨puts up [(F.TWIN_CFG_SIDE, 1), (F.TWIN_STATUS_ROLE, 2), (F.TWIN_STATUS_LINK_UP, 1), (F.TWIN_STATUS_FROZEN, 1)], 1, by decide +kernel⟩),
   (⟨puts { up with twin := { (up).twin with change := .incoming false } } [(F.TWIN_CFG_SIDE, 1), (F.TWIN_STATUS_ROLE, 2), (F.TWIN_STATUS_LINK_UP, 1)], 1, by decide +kernel⟩),
   (⟨puts { up with twin := { (up).twin with change := .incoming true } } [(F.TWIN_CFG_SIDE, 1), (F.TWIN_STATUS_ROLE, 2), (F.TWIN_STATUS_LINK_UP, 1)], 1, by decide +kernel⟩),
   (⟨puts up [(F.TWIN_CFG_SIDE, 1), (F.TWIN_STATUS_ROLE, 1)], by decide +kernel⟩),
   (⟨puts up [(F.TWIN_CFG_SIDE, 1), (F.TWIN_STATUS_FROZEN, 1)], by decide +kernel⟩),
   (⟨{ up with twin := { (up).twin with change := .incoming false } }, false, by decide +kernel⟩),
   (⟨puts { up with twin := { (up).twin with change := .incoming false } } [(F.SEC_STATE_MODE, 4)], false, by decide +kernel⟩),
   (⟨puts { up with twin := { (up).twin with change := .outgoing } } [(F.TWIN_CFG_SIDE, 1)], by decide +kernel⟩),
   (⟨{ up with twin := { (up).twin with change := .outgoing } }, by decide +kernel⟩),
   (⟨puts { up with seq := { (up).seq with hoRails := [] } } [(F.TWIN_STATUS_HO_PEND, 1)], by decide +kernel⟩)⟩

theorem witness_Warden :
    (∃ (s : State) (port : RingPort) (cell : RingCell) (u : State), receiveCell s port cell 0xD = (u, true) ∧ u.twin.loaded = true ∧ isTwin u = true ∧ payNat cell 0 2 = u.get F.TWIN_PAIR_ID ∧ u.flag F.TWIN_STATUS_WARDEN_OK = true) ∧
    (∃ (s : State) (port : RingPort) (cell : RingCell) (u : State), receiveCell s port cell 0xD = (u, true) ∧ u.twin.loaded = true ∧ isTwin u = true ∧ payNat cell 0 2 = u.get F.TWIN_PAIR_ID ∧ u.flag F.TWIN_STATUS_WARDEN_OK = false) ∧
    (∃ (s : State), isTwin s = true ∧ s.flag F.TWIN_STATUS_WARDEN_OK = true) ∧
    (∃ (s : State) (port : RingPort) (cell : RingCell) (u : State), receiveCell s port cell 0xB = (u, true) ∧ u.twin.loaded = true ∧ payNat cell 0 1 ≠ 3 ∧ ∃ (r : Nat), tokenReason u cell = r ∧ r ≠ 0) ∧
    (∃ (s : State) (port : RingPort) (cell : RingCell) (u : State), receiveCell s port cell 0xB = (u, true) ∧ u.twin.loaded = true ∧ payNat cell 0 1 ≠ 3 ∧ tokenReason u cell = 0 ∧ payNat cell 0 1 = 1) ∧
    (∃ (s : State) (port : RingPort) (cell : RingCell) (u : State), receiveCell s port cell 0xB = (u, true) ∧ u.twin.loaded = true ∧ payNat cell 0 1 ≠ 3 ∧ tokenReason u cell = 0 ∧ payNat cell 0 1 = 2 ∧ twinRole (acceptToken u cell) = 1 ∧ roleFrozen (acceptToken u cell) = false) ∧
    (∃ (s : State) (port : RingPort) (cell : RingCell) (u : State), receiveCell s port cell 0xB = (u, true) ∧ u.twin.loaded = true ∧ payNat cell 0 1 ≠ 3 ∧ tokenReason u cell = 0 ∧ (payNat cell 0 1 = 1 ∨ payNat cell 0 1 = 2) ∧ roleFrozen (acceptToken u cell) = true) ∧
    (∃ (s : State) (port : RingPort) (cell : RingCell) (u : State), receiveCell s port cell 0xC = (u, true) ∧ u.twin.loaded = true) ∧
    (∃ (s : State) (k : Nat), (wpair s k).owed = none ∧ sideActive s k false = false ∧ sideActive s k true = false ∧ sideReady s k (s.flag (F.WDN_PAIRk_CFG_PREF k)) = true) ∧
    (∃ (s : State) (k : Nat) (b : Bool), (wpair s k).owed = none ∧ sideActive s k b = true ∧ sideActive s k (!b) = false) ∧
    (∃ (s : State) (k : Nat), (wpair s k).owed = none ∧ sideActive s k false = true ∧ sideActive s k true = true) ∧
    (∃ (s : State) (k : Nat) (x : Bool), (wpair s k).owed = some x ∧ sideActive s k (!x) = true) ∧
    (∃ (s : State) (p : Port) (k : Fin 8) (v : Word), writable s p (R.WDN_PAIRk_NODES k) v.toNat = true) ∧
    (∃ (s : State) (p : Port) (v : Word), writable s p R.WDN_CFG v.toNat = true ∧ F.WDN_CFG_HB_PER.extract (s.reg R.WDN_CFG) = (written s R.WDN_CFG v.toNat).get F.WDN_CFG_HB_PER) ∧
    (∃ (s : State) (p : Port) (v : Word), writable s p R.WDN_CFG v.toNat = true ∧ F.WDN_CFG_HB_PER.extract (s.reg R.WDN_CFG) ≠ (written s R.WDN_CFG v.toNat).get F.WDN_CFG_HB_PER) :=
  ⟨(⟨puts { up with twin := { (up).twin with loaded := true } } [(F.RING_STATUS_ADDR, 3), (F.RING_STATUS_E_UP, 1), (F.TWIN_CFG_SIDE, 1), (F.TWIN_STATUS_WARDEN_OK, 1)], .east, cell 3 0 [], _, Prod.ext rfl (by decide +kernel), by decide +kernel⟩),
   (⟨puts { up with twin := { (up).twin with loaded := true } } [(F.RING_STATUS_ADDR, 3), (F.RING_STATUS_E_UP, 1), (F.TWIN_CFG_SIDE, 1)], .east, cell 3 0 [], _, Prod.ext rfl (by decide +kernel), by decide +kernel⟩),
   (⟨puts up [(F.TWIN_CFG_SIDE, 1), (F.TWIN_STATUS_WARDEN_OK, 1)], by decide +kernel⟩),
   (⟨(puts { up with twin := { (up).twin with loaded := true } } [(F.RING_STATUS_ADDR, 3), (F.RING_STATUS_E_UP, 1), (F.TWIN_CFG_SIDE, 1)]), .east, cell 3 0 [1], _, Prod.ext rfl (by decide +kernel), by decide +kernel, by decide +kernel, 1, by decide +kernel⟩),
   (⟨puts { up with sec := { (up).sec with key := List.replicate 16 0 }, twin := { (up).twin with loaded := true } } [(F.RING_STATUS_ADDR, 3), (F.RING_STATUS_E_UP, 1), (F.TWIN_CFG_SIDE, 1), (F.ANG_STATUS_RUN, 1), (F.TWIN_CFG_PERM, 3), (F.TWIN_STATUS_ROLE, 2)], .east, cell 3 0 (tokenBytes 1 [171, 61, 79, 180, 45, 218, 56, 194, 18, 169, 117, 84, 211, 222, 145, 22]), _, Prod.ext rfl (by decide +kernel), by decide +kernel⟩),
   (⟨puts { up with sec := { (up).sec with key := List.replicate 16 0 }, twin := { (up).twin with loaded := true } } [(F.RING_STATUS_ADDR, 3), (F.RING_STATUS_E_UP, 1), (F.TWIN_CFG_SIDE, 1), (F.ANG_STATUS_RUN, 1), (F.TWIN_CFG_PERM, 3), (F.TWIN_STATUS_ROLE, 1)], .east, cell 3 0 (tokenBytes 2 [128, 119, 230, 195, 112, 92, 115, 221, 20, 5, 128, 234, 132, 90, 135, 183]), _, Prod.ext rfl (by decide +kernel), by decide +kernel⟩),
   (⟨puts { up with sec := { (up).sec with key := List.replicate 16 0 }, twin := { (up).twin with loaded := true } } [(F.RING_STATUS_ADDR, 3), (F.RING_STATUS_E_UP, 1), (F.TWIN_CFG_SIDE, 1), (F.ANG_STATUS_RUN, 1), (F.TWIN_CFG_PERM, 3), (F.TWIN_STATUS_ROLE, 2), (F.TWIN_STATUS_FROZEN, 1)], .east, cell 3 0 (tokenBytes 1 [171, 61, 79, 180, 45, 218, 56, 194, 18, 169, 117, 84, 211, 222, 145, 22]), _, Prod.ext rfl (by decide +kernel), by decide +kernel⟩),
   (⟨puts { up with twin := { (up).twin with loaded := true } } [(F.RING_STATUS_ADDR, 3), (F.RING_STATUS_E_UP, 1), (F.TWIN_CFG_SIDE, 1)], .east, cell 3 0 [], _, Prod.ext rfl (by decide +kernel), by decide +kernel⟩),
   (⟨(State.modPair up 7 (fun x => { x with a := { (default : WdnBeat) with ready := true }, b := { (default : WdnBeat) with ready := true } })), 7, by decide +kernel⟩),
   (⟨State.modPair up 7 (fun x => { x with a := { (default : WdnBeat) with role := 1 }, b := default, owed := none }), 7, false, by decide +kernel⟩),
   (⟨(State.modPair up 7 (fun x => { x with a := { (default : WdnBeat) with role := 1 }, b := { (default : WdnBeat) with role := 1 }, owed := none })), 7, by decide +kernel⟩),
   (⟨State.modPair up 7 (fun x => { x with a := { (default : WdnBeat) with role := 1 }, b := { (default : WdnBeat) with role := 1 }, owed := some false }), 7, false, by decide +kernel⟩),
   (⟨up, .host, 0, 0, by decide +kernel⟩),
   (⟨up, .host, 0, by decide +kernel⟩),
   (⟨up, .host, BitVec.ofNat 32 (F.WDN_CFG_HB_PER.insert 0 1), by decide +kernel⟩)⟩

theorem witness_Folios :
    (∃ (s : State) (level : Bool), s.folio.snap ≠ level ∧ bitOf (s.get F.FOLIO_CFG_SNAP_EDGE) (if level then 0 else 1) = true) ∧
    (∃ (s : State) (level : Bool), s.folio.snap ≠ level ∧ bitOf (s.get F.FOLIO_CFG_SNAP_EDGE) (if level then 0 else 1) = false) ∧
    (∃ (s : State) (p : Port), writable s p R.FOLIO_CTRL (2 ^ 31) = true) ∧
    (∃ (s : State) (p : Port), writable s p R.FOLIO_CTRL (2 ^ 30) = true) ∧
    (∃ (s : State) (p : Port), writable s p R.FOLIO_CTRL (2 ^ 29) = true) ∧
    (∃ (s : State) (p : Port) (b : BitVec 4), writable s p R.FOLIO_CTRL b.toNat = true) ∧
    (∃ (s : State), s.flag F.FOLIO_STATUS_ARMED = true) ∧
    (∃ (s : State), s.flag F.FOLIO_STATUS_ARMED = false) ∧
    (∃ (s : State), s.flag F.FOLIO_STATUS_ARMED = true ∧ s.angRun = true ∧ stampReached s.ang.stamp s.folio.target = true ∧ s.flag F.FOLIO_STATUS_RING = false ∧ stampReached s.ang.stamp s.ring.rfTarget = false) ∧
    (∃ (s : State), s.flag F.FOLIO_STATUS_ARMED = false ∧ (s.angRun = false ∨ stampReached s.ang.stamp s.ring.rfTarget = false)) ∧
    (∃ (s : State) (k : Nat), bitOf s.folio.trig 5 = false ∧ bitOf s.folio.trig 6 = false ∧ bitOf s.folio.trig 7 = false ∧ s.folio.trig ≠ 0 ∧ (let u := s.modFolio fun f => { f with trig := 0, trigId := 0, trigMsg := none }; folioBuffer u s.folio.trig = some k ∧ ∃ (v : State) (words : List Word), crossResults u (folioWords u s.folio.trig 0) = (v, words) ∧ bufState v k = 0)) ∧
    (∃ (s : State) (words : List Word), (∀ r ∈ s.folio.fresh, r.at' + 2 ≤ s.tclk)) ∧
    (∃ (s : State), bitOf s.folio.trig 5 = false ∧ bitOf s.folio.trig 6 = false ∧ bitOf s.folio.trig 7 = false ∧ s.folio.trig ≠ 0 ∧ (let u := s.modFolio fun f => { f with trig := 0, trigId := 0, trigMsg := none }; folioBuffer u s.folio.trig = none)) ∧
    (∃ (s : State) (mask : Nat) (k : Nat), folioBuffer s mask = some k) ∧
    (∃ (s : State) (mask : Nat) (k : Nat), folioBuffer s mask = some k ∧ bufState s k = 0 ∧ ∃ (j : Nat), j < k) ∧
    (∃ (s : State) (mask : Nat), bitOf mask 6 = false ∧ bitOf mask 7 = false ∧ (∀ k, k < 4 → bufState s k ≠ 0)) :=
  ⟨(⟨puts up [(F.FOLIO_CFG_SNAP_EDGE, 1)], true, by decide +kernel⟩),
   (⟨up, true, by decide +kernel⟩),
   (⟨up, .host, by decide +kernel⟩),
   (⟨up, .host, by decide +kernel⟩),
   (⟨up, .host, by decide +kernel⟩),
   (⟨up, .host, 0, by decide +kernel⟩),
   (⟨puts up [(F.FOLIO_STATUS_ARMED, 1)], by decide +kernel⟩),
   (⟨puts up [(F.FOLIO_STATUS_ARMED, 0)], by decide +kernel⟩),
   (⟨puts { up with ring := { (up).ring with rfTarget := 1 } } [(F.FOLIO_STATUS_ARMED, 1), (F.ANG_STATUS_RUN, 1), (F.FOLIO_STATUS_RING, 0)], by decide +kernel⟩),
   (⟨puts up [(F.FOLIO_STATUS_ARMED, 0)], by decide +kernel⟩),
   (⟨{ up with folio := { up.folio with trig := 1 } }, 0, by decide +kernel, by decide +kernel, by decide +kernel, by decide +kernel, by decide +kernel, (State.modFolio ({ up with folio := { up.folio with trig := 1 } }) fun f => { f with trig := 0, trigId := 0, trigMsg := none }), folioWords (State.modFolio ({ up with folio := { up.folio with trig := 1 } }) fun f => { f with trig := 0, trigId := 0, trigMsg := none }) 1 0, rfl, by decide +kernel⟩),
   (⟨up, [], by decide +kernel⟩),
   (⟨puts { up with folio := { (up).folio with trig := 1 } } [((F.FOLIO_STATUS_BUF 0), 2), ((F.FOLIO_STATUS_BUF 1), 2), ((F.FOLIO_STATUS_BUF 2), 2), ((F.FOLIO_STATUS_BUF 3), 2)], by decide +kernel⟩),
   (⟨up, 0, 0, by decide +kernel⟩),
   (⟨puts up [((F.FOLIO_STATUS_BUF 0), 1)], 0, 1, by decide +kernel, by decide +kernel, 0, by decide +kernel⟩),
   (⟨puts up [((F.FOLIO_STATUS_BUF 0), 1), ((F.FOLIO_STATUS_BUF 1), 1), ((F.FOLIO_STATUS_BUF 2), 1), ((F.FOLIO_STATUS_BUF 3), 1)], 0, by decide +kernel⟩)⟩

theorem witness_Records :
    (∃ (s : State) (c : FolioCopy) (rest : List FolioCopy), s.folio.copies = c :: rest ∧ (let u := s.modFolio fun f => { f with copies := rest }; (let v := if bufState u c.buf = 2 then u.put (F.FOLIO_STATUS_BUF c.buf) 0 else u; 2 ≤ v.nvm.stage.length))) ∧
    (∃ (s : State) (c : FolioCopy) (rest : List FolioCopy), s.folio.copies = c :: rest ∧ (let u := s.modFolio fun f => { f with copies := rest }; (let v := if bufState u c.buf = 2 then u.put (F.FOLIO_STATUS_BUF c.buf) 0 else u; v.nvm.stage.length < 2))) ∧
    (∃ (s : State), s.nvm.ready = true ∧ s.rst.phase ≠ .work ∧ (s.nvm.ops.any fun o => jobClass o.job == 1) = false ∧ s.spare.mapPend = true ∧ s.mode ≠ mHoldup) ∧
    (∃ (s : State), s.nvm.ready = true ∧ s.rst.phase ≠ .work ∧ (s.nvm.ops.any fun o => jobClass o.job == 1) = false ∧ (s.spare.mapPend = false ∨ s.mode = mHoldup) ∧ s.nvm.cntPend = true) ∧
    (∃ (s : State), s.nvm.ready = true ∧ s.rst.phase ≠ .work ∧ (s.nvm.ops.any fun o => jobClass o.job == 1) = false ∧ (s.spare.mapPend = false ∨ s.mode = mHoldup) ∧ s.nvm.cntPend = false) ∧
    (∃ (s : State), s.nvm.ready = false) ∧
    (∃ (s : State), s.folio.copies = []) ∧
    (∃ (s : State) (p : Port) (cfg : Bool) (cal : Bool), (cfg = true ∨ cal = true) ∧ writable s p R.NVM_STORE ((if cfg then 1 else 0) + (if cal then 2 else 0)) = true) ∧
    (∃ (s : State) (p : Port) (v : Nat), ledgerWord s (s.get F.LDG_RD_IDX_SLOT) (s.get F.LDG_RD_IDX_WORD) = some v) ∧
    (∃ (s : State) (p : Port) (v : Word), writable s p R.LDG_SEC v.toNat = true) ∧
    (∃ (s : State) (o : NvmOp), archiving s = false ∧ curOp s = some o ∧ o.erases = 0 ∧ o.units ≠ 0 ∧ o.units ≠ 1) ∧
    (∃ (s : State) (o : NvmOp), archiving s = false ∧ curOp s = some o ∧ o.erases = 0 ∧ o.units ≠ 0 ∧ o.units = 1 ∧ o.job = .record) ∧
    (∃ (s : State) (o : NvmOp), archiving s = false ∧ curOp s = some o ∧ o.erases = 0 ∧ o.units ≠ 0 ∧ o.retry = false) ∧
    (∃ (s : State) (o : NvmOp), archiving s = false ∧ curOp s = some o ∧ o.erases = 0 ∧ o.units ≠ 0 ∧ o.retry = true) ∧
    (∃ (s : State) (o : NvmOp) (k : Nat), archiving s = false ∧ curOp s = some o ∧ o.erases ≠ 0 ∧ o.job = .erase k ∧ k < 1024) ∧
    (∃ (s : State) (job : NvmJob) (erases : Nat) (units : Nat), unitLive s = true) ∧
    (∃ (s : State) (o : NvmOp), s.nvm.unit = some (some o.job) ∧ (s.nvm.ops.find? fun x => x.job == o.job) = some o) ∧
    (∃ (s : State), archiving s = true) ∧
    (∃ (s : State), archiving s = true ∧ s.nvm.arcRetry = false) ∧
    (∃ (s : State), archiving s = true) ∧
    (∃ (s : State), archiving s = false ∧ curOp s = none) ∧
    (∃ (s : State) (a : BitVec 21), (let page := a.toNat / 512; (let u := (nvmEvent s F.NVM_EVT_UNCORR 7).raise 62 0 0 page page; page < 128))) ∧
    (∃ (s : State) (a : BitVec 21), (let page := a.toNat / 512; (let u := (nvmEvent s F.NVM_EVT_UNCORR 7).raise 62 0 0 page page; 128 ≤ page ∧ page < 256))) ∧
    (∃ (s : State) (a : BitVec 21), (let page := a.toNat / 512; (let u := (nvmEvent s F.NVM_EVT_UNCORR 7).raise 62 0 0 page page; 320 ≤ page ∧ page < 1344))) ∧
    (∃ (s : State) (a : BitVec 21), (let page := a.toNat / 512; (let u := (nvmEvent s F.NVM_EVT_UNCORR 7).raise 62 0 0 page page; 272 ≤ page ∧ page < 288))) ∧
    (∃ (s : State) (a : BitVec 21), (let page := a.toNat / 512; (let u := (nvmEvent s F.NVM_EVT_UNCORR 7).raise 62 0 0 page page; 304 ≤ page ∧ page < 320))) ∧
    (∃ (s : State) (a : BitVec 21), (let page := a.toNat / 512; (let u := (nvmEvent s F.NVM_EVT_UNCORR 7).raise 62 0 0 page page; 3264 ≤ page ∧ page < 3520))) ∧
    (∃ (s : State) (a : BitVec 21), (let page := a.toNat / 512; (let u := (nvmEvent s F.NVM_EVT_UNCORR 7).raise 62 0 0 page page; 3520 ≤ page))) :=
  ⟨(⟨{ up with folio := { (up).folio with copies := [⟨0, [], none, 0⟩] }, nvm := { (up).nvm with stage := [⟨[], none, 0, false, false, false, false⟩, ⟨[], none, 0, false, false, false, false⟩] } }, ⟨0, [], none, 0⟩, [], by decide +kernel⟩),
   (⟨{ up with folio := { (up).folio with copies := [⟨0, [], none, 0⟩] }, nvm := { (up).nvm with stage := [⟨[], none, 0, false, false, false, false⟩] } }, ⟨0, [], none, 0⟩, [], by decide +kernel⟩),
   (⟨{ up with nvm := { (up).nvm with ready := true }, spare := { (up).spare with mapPend := true } }, by decide +kernel⟩),
   (⟨{ up with nvm := { up.nvm with ready := true, cntPend := true } }, by decide +kernel⟩),
   (⟨{ up with nvm := { (up).nvm with ready := true, cntPend := false } }, by decide +kernel⟩),
   (⟨{ up with nvm := { (up).nvm with ready := false } }, by decide +kernel⟩),
   (⟨{ up with folio := { (up).folio with copies := [] } }, by decide +kernel⟩),
   (⟨up, .host, true, true, by decide +kernel⟩),
   (⟨{ up with nvm := { (up).nvm with slots := [(0, [5])] } }, .host, 5, by decide +kernel⟩),
   (⟨up, .host, 0, by decide +kernel⟩),
   (⟨{ up with nvm := { (up).nvm with ops := [⟨.record, 0, 2, false⟩] } }, ⟨.record, 0, 2, false⟩, by decide +kernel⟩),
   (⟨{ up with nvm := { (up).nvm with ops := [⟨.record, 0, 1, false⟩] } }, ⟨.record, 0, 1, false⟩, by decide +kernel⟩),
   (⟨{ up with nvm := { (up).nvm with ops := [⟨.record, 0, 1, false⟩] } }, ⟨.record, 0, 1, false⟩, by decide +kernel⟩),
   (⟨{ up with nvm := { (up).nvm with ops := [⟨.record, 0, 1, true⟩] } }, ⟨.record, 0, 1, true⟩, by decide +kernel⟩),
   (⟨{ up with nvm := { (up).nvm with ops := [⟨.erase 5, 1, 0, false⟩] } }, ⟨.erase 5, 1, 0, false⟩, 5, by decide +kernel⟩),
   (⟨{ up with marg := { (up).marg with arcQueue := [(0, [], [])] }, nvm := { (up).nvm with unit := some none } }, .record, 1, 1, by decide +kernel⟩),
   (⟨{ up with nvm := { (up).nvm with unit := some (some .record), ops := [⟨.record, 0, 2, false⟩] } }, ⟨.record, 0, 2, false⟩, by decide +kernel⟩),
   (⟨{ up with marg := { (up).marg with arcQueue := [(0, [], [])] } }, by decide +kernel⟩),
   (⟨{ up with nvm := { (up).nvm with arcRetry := false }, marg := { (up).marg with arcQueue := [(0, [], [])] } }, by decide +kernel⟩),
   (⟨{ up with marg := { (up).marg with arcQueue := [(0, [], [])] } }, by decide +kernel⟩),
   (⟨up, by decide +kernel⟩),
   (⟨up, 0, by decide +kernel⟩),
   (⟨up, 65536, by decide +kernel⟩),
   (⟨up, 163840, by decide +kernel⟩),
   (⟨up, 139264, by decide +kernel⟩),
   (⟨up, 155648, by decide +kernel⟩),
   (⟨up, 1671168, by decide +kernel⟩),
   (⟨up, 1802240, by decide +kernel⟩)⟩

theorem witness_RingPorts :
    (∃ (s : State) (port : RingPort), s.flag F.CLK_STATUS_SERDES_LOCK = true ∧ portWorn s (portNum port) = false ∧ s.flag (upField (portNum port)) = false ∧ s.rst.phase ≠ .por ∧ s.ring.loop.getLsbD (portNum port) = false) ∧
    (∃ (s : State) (port : RingPort), s.flag (upField (portNum port)) = true ∧ (let p := portNum port; (let u := (ringEvt (s.put (upField p) 0) F.RING_EVT_LINK_DOWN 1).modRing fun r => { r with loop := r.loop ||| (1#3 <<< p) }; ∃ (i : Nat), sideOfPort u p = some i))) ∧
    (∃ (s : State) (port : RingPort), s.flag (upField (portNum port)) = true ∧ (let p := portNum port; (let u := (ringEvt (s.put (upField p) 0) F.RING_EVT_LINK_DOWN 1).modRing fun r => { r with loop := r.loop ||| (1#3 <<< p) }; sideOfPort u p = none))) ∧
    (∃ (s : State) (port : RingPort), s.ring.loop.getLsbD (portNum port) = true) ∧
    (∃ (s : State) (port : RingPort), s.ring.loop.getLsbD (portNum port) = true ∧ (let u := s.modRing fun r => { r with loop := r.loop &&& ~~~(1#3 <<< portNum port) }; port = .east ∧ ((((u.modSpare fun t => { t with wornPorts := t.wornPorts ||| (1#3 <<< 0) }).put F.RING_STATUS_E_WORN 1).raise 81 0 0 0 0).get F.RING_CFG_SPARE_SIDE) ≠ 1)) ∧
    (∃ (s : State), spareState s = 0) ∧
    (∃ (s : State) (port : RingPort) (i : Nat), sideOfPort s (portNum port) = some i ∧ sideUp s i = true ∧ s.flag F.RING_STATUS_HU_SINGLE = false ∧ wrapped s i = true ∧ isMaster (ringEvt (s.put (wrapField i) 0) F.RING_EVT_UNWRAP 3) = false) ∧
    (∃ (s : State) (port : RingPort) (cell : RingCell) (u : State), receiveCell s port cell cell.kind.toNat = (u, false)) ∧
    (∃ (s : State) (port : RingPort) (cell : RingCell) (u : State), receiveCell s port cell cell.kind.toNat = (u, true) ∧ cell.kind = 5#4 ∧ isMaster u = true) ∧
    (∃ (s : State) (port : RingPort) (cell : RingCell) (i : Nat), sideOfPort s (portNum port) = some i ∧ sideUp s i = true ∧ wrapped s i = false ∧ cell.dest.toNat = ringAddr s) :=
  ⟨(⟨puts up [(F.CLK_STATUS_SERDES_LOCK, 1)], .east, by decide +kernel⟩),
   (⟨puts up [(F.RING_STATUS_W_UP, 1)], .west, by decide +kernel, 1, by decide +kernel⟩),
   (⟨puts up [(F.RING_STATUS_S_UP, 1)], .spare, by decide +kernel⟩),
   (⟨{ up with ring := { (up).ring with loop := 2 } }, .west, by decide +kernel⟩),
   (⟨{ up with ring := { (up).ring with loop := 1 } }, .east, by decide +kernel⟩),
   (⟨up, by decide +kernel⟩),
   (⟨puts up [(F.RING_STATUS_E_UP, 1), (F.RING_STATUS_HU_SINGLE, 0), (F.RING_STATUS_E_UP, 1), (F.RING_STATUS_WRAP_E, 1)], .east, 0, by decide +kernel⟩),
   (⟨puts up [(F.RING_STATUS_ADDR, 3), (F.RING_STATUS_E_UP, 1), (F.TWIN_CFG_SIDE, 1)], .east, cell 9 0 [], _, Prod.ext rfl (by decide +kernel)⟩),
   (⟨puts up [(F.RING_STATUS_ADDR, 3), (F.RING_STATUS_E_UP, 1), (F.TWIN_CFG_SIDE, 1), (F.RING_STATUS_MASTER, 1), (F.RING_STATUS_ADDR, 0)], .east, { cell 0 4 [] with kind := 5 }, _, Prod.ext rfl (by decide +kernel), by decide +kernel⟩),
   (⟨puts up [(F.RING_STATUS_E_UP, 1), (F.RING_STATUS_ADDR, 3), (F.RING_STATUS_E_UP, 1), (F.TWIN_CFG_SIDE, 1)], .east, cell 3 0 [], 0, by decide +kernel⟩)⟩

theorem witness_RingAngle :
    (∃ (s : State), sideUp s 0 = false ∧ sideUp s 1 = false) ∧
    (∃ (s : State) (u : State) (t : Nat), sideUp s 0 = true ∧ s.unstated 24 = (u, t) ∧ sideUp ((sendLink u 0 (.echoReq t)).modSide 0 fun r => { r with token := some t }) 1 = false) ∧
    (∃ (s : State) (port : RingPort) (token : BitVec 24) (turn : Nat) (i : Nat), sideOfPort s (portNum port) = some i ∧ sideUp s i = true) ∧
    (∃ (s : State) (port : RingPort) (low : BitVec 8) (turn : Nat) (trip : Nat) (i : Nat) (t : Nat), sideOfPort s (portNum port) = some i ∧ (rside s i).token = some t ∧ t % 256 = low.toNat ∧ (let asym := toSigned 16 (s.get (if i = 0 then F.RING_ASYM_E else F.RING_ASYM_W)); (let v := s.modSide i fun r => { r with token := none, delays := ((((trip : Int) - (turn : Int)) * 78125 + asym * 3072) :: r.delays).take 16 }; (let l := (rside v i).delays; ∃ (w : State) (d : Int), v.approx (l.foldl (· + ·) 0) (2 * 3072 * l.length) = (w, d))))) ∧
    (∃ (s : State) (elapsed : Nat), isMaster s = true ∧ s.angRun = true ∧ angleOf s.ang.stamp / 2 ^ 16 ≠ 0) ∧
    (∃ (s : State), isMaster s = true ∧ s.angRun = false) ∧
    (∃ (s : State) (port : RingPort) (idx : Fin 16) (elapsed : Nat) (residence : Nat) (spacing : Nat) (turned : Bool) (i : Nat) (u : State) (ps : Int), sideOfPort s (portNum port) = some i ∧ sideUp s i = true ∧ wrapped s i = false ∧ isMaster s = true ∧ s.approx (elapsed * 78125) 3072 = (u, ps)) ∧
    (∃ (s : State), s.get F.ANG_CFG_SRC = 2 ∧ isMaster s = false ∧ s.flag F.RING_STATUS_MARK_OTHER = false) ∧
    (∃ (s : State) (port : RingPort) (cell : RingCell) (age : Nat) (i : Nat) (u : State), sideOfPort s (portNum port) = some i ∧ sideUp s i = true ∧ wrapped s i = false ∧ (isMaster s = false ∨ payNat cell 12 4 = s.get F.RING_MID_ID) ∧ receiveCell s port cell 2 = (u, true)) ∧
    (∃ (s : State) (port : RingPort) (cell : RingCell) (age : Nat) (i : Nat), sideOfPort s (portNum port) = some i ∧ sideUp s i = true ∧ wrapped s i = false ∧ isMaster s = true ∧ payNat cell 12 4 ≠ s.get F.RING_MID_ID ∧ cell.m = true) ∧
    (∃ (s : State) (port : RingPort) (cell : RingCell) (age : Nat) (i : Nat), sideOfPort s (portNum port) = some i ∧ sideUp s i = true ∧ wrapped s i = false ∧ isMaster s = true ∧ payNat cell 12 4 ≠ s.get F.RING_MID_ID ∧ cell.m = false) ∧
    (∃ (s : State) (cell : RingCell) (age : Nat), isMaster s = true) ∧
    (∃ (s : State) (cell : RingCell) (age : Nat), isMaster s = false ∧ bitOf (payNat cell 10 1) 2 = false) ∧
    (∃ (s : State) (cell : RingCell) (age : Nat), isMaster s = false ∧ s.angRun = true ∧ (let acc := (payStamp cell 0).toNat * 2 ^ 22 + age * s.get F.ANG_INC_INC; (0 ≤ toSigned 48 (ofSigned 48 ((s.ang.stamp.toNat : Int) - ((BitVec.ofNat 48 (acc / 2 ^ 22)).toNat : Int)))))) ∧
    (∃ (s : State) (port : RingPort) (idx : Fin 16) (elapsed : Nat) (residence : Nat) (spacing : Nat) (turned : Bool) (i : Nat) (u : State) (units : Nat), sideOfPort s (portNum port) = some i ∧ sideUp s i = true ∧ wrapped s i = false ∧ isMaster s = false ∧ linkUnits (masterSeen s) i = (u, units) ∧ (let v := forwardOn u (1 - i) (.mark idx (elapsed + units + residence)); v.get F.ANG_CFG_SRC ≠ 2)) :=
  ⟨(⟨up, by decide +kernel⟩),
   (⟨(puts up [(F.RING_STATUS_E_UP, 1), (F.RING_STATUS_E_UP, 1)]), _, _, by decide +kernel, rfl, by decide +kernel⟩),
   (⟨puts up [(F.RING_STATUS_E_UP, 1)], .east, 0, 0, 0, by decide +kernel⟩),
   (⟨(puts (State.modSide up 0 (fun r => { r with token := some 5 })) [(F.RING_STATUS_ADDR, 3), (F.RING_STATUS_E_UP, 1), (F.TWIN_CFG_SIDE, 1)]), .east, 5, 0, 0, 0, 5, by decide +kernel, by decide +kernel, by decide +kernel, _, _, Prod.ext rfl rfl⟩),
   (⟨puts { up with ang := { (up).ang with stamp := 65536 } } [(F.RING_STATUS_MASTER, 1), (F.ANG_STATUS_RUN, 1)], 0, by decide +kernel⟩),
   (⟨puts up [(F.RING_STATUS_MASTER, 1)], by decide +kernel⟩),
   (⟨puts up [(F.RING_STATUS_E_UP, 1), (F.RING_STATUS_MASTER, 1), (F.RING_STATUS_ADDR, 3), (F.RING_STATUS_E_UP, 1), (F.TWIN_CFG_SIDE, 1), (F.RING_STATUS_MASTER, 1), (F.RING_STATUS_ADDR, 0)], .east, 0, 0, 0, 0, false, 0, _, 0, by decide +kernel, by decide +kernel, by decide +kernel, by decide +kernel, Prod.ext rfl (by decide +kernel)⟩),
   (⟨puts up [(F.ANG_CFG_SRC, 2), (F.RING_STATUS_MARK_OTHER, 0)], by decide +kernel⟩),
   (⟨puts up [(F.RING_STATUS_E_UP, 1), (F.RING_STATUS_ADDR, 3), (F.RING_STATUS_E_UP, 1), (F.TWIN_CFG_SIDE, 1)], .east, cell 3 0 [], 0, 0, _, by decide +kernel, by decide +kernel, by decide +kernel, by decide +kernel, Prod.ext rfl (by decide +kernel)⟩),
   (⟨puts up [(F.RING_STATUS_E_UP, 1), (F.RING_STATUS_MASTER, 1)], .east, { cell 65535 0 (List.replicate 15 0 ++ [9]) with m := true }, 0, 0, by decide +kernel⟩),
   (⟨puts up [(F.RING_STATUS_E_UP, 1), (F.RING_STATUS_MASTER, 1)], .east, cell 65535 0 (List.replicate 15 0 ++ [9]), 0, 0, by decide +kernel⟩),
   (⟨puts up [(F.RING_STATUS_MASTER, 1)], cell 0 3 [], 0, by decide +kernel⟩),
   (⟨up, cell 0 0 [], 0, by decide +kernel⟩),
   (⟨puts { up with ang := { (up).ang with stamp := 65536 } } [(F.ANG_STATUS_RUN, 1), (F.ANG_STATUS_RUN, 1)], cell 0 3 [], 0, by decide +kernel⟩),
   (⟨puts up [(F.RING_STATUS_E_UP, 1)], .east, 0, 0, 0, 0, false, 0, (linkUnits (masterSeen (puts up [(F.RING_STATUS_E_UP, 1)])) 0).1, 0, by decide +kernel, by decide +kernel, by decide +kernel, by decide +kernel, Prod.ext rfl (by decide +kernel), by decide +kernel⟩)⟩

theorem witness_RingTraffic :
    (∃ (s : State) (port : RingPort) (cell : RingCell) (loopPs : Nat) (i : Nat), sideOfPort s (portNum port) = some i ∧ sideUp s i = true ∧ wrapped s i = false ∧ isMaster s = false ∧ payNat cell 0 1 = 0) ∧
    (∃ (s : State), s.ring.disc.isSome = true) ∧
    (∃ (s : State), s.ring.disc = none) ∧
    (∃ (s : State) (port : RingPort) (cell : RingCell) (u : State), receiveCell s port cell 0xE = (u, true) ∧ isMaster u = true) ∧
    (∃ (s : State) (port : RingPort) (cell : RingCell) (u : State), receiveCell s port cell 0xE = (u, true) ∧ isMaster u = false) ∧
    (∃ (s : State), isMaster s = false ∧ s.flag F.RING_STATUS_MASTER_SEEN = true) ∧
    (∃ (s : State), isMaster s = false ∧ s.flag F.RING_STATUS_MASTER_SEEN = false) ∧
    (∃ (s : State), isMaster s = true) ∧
    (∃ (s : State) (port : RingPort) (cell : RingCell) (u : State), receiveCell s port cell 3 = (u, true) ∧ isMaster u = false ∧ ringAddr u ≠ 0xFFFF ∧ cell.src = 0#16) ∧
    (∃ (s : State) (port : RingPort) (cell : RingCell) (u : State), receiveCell s port cell 3 = (u, true) ∧ isMaster u = false ∧ ringAddr u ≠ 0xFFFF ∧ cell.src ≠ 0#16 ∧ bitOf (payNat cell 0 1) 7 = true) ∧
    (∃ (s : State) (port : RingPort) (cell : RingCell) (u : State), receiveCell s port cell 3 = (u, true) ∧ isMaster u = false ∧ ringAddr u ≠ 0xFFFF ∧ cell.src ≠ 0#16 ∧ bitOf (payNat cell 0 1) 7 = false) ∧
    (∃ (s : State) (i : OutItem) (rest : List OutItem), s.eng.outRing = i :: rest ∧ mayOriginate s = true ∧ canSend s = true ∧ isMaster s = false) ∧
    (∃ (s : State) (e : EventMsg) (f : EventMsg) (rest : List EventMsg), s.evq = e :: f :: rest ∧ mayOriginate s = true ∧ canSend s = true ∧ s.get F.SEC_STATE_SECURITY ≠ 3) ∧
    (∃ (s : State), s.flag F.RING_PUB_CFG_EN = true ∧ s.flag F.RING_GRANT_PUB_OK = true ∧ mayOriginate s = true ∧ s.security ≠ secRetired) :=
  ⟨(⟨puts up [(F.RING_STATUS_E_UP, 1), (F.RING_STATUS_ADDR, 3), (F.RING_STATUS_E_UP, 1), (F.TWIN_CFG_SIDE, 1)], .east, cell 0xFFFF 0 [], 0, 0, by decide +kernel⟩),
   (⟨{ up with ring := { up.ring with disc := some (0, 0) } }, by decide +kernel⟩),
   (⟨{ up with ring := { (up).ring with disc := none } }, by decide +kernel⟩),
   (⟨puts up [(F.RING_STATUS_ADDR, 3), (F.RING_STATUS_E_UP, 1), (F.TWIN_CFG_SIDE, 1), (F.RING_STATUS_MASTER, 1), (F.RING_STATUS_ADDR, 0)], .east, cell 0 4 [], _, Prod.ext rfl (by decide +kernel), by decide +kernel⟩),
   (⟨puts up [(F.RING_STATUS_ADDR, 3), (F.RING_STATUS_E_UP, 1), (F.TWIN_CFG_SIDE, 1)], .east, cell 3 0 [], _, Prod.ext rfl (by decide +kernel), by decide +kernel⟩),
   (⟨puts up [(F.RING_STATUS_MASTER_SEEN, 1)], by decide +kernel⟩),
   (⟨puts up [(F.RING_STATUS_MASTER_SEEN, 0)], by decide +kernel⟩),
   (⟨puts up [(F.RING_STATUS_MASTER, 1)], by decide +kernel⟩),
   (⟨puts up [(F.RING_STATUS_ADDR, 3), (F.RING_STATUS_E_UP, 1), (F.TWIN_CFG_SIDE, 1)], .east, cell 3 0 [], _, Prod.ext rfl (by decide +kernel), by decide +kernel⟩),
   (⟨puts up [(F.RING_STATUS_ADDR, 3), (F.RING_STATUS_E_UP, 1), (F.TWIN_CFG_SIDE, 1)], .east, cell 3 4 [0x80], _, Prod.ext rfl (by decide +kernel), by decide +kernel⟩),
   (⟨puts up [(F.RING_STATUS_ADDR, 3), (F.RING_STATUS_E_UP, 1), (F.TWIN_CFG_SIDE, 1)], .east, cell 3 4 [0x7F], _, Prod.ext rfl (by decide +kernel), by decide +kernel⟩),
   (⟨puts { up with eng := { (up).eng with outRing := [oitem] } } [(F.RING_STATUS_ADDR, 3), (F.RING_STATUS_ADDR, 3), (F.RING_STATUS_E_UP, 1), (F.RING_STATUS_HOME, 1), (F.CLK_STATUS_SERDES_LOCK, 1)], oitem, [], by decide +kernel⟩),
   (⟨puts { up with evq := [⟨200, 0, false, false, false⟩, ⟨200, 0, false, false, false⟩] } [(F.RING_STATUS_ADDR, 3), (F.RING_STATUS_E_UP, 1), (F.RING_STATUS_HOME, 1), (F.CLK_STATUS_SERDES_LOCK, 1)], ⟨200, 0, false, false, false⟩, ⟨200, 0, false, false, false⟩, [], by decide +kernel⟩),
   (⟨puts up [(F.RING_PUB_CFG_EN, 1), (F.RING_GRANT_PUB_OK, 1), (F.RING_STATUS_ADDR, 3)], by decide +kernel⟩)⟩

theorem witness_RingBarriers :
    (∃ (s : State) (port : RingPort) (cell : RingCell) (u : State), receiveCell s port cell 7 = (u, true) ∧ isMaster u = true) ∧
    (∃ (s : State) (bar : Nat) (hold : Bool) (twin : Bool) (pair : Nat) (addr : Nat), ((below 4).any fun k => s.flag (F.RING_BARk_CFG_VALID k) && s.get (F.RING_BARk_CFG_BAR_ID k) == bar) = false) ∧
    (∃ (s : State) (q : Fin 16), (s.qu q).phase = .bar none) ∧
    (∃ (s : State) (port : RingPort) (cell : RingCell) (u : State), receiveCell s port cell 8 = (u, true)) ∧
    (∃ (s : State) (p : Port) (k : Fin 4), writable s p (R.RING_BARk_CTRL k) 2 = true) ∧
    (∃ (s : State) (p : Port) (k : Fin 4), writable s p (R.RING_BARk_CTRL k) 1 = true) ∧
    (∃ (s : State) (p : Port) (k : Fin 4) (v : Word), writable s p (R.RING_BARk_CFG k) v.toNat = true) ∧
    (∃ (s : State) (k : Fin 4), isMaster s = true ∧ barState s k = 2 ∧ s.flag (F.RING_BARk_CFG_AUTO_CLR k) = true ∧ stampReached s.ang.stamp (barStamp s k) = true) ∧
    (∃ (s : State) (k : Nat) (forced : Bool), s.angRun = false) ∧
    (∃ (s : State) (k : Nat), barState s k = 1) ∧
    (∃ (s : State) (k : _), barState s k ≠ 1) ∧
    (∃ (s : State) (k : Nat), barState s k = 1 ∧ s.get (F.RING_BARk_EXPECT_COUNT k) ≠ 0 ∧ s.get (F.RING_BARk_EXPECT_COUNT k) ≤ (rbar s k).keys.length) ∧
    (∃ (s : State) (k : _), (barState s k ≠ 1 ∨ (rbar s k).keys.length < s.get (F.RING_BARk_EXPECT_COUNT k))) ∧
    (∃ (s : State) (port : RingPort) (cell : RingCell) (u : State), receiveCell s port cell 9 = (u, true) ∧ u.ring.folioLast = some (payNat cell 0 2, payStamp cell 2)) ∧
    (∃ (s : State) (port : RingPort) (cell : RingCell) (u : State), receiveCell s port cell 9 = (u, true) ∧ u.ring.folioLast ≠ some (payNat cell 0 2, payStamp cell 2) ∧ u.flag F.FOLIO_STATUS_ARMED = true ∧ u.ring.folioArmed ≠ some (payNat cell 0 2, payStamp cell 2)) ∧
    (∃ (s : State) (port : RingPort) (cell : RingCell) (u : State), receiveCell s port cell 0xA = (u, true) ∧ isMaster u = true ∧ u.flag F.RING_RF_STATUS_ACTIVE = true ∧ payNat cell 0 2 = u.get F.RING_RF_STATUS_ID ∧ payNat cell 2 1 = 1) ∧
    (∃ (s : State) (port : RingPort) (cell : RingCell) (u : State), receiveCell s port cell 0xA = (u, true) ∧ isMaster u = true ∧ u.flag F.RING_RF_STATUS_ACTIVE = true ∧ payNat cell 0 2 = u.get F.RING_RF_STATUS_ID ∧ payNat cell 2 1 = 2) ∧
    (∃ (s : State) (port : RingPort) (cell : RingCell) (u : State), receiveCell s port cell 0xA = (u, true) ∧ isMaster u = true ∧ u.flag F.RING_RF_STATUS_ACTIVE = true ∧ payNat cell 0 2 = u.get F.RING_RF_STATUS_ID ∧ payNat cell 2 1 = 3) :=
  ⟨(⟨puts up [(F.RING_STATUS_ADDR, 3), (F.RING_STATUS_E_UP, 1), (F.TWIN_CFG_SIDE, 1), (F.RING_STATUS_MASTER, 1), (F.RING_STATUS_ADDR, 0)], .east, cell 0 4 [], _, Prod.ext rfl (by decide +kernel), by decide +kernel⟩),
   (⟨up, 0, false, false, 0, 0, by decide +kernel⟩),
   (⟨(State.modQ up 0 (fun x => { x with phase := .bar none })), 0, by decide +kernel⟩),
   (⟨puts up [(F.RING_STATUS_ADDR, 3), (F.RING_STATUS_E_UP, 1), (F.TWIN_CFG_SIDE, 1)], .east, cell 3 0 [], _, Prod.ext rfl (by decide +kernel)⟩),
   (⟨puts up [(F.RING_STATUS_MASTER, 1), (F.RING_STATUS_ADDR, 0)], .host, 3, by decide +kernel⟩),
   (⟨puts up [(F.RING_STATUS_MASTER, 1), (F.RING_STATUS_ADDR, 0)], .host, 3, by decide +kernel⟩),
   (⟨puts up [(F.RING_STATUS_MASTER, 1), (F.RING_STATUS_ADDR, 0)], .host, 0, 0, by decide +kernel⟩),
   (⟨puts up [(F.RING_STATUS_MASTER, 1), ((F.RING_BARk_CFG_AUTO_CLR 3), 1), ((F.RING_BARk_STATUS_STATE 3), 2), ((F.RING_BARk_CFG_AUTO_CLR 3), 1)], 3, by decide +kernel⟩),
   (⟨up, 0, false, by decide +kernel⟩),
   (⟨puts up [((F.RING_BARk_STATUS_STATE 3), 1)], 3, by decide +kernel⟩),
   (⟨up, 0, by decide +kernel⟩),
   (⟨puts (State.modBar up 3 (fun b => { b with keys := [(false, 7)] })) [((F.RING_BARk_EXPECT_COUNT 3), 1), ((F.RING_BARk_STATUS_STATE 3), 1)], 3, by decide +kernel⟩),
   (⟨up, 0, by decide +kernel⟩),
   (⟨puts { up with ring := { (up).ring with folioLast := some (0, 0) } } [(F.RING_STATUS_ADDR, 3), (F.RING_STATUS_E_UP, 1), (F.TWIN_CFG_SIDE, 1)], .east, cell 3 0 [], _, Prod.ext rfl (by decide +kernel), by decide +kernel⟩),
   (⟨puts up [(F.RING_STATUS_ADDR, 3), (F.RING_STATUS_E_UP, 1), (F.TWIN_CFG_SIDE, 1), (F.FOLIO_STATUS_ARMED, 1)], .east, cell 3 0 [], _, Prod.ext rfl (by decide +kernel), by decide +kernel⟩),
   (⟨puts up [(F.RING_STATUS_ADDR, 3), (F.RING_STATUS_E_UP, 1), (F.TWIN_CFG_SIDE, 1), (F.RING_STATUS_MASTER, 1), (F.RING_STATUS_ADDR, 0), (F.RING_RF_STATUS_ACTIVE, 1)], .east, cell 0 4 [0, 0, 1], _, Prod.ext rfl (by decide +kernel), by decide +kernel⟩),
   (⟨puts up [(F.RING_STATUS_ADDR, 3), (F.RING_STATUS_E_UP, 1), (F.TWIN_CFG_SIDE, 1), (F.RING_STATUS_MASTER, 1), (F.RING_STATUS_ADDR, 0), (F.RING_RF_STATUS_ACTIVE, 1)], .east, cell 0 4 [0, 0, 2], _, Prod.ext rfl (by decide +kernel), by decide +kernel⟩),
   (⟨puts up [(F.RING_STATUS_ADDR, 3), (F.RING_STATUS_E_UP, 1), (F.TWIN_CFG_SIDE, 1), (F.RING_STATUS_MASTER, 1), (F.RING_STATUS_ADDR, 0), (F.RING_RF_STATUS_ACTIVE, 1)], .east, cell 0 4 [0, 0, 3], _, Prod.ext rfl (by decide +kernel), by decide +kernel⟩)⟩

theorem witness_HostPackets :
    (∃ (s : State), spiSilent s = false) ∧
    (∃ (s : State) (body : List Byte), spiSilent s = false) ∧
    (∃ (s : State) (body : List Byte) (i : OutItem) (rest : List OutItem), spiSilent s = false ∧ s.eng.outHost = i :: rest) ∧
    (∃ (s : State) (b0 : Byte) (b1 : Byte) (b2 : Byte) (b3 : Byte) (body : List Byte) (extra : Fin 8), spiSilent s = false ∧ (b0 = 0x5A ∨ b0 = 0xA5) ∧ (¬(b1 = 0 ∧ b2 = 0 ∧ b3 = 0) ∨ extra ≠ 0)) ∧
    (∃ (s : State) (p : Port) (b : List Nat), s.flag F.CMD_STATUS_ENGINE_UP = true ∧ packetLengthOk b = false) ∧
    (∃ (s : State) (p : Port) (b : List Nat), s.flag F.CMD_STATUS_ENGINE_UP = true ∧ packetLengthOk b = true ∧ packetCrcOk b = false) ∧
    (∃ (s : State) (p : Port) (b : List Nat), s.flag F.CMD_STATUS_ENGINE_UP = true ∧ packetLengthOk b = true ∧ packetCrcOk b = true ∧ packetFormatOk b = false) ∧
    (∃ (s : State) (p : Port) (b : List Nat), s.flag F.CMD_STATUS_ENGINE_UP = true ∧ packetLengthOk b = true ∧ packetCrcOk b = true ∧ packetFormatOk b = true ∧ tagInUse s p (parsePacket b).tag = true) ∧
    (∃ (s : State) (p : Port) (b : List Nat), s.flag F.CMD_STATUS_ENGINE_UP = true ∧ packetLengthOk b = true ∧ packetCrcOk b = true ∧ packetFormatOk b = true ∧ tagInUse s p (parsePacket b).tag = false ∧ acceptRefusal s p (parsePacket b) = none ∧ (parsePacket b).auth = false) ∧
    (∃ (s : State) (p : Port) (b : List Nat), s.flag F.CMD_STATUS_ENGINE_UP = true ∧ packetLengthOk b = true ∧ packetCrcOk b = true ∧ packetFormatOk b = true ∧ tagInUse s p (parsePacket b).tag = false ∧ acceptRefusal s p (parsePacket b) = none ∧ (parsePacket b).auth = true) ∧
    (∃ (s : State) (p : Port) (b : List Nat), s.flag F.CMD_STATUS_ENGINE_UP = true ∧ packetLengthOk b = true ∧ packetCrcOk b = true ∧ packetFormatOk b = true ∧ tagInUse s p (parsePacket b).tag = false ∧ ∃ (st : Nat), acceptRefusal s p (parsePacket b) = some st ∧ st ≠ stAuthFail ∧ st ≠ stAuthReplay ∧ st ≠ stBusy) :=
  ⟨(⟨up, by decide +kernel⟩),
   (⟨up, [], by decide +kernel⟩),
   (⟨{ up with eng := { (up).eng with outHost := [oitem] } }, [], oitem, [], by decide +kernel⟩),
   (⟨up, 0x5A, 1, 0, 0, [], 0, by decide +kernel⟩),
   (⟨puts up [(F.CMD_STATUS_ENGINE_UP, 1)], .host, [], by decide +kernel⟩),
   (⟨puts up [(F.CMD_STATUS_ENGINE_UP, 1)], .host, List.replicate 16 0, by decide +kernel⟩),
   (⟨puts up [(F.CMD_STATUS_ENGINE_UP, 1)], .host, packet [0, 0, 0, 0x10, 0, 0, 0, 0, 0, 0, 0, 0], by decide +kernel⟩),
   (⟨puts { up with eng := { (up).eng with cmds := [cmd0] } } [(F.CMD_STATUS_ENGINE_UP, 1)], .host, packet [0x40, 0, 0, 0x10, 0, 0, 0, 0, 0, 0, 0, 0], by decide +kernel⟩),
   (⟨puts up [(F.CMD_STATUS_ENGINE_UP, 1)], .host, packet [0x40, 0, 0, 0x10, 0, 0, 0, 0, 0, 0, 0, 0], by decide +kernel⟩),
   (⟨puts { up with sec := { (up).sec with kb := List.replicate 16 0 } } [(F.CMD_STATUS_ENGINE_UP, 1)], .host, packet [0x60, 1, 0, 0x10, 0, 0, 0, 0, 0, 0, 0, 0, 0, 0, 0, 1, 231, 179, 230, 32, 8, 86, 58, 103], by decide +kernel⟩),
   (⟨puts up [(F.CMD_STATUS_ENGINE_UP, 1)], .host, packet [0x40, 0, 0xFF, 0xFF, 0, 0, 0, 0, 0, 0, 0, 0], by decide +kernel, by decide +kernel, by decide +kernel, by decide +kernel, by decide +kernel, stUnknownOpcode, by decide +kernel⟩)⟩

theorem witness_CommandDelivery :
    (∃ (s : State) (c : Cmd), s.flag F.CMD_STATUS_ENGINE_UP = true ∧ s.eng.cmds.find? (mayStart s) = some c) ∧
    (∃ (s : State), (s.rst.phase = .engine ∨ s.rst.phase = .up) ∧ epochDue s = true) ∧
    (∃ (s : State), epochDue s = false) ∧
    (∃ (s : State), epochByTime s = true) ∧
    (∃ (s : State), epochByTime s = false) ∧
    (∃ (s : State) (p : Port) (target : Port) (v : Word), writable s p (R.CMD_Pp_CFG (portIdx target)) v.toNat = true) ∧
    (∃ (s : State) (p : Port), s.flag (F.CMD_Pp_STATUS_CHANGING (portIdx p)) = true ∧ (∀ c ∈ s.eng.cmds, c.port ≠ p)) :=
  ⟨(⟨puts { up with eng := { (up).eng with cmds := [cmd0] } } [(F.CMD_STATUS_ENGINE_UP, 1)], cmd0, by decide +kernel⟩),
   (⟨{ up with tclk := 1024 }, by decide +kernel⟩),
   (⟨up, by decide +kernel⟩),
   (⟨up, by decide +kernel⟩),
   (⟨puts up [(F.CMD_EPOCH_CFG_SRC, 1), (F.ANG_STATUS_RUN, 1)], by decide +kernel⟩),
   (⟨up, .host, .host, 0, by decide +kernel⟩),
   (⟨puts up [((F.CMD_Pp_STATUS_CHANGING 1), 1)], .ring, by decide +kernel⟩)⟩

theorem witness_EngineRestarts :
    (∃ (s : State), s.flag F.CMD_STATUS_ENGINE_UP = true) ∧
    (∃ (s : State), s.flag F.CMD_STATUS_ENGINE_UP = true ∧ s.get F.SEC_STATE_DEBUG ≠ 2) ∧
    (∃ (s : State), s.eng.restartPend = true) ∧
    (∃ (s : State) (cause : Nat), s.flag F.CMD_STATUS_ENGINE_UP = true) ∧
    (∃ (s : State) (cause : Nat), s.eng.restart = some cause) :=
  ⟨(⟨puts up [(F.CMD_STATUS_ENGINE_UP, 1)], by decide +kernel⟩),
   (⟨puts up [(F.CMD_STATUS_ENGINE_UP, 1)], by decide +kernel⟩),
   (⟨{ up with eng := { (up).eng with restartPend := true } }, by decide +kernel⟩),
   (⟨puts up [(F.CMD_STATUS_ENGINE_UP, 1)], 0, by decide +kernel⟩),
   (⟨{ up with eng := { (up).eng with restart := some 0 } }, 0, by decide +kernel⟩)⟩

theorem witness_RegisterWrites :
    (∃ (s : State) (p : Port) (a : Nat) (v : Word), writable s p a v.toNat = true) ∧
    (∃ (s : State) (a : Nat) (v : Word) (d : RegDef), regDefAt a = some d) ∧
    (∃ (s : State) (a : Nat) (v : Word) (d : RegDef), regDefAt a = some d ∧ ∃ (b : Nat), b ≠ elementOf s a) ∧
    (∃ (s : State) (p : Port) (a : Nat) (v : Word) (d : RegDef) (st : Nat), regDefAt a = some d ∧ absentHere s a = false ∧ writeAdmitted s a = true ∧ writeRefusal s p d a v.toNat = some st ∧ st ≠ stBenchRefused) ∧
    (∃ (s : State) (p : Port) (a : Nat) (v : Word), absentHere s a = true) :=
  ⟨(⟨up, .host, 0, 0, by decide +kernel⟩),
   (⟨up, R.ANG_CFG, 0, (regDefAt R.ANG_CFG).get (by decide +kernel), (Option.some_get _).symm⟩),
   (⟨up, R.ANG_CFG, 0, (regDefAt R.ANG_CFG).get (by decide +kernel), (Option.some_get _).symm, 0, by decide +kernel⟩),
   (⟨puts up [(F.NVM_STORE_BUSY, 1)], .host, R.NVM_STORE, 1, (regDefAt R.NVM_STORE).get (by decide +kernel), stStoreBusy, (Option.some_get _).symm, by decide +kernel⟩),
   (⟨up, .host, 0x6900, 0, by decide +kernel⟩)⟩

theorem witness_CommandChecks :
    (∃ (s : State) (c : Cmd), opSecurity c.opcode (portSecurity s c.port) = false) ∧
    (∃ (s : State) (c : Cmd) (k : Nat), opSecurity c.opcode (portSecurity s c.port) = true ∧ paramFault c = some k) ∧
    (∃ (s : State) (c : Cmd), opSecurity c.opcode (portSecurity s c.port) = true ∧ paramFault c = none ∧ opMode c.opcode s.mode = false ∧ s.mode = mHoldup) ∧
    (∃ (s : State) (c : Cmd), opSecurity c.opcode (portSecurity s c.port) = true ∧ paramFault c = none ∧ opMode c.opcode s.mode = false ∧ s.mode ≠ mHoldup) ∧
    (∃ (s : State) (c : Cmd), opSecurity c.opcode (portSecurity s c.port) = true ∧ paramFault c = none ∧ opMode c.opcode s.mode = true ∧ opDagger c.opcode = true ∧ 2 ≤ twinRole s) ∧
    (∃ (s : State) (c : Cmd) (k : Nat) (a : Nat), opSecurity c.opcode (portSecurity s c.port) = true ∧ paramFault c = none ∧ opMode c.opcode s.mode = true ∧ (opDagger c.opcode = false ∨ twinRole s < 2) ∧ (namedAddrs c).find? (fun x => !addrOk x.2) = some (k, a)) ∧
    (∃ (s : State) (c : Cmd), checksPass s c = true) ∧
    (∃ (s : State) (c : Cmd) (status : Nat) (words : List Word), isLate (dropCmd s c) c = false) :=
  ⟨(⟨up, ⟨.host, 0, 0x0600, [], none, none, 0, 0, 0, .slotted⟩, by decide +kernel⟩),
   (⟨up, ⟨.host, 0, 0x0001, [1], none, none, 0, 0, 0, .slotted⟩, noWord, by decide +kernel⟩),
   (⟨puts up [(F.SEC_STATE_MODE, 4), (F.SEC_STATE_MODE, 4)], ⟨.host, 0, 0x0012, [0x404, 0], none, none, 0, 0, 0, .slotted⟩, by decide +kernel⟩),
   (⟨up, ⟨.host, 0, 0x0300, [0x100], none, none, 0, 0, 0, .slotted⟩, by decide +kernel⟩),
   (⟨puts up [(F.TWIN_STATUS_ROLE, 2), (F.SEC_STATE_MODE, 2), (F.TWIN_STATUS_ROLE, 2)], ⟨.host, 0, 0x0101, [1], none, none, 0, 0, 0, .slotted⟩, by decide +kernel⟩),
   (⟨up, ⟨.host, 0, 0x0010, [0x404, 1], none, none, 0, 0, 0, .slotted⟩, 1, 1, by decide +kernel⟩),
   (⟨up, ⟨.host, 0, 0x0010, [0x404], none, none, 0, 0, 0, .slotted⟩, by decide +kernel⟩),
   (⟨up, cmd0, 0, [], by decide +kernel⟩)⟩

theorem witness_AccessCommands :
    (∃ (s : State) (p : Port) (tag : BitVec 7) (params : List Word), servedNow s p tag.toNat = true ∧
      checksPass s (rowCmd s p tag.toNat 0x0001 params) = true) ∧
    (∃ (s : State) (p : Port) (tag : BitVec 7) (params : List Word), servedNow s p tag.toNat = true ∧
      checksPass s (rowCmd s p tag.toNat 0x0002 params) = true) ∧
    (∃ (s : State) (p : Port) (tag : BitVec 7) (params : List Word), servedNow s p tag.toNat = true ∧
      checksPass s (rowCmd s p tag.toNat 0x0003 params) = true) ∧
    (∃ (s : State) (p : Port) (tag : BitVec 7) (params : List Word), servedNow s p tag.toNat = true ∧
      checksPass s (rowCmd s p tag.toNat 0x0010 params) = true) ∧
    (∃ (s : State) (p : Port) (tag : BitVec 7) (params : List Word), servedNow s p tag.toNat = true ∧
      checksPass s (rowCmd s p tag.toNat 0x0011 params) = true) ∧
    (∃ (s : State) (p : Port) (tag : BitVec 7) (params : List Word), servedNow s p tag.toNat = true ∧
      checksPass s (rowCmd s p tag.toNat 0x0012 params) = true ∧
      (let c := rowCmd s p tag.toNat 0x0012 params; let a := admitted s c; writeFault a c.port (namedWrites a c) = none)) ∧
    (∃ (s : State) (p : Port) (tag : BitVec 7) (params : List Word), servedNow s p tag.toNat = true ∧
      checksPass s (rowCmd s p tag.toNat 0x0013 params) = true ∧
      (let c := rowCmd s p tag.toNat 0x0013 params; let a := admitted s c; writeFault a c.port (namedWrites a c) = none)) ∧
    (∃ (s : State) (p : Port) (tag : BitVec 7) (params : List Word), servedNow s p tag.toNat = true ∧
      checksPass s (rowCmd s p tag.toNat 0x0014 params) = true ∧
      (let c := rowCmd s p tag.toNat 0x0014 params; let a := admitted s c; writeFault a c.port (namedWrites a c) = none)) ∧
    (∃ (s : State) (p : Port) (tag : BitVec 7) (params : List Word), servedNow s p tag.toNat = true ∧
      checksPass s (rowCmd s p tag.toNat 0x0700 params) = true) ∧
    (∃ (s : State) (p : Port) (tag : BitVec 7) (params : List Word), servedNow s p tag.toNat = true ∧
      checksPass s (rowCmd s p tag.toNat 0x0701 params) = true) :=
  ⟨(⟨up, .host, 0, [], by decide +kernel⟩),
   (⟨up, .host, 0, [], by decide +kernel⟩),
   (⟨up, .host, 0, [], by decide +kernel⟩),
   (⟨up, .host, 0, [BitVec.ofNat 32 R.ANG_CFG], by decide +kernel⟩),
   (⟨up, .host, 0, [BitVec.ofNat 32 R.ANG_CFG, 1], by decide +kernel⟩),
   (⟨up, .host, 0, [BitVec.ofNat 32 R.ANG_CFG, 0], by decide +kernel⟩),
   (⟨up, .host, 0, [BitVec.ofNat 32 R.ANG_CFG, 0], by decide +kernel⟩),
   (⟨up, .host, 0, [BitVec.ofNat 32 R.ANG_CFG, 0, 0], by decide +kernel⟩),
   (⟨up, .host, 0, [], by decide +kernel⟩),
   (⟨up, .host, 0, [], by decide +kernel⟩)⟩

theorem witness_ModeCommands :
    (∃ (s : State) (p : Port) (tag : BitVec 7) (params : List Word), servedNow s p tag.toNat = true ∧
      checksPass s (rowCmd s p tag.toNat 0x0100 params) = true ∧
      (let c := rowCmd s p tag.toNat 0x0100 params; let a := admitted s c; c.p 0 % 8 = a.mode)) ∧
    (∃ (s : State) (p : Port) (tag : BitVec 7) (params : List Word), servedNow s p tag.toNat = true ∧
      checksPass s (rowCmd s p tag.toNat 0x0100 params) = true ∧
      (let c := rowCmd s p tag.toNat 0x0100 params; let a := admitted s c; a.mode = mQuiescent ∧ c.p 0 % 8 = mCommission ∧ portSecurity a c.port = secUnsealed)) ∧
    (∃ (s : State) (p : Port) (tag : BitVec 7) (params : List Word), servedNow s p tag.toNat = true ∧
      checksPass s (rowCmd s p tag.toNat 0x0100 params) = true ∧
      (let c := rowCmd s p tag.toNat 0x0100 params; let a := admitted s c; a.mode = mCommission ∧ c.p 0 % 8 = mQuiescent ∧ portSecurity a c.port = secUnsealed ∧ anyEnabled a = false)) ∧
    (∃ (s : State) (p : Port) (tag : BitVec 7) (params : List Word), servedNow s p tag.toNat = true ∧
      checksPass s (rowCmd s p tag.toNat 0x0100 params) = true ∧
      (let c := rowCmd s p tag.toNat 0x0100 params; let a := admitted s c; a.mode = mGuard ∧ c.p 0 % 8 = mService ∧ (portSecurity a c.port = secUnsealed ∨ portSecurity a c.port = secEscorted))) ∧
    (∃ (s : State) (p : Port) (tag : BitVec 7) (params : List Word), servedNow s p tag.toNat = true ∧
      checksPass s (rowCmd s p tag.toNat 0x0100 params) = true ∧
      (let c := rowCmd s p tag.toNat 0x0100 params; let a := admitted s c; a.mode = mService ∧ c.p 0 % 8 = mGuard ∧ workAtAll (abortCals (abortWork a 8 false)) = false)) ∧
    (∃ (s : State) (p : Port) (tag : BitVec 7) (params : List Word), servedNow s p tag.toNat = true ∧
      checksPass s (rowCmd s p tag.toNat 0x0101 params) = true ∧
      (let c := rowCmd s p tag.toNat 0x0101 params; let a := admitted s c; (quireList (c.p 0 % 65536)).all (fun q => startReason a q (bitOf (c.p 0) 31) == 0) = true)) ∧
    (∃ (s : State) (p : Port) (tag : BitVec 7) (params : List Word), servedNow s p tag.toNat = true ∧
      checksPass s (rowCmd s p tag.toNat 0x0102 params) = true ∧
      (let c := rowCmd s p tag.toNat 0x0102 params; let a := admitted s c; qState a (c.p 0 % 16) = qHeld)) :=
  ⟨(⟨up, .host, 0, [0], by decide +kernel⟩),
   (⟨puts up [(F.SEC_STATE_MODE, 5)], .host, 0, [0], by decide +kernel⟩),
   (⟨up, .host, 0, [5], by decide +kernel⟩),
   (⟨puts up [(F.SEC_STATE_MODE, 2)], .host, 0, [3], by decide +kernel⟩),
   (⟨puts up [(F.SEC_STATE_MODE, 3)], .host, 0, [2], by decide +kernel⟩),
   (⟨puts up [(F.SEC_STATE_MODE, 2)], .host, 0, [1], by decide +kernel⟩),
   (⟨puts up [(F.SEC_STATE_MODE, 1), ((F.QUIREq_STATUS_STATE 15), qHeld)], .host, 0, [15], by decide +kernel⟩)⟩

theorem witness_ImageCommands :
    (∃ (s : State) (p : Port) (tag : BitVec 7) (params : List Word), servedNow s p tag.toNat = true ∧
      checksPass s (rowCmd s p tag.toNat 0x0200 params) = true ∧
      (let c := rowCmd s p tag.toNat 0x0200 params; let a := admitted s c; bitOf (c.p 0) 31 = false ∧ railCalRefusal a (c.p 0 % 64) = none)) ∧
    (∃ (s : State) (p : Port) (tag : BitVec 7) (params : List Word), servedNow s p tag.toNat = true ∧
      checksPass s (rowCmd s p tag.toNat 0x0200 params) = true ∧
      (let c := rowCmd s p tag.toNat 0x0200 params; let a := admitted s c; bitOf (c.p 0) 31 = true ∧ poolCalRefusal a (c.p 0 / 2 ^ 20 % 16) = none)) ∧
    (∃ (s : State) (p : Port) (tag : BitVec 7) (params : List Word), servedNow s p tag.toNat = true ∧
      checksPass s (rowCmd s p tag.toNat 0x0201 params) = true ∧
      (let c := rowCmd s p tag.toNat 0x0201 params; let a := admitted s c; bitOf (c.p 0) 31 = false ∧ railCalRefusal a (c.p 0 % 64) = none ∧ railTargetOk (a.get (F.RAILn_CAL_TARGET_VOLTS (c.p 0 % 64))) (railRatio a (c.p 0 % 64)) = true)) ∧
    (∃ (s : State) (p : Port) (tag : BitVec 7) (params : List Word), servedNow s p tag.toNat = true ∧
      checksPass s (rowCmd s p tag.toNat 0x0201 params) = true ∧
      (let c := rowCmd s p tag.toNat 0x0201 params; let a := admitted s c; bitOf (c.p 0) 31 = true ∧ poolCalRefusal a (c.p 0 / 2 ^ 20 % 16) = none ∧ poolTargetOk (a.getS F.POOL_CAL_TARGET_VOLTS) (c.p 0 / 65536 % 4) = true)) ∧
    (∃ (s : State) (p : Port) (tag : BitVec 7) (params : List Word), servedNow s p tag.toNat = true ∧
      checksPass s (rowCmd s p tag.toNat 0x0202 params) = true ∧
      (let c := rowCmd s p tag.toNat 0x0202 params; let a := admitted s c; a.flag F.NVM_STORE_BUSY = false)) ∧
    (∃ (s : State) (p : Port) (tag : BitVec 7) (params : List Word) (i : _) (bytes : List Nat) (next : _) (target : _), servedNow s p tag.toNat = true ∧
      checksPass s (rowCmd s p tag.toNat 0x0203 params) = true ∧
      (let c := rowCmd s p tag.toNat 0x0203 params; let a := admitted s c; storeTarget a false = some i ∧ joinChunk a.nvm.image c i = some (bytes, next, target) ∧ bitOf (c.p 0) 31 = false)) ∧
    (∃ (s : State) (p : Port) (tag : BitVec 7) (params : List Word) (i : _) (bytes : _) (next : _) (target : _) (x : NvmCopy), servedNow s p tag.toNat = true ∧
      checksPass s (rowCmd s p tag.toNat 0x0203 params) = true ∧
      (let c := rowCmd s p tag.toNat 0x0203 params; let a := admitted s c; storeTarget a false = some i ∧ joinChunk a.nvm.image c i = some (bytes, next, target) ∧ bitOf (c.p 0) 31 = true ∧ parseCopy bytes = some x)) ∧
    (∃ (s : State) (p : Port) (tag : BitVec 7) (params : List Word) (bytes : _) (next : _) (target : _), servedNow s p tag.toNat = true ∧
      checksPass s (rowCmd s p tag.toNat 0x0204 params) = true ∧
      (let c := rowCmd s p tag.toNat 0x0204 params; let a := admitted s c; joinChunk a.nvm.patchIn c 0 = some (bytes, next, target) ∧ bitOf (c.p 0) 31 = false)) ∧
    (∃ (s : State) (p : Port) (tag : BitVec 7) (params : List Word) (bytes : _) (next : _) (target : _), servedNow s p tag.toNat = true ∧
      checksPass s (rowCmd s p tag.toNat 0x0204 params) = true ∧
      (let c := rowCmd s p tag.toNat 0x0204 params; let a := admitted s c; joinChunk a.nvm.patchIn c 0 = some (bytes, next, target) ∧ bitOf (c.p 0) 31 = true ∧ patchFormatOk bytes = true)) ∧
    (∃ (s : State) (p : Port) (tag : BitVec 7) (params : List Word) (bytes : _) (next : _) (target : _), servedNow s p tag.toNat = true ∧
      checksPass s (rowCmd s p tag.toNat 0x0205 params) = true ∧
      (let c := rowCmd s p tag.toNat 0x0205 params; let a := admitted s c; a.sec.hmValid = false ∧ a.sec.hmFail = false ∧ a.sec.job = none ∧ joinChunk a.sec.imageIn c 0 = some (bytes, next, target) ∧ bitOf (c.p 0) 31 = false)) ∧
    (∃ (s : State) (p : Port) (tag : BitVec 7) (params : List Word) (bytes : _) (next : _) (target : _), servedNow s p tag.toNat = true ∧
      checksPass s (rowCmd s p tag.toNat 0x0205 params) = true ∧
      (let c := rowCmd s p tag.toNat 0x0205 params; let a := admitted s c; a.sec.hmValid = false ∧ a.sec.hmFail = false ∧ a.sec.job = none ∧ joinChunk a.sec.imageIn c 0 = some (bytes, next, target) ∧ bitOf (c.p 0) 31 = true ∧ hallmarkOk bytes = true)) :=
  ⟨(⟨puts up [((F.RAILn_GUARD_CFG_USE 0), 1), ((F.RAILn_FINE_STATE_RUN 0), 1)], .host, 0, [0], by decide +kernel⟩),
   (⟨puts up [(F.BENCH_LAYOUT_ALL8, 1)], .host, 0, [0x80000000], by decide +kernel⟩),
   (⟨puts up [((F.RAILn_GUARD_CFG_USE 0), 1), ((F.RAILn_FINE_STATE_RUN 0), 1), ((F.RAILn_CAL_TARGET_VOLTS 0), 4194304)], .host, 0, [0], by decide +kernel⟩),
   (⟨puts up [(F.BENCH_LAYOUT_ALL8, 1), (F.POOL_CAL_TARGET_VOLTS, 5000000)], .host, 0, [0x80000000], by decide +kernel⟩),
   (⟨up, .host, 0, [3], by decide +kernel⟩),
   (⟨up, .host, 0, [0, 0, 0], 0, [0, 0, 0, 0, 0, 0, 0, 0], 8, 0, by decide +kernel⟩),
   (⟨up, .host, 0, [0x80000000, 1, 0, 0x10000, 1835841563], 0, [0, 0, 0, 1, 0, 0, 0, 0, 0, 1, 0, 0, 0x6D, 0x6C, 0xB8, 0x1B], 16, 0, ⟨true, 1, []⟩, by decide +kernel⟩),
   (⟨up, .host, 0, [0, 0, 0], [0, 0, 0, 0, 0, 0, 0, 0], 8, 0, by decide +kernel⟩),
   (⟨up, .host, 0, (0x80000000 :: 0x464C4E50 :: List.replicate 63 0), ([0x46, 0x4C, 0x4E, 0x50] ++ List.replicate 252 0), 256, 0, by decide +kernel⟩),
   (⟨up, .host, 0, [0, 0, 0], [0, 0, 0, 0, 0, 0, 0, 0], 8, 0, by decide +kernel⟩),
   (⟨up, .host, 0, ([0x80000000, 0x484C4D4B, 0x2A8, 0x10000, 2497428905] ++ List.replicate 166 0), ([0x48, 0x4C, 0x4D, 0x4B, 0, 0, 2, 0xA8, 0, 1, 0, 0] ++ beBytes 4 2497428905 ++ List.replicate 664 0), 680, 0, by decide +kernel, by decide +kernel, by decide +kernel, by decide +kernel, by decide +kernel, by decide +kernel, by decide +kernel, hallmark_ok⟩)⟩

theorem witness_WorkCommands :
    (∃ (s : State) (p : Port) (tag : BitVec 7) (params : List Word), servedNow s p tag.toNat = true ∧
      checksPass s (rowCmd s p tag.toNat 0x0300 params) = true ∧
      (let c := rowCmd s p tag.toNat 0x0300 params; let a := admitted s c; marginRefusal a (c.p 0 % 64) (c.p 0 / 256 % 4) = none)) ∧
    (∃ (s : State) (p : Port) (tag : BitVec 7) (params : List Word), servedNow s p tag.toNat = true ∧
      checksPass s (rowCmd s p tag.toNat 0x0301 params) = true ∧
      (let c := rowCmd s p tag.toNat 0x0301 params; let a := admitted s c; testOwns a (c.p 0 % 64) = true)) ∧
    (∃ (s : State) (p : Port) (tag : BitVec 7) (params : List Word), servedNow s p tag.toNat = true ∧
      checksPass s (rowCmd s p tag.toNat 0x0301 params) = true ∧
      (let c := rowCmd s p tag.toNat 0x0301 params; let a := admitted s c; testOwns a (c.p 0 % 64) = false)) ∧
    (∃ (s : State) (p : Port) (tag : BitVec 7) (params : List Word), servedNow s p tag.toNat = true ∧
      checksPass s (rowCmd s p tag.toNat 0x0302 params) = true ∧
      (let c := rowCmd s p tag.toNat 0x0302 params; let a := admitted s c; soundingRefusal a = none)) ∧
    (∃ (s : State) (p : Port) (tag : BitVec 7) (params : List Word), servedNow s p tag.toNat = true ∧
      checksPass s (rowCmd s p tag.toNat 0x0303 params) = true ∧
      (let c := rowCmd s p tag.toNat 0x0303 params; let a := admitted s c; a.marg.snd ≠ none)) ∧
    (∃ (s : State) (p : Port) (tag : BitVec 7) (params : List Word), servedNow s p tag.toNat = true ∧
      checksPass s (rowCmd s p tag.toNat 0x0303 params) = true ∧
      (let c := rowCmd s p tag.toNat 0x0303 params; let a := admitted s c; a.marg.snd = none)) ∧
    (∃ (s : State) (p : Port) (tag : BitVec 7) (params : List Word), servedNow s p tag.toNat = true ∧
      checksPass s (rowCmd s p tag.toNat 0x0304 params) = true ∧
      (let c := rowCmd s p tag.toNat 0x0304 params; let a := admitted s c; bitOf (c.p 0) 31 = false ∧ (vget a.marg.archive (c.p 0 % 64)).trend.getD (c.p 0 / 65536 % 512) [] ≠ [])) ∧
    (∃ (s : State) (p : Port) (tag : BitVec 7) (params : List Word), servedNow s p tag.toNat = true ∧
      checksPass s (rowCmd s p tag.toNat 0x0304 params) = true ∧
      (let c := rowCmd s p tag.toNat 0x0304 params; let a := admitted s c; bitOf (c.p 0) 31 = true ∧ ((vget a.marg.archive (c.p 0 % 64)).full.take 10).getD (c.p 0 / 65536 % 512) [] ≠ [])) ∧
    (∃ (s : State) (p : Port) (tag : BitVec 7) (params : List Word), servedNow s p tag.toNat = true ∧
      checksPass s (rowCmd s p tag.toNat 0x0400 params) = true ∧
      (let c := rowCmd s p tag.toNat 0x0400 params; let a := admitted s c; portSecurity a c.port ≠ secSealed ∨ c.p 0 / 256 % 8 = 0)) ∧
    (∃ (s : State) (p : Port) (tag : BitVec 7) (params : List Word) (t : _) (k : _), servedNow s p tag.toNat = true ∧
      checksPass s (rowCmd s p tag.toNat 0x0401 params) = true ∧
      (let c := rowCmd s p tag.toNat 0x0401 params; let a := admitted s c; latchFolio (folioTrigger a 1) = (t, some k))) ∧
    (∃ (s : State) (p : Port) (tag : BitVec 7) (params : List Word), servedNow s p tag.toNat = true ∧
      checksPass s (rowCmd s p tag.toNat 0x0402 params) = true ∧
      (let c := rowCmd s p tag.toNat 0x0402 params; let a := admitted s c; a.flag F.FOLIO_STATUS_ARMED = false)) ∧
    (∃ (s : State) (p : Port) (tag : BitVec 7) (params : List Word), servedNow s p tag.toNat = true ∧
      checksPass s (rowCmd s p tag.toNat 0x0403 params) = true) ∧
    (∃ (s : State) (p : Port) (tag : BitVec 7) (params : List Word), servedNow s p tag.toNat = true ∧
      checksPass s (rowCmd s p tag.toNat 0x0404 params) = true) ∧
    (∃ (s : State) (p : Port) (tag : BitVec 7) (params : List Word) (slot : _) (words : _), servedNow s p tag.toNat = true ∧
      checksPass s (rowCmd s p tag.toNat 0x0405 params) = true ∧
      (let c := rowCmd s p tag.toNat 0x0405 params; let a := admitted s c; slot = (if bitOf (c.p 0) 31 then a.get F.LDG_STATUS_LAST_SLOT else c.p 0 % 1024) ∧ a.nvm.slots.find? (fun x => x.1 == slot) = some (slot, words))) ∧
    (∃ (s : State) (p : Port) (tag : BitVec 7) (params : List Word) (t : _), servedNow s p tag.toNat = true ∧
      checksPass s (rowCmd s p tag.toNat 0x0500 params) = true ∧
      (let c := rowCmd s p tag.toNat 0x0500 params; let a := admitted s c; switchBack a (c.p 0 % 65536) = (t, stOk))) ∧
    (∃ (s : State) (p : Port) (tag : BitVec 7) (params : List Word), servedNow s p tag.toNat = true ∧
      checksPass s (rowCmd s p tag.toNat 0x0501 params) = true ∧
      (let c := rowCmd s p tag.toNat 0x0501 params; let a := admitted s c; isMaster a = true ∧ a.eng.cmds.any (fun d => d.opcode == 0x0501 && d.phase == .running) = false)) ∧
    (∃ (s : State) (p : Port) (tag : BitVec 7) (params : List Word) (t : _) (x : _), servedNow s p tag.toNat = true ∧
      checksPass s (rowCmd s p tag.toNat 0x0502 params) = true ∧
      (let c := rowCmd s p tag.toNat 0x0502 params; let a := admitted s c; isMaster a = true ∧ ringFolio a (c.p 0 % 65536) (stampOf (c.p 1) (c.p 2)) = (t, stOk, x))) :=
  ⟨(⟨puts (State.setReg up (R.margCap 0) 0xFFFFFFFF) [(F.SEC_STATE_MODE, 3), ((F.MARGn_CFG_SRC 0), 1), ((F.RAILn_GUARD_STATUS_EN_LATCH 0), 1), ((F.RAILn_FINE_STATE_RUN 0), 1)], .host, 0, [0x300], by decide +kernel⟩),
   (⟨(State.modMr up 63 (fun x => { x with test := some (mt .dwell [true] 0 0 0) })), .host, 0, [63], by decide +kernel⟩),
   (⟨up, .host, 0, [63], by decide +kernel⟩),
   (⟨puts (State.setReg up (R.margCap 0) 0xFFFFFFFF) [(F.SEC_STATE_MODE, 3), ((F.MARGn_CFG_SRC 0), 1), ((F.RAILn_GUARD_STATUS_EN_LATCH 0), 1), ((F.RAILn_FINE_STATE_RUN 0), 1), (F.SND_RAILS_LO_RAILS, 1), (F.SND_AMP_AMP, 1), (F.SND_FREQ_F_START, 10), (F.SND_FREQ_F_STOP, 40000), (F.CLK_STATUS_FALLBACK, 0)], .host, 0, [], by decide +kernel⟩),
   (⟨{ up with marg := { (up).marg with snd := some (snd .plus []) } }, .host, 0, [], by decide +kernel⟩),
   (⟨up, .host, 0, [], by decide +kernel⟩),
   (⟨{ up with marg := { (up).marg with archive := Vector.replicate 64 ⟨[[1]], [[2]], 0⟩ } }, .host, 0, [63], by decide +kernel⟩),
   (⟨{ up with marg := { (up).marg with archive := Vector.replicate 64 ⟨[[1]], [[2]], 0⟩ } }, .host, 0, [0x8000003F], by decide +kernel⟩),
   (⟨up, .host, 0, [0], by decide +kernel⟩),
   (⟨up, .host, 0, [], _, 0, by decide +kernel, by decide +kernel, Prod.ext rfl (by decide +kernel)⟩),
   (⟨up, .host, 0, [0, 0], by decide +kernel⟩),
   (⟨up, .host, 0, [0, 1], by decide +kernel⟩),
   (⟨up, .host, 0, [15], by decide +kernel⟩),
   (⟨{ up with nvm := { (up).nvm with slots := [(1023, [1])] } }, .host, 0, [1023], 1023, [1], by decide +kernel⟩),
   (⟨puts (State.modPair up 7 (fun x => { x with a := { (default : WdnBeat) with role := 1 }, b := { (default : WdnBeat) with ready := true } })) [(F.WDN_CFG_EN, 1), (F.TWIN_CFG_WDN_PERM, 1), ((F.WDN_PAIRk_CFG_VALID 7), 1), ((F.WDN_PAIRk_CFG_ID 7), 9)], .host, 0, [9], _, by decide +kernel, by decide +kernel, Prod.ext rfl (by decide +kernel)⟩),
   (⟨puts up [(F.RING_STATUS_MASTER, 1), (F.RING_STATUS_ADDR, 0)], .host, 0, [], by decide +kernel⟩),
   (⟨puts up [(F.RING_STATUS_MASTER, 1), (F.RING_STATUS_ADDR, 0)], .host, 0, [1, 0x100, 0], _, _, by decide +kernel, by decide +kernel, by decide +kernel, Prod.ext rfl (Prod.ext (by decide +kernel) rfl)⟩)⟩

theorem witness_SecurityCommands :
    (∃ (s : State) (p : Port) (tag : BitVec 7) (params : List Word), servedNow s p tag.toNat = true ∧
      checksPass s (rowCmd s p tag.toNat 0x0600 params) = true ∧
      (let c := rowCmd s p tag.toNat 0x0600 params; let a := admitted s c; a.get F.SEC_ESC_STATUS_LOCKOUT = 0)) ∧
    (∃ (s : State) (p : Port) (tag : BitVec 7) (params : List Word) (ch : _), servedNow s p tag.toNat = true ∧
      checksPass s (rowCmd s p tag.toNat 0x0601 params) = true ∧
      (let c := rowCmd s p tag.toNat 0x0601 params; let a := admitted s c; a.sec.chal = some (c.port, ch) ∧ cmac a.sec.key (1 :: ch) = c.params.flatMap fun w => beBytes 4 w.toNat)) ∧
    (∃ (s : State) (p : Port) (tag : BitVec 7) (params : List Word) (ch : _), servedNow s p tag.toNat = true ∧
      checksPass s (rowCmd s p tag.toNat 0x0601 params) = true ∧
      (let c := rowCmd s p tag.toNat 0x0601 params; let a := admitted s c; a.sec.chal = some (c.port, ch) ∧ cmac a.sec.key (1 :: ch) ≠ c.params.flatMap fun w => beBytes 4 w.toNat)) ∧
    (∃ (s : State) (p : Port) (tag : BitVec 7) (params : List Word), servedNow s p tag.toNat = true ∧
      checksPass s (rowCmd s p tag.toNat 0x0601 params) = true ∧
      (let c := rowCmd s p tag.toNat 0x0601 params; let a := admitted s c; ∀ ch, a.sec.chal ≠ some (c.port, ch))) ∧
    (∃ (s : State) (p : Port) (tag : BitVec 7) (params : List Word), servedNow s p tag.toNat = true ∧
      checksPass s (rowCmd s p tag.toNat 0x0602 params) = true) ∧
    (∃ (s : State) (p : Port) (tag : BitVec 7) (params : List Word), servedNow s p tag.toNat = true ∧
      checksPass s (rowCmd s p tag.toNat 0x0603 params) = true ∧
      (let c := rowCmd s p tag.toNat 0x0603 params; let a := admitted s c; anyEnabled a = false ∧ a.flag F.HM_STATUS_VALID = true ∧ a.flag F.HM_STATUS_PENDING = false ∧ a.get F.SEC_STATE_DEBUG = 0 ∧ factoryTest a = false ∧ a.sec.job = none)) ∧
    (∃ (s : State) (p : Port) (tag : BitVec 7) (params : List Word), servedNow s p tag.toNat = true ∧
      checksPass s (rowCmd s p tag.toNat 0x0604 params) = true ∧
      (let c := rowCmd s p tag.toNat 0x0604 params; let a := admitted s c; a.get F.SEC_STATE_DEBUG = 0 ∧ a.sec.job = none)) ∧
    (∃ (s : State) (p : Port) (tag : BitVec 7) (params : List Word), servedNow s p tag.toNat = true ∧
      checksPass s (rowCmd s p tag.toNat 0x0605 params) = true ∧
      (let c := rowCmd s p tag.toNat 0x0605 params; let a := admitted s c; (a.mode ≠ mHoldup ∨ c.p 0 % 4 = 0) ∧ (c.p 0 % 4 ≤ a.get F.SEC_STATE_DEBUG ∨ portSecurity a c.port = secUnsealed ∨ debugKeyOk a c = true) ∧ (c.p 0 % 4 ≠ 2 ∨ twinRole a ≠ 1))) :=
  ⟨(⟨puts up [(F.SEC_STATE_SECURITY, 1)], .host, 0, [], by decide +kernel⟩),
   (⟨puts { up with sec := { (up).sec with chal := some (.host, List.replicate 16 0), key := List.replicate 16 0 } } [(F.SEC_STATE_SECURITY, 1)], .host, 0, [3640518924, 2812216491, 2136014406, 764498861], List.replicate 16 0, by decide +kernel⟩),
   (⟨puts { up with sec := { (up).sec with chal := some (.host, List.replicate 16 0), key := List.replicate 16 0 } } [(F.SEC_STATE_SECURITY, 1)], .host, 0, [0, 0, 0, 0], List.replicate 16 0, by decide +kernel⟩),
   (⟨puts up [(F.SEC_STATE_SECURITY, 1)], .host, 0, [0, 0, 0, 0], by decide +kernel, by decide +kernel, fun ch => (fun (e : ∀ x : Option (Port × List Nat), x = none → x ≠ some (.host, ch)) => e _ (by decide +kernel)) (fun x hx => by rw [hx]; exact fun h => Option.noConfusion rfl (heq_of_eq h))⟩),
   (⟨puts up [(F.SEC_STATE_SECURITY, 2)], .host, 0, [], by decide +kernel⟩),
   (⟨puts up [(F.HM_STATUS_VALID, 1)], .host, 0, [], by decide +kernel⟩),
   (⟨puts up [(F.SEC_STATE_MODE, 5)], .host, 0, [], by decide +kernel⟩),
   (⟨up, .host, 0, (List.replicate 9 0), by decide +kernel⟩)⟩

theorem witness_SecurityTimers :
    (∃ (s : State), s.security = secEscorted ∧ (let t := ((secEvent ((secEvent s F.SEC_EVT_ESC_TIMEOUT 7).put F.SEC_STATE_SECURITY secSealed) F.SEC_EVT_ESC_END 6).put F.SEC_ESC_STATUS_REMAIN 0).modSec fun x => { x with ks := [] }; t.mode ≠ mService)) ∧
    (∃ (s : State), s.security = secEscorted ∧ (let t := ((secEvent ((secEvent s F.SEC_EVT_ESC_TIMEOUT 7).put F.SEC_STATE_SECURITY secSealed) F.SEC_EVT_ESC_END 6).put F.SEC_ESC_STATUS_REMAIN 0).modSec fun x => { x with ks := [] }; t.mode = mService)) ∧
    (∃ (s : State) (weak : Nat), s.sec.job = some .seal) ∧
    (∃ (s : State) (weak : Nat), s.sec.job = some .retire) ∧
    (∃ (s : State) (weak : Nat) (bytes : List Nat) (next : Nat) (target : Nat), s.sec.job = some .program ∧ s.sec.imageIn = some (bytes, next, target)) ∧
    (∃ (s : State) (weak : Nat), s.sec.job = some .program) :=
  ⟨(⟨puts up [(F.SEC_STATE_SECURITY, 2)], by decide +kernel⟩),
   (⟨puts up [(F.SEC_STATE_SECURITY, 2), (F.SEC_STATE_MODE, 3)], by decide +kernel⟩),
   (⟨{ up with sec := { (up).sec with job := some .seal } }, 0, by decide +kernel⟩),
   (⟨{ up with sec := { (up).sec with job := some .retire } }, 0, by decide +kernel⟩),
   (⟨{ up with sec := { (up).sec with job := some .program, imageIn := some (([]), 0, 0) } }, 0, [], 0, 0, by decide +kernel⟩),
   (⟨{ up with sec := { (up).sec with job := some .program } }, 0, by decide +kernel⟩)⟩

theorem witness_HoldUp :
    (∃ (s : State) (blown : Nat), s.rst.phase ≠ .por ∧ s.mode ≠ mHoldup ∧ s.mode ≠ mStartup) ∧
    (∃ (s : State) (blown : Nat), s.rst.phase ≠ .por ∧ s.mode = mStartup) ∧
    (∃ (s : State) (blown : Nat), s.rst.phase ≠ .por ∧ s.mode = mHoldup) ∧
    (∃ (s : State), s.mode = mHoldup ∧ s.flag F.SEQ_STATUS_HM_RUN = false ∧ nvmHoldupDone s = true ∧ s.flag F.SEC_STATE_HU_PRESENT = true ∧ (let t := eraseNextTwo (pmResume (ringResume (secEvent (setMode s mQuiescent) F.SEC_EVT_HOLDUP_OUT 2))); t.rst.latched = false)) ∧
    (∃ (s : State), s.mode = mHoldup ∧ s.flag F.SEQ_STATUS_HM_RUN = false ∧ nvmHoldupDone s = true ∧ s.flag F.SEC_STATE_HU_PRESENT = true ∧ (let t := eraseNextTwo (pmResume (ringResume (secEvent (setMode s mQuiescent) F.SEC_EVT_HOLDUP_OUT 2))); t.rst.latched = true)) ∧
    (∃ (s : State), (s.flag F.SEQ_STATUS_HM_RUN = true ∨ nvmHoldupDone s = false ∨ s.flag F.SEC_STATE_HU_PRESENT = false)) :=
  ⟨(⟨up, 0, by decide +kernel⟩),
   (⟨puts up [(F.SEC_STATE_MODE, 6)], 0, by decide +kernel⟩),
   (⟨puts up [(F.SEC_STATE_MODE, 4)], 0, by decide +kernel⟩),
   (⟨puts up [(F.SEC_STATE_MODE, 4), (F.SEQ_STATUS_HM_RUN, 0), (F.SEC_STATE_HU_PRESENT, 1)], by decide +kernel⟩),
   (⟨puts { up with rst := { (up).rst with latched := true } } [(F.SEC_STATE_MODE, 4), (F.SEQ_STATUS_HM_RUN, 0), (F.SEC_STATE_HU_PRESENT, 1)], by decide +kernel⟩),
   (⟨up, by decide +kernel⟩)⟩

theorem witness_DebugPort :
    (∃ (s : State), s.sec.tap.instr = .bypass) ∧
    (∃ (s : State), s.sec.tap.instr = .idcode) ∧
    (∃ (s : State), s.sec.tap.instr = .sample) ∧
    (∃ (s : State), s.flag F.SEC_STATE_FACTORY = false) ∧
    (∃ (s : State), s.flag F.SEC_STATE_FACTORY = false ∧ (s.sec.tap.instr = .extest ∨ s.sec.tap.instr = .clamp ∨ s.sec.tap.instr = .highz)) ∧
    (∃ (s : State), s.flag F.SEC_STATE_FACTORY = true ∧ s.sec.tap.instr = .extest) ∧
    (∃ (s : State), s.flag F.SEC_STATE_FACTORY = true ∧ s.sec.tap.instr = .clamp) ∧
    (∃ (s : State), s.flag F.SEC_STATE_FACTORY = true ∧ s.sec.tap.instr = .highz) ∧
    (∃ (s : State) (k : Nat), s.sec.tap.instr = .priv k ∧ (s.get F.SEC_STATE_DEBUG = 1 ∨ s.get F.SEC_STATE_DEBUG = 2)) ∧
    (∃ (s : State) (k : Nat), s.sec.tap.instr = .priv k ∧ s.get F.SEC_STATE_DEBUG ≠ 1 ∧ s.get F.SEC_STATE_DEBUG ≠ 2) ∧
    (∃ (s : State) (tms : Bool) (tdi : Bool), s.sec.tap.held = false ∧ s.rst.phase ≠ .por ∧ s.sec.tap.state = .dr .shift) ∧
    (∃ (s : State), s.sec.tap.held = false ∧ s.rst.phase ≠ .por ∧ s.sec.tap.state = .ir .update) ∧
    (∃ (s : State) (a : Bool) (b : Bool) (c : Bool) (d : Bool) (e : Bool), s.sec.tap.held = false ∧ s.rst.phase ≠ .por) :=
  ⟨(⟨{ up with sec := { up.sec with tap := { up.sec.tap with instr := .bypass } } }, by decide +kernel⟩),
   (⟨up, by decide +kernel⟩),
   (⟨{ up with sec := { up.sec with tap := { up.sec.tap with instr := .sample } } }, by decide +kernel⟩),
   (⟨puts up [(F.SEC_STATE_FACTORY, 0)], by decide +kernel⟩),
   (⟨{ up with sec := { up.sec with tap := { up.sec.tap with instr := .extest } } }, by decide +kernel⟩),
   (⟨puts { up with sec := { up.sec with tap := { up.sec.tap with instr := .extest } } } [(F.SEC_STATE_FACTORY, 1)], by decide +kernel⟩),
   (⟨puts { up with sec := { up.sec with tap := { up.sec.tap with instr := .clamp } } } [(F.SEC_STATE_FACTORY, 1)], by decide +kernel⟩),
   (⟨puts { up with sec := { up.sec with tap := { up.sec.tap with instr := .highz } } } [(F.SEC_STATE_FACTORY, 1)], by decide +kernel⟩),
   (⟨puts { up with sec := { up.sec with tap := { up.sec.tap with instr := .priv 3 } } } [(F.SEC_STATE_DEBUG, 2)], 3, by decide +kernel⟩),
   (⟨puts { up with sec := { up.sec with tap := { up.sec.tap with instr := .priv 3 } } } [(F.SEC_STATE_DEBUG, 0)], 3, by decide +kernel⟩),
   (⟨{ up with sec := { up.sec with tap := { up.sec.tap with held := false, state := .dr .shift } } }, false, false, by decide +kernel⟩),
   (⟨{ up with sec := { up.sec with tap := { up.sec.tap with held := false, state := .ir .update } } }, by decide +kernel⟩),
   (⟨up, false, false, false, false, false, by decide +kernel⟩)⟩

theorem witness_ResetSources :
    (∃ (s : State), s.rst.phase = .por) ∧
    (∃ (s : State), s.rst.phase ≠ .por ∧ (let t := s.modRst fun r => { r with low := true }; t.mode = mHoldup)) ∧
    (∃ (s : State), s.rst.phase ≠ .por ∧ (let t := s.modRst fun r => { r with low := true }; t.mode ≠ mHoldup)) ∧
    (∃ (s : State), s.eng.resetPend = true ∧ (let t := s.modEng fun e => { e with resetPend := false }; t.mode ≠ mHoldup)) ∧
    (∃ (s : State), s.eng.resetPend = true ∧ (let t := s.modEng fun e => { e with resetPend := false }; t.mode = mHoldup)) ∧
    (∃ (s : State) (p : Port) (sideB : Bool) (pair : Fin 8), writable s p R.RST_WDN (2 ^ 31 + (if sideB then 256 else 0) + pair) = true) ∧
    (∃ (s : State) (port : RingPort) (cell : RingCell) (u : State), receiveCell s port cell 0xB = (u, true) ∧ u.twin.loaded = true ∧ payNat cell 0 1 = 3 ∧ tokenReason u cell = 0) ∧
    (∃ (s : State) (port : RingPort) (cell : RingCell) (u : State), receiveCell s port cell 0xB = (u, true) ∧ u.twin.loaded = true ∧ payNat cell 0 1 = 3 ∧ ∃ (r : Nat), tokenReason u cell = r ∧ r ≠ 0) :=
  ⟨(⟨{ up with rst := { (up).rst with phase := .por } }, by decide +kernel⟩),
   (⟨puts up [(F.SEC_STATE_MODE, 4)], by decide +kernel⟩),
   (⟨up, by decide +kernel⟩),
   (⟨{ up with eng := { (up).eng with resetPend := true } }, by decide +kernel⟩),
   (⟨puts { up with eng := { (up).eng with resetPend := true } } [(F.SEC_STATE_MODE, 4)], by decide +kernel⟩),
   (⟨puts up [(F.WDN_CFG_EN, 1), (F.TWIN_CFG_WDN_PERM, 1), ((F.WDN_PAIRk_CFG_VALID 7), 1), ((F.WDN_PAIRk_CFG_ID 7), 9)], .host, true, 7, by decide +kernel⟩),
   (⟨puts { up with sec := { (up).sec with key := List.replicate 16 0 }, twin := { (up).twin with loaded := true } } [(F.RING_STATUS_ADDR, 3), (F.RING_STATUS_E_UP, 1), (F.TWIN_CFG_SIDE, 1), (F.ANG_STATUS_RUN, 1), (F.TWIN_CFG_PERM, 3), (F.TWIN_STATUS_ROLE, 2)], .east, cell 3 0 (tokenBytes 3 [100, 225, 23, 3, 254, 148, 160, 68, 6, 169, 165, 242, 217, 238, 44, 252]), _, Prod.ext rfl (by decide +kernel), by decide +kernel⟩),
   (⟨(puts { up with twin := { (up).twin with loaded := true } } [(F.RING_STATUS_ADDR, 3), (F.RING_STATUS_E_UP, 1), (F.TWIN_CFG_SIDE, 1)]), .east, cell 3 0 [3], _, Prod.ext rfl (by decide +kernel), by decide +kernel, by decide +kernel, 1, by decide +kernel⟩)⟩

theorem witness_DeviceResets :
    (∃ (s : State) (cause : Nat), s.rst.phase = .up) ∧
    (∃ (s : State) (cause : Nat), s.rst.phase = .up) ∧
    (∃ (s : State) (held : Bool), s.rst.phase ≠ .up ∧ s.rst.held = false ∧ (s.rst.power = true → s.rst.phase ≠ .engine)) ∧
    (∃ (s : State), s.rst.phase = .work ∧ s.flag F.SEQ_STATUS_HM_RUN = false ∧ resetNvmDone s = true ∧ (let fin := fun (t : State) => syncNvm ((t.modNvm fun v => { v with ready := false }).modRst fun r => { r with phase := .fuses }); s.rst.held = true)) ∧
    (∃ (s : State), s.rst.phase = .work ∧ s.flag F.SEQ_STATUS_HM_RUN = false ∧ resetNvmDone s = true ∧ (let fin := fun (t : State) => syncNvm ((t.modNvm fun v => { v with ready := false }).modRst fun r => { r with phase := .fuses }); s.rst.held = false)) :=
  ⟨(⟨{ up with rst := { (up).rst with phase := .up } }, 0, by decide +kernel⟩),
   (⟨{ up with rst := { (up).rst with phase := .up } }, 0, by decide +kernel⟩),
   (⟨{ up with rst := { (up).rst with held := false, phase := .load } }, true, by decide +kernel⟩),
   (⟨puts { up with rst := { (up).rst with phase := .work, held := true } } [(F.SEQ_STATUS_HM_RUN, 0)], by decide +kernel⟩),
   (⟨puts { up with rst := { (up).rst with phase := .work, held := false } } [(F.SEQ_STATUS_HM_RUN, 0)], by decide +kernel⟩)⟩

theorem witness_StartUp :
    (∃ (s : State) (weak : BitVec 16) (test : Bool), s.rst.phase = .fuses ∧ s.rst.low = false) ∧
    (∃ (s : State) (huLow : Bool), s.rst.phase = .load ∧ s.rst.held = false) ∧
    (∃ (s : State) (huLow : Bool), s.rst.held = false ∧ s.flag F.RST_STATUS_AUTO_EN = false ∧ huLow = true) ∧
    (∃ (s : State) (huLow : Bool), s.rst.held = false ∧ s.flag F.RST_STATUS_AUTO_EN = false ∧ s.rst.holdDet = true ∧ huLow = false) ∧
    (∃ (s : State) (huLow : Bool), s.rst.held = false ∧ s.flag F.RST_STATUS_AUTO_EN = false ∧ s.rst.holdDet = false ∧ huLow = false ∧ s.security = secUnsealed) ∧
    (∃ (s : State) (huLow : Bool), s.rst.held = false ∧ s.flag F.RST_STATUS_AUTO_EN = false ∧ s.rst.holdDet = false ∧ huLow = false ∧ s.security ≠ secUnsealed) ∧
    (∃ (s : State), s.rst.phase = .engine ∧ (let t := ((patchCheck s).put F.CMD_STATUS_ENGINE_UP 1); (let t := t.modAng fun a => { a with relocking := t.flag F.CLK_STATUS_FALLBACK }; (let t := (t.setReg (R.COL_Wk 2) (t.get F.CMD_PATCH_VERSION * 2 ^ 16 + 1)).modRst fun r => { r with phase := .up, held := false, power := false }; ringAddr t = 0xFFFF)))) ∧
    (∃ (s : State), s.rst.phase = .engine ∧ (let t := ((patchCheck s).put F.CMD_STATUS_ENGINE_UP 1); (let t := t.modAng fun a => { a with relocking := t.flag F.CLK_STATUS_FALLBACK }; (let t := (t.setReg (R.COL_Wk 2) (t.get F.CMD_PATCH_VERSION * 2 ^ 16 + 1)).modRst fun r => { r with phase := .up, held := false, power := false }; ringAddr t ≠ 0xFFFF)))) ∧
    (∃ (s : State), s.flag F.RST_STATUS_AUTO_PEND = true ∧ s.eng.epochT0 + 10240 * s.get F.RST_STATUS_AUTO_DELAY ≤ s.tclk ∧ s.mode = mQuiescent ∧ twinRole s < 2 ∧ (s.flag F.RST_STATUS_AUTO_ANGLE = false ∨ s.locked = true) ∧ s.security ≠ secUnsealed ∧ s.security ≠ secRetired ∧ (∀ q ∈ quires, s.flag (F.QUIREq_CFG_AUTO q) = true → startRefused s q false = false)) ∧
    (∃ (s : State), s.flag F.RST_STATUS_AUTO_PEND = true ∧ s.eng.epochT0 + 10240 * s.get F.RST_STATUS_AUTO_DELAY ≤ s.tclk ∧ s.mode = mQuiescent ∧ twinRole s < 2 ∧ (s.flag F.RST_STATUS_AUTO_ANGLE = false ∨ s.locked = true) ∧ s.security ≠ secUnsealed ∧ s.security ≠ secRetired ∧ (∃ q ∈ quires, s.flag (F.QUIREq_CFG_AUTO q) = true ∧ startRefused s q false = true)) :=
  ⟨(⟨{ up with rst := { (up).rst with phase := .fuses, low := false } }, 0, false, by decide +kernel⟩),
   (⟨{ up with rst := { (up).rst with phase := .load, held := false } }, false, by decide +kernel⟩),
   (⟨puts { up with rst := { (up).rst with held := false } } [(F.RST_STATUS_AUTO_EN, 0)], true, by decide +kernel⟩),
   (⟨puts { up with rst := { (up).rst with held := false, holdDet := true } } [(F.RST_STATUS_AUTO_EN, 0)], false, by decide +kernel⟩),
   (⟨puts { up with rst := { (up).rst with held := false, holdDet := false } } [(F.RST_STATUS_AUTO_EN, 0), (F.SEC_STATE_SECURITY, 0)], false, by decide +kernel⟩),
   (⟨puts { up with rst := { (up).rst with held := false, holdDet := false } } [(F.RST_STATUS_AUTO_EN, 0), (F.SEC_STATE_SECURITY, 1)], false, by decide +kernel⟩),
   (⟨{ up with rst := { (up).rst with phase := .engine } }, by decide +kernel⟩),
   (⟨puts { up with rst := { (up).rst with phase := .engine } } [(F.RING_STATUS_ADDR, 3)], by decide +kernel⟩),
   (⟨puts up [(F.RST_STATUS_AUTO_PEND, 1), (F.SEC_STATE_MODE, 5), (F.SEC_STATE_SECURITY, 1)], by decide +kernel⟩),
   (⟨puts up [(F.RST_STATUS_AUTO_PEND, 1), (F.SEC_STATE_MODE, 5), (F.SEC_STATE_SECURITY, 1), ((F.QUIREq_CFG_AUTO 15), 1), (F.SEQ_STATUS_FATAL_BLOCK, 1)], by decide +kernel⟩)⟩

theorem witness_StepFront :
    ∃ (s : State), s.pending = [] :=
  ⟨up, by decide +kernel⟩

theorem witness_NamedOperations :
    (∃ (s : State) (f : Field) (v : Nat), f.lo + f.width ≤ 32) ∧
    (∃ (s : State) (f : Field) (g : Field) (v : Nat), g.lo + g.width ≤ 32 ∧ (g.addr ≠ f.addr ∨ f.lo + f.width ≤ g.lo ∨ g.lo + g.width ≤ f.lo)) ∧
    (∃ (s : State) (f : Field) (n : Nat), f.lo + f.width ≤ 32 ∧ s.get f + n ≤ f.max) ∧
    (∃ (s : State) (f : Field) (n : Nat), f.lo + f.width ≤ 32 ∧ f.max < s.get f + n) ∧
    (∃ (s : State) (n : Nat), n < 256 ∧ s.flag (evtStatus n) = true) ∧
    (∃ (s : State) (n : Nat), n < 256) ∧
    (∃ (s : State) (n : Nat) (a : Nat), a ∉ evtRegs n) ∧
    (∃ (s : State) (f : Field) (v : Nat) (n : Nat), storeWf s.regs = true) :=
  ⟨(⟨up, F.ANG_CFG_SRC, 3, by decide +kernel⟩),
   (⟨up, F.ANG_CFG_SRC, F.SND_FREQ_F_STOP, 3, by decide +kernel⟩),
   (⟨up, F.SND_FREQ_F_STOP, 65535, by decide +kernel⟩),
   (⟨up, F.SND_FREQ_F_STOP, 65536, by decide +kernel⟩),
   (⟨puts up [((evtStatus 0), 1)], 0, by decide +kernel⟩),
   (⟨up, 0, by decide +kernel⟩),
   (⟨up, 0, 0, by decide +kernel⟩),
   (⟨up, F.ANG_CFG_SRC, 3, 1, by decide +kernel⟩)⟩

theorem witness_SettleQuiet :
    ∃ (old : State) (s : State), quiet old s = true :=
  ⟨up, up, by decide +kernel⟩

theorem witness_ModeTransitions :
    (∃ (s : State), anyStep s = true ∧ s.seq.ran = false ∧ s.security ≠ secRetired ∧ (s.mode = mGuard ∨ s.mode = mQuiescent)) ∧
    (∃ (s : State), anyStep s = true ∧ s.seq.ran = false ∧ s.security = secRetired) ∧
    (∃ (s : State), anyStep s = false ∧ s.seq.ran = false ∧ s.security ≠ secRetired ∧ s.mode = mQuiescent ∧ anyEnabled s = true) ∧
    (∃ (s : State), anyStep s = true ∧ s.seq.ran = false ∧ s.security ≠ secRetired ∧ s.mode = mService) ∧
    (∃ (s : State), anyStep s = false ∧ s.seq.ran = false ∧ (s.mode ≠ mQuiescent ∨ anyEnabled s = false)) ∧
    (∃ (s : State), anyStep s = true) ∧
    (∃ (s : State), anyStep s = false ∧ s.mode = mRamp ∧ anyEnabled s = true) ∧
    (∃ (s : State), anyStep s = false ∧ (s.mode = mRamp ∨ s.mode = mGuard) ∧ anyEnabled s = false) ∧
    (∃ (s : State), s.mode = mService ∧ workAtAll s = false ∧ calsRun s = false ∧ s.sec.toGuard = true) ∧
    (∃ (s : State) (m : Nat), s.mode = m) ∧
    (∃ (s : State) (m : Nat), m < 8 ∧ s.mode ≠ m ∧ (m = mCommission ∨ m = mService)) ∧
    (∃ (s : State) (m : Nat), s.mode ≠ m ∧ (m = mRamp ∨ m = mGuard ∨ m = mHoldup ∨ m = mStartup)) :=
  ⟨(⟨puts { up with seq := { (up).seq with ran := false } } [((F.QUIREq_STATUS_STATE 15), qUpRun), (F.SEC_STATE_MODE, 2)], by decide +kernel⟩),
   (⟨puts up [(F.SEC_STATE_SECURITY, 3), (F.QUIREq_STATUS_STATE 15, qUpRun)], by decide +kernel⟩),
   (⟨puts up [(F.SEC_STATE_MODE, mQuiescent), (F.RAILn_GUARD_STATUS_EN_LATCH 63, 1)], by decide +kernel⟩),
   (⟨puts up [(F.SEC_STATE_MODE, mService), (F.QUIREq_STATUS_STATE 15, qUpRun)], by decide +kernel⟩),
   (⟨{ up with seq := { (up).seq with ran := false } }, by decide +kernel⟩),
   (⟨puts up [((F.QUIREq_STATUS_STATE 15), qUpRun)], by decide +kernel⟩),
   (⟨puts up [(F.SEC_STATE_MODE, 1), ((F.RAILn_GUARD_STATUS_EN_LATCH 63), 1)], by decide +kernel⟩),
   (⟨puts up [(F.SEC_STATE_MODE, 1)], by decide +kernel⟩),
   (⟨puts { up with sec := { (up).sec with toGuard := true } } [(F.SEC_STATE_MODE, 3)], by decide +kernel⟩),
   (⟨up, 0, by decide +kernel⟩),
   (⟨up, 3, by decide +kernel⟩),
   (⟨up, 1, by decide +kernel⟩)⟩

theorem witness_TxdisEveryStep :
    (∃ (s : State) (s' : State), step s = .next s') ∧
    (∃ (s : State) (p : Nat), p < 3) :=
  ⟨(⟨{ up with pending := [.holdoverEntry] }, _, rfl⟩),
   (⟨up, 0, by decide +kernel⟩)⟩

end Sys2Proof.Tests
end

section
/-! The scope of the model (spec/00_scope.md): a register write at any address (R2, R127, R394), that every command answers a next state, and
what reset leaves (R5, R478). -/

namespace Sys2Proof.Machine

/-! ### A register write that changes nothing (R394, R434) -/

/-- R434: a register that is absent here takes no write, whether or not the engine admits the access. -/
theorem writeRow_of_absent (s : State) (p : Port) (a v : Nat) (h : absentHere s a = true) : writeRow s p a v = s := by
  have hw : (regWrite s p a v).1 = s := by
    unfold regWrite
    split
    · rfl
    · rw [if_pos h]
  rw [writeRow, hw, ite_self]

/-- R394: a refused write changes nothing. The one refusal that leaves a mark, CFG_ERR of a Bench (R127), is left out. -/
theorem writeRow_of_refused (s : State) (p : Port) (a v : Nat) (d : RegDef) (st : Nat) (hd : regDefAt a = some d)
    (hr : writeRefusal s p d a v = some st) (hst : st ≠ stBenchRefused) : writeRow s p a v = s := by
  have hw : (regWrite s p a v).1 = s := by
    simp only [regWrite, hd, hr, if_neg hst]
    split
    · rfl
    · split <;> rfl
  rw [writeRow, hw, ite_self]

/-! ### The word that a write stores (R2) -/

theorem written_reg_self (s : State) (a v : Nat) (d : RegDef) (hd : regDefAt a = some d) :
    (written s a v).reg (elementOf s a) = mergeWrite d a (s.reg (elementOf s a)) v % 2 ^ 32 := by
  simp only [written, hd]
  exact State.reg_setReg_self ..

/-- Settles O41: the row is `writeRow` with what follows it, and `writeRow` stores and acts, or changes nothing. -/
theorem registerWrites : Obligations.RegisterWrites := by
  refine ⟨⟨?made, ?stored, ?refused, ?absent⟩, exec_registerWrite⟩
  case made =>
    intro s p a v h
    rw [exec_registerWrite, writeRow_of_writable s p a v.toNat h]
  case stored =>
    intro s a v d hd
    exact ⟨written_reg_self s a v d hd, written_reg_of_ne s a v⟩
  case refused =>
    intro s p a v d st hd _ _ hr hst
    rw [exec_registerWrite, writeRow_of_refused s p a v.toNat d st hd hr hst]
  case absent =>
    intro s p a v h
    rw [exec_registerWrite, writeRow_of_absent s p a v.toNat h]

/-- Settles O55: no command of the model ends in a fault or a refusal (log entry 4). -/
theorem everyCommandCompletes : Obligations.EveryCommandCompletes := exec_settles

/-! ### Reset (R5, R18, R478) -/

theorem reset_no_rail_enabled : anyEnabled State.reset = false := by decide +kernel

theorem reset_no_quire_step : anyStep State.reset = false := by decide +kernel

theorem reset_mode : State.reset.mode = mStartup := by decide +kernel

/-- In STARTUP neither RAMP nor GUARD stands, and no rail or Quire step is on. -/
theorem reset_modeOk : modeOk State.reset = true := by
  simp [modeOk, reset_mode, reset_no_quire_step, reset_no_rail_enabled, mStartup, mRamp, mGuard]

theorem reset_txdisOk : txdisOk State.reset = true := by decide +kernel

theorem reset_storeWf : storeWf State.reset.regs = true := by decide +kernel

/-- Settles O56: the records behind the registers are empty as `State.reset` gives them, and the registers are read from `resetRegs`. -/
theorem resetState : Obligations.ResetState := by
  refine ⟨rfl, reset_mode, rfl, reset_no_rail_enabled, ?role, ?ringAddr, ?angRun, reset_no_quire_step, rfl, rfl, rfl, rfl, ?engine, rfl,
    ?benchMap, reset_storeWf, reset_txdisOk, reset_modeOk⟩
  case role => decide +kernel
  case ringAddr => decide +kernel
  case angRun => decide +kernel
  case engine => decide +kernel
  case benchMap => decide +kernel

end Sys2Proof.Machine
end

section
/-! The device between commands (spec/01_cell_architecture.md): what follows a command where nothing is due (R18, R216, R292, R372, R409,
R430), and the transitions of the mode that need no command (R17, R18). -/

namespace Sys2Proof.Machine

/-! ### What follows a command where nothing is due -/

theorem finishAll_none (s : State) (pred : Cmd → Bool) (status : Nat) (results : List Word)
    (h : (s.eng.cmds.all fun c => !(c.phase == .running && pred c)) = true) : finishAll s pred status results = s := by
  unfold finishAll
  generalize s.eng.cmds = l
  induction l with
  | nil => rfl
  | cons c l ih => rwa [List.foldl_cons, finishC_none s pred status results h]

/-- R397: no `MODE_SET` is at work, so none has its final reply. -/
theorem modeReply_none (s : State) (h : (s.eng.cmds.all fun c => !(c.phase == .running && isModeSet c)) = true) : modeReply s = s := by
  rw [modeReply, finishAll_none s isModeSet _ _ h, ite_self]

/-- R292, R295, R427: READY stands as it is, no handover is newly asked for, and no twin that was active before has a standby to tell. -/
theorem twinFollow_quiet (old s : State) (hready : syncReady s = s)
    (hho : (old.flag F.TWIN_STATUS_HO_PEND || !s.flag F.TWIN_STATUS_HO_PEND) = true)
    (hact : (twinRole s == 1 && linkUp s && twinRole old == 1) = false) : twinFollow old s = s := by
  have hnew : (!old.flag F.TWIN_STATUS_HO_PEND && s.flag F.TWIN_STATUS_HO_PEND) = false := by
    rw [← Bool.not_eq_true', Bool.not_and, Bool.not_not]
    exact hho
  simp only [twinFollow, hready, hnew, hact, Bool.false_eq_true, if_false]

/-- Settles O58: each part of `settle` leaves the state as it is, by its conjunct of `quiet`. -/
theorem settleQuiet : Obligations.SettleQuiet := by
  intro old s h
  simp only [quiet, Bool.and_eq_true, Bool.not_eq_true', beq_iff_eq (α := State), beq_iff_eq (α := Option _),
    beq_iff_eq (α := BitVec _)] at h
  obtain ⟨⟨⟨⟨⟨⟨⟨⟨⟨⟨⟨⟨hwork, hsub⟩, hoos⟩, hmode⟩, hreply⟩, harr⟩, hready⟩, hho⟩, hact⟩, hsusp⟩, hmarks⟩, htx⟩, hport⟩ := h
  calc settle old s
    _ = portOrder old (syncTxdis (suspensionEvents old (twinFollow old s))) := by
      rw [settle, workGuardFaults_idle old s hwork, workSpares_same old s hsub hoos, modeSettle_rests s hmode, modeReply_none s hreply,
        flushArrivals_none s harr]
    _ = portOrder old (syncTxdis s) := by rw [twinFollow_quiet old s hready hho hact, suspensionEvents_same old s hsusp hmarks]
    _ = s := by rw [syncTxdis_of_ok s htx, hport]

/-! ### A change of the mode (R18, R86, R106, R137) -/

/-- The mode register and its event, with what a change of the mode forgets. -/
def modeMarked (s : State) (m : Nat) : State :=
  ((secEvent (s.put F.SEC_STATE_MODE m) F.SEC_EVT_MODE_CHANGED 0).modSec fun x => { x with autoRet := false, toGuard := false }).modMarg
    fun x => { x with svcWork := false }

theorem setMode_same (s : State) (m : Nat) (h : s.mode = m) : setMode s m = s := if_pos h

/-- R86, R137: into COMMISSION and SERVICE the calibrations run on. -/
theorem setMode_keepsCals (s : State) (m : Nat) (hne : s.mode ≠ m) (hm : m = mCommission ∨ m = mService) :
    setMode s m = syncAssay (syncAllFineRun (modeMarked s m)) := by
  have hq : m ≠ mQuiescent := by rintro rfl; revert hm; decide
  simp only [setMode, if_neg hne, if_pos hm, if_neg hq, modeMarked]

/-- R106: into every other mode the calibrations are aborted; QUIESCENT does more to the pool. -/
theorem setMode_abortsCals (s : State) (m : Nat) (hne : s.mode ≠ m) (hm : ¬ (m = mCommission ∨ m = mService)) (hq : m ≠ mQuiescent) :
    setMode s m = syncAssay (syncAllFineRun (abortCals (modeMarked s m))) := by
  simp only [setMode, if_neg hne, if_neg hm, if_neg hq, modeMarked]

/-! ### RAMP is entered (R18) -/

theorem modSeq_ran_self (s : State) (hr : s.seq.ran = false) : (s.modSeq fun t => { t with ran := false }) = s :=
  modSeq_self s _ (by rw [← hr])

/-- A step in progress, or a rail enabled in QUIESCENT (log entry 81), asks for RAMP. -/
theorem rampEnter_due (s : State) (h : (anyStep s || quiescentLit s) = true) (hr : s.seq.ran = false) :
    rampEnter s =
      if s.security = secRetired then s
      else if s.mode = mService then setMode (abortWork s 6 true) mRamp
      else if s.mode = mGuard ∨ s.mode = mQuiescent then setMode s mRamp
      else s := by
  simp only [rampEnter, modSeq_ran_self s hr, hr, Bool.or_false, h, if_true]

theorem rampEnter_notDue (s : State) (h : (anyStep s || quiescentLit s) = false) (hr : s.seq.ran = false) : rampEnter s = s := by
  simp only [rampEnter, hr, Bool.or_false, h, Bool.false_eq_true, if_false]

theorem rampEnter_retired (s : State) (h : (anyStep s || quiescentLit s) = true) (hr : s.seq.ran = false) (hsec : s.security = secRetired) :
    rampEnter s = s := by
  rw [rampEnter_due s h hr, if_pos hsec]

theorem rampEnter_service (s : State) (h : (anyStep s || quiescentLit s) = true) (hr : s.seq.ran = false) (hsec : s.security ≠ secRetired)
    (hm : s.mode = mService) : rampEnter s = setMode (abortWork s 6 true) mRamp := by
  rw [rampEnter_due s h hr, if_neg hsec, if_pos hm]

theorem rampEnter_guard_or_quiescent (s : State) (h : (anyStep s || quiescentLit s) = true) (hr : s.seq.ran = false)
    (hsec : s.security ≠ secRetired) (hm : s.mode = mGuard ∨ s.mode = mQuiescent) : rampEnter s = setMode s mRamp := by
  have hsrv : s.mode ≠ mService := by
    intro e
    rw [e] at hm
    revert hm
    decide
  rw [rampEnter_due s h hr, if_neg hsec, if_neg hsrv, if_pos hm]

theorem quiescentLit_iff (s : State) : quiescentLit s = true ↔ s.mode = mQuiescent ∧ anyEnabled s = true := by
  rw [quiescentLit, Bool.and_eq_true, beq_iff_eq]

theorem quiescentLit_eq_false (s : State) (h : s.mode ≠ mQuiescent ∨ anyEnabled s = false) : quiescentLit s = false := by
  rw [← Bool.not_eq_true, quiescentLit_iff]
  rintro ⟨hm, he⟩
  exact h.elim (fun hn => hn hm) fun hn => Bool.false_ne_true (hn.symm.trans he)

/-! ### RAMP and GUARD are left (R18) -/

theorem rampLeave_step (s : State) (h : anyStep s = true) : rampLeave s = s := if_pos h

theorem rampLeave_ramp (s : State) (h : anyStep s = false) (hm : s.mode = mRamp) :
    rampLeave s = setMode s (if anyEnabled s then mGuard else mQuiescent) := by
  simp only [rampLeave, h, Bool.false_eq_true, if_false, if_pos hm]

theorem rampLeave_dark (s : State) (h : anyStep s = false) (hm : s.mode = mRamp ∨ s.mode = mGuard) (he : anyEnabled s = false) :
    rampLeave s = setMode s mQuiescent := by
  rcases hm with hm | hm
  · rw [rampLeave_ramp s h hm, he]
    rfl
  · have hne : s.mode ≠ mRamp := by rw [hm]; decide
    have hdark : s.mode = mGuard ∧ (!anyEnabled s) = true := ⟨hm, by rw [he]; rfl⟩
    simp only [rampLeave, h, Bool.false_eq_true, if_false, if_neg hne, if_pos hdark]

/-! ### SERVICE ends -/

theorem serviceOver_toGuard (s : State) (hm : s.mode = mService) (hw : workAtAll s = false) (hc : calsRun s = false)
    (hg : s.sec.toGuard = true) : serviceOver s = true := by
  simp only [serviceOver, hm, hw, hc, hg, beq_self_eq_true, Bool.not_false, Bool.and_true, Bool.true_or]

theorem modeSettle_serviceOver (s : State) (h : serviceOver s = true) : modeSettle s = rampLeave (rampEnter (setMode s mGuard)) := by
  rw [modeSettle, if_pos h]

/-- Settles O59: each clause is the equation of `rampEnter`, `rampLeave`, `modeSettle` or `setMode` for its case. -/
theorem modeTransitions : Obligations.ModeTransitions := by
  have hstep (s : State) (h : anyStep s = true) : (anyStep s || quiescentLit s) = true := by rw [h, Bool.true_or]
  refine ⟨?enter, ?retired, ?lit, ?service, ?notDue, rampLeave_step, ?guard, rampLeave_dark, ?serviceEnds, setMode_same, ?keeps, ?aborts⟩
  case enter => exact fun s h hr hsec hm => rampEnter_guard_or_quiescent s (hstep s h) hr hsec hm
  case retired => exact fun s h hr hsec => rampEnter_retired s (hstep s h) hr hsec
  case lit =>
    intro s _ hr hsec hm he
    have hlit : quiescentLit s = true := (quiescentLit_iff s).mpr ⟨hm, he⟩
    exact rampEnter_guard_or_quiescent s (by rw [hlit, Bool.or_true]) hr hsec (.inr hm)
  case service => exact fun s h hr hsec hm => rampEnter_service s (hstep s h) hr hsec hm
  case notDue =>
    intro s h hr hdark
    exact rampEnter_notDue s (by rw [h, quiescentLit_eq_false s hdark, Bool.or_false]) hr
  case guard =>
    intro s h hm he
    rw [rampLeave_ramp s h hm, if_pos he]
  case serviceEnds => exact fun s hm hw hc hg => modeSettle_serviceOver s (serviceOver_toGuard s hm hw hc hg)
  case keeps => exact fun s m _ hne hm => setMode_keepsCals s m hne hm
  case aborts =>
    intro s m hne hm
    obtain ⟨hcals, hq⟩ : ¬ (m = mCommission ∨ m = mService) ∧ m ≠ mQuiescent := by
      rcases hm with rfl | rfl | rfl | rfl <;> decide
    exact setMode_abortsCals s m hne hcals hq

end Sys2Proof.Machine
end

section
/-! The registers of the angle (spec/02_angle_and_clocks.md): the writes that select its input, its increment and its phase (R30, R35,
R52), HOP_STORE (R31), and the reads of the stamp (R24). -/

namespace Sys2Proof.Machine

/-! ### What a stored value leaves as it was -/

theorem written_rst (s : State) (a v : Nat) : (written s a v).rst = s.rst := by
  rcases written_eq s a v with e | ⟨w, e⟩ <;> rw [e]
  exact State.setReg_rst s _ w

theorem written_locked (s : State) (a v : Nat) (h : R.ANG_STATUS ≠ elementOf s a) : (written s a v).locked = s.locked :=
  written_flag s a v F.ANG_STATUS_LOCKED h

/-- The registers of the clocks and the angle are no window onto others. -/
theorem elementOf_angle (s : State) (a : Nat) (h : a < 0x0800) : elementOf s a = a := elementOf_self s a (by omega)

/-! ### The words that the rows RESEL and HOP_STORE write to ANG_CTRL -/

theorem reselWord_hopStoreBit (k : Nat) : bitOf (2 + 16 * k) 0 = false := by
  simp only [bitOf, beq_eq_false_iff_ne]
  omega

theorem reselWord_reselBit (k : Nat) : bitOf (2 + 16 * k) 1 = true := by
  simp only [bitOf, beq_iff_eq]
  omega

theorem hopStoreWord_hopStoreBit (k : Nat) : bitOf (1 + 16 * k) 0 = true := by
  simp only [bitOf, beq_iff_eq]
  omega

theorem hopStoreWord_reselBit (k : Nat) : bitOf (1 + 16 * k) 1 = false := by
  simp only [bitOf, beq_eq_false_iff_ne]
  omega

theorem regHook_resel (t : State) (old k : Nat) : regHook t R.ANG_CTRL old (2 + 16 * k) = angResel t := by
  simp only [regHook_angCtrl, reselWord_hopStoreBit, reselWord_reselBit, if_true, Bool.false_eq_true, if_false]

theorem regHook_hopStore (t : State) (old k : Nat) : regHook t R.ANG_CTRL old (1 + 16 * k) = hopStore t := by
  simp only [regHook_angCtrl, hopStoreWord_hopStoreBit, hopStoreWord_reselBit, if_true, Bool.false_eq_true, if_false]

/-! ### ANG_CFG (R30), the increments (R52) and the phase (R35) -/

theorem angCfgWritten_newSource (s : State) (old : Nat) (h : F.ANG_CFG_SRC.extract old ≠ s.get F.ANG_CFG_SRC) :
    angCfgWritten s old = selectSource s :=
  if_pos (bne_iff_ne.mpr h)

theorem angCfgWritten_sameSource (s : State) (old : Nat) (h : F.ANG_CFG_SRC.extract old = s.get F.ANG_CFG_SRC) :
    angCfgWritten s old = if angFree s then s.modAng fun a => { a with cfgEff := BitVec.ofNat 32 (s.reg R.ANG_CFG) } else s :=
  if_neg (by rw [h, bne_self_eq_false]; exact Bool.false_ne_true)

theorem angIncWrite_free (s : State) (v : Nat) (h : s.get F.ANG_CFG_SRC = 3) :
    angIncWrite s v = freeIncChanged (s.put F.ANG_FREE_INC_INC v) :=
  if_pos (beq_iff_eq.mpr h)

theorem angIncWrite_ignored (s : State) (v : Nat) (h : s.get F.ANG_CFG_SRC ≠ 3) : angIncWrite s v = s :=
  if_neg (mt beq_iff_eq.mp h)

theorem locked_put_phase (s : State) (v : Nat) : (s.put F.ANG_PHASE_OFFSET v).locked = s.locked :=
  State.flag_put_of_ne s F.ANG_PHASE_OFFSET F.ANG_STATUS_LOCKED v (by decide)

theorem angPhaseWrite_unlocked (s : State) (v : Nat) (h : s.locked = false) : angPhaseWrite s v = s.put F.ANG_PHASE_OFFSET v :=
  if_neg (by rw [locked_put_phase, h]; exact Bool.false_ne_true)

theorem angPhaseWrite_locked (s : State) (v : Nat) (h : s.locked = true) :
    angPhaseWrite s v = syncPhaseOk (syncInc ((s.put F.ANG_PHASE_OFFSET v).modAng fun a =>
      { a with phaseErr := toSigned 42 (ofSigned 42 (a.phaseErr +
          (((s.get F.ANG_PHASE_OFFSET : Nat) : Int) - (((s.put F.ANG_PHASE_OFFSET v).get F.ANG_PHASE_OFFSET : Nat) : Int)) * 2 ^ 22)) })) := by
  simp only [angPhaseWrite, locked_put_phase, h, if_true, State.modAng, State.put_ang]

/-- Settles O2: a write that nothing refuses stores its value, and the register's own operation acts on what is stored. -/
theorem angleWrites : Obligations.AngleWrites := by
  refine ⟨⟨?cfg, ?resel, ?inc, ?freeInc, ?unlocked, ?locked⟩, exec_angCfgWrite, exec_resel, exec_angIncWrite, exec_angFreeIncWrite,
    exec_angPhaseWrite⟩
  case cfg =>
    intro s p v h
    have hx : exec (.angCfgWrite p v) s = .next (settle s (angCfgWritten (written s R.ANG_CFG v.toNat) (s.reg R.ANG_CFG))) :=
      write_row (angCfgWritten · (s.reg R.ANG_CFG)) (exec_angCfgWrite s p v) h fun t => by
        rw [elementOf_angle s _ (by decide), regHook_angCfg]
    refine ⟨fun hsrc => ?_, fun hsrc hfree => ?_, fun hsrc hfree => ?_⟩
    · rw [hx, angCfgWritten_newSource _ _ hsrc]
    · rw [hx, angCfgWritten_sameSource _ _ hsrc, hfree, if_neg Bool.false_ne_true]
    · rw [hx, angCfgWritten_sameSource _ _ hsrc, if_pos hfree]
  case resel =>
    intro s p h
    exact write_row angResel (exec_resel s p) h fun t => regHook_resel t _ _
  case inc =>
    intro s p v h
    have hx : exec (.angIncWrite p v) s = .next (settle s (angIncWrite (written s R.ANG_INC v.toNat) v.toNat)) :=
      write_row (angIncWrite · v.toNat) (exec_angIncWrite s p v) h fun t => regHook_angInc t _ _
    have hsrc : (written s R.ANG_INC v.toNat).get F.ANG_CFG_SRC = s.get F.ANG_CFG_SRC :=
      written_get s _ _ _ (by rw [elementOf_angle s _ (by decide)]; decide)
    exact ⟨fun hfree => by rw [hx, angIncWrite_free _ _ (hsrc.trans hfree)],
      fun hfollow => by rw [hx, angIncWrite_ignored _ _ (hsrc.symm ▸ hfollow)]⟩
  case freeInc =>
    intro s p v h
    exact write_row (angFreeIncWrite · v.toNat) (exec_angFreeIncWrite s p v) h fun t => regHook_angFreeInc t _ _
  case unlocked =>
    intro s p v h hl
    rw [← written_locked s R.ANG_PHASE v.toNat (by rw [elementOf_angle s _ (by decide)]; decide)] at hl
    rw [write_row (angPhaseWrite · v.toNat) (exec_angPhaseWrite s p v) h fun t => regHook_angPhase t _ _,
      angPhaseWrite_unlocked _ _ hl]
  case locked =>
    intro s p v h hl
    rw [← written_locked s R.ANG_PHASE v.toNat (by rw [elementOf_angle s _ (by decide)]; decide)] at hl
    rw [write_row (angPhaseWrite · v.toNat) (exec_angPhaseWrite s p v) h fun t => regHook_angPhase t _ _,
      angPhaseWrite_locked _ _ hl]

/-! ### HOP_STORE (R31) -/

/-- HOP_IDX is stored by the write whose HOP_STORE acts. -/
theorem written_hopIdx (s : State) (k : Fin 8) : (written s R.ANG_CTRL (1 + 16 * k)).get F.ANG_CTRL_HOP_IDX = k := by
  obtain ⟨d, hd, hmask, hw1c⟩ : ∃ d, regDefAt R.ANG_CTRL = some d ∧ storedMask d R.ANG_CTRL = 0x70 ∧ d.w1c = 0 :=
    ⟨_, rfl, by decide, rfl⟩
  have hstored : (written s R.ANG_CTRL (1 + 16 * k)).get F.ANG_CTRL_HOP_IDX = F.ANG_CTRL_HOP_IDX.extract (1 + 16 * k) :=
    written_get_stored s _ _ d _ hd (elementOf_angle s _ (by decide)) (by decide) (by rw [hmask]; decide)
      (fun _ _ => by rw [hw1c, Nat.zero_testBit]) (by rw [hmask]; decide) (by rw [hw1c]; decide)
  rw [hstored]
  simp only [Field.extract, F.ANG_CTRL_HOP_IDX]
  omega

theorem hopStore_unlocked (s : State) (h : s.locked = false) : hopStore s = s :=
  if_neg (by rw [h]; exact Bool.false_ne_true)

theorem hopStore_locked (s : State) (k : Nat) (h : s.locked = true) (hk : s.get F.ANG_CTRL_HOP_IDX = k) :
    hopStore s = ((s.put (F.ANG_HOPk_PERIOD_PERIOD k) (s.get F.ANG_PERIOD_PERIOD)).put (F.ANG_HOPk_CTRL_BAND k)
      (s.get F.ANG_STATUS_BAND)).put (F.ANG_HOPk_CTRL_VALID k) 1 := by
  have hband : (s.put (F.ANG_HOPk_PERIOD_PERIOD k) (s.get F.ANG_PERIOD_PERIOD)).get F.ANG_STATUS_BAND = s.get F.ANG_STATUS_BAND :=
    State.get_put_of_ne _ _ _ _ (by
      simp only [F.ANG_STATUS_BAND, F.ANG_HOPk_PERIOD_PERIOD, R.ANG_STATUS, R.ANG_HOPk_PERIOD]
      omega)
  rw [hopStore, if_pos h]
  simp only [hk, hband]

/-- Settles O3: the entry that the same write names takes the band and the period, which the write leaves as they are. -/
theorem hopStore_row : Obligations.HopStore := by
  refine ⟨fun s p k h => ?_, exec_hopStore⟩
  have hx : exec (.hopStore p k) s = .next (settle s (hopStore (written s R.ANG_CTRL (1 + 16 * k)))) :=
    write_row hopStore (exec_hopStore s p k) h fun t => regHook_hopStore t _ _
  have hself : elementOf s R.ANG_CTRL = R.ANG_CTRL := elementOf_angle s _ (by decide)
  have hl : (written s R.ANG_CTRL (1 + 16 * k)).locked = s.locked := written_locked s _ _ (by rw [hself]; decide)
  refine ⟨fun hlocked => ?_, fun hfree => by rw [hx, hopStore_unlocked _ (hl.trans hfree)]⟩
  rw [hx, hopStore_locked _ k (hl.trans hlocked) (written_hopIdx s k), written_get s _ _ F.ANG_PERIOD_PERIOD (by rw [hself]; decide),
    written_get s _ _ F.ANG_STATUS_BAND (by rw [hself]; decide)]

/-! ### The reads of the stamp (R24) -/

/-- The stamp has 48 bits, and three flags stand above its high part. -/
theorem stampHiWord_lt (s : State) : stampHiWord s < 4294967296 := by
  have hstamp : s.ang.stamp.toNat < 281474976710656 := s.ang.stamp.isLt
  simp only [stampHiWord, stampHi]
  split <;> split <;> split <;> omega

theorem angStampRead_hi (s : State) (p : Port) : (angStampRead s p).latched p R.ANG_STAMP_HI = stampHiWord s := by
  rw [angStampRead, State.latched_latch_of_ne _ _ _ _ _ (by decide), State.latched_latch_self, Nat.mod_eq_of_lt (stampHiWord_lt s)]

theorem angStampRead_lo (s : State) (p : Port) : (angStampRead s p).latched p R.ANG_STAMP_LO = s.ang.stamp.toNat % 2 ^ 32 := by
  rw [angStampRead, State.latched_latch_self]
  exact Nat.mod_mod _ _

/-- The latch of a port is its own. -/
theorem latched_latch_otherPort (s : State) (p q : Port) (a b v : Nat) (h : q ≠ p) : (s.latch p a v).latched q b = s.latched q b := by
  cases p <;> cases q
  case host.host | ring.ring => exact absurd rfl h
  case host.ring | ring.host => simp [State.latched, State.latch, portIdx, vmod]

theorem angStampRead_otherPort (s : State) (p q : Port) (a : Nat) (h : q ≠ p) : (angStampRead s p).latched q a = s.latched q a := by
  rw [angStampRead, latched_latch_otherPort _ p q _ _ _ h, latched_latch_otherPort _ p q _ _ _ h]

theorem readRow_stampHi (s : State) (p : Port) : readRow s p R.ANG_STAMP_HI = (angStampRead s p).readBack p (stampHiWord s) := by
  have hlatch : latchReg R.ANG_STAMP_HI = false := by decide
  simp only [readRow, readReg, hlatch, Bool.false_eq_true, if_false, if_true, angStampRead_hi]

/-- Settles O4: a read of HI fills the latch of its port and answers from it, and a read of LO answers from it alone. -/
theorem stampReads : Obligations.StampReads := by
  refine ⟨?readHi, ?latch, ?readLo⟩
  case readHi =>
    intro s p
    rw [exec_angStampRead, readRow_stampHi]
  case latch => exact fun s p => ⟨angStampRead_lo s p, angStampRead_hi s p, fun q a => angStampRead_otherPort s p q a⟩
  case readLo =>
    intro s p
    have hlatch : latchReg R.ANG_STAMP_LO = true := by decide
    rw [readReg, if_pos hlatch]

end Sys2Proof.Machine
end

section
/-! The clocks (spec/02_angle_and_clocks.md R41 to R51, spec/16_hexip_ring.md R437): fallback and re-lock, and the failure and return of XIN. -/

namespace Sys2Proof.Machine

/-! ### Fallback (R44, R45) -/

/-- Power-on reset is the one phase that holds the clock logic. -/
theorem clocksRun_of_ne (s : State) (h : s.rst.phase ≠ .por) : clocksRun s = true := bne_iff_ne.mpr h

theorem enterFallback_fromPll (s : State) (h : s.flag F.CLK_STATUS_FALLBACK = false) :
    enterFallback s = pauseSounding (((((s.put F.CLK_STATUS_SYS_LOCK 0).put F.CLK_STATUS_RETURN_WAIT 0).modAng
      fun a => { a with relocking := true }).put F.CLK_STATUS_FALLBACK 1).event 22) false := by
  have hf : ((s.put F.CLK_STATUS_SYS_LOCK 0).put F.CLK_STATUS_RETURN_WAIT 0).flag F.CLK_STATUS_FALLBACK = false := by
    rw [State.flag_put_apart _ _ _ _ (by decide) (by decide), State.flag_put_apart _ _ _ _ (by decide) (by decide), h]
  simp only [enterFallback, State.modAng_flag, hf, Bool.false_eq_true, if_false]

theorem relock_runs (s : State) (h : s.rst.phase ≠ .por) : relock s = enterFallback (s.put F.CLK_CTRL_RELOCK 1) :=
  if_pos (clocksRun_of_ne s h)

theorem refReturn_runs (s : State) (h : s.rst.phase ≠ .por) (hx : s.flag F.CLK_STATUS_XIN_OK = true)
    (hr : s.flag F.CLK_STATUS_PLL_REF = true) :
    refReturn s = enterFallback ((s.put F.CLK_STATUS_PLL_REF 0).put F.CLK_CTRL_REF_RETURN 1) := by
  simp only [refReturn, clocksRun_of_ne s h, hx, hr, Bool.and_self, if_true]

/-- R42: REF_RETURN is without effect while XIN is not good or is in use. -/
theorem refReturn_idle (s : State) (h : s.flag F.CLK_STATUS_XIN_OK = false ∨ s.flag F.CLK_STATUS_PLL_REF = false) :
    refReturn s = s := by
  rw [refReturn]
  rcases h with h | h <;> simp only [h, Bool.and_false, Bool.false_and, Bool.false_eq_true, if_false]

theorem lossOfLock_locked (s : State) (h : s.flag F.CLK_STATUS_SYS_LOCK = true) :
    lossOfLock s = enterFallback (((s.put F.CLK_STATUS_LOL_SEEN 1).addSat F.CLK_LOL_CNT_COUNT).raise 33 0 1 0 0) :=
  if_pos h

theorem overspeed_onPll (s : State) (h : s.flag F.CLK_STATUS_FALLBACK = false) :
    overspeed s = enterFallback ((s.put F.CLK_STATUS_OVERSPEED 1).raise 34 0 1 0 0) :=
  if_neg (by rw [h]; exact Bool.false_ne_true)

theorem pllLock_onFallback (s : State) (h : s.rst.phase ≠ .por) (hf : s.flag F.CLK_STATUS_FALLBACK = true)
    (hl : s.flag F.CLK_STATUS_SYS_LOCK = false) (hr : s.get F.CLK_STATUS_PLL_REF ≠ 4) :
    pllLock s = (s.put F.CLK_STATUS_SYS_LOCK 1).put F.CLK_STATUS_RETURN_WAIT 1 := by
  simp only [pllLock, clocksRun_of_ne s h, hf, hl, bne_iff_ne.mpr hr, Bool.not_false, Bool.and_self, if_true]

/-- R44 step 4, on a device that has entered fallback: EV23 tells of the return. -/
theorem fallbackReturn_relocked (s : State) (hw : s.flag F.CLK_STATUS_RETURN_WAIT = true) (hr : s.ang.relocking = true) :
    fallbackReturn s = resumeSounding (markAfterReturn (syncInc
      ((((((((s.put F.CLK_STATUS_RETURN_WAIT 0).put F.CLK_STATUS_FALLBACK 0).put F.CLK_CTRL_RELOCK 0).put
        F.CLK_CTRL_REF_RETURN 0).endCond 33 0).endCond 34 0).event 23).modAng
          fun a => { a with fbFreq := 0, relocking := false }))) false := by
  rw [fallbackReturn, if_pos hw]
  simp only [State.endCond_ang, State.put_ang, hr, if_true]

theorem bandSearchRetry_onFallback (s : State) (h : s.flag F.CLK_STATUS_FALLBACK = true) :
    bandSearchRetry s = (s.put F.CLK_STATUS_SYS_LOCK 0).put F.CLK_STATUS_RETURN_WAIT 0 :=
  if_pos h

theorem fallbackMeasure_onFallback (s : State) (freq : Nat) (h : s.rst.phase ≠ .por) (hf : s.flag F.CLK_STATUS_FALLBACK = true) :
    fallbackMeasure s freq = syncInc ((s.put F.CLK_FB_MEAS_FREQ freq).modAng fun a => { a with fbFreq := freq }) := by
  simp only [fallbackMeasure, clocksRun_of_ne s h, hf, Bool.and_self, if_true]

/-! ### XIN (R42, R49, R50) -/

/-- R49: what a failure of XIN marks, TCLK running from XIN before it. -/
def xinLost (s : State) : State :=
  (((s.put F.CLK_STATUS_XIN_OK 0).put F.CLK_STATUS_TCLK_ON_RC 1).put F.CLK_STATUS_TCLK_GAP 1).raiseOnce 36 0 1 0 0

theorem xinLost_pllRef (s : State) : (xinLost s).get F.CLK_STATUS_PLL_REF = s.get F.CLK_STATUS_PLL_REF := by
  rw [xinLost, State.raiseOnce_get, State.get_put_apart _ _ _ _ (by decide) (by decide),
    State.get_put_apart _ _ _ _ (by decide) (by decide), State.get_put_apart _ _ _ _ (by decide) (by decide)]

theorem xinLost_ringRefEn (s : State) : (xinLost s).flag F.CLK_CFG_RING_REF_EN = s.flag F.CLK_CFG_RING_REF_EN := by
  rw [xinLost, State.raiseOnce_flag, State.flag_put_of_ne _ _ _ _ (by decide), State.flag_put_of_ne _ _ _ _ (by decide),
    State.flag_put_of_ne _ _ _ _ (by decide)]

theorem tclkOnRc_xinFails (s : State) : (s.put F.CLK_STATUS_XIN_OK 0).flag F.CLK_STATUS_TCLK_ON_RC = s.flag F.CLK_STATUS_TCLK_ON_RC :=
  State.flag_put_apart _ _ _ _ (by decide) (by decide)

theorem xinFailure_onXin (s : State) (symbols : BitVec 3) (hx : s.flag F.CLK_STATUS_XIN_OK = true)
    (ht : s.flag F.CLK_STATUS_TCLK_ON_RC = false) :
    xinFailure s symbols = if s.get F.CLK_STATUS_PLL_REF = 0 then loseReference (xinLost s) symbols else xinLost s := by
  rw [← xinLost_pllRef s, xinFailure, if_pos hx]
  simp only [tclkOnRc_xinFails, ht, Bool.false_eq_true, if_false, xinLost]
  rfl

/-- R50: on the RC already, with the PLLs on a ring port, XIN alone is marked. -/
theorem xinFailure_onRc (s : State) (symbols : BitVec 3) (hx : s.flag F.CLK_STATUS_XIN_OK = true)
    (ht : s.flag F.CLK_STATUS_TCLK_ON_RC = true) (hr : s.get F.CLK_STATUS_PLL_REF ≠ 0) :
    xinFailure s symbols = (s.put F.CLK_STATUS_XIN_OK 0).raiseOnce 36 0 1 0 0 := by
  have hr' : (s.put F.CLK_STATUS_XIN_OK 0).get F.CLK_STATUS_PLL_REF ≠ 0 := by
    rwa [State.get_put_apart _ _ _ _ (by decide) (by decide)]
  rw [xinFailure, if_pos hx]
  simp only [tclkOnRc_xinFails, ht, if_true, State.raiseOnce_get, if_neg hr']

theorem loseReference_toRing (s : State) (symbols : BitVec 3) (i : Nat) (he : s.flag F.CLK_CFG_RING_REF_EN = true)
    (hi : ((below 3).find? fun i => symbols.getLsbD i) = some i) :
    loseReference s symbols = enterFallback (s.put F.CLK_STATUS_PLL_REF (i + 1)) := by
  simp only [loseReference, he, hi, if_true]

theorem loseReference_toNone (s : State) (symbols : BitVec 3)
    (h : s.flag F.CLK_CFG_RING_REF_EN = false ∨ ((below 3).find? fun i => symbols.getLsbD i) = none) :
    loseReference s symbols = serdesLoss (enterFallback (s.put F.CLK_STATUS_PLL_REF 4)) := by
  have hnone : (if s.flag F.CLK_CFG_RING_REF_EN then (below 3).find? fun i => symbols.getLsbD i else none) = none := by
    rcases h with h | h <;> rw [h]
    · rfl
    · exact ite_self _
  simp only [loseReference, hnone]

theorem tclkReturn_runs (s : State) (us : Nat) (h : s.rst.phase ≠ .por) :
    tclkReturn s us = if 1000 ≤ us then ((s.put F.CLK_STATUS_XIN_OK 1).put F.CLK_STATUS_TCLK_ON_RC 0).endCond 36 0
      else s.put F.CLK_STATUS_XIN_OK 1 :=
  if_pos (clocksRun_of_ne s h)

/-! ### The SerDes PLL (R437, R51) -/

theorem serdesLoss_locked (s : State) (h : s.flag F.CLK_STATUS_SERDES_LOCK = true) :
    serdesLoss s = syncTxdis ((s.put F.CLK_STATUS_SERDES_LOCK 0).raise 35 0 1 0 0) :=
  if_pos h

theorem serdesLock_runs (s : State) (h : s.rst.phase ≠ .por) (hr : s.get F.CLK_STATUS_PLL_REF ≠ 4) :
    serdesLock s = syncTxdis ((s.put F.CLK_STATUS_SERDES_LOCK 1).endCond 35 0) := by
  simp only [serdesLock, clocksRun_of_ne s h, bne_iff_ne.mpr hr, Bool.and_self, if_true]

/-! ### The rows that write CLK_CTRL -/

theorem written_clkCtrl_flag (s : State) (v : Nat) (f : Field) (h : f.addr ≠ R.CLK_CTRL) :
    (written s R.CLK_CTRL v).flag f = s.flag f :=
  written_flag s _ _ f (by rwa [elementOf_angle s _ (by decide)])

theorem exec_relock_stored (s : State) (p : Port) (h : writable s p R.CLK_CTRL 1 = true) :
    exec (.relock p) s = .next (settle s (relock (written s R.CLK_CTRL 1))) :=
  write_row relock (exec_relock s p) h fun t => regHook_clkCtrl t _ 1

theorem exec_refReturn_stored (s : State) (p : Port) (h : writable s p R.CLK_CTRL 2 = true) :
    exec (.refReturn p) s = .next (settle s (refReturn (written s R.CLK_CTRL 2))) :=
  write_row refReturn (exec_refReturn s p) h fun t => regHook_clkCtrl t _ 2

/-- Settles O5: each row is its operation with what follows it, and the operation takes the branch that the state gives it. -/
theorem clocks : Obligations.Clocks := by
  refine ⟨⟨?relock, ?refReturn, ?refIdle, ?loss, ?overspeed, ?lock, ?back, ?retry, ?measure⟩, enterFallback_fromPll,
    ⟨?xin, ?tclk, ?serdesLoss, ?serdesLock, ?xinOk, ?onRc⟩, exec_relock, exec_refReturn, exec_pllLossOfLock,
    exec_systemClockOverspeed, exec_systemPllLock, exec_fallbackReturn, exec_bandSearchRetry, exec_fallbackMeasure, exec_xinFailure,
    exec_tclkReturn, exec_serdesPllLossOfLock, exec_serdesPllLock⟩
  case relock =>
    intro s p h hr
    rw [exec_relock_stored s p h, relock_runs _ (by rwa [written_rst])]
  case refReturn =>
    intro s p h hr hx hp
    rw [← written_clkCtrl_flag s 2 _ (by decide)] at hx hp
    rw [exec_refReturn_stored s p h, refReturn_runs _ (by rwa [written_rst]) hx hp]
  case refIdle =>
    intro s p h hx
    rw [← written_clkCtrl_flag s 2 F.CLK_STATUS_XIN_OK (by decide), ← written_clkCtrl_flag s 2 F.CLK_STATUS_PLL_REF (by decide)] at hx
    rw [exec_refReturn_stored s p h, refReturn_idle _ hx]
  case loss => exact fun s h => by rw [exec_pllLossOfLock, lossOfLock_locked s h]
  case overspeed => exact fun s h => by rw [exec_systemClockOverspeed, overspeed_onPll s h]
  case lock => exact fun s h hf hl hr => by rw [exec_systemPllLock, pllLock_onFallback s h hf hl hr]
  case back => exact fun s hw hr => by rw [exec_fallbackReturn, fallbackReturn_relocked s hw hr]
  case retry => exact fun s h => by rw [exec_bandSearchRetry, bandSearchRetry_onFallback s h]
  case measure => exact fun s freq h hf => by rw [exec_fallbackMeasure, fallbackMeasure_onFallback s _ h hf]
  case xin =>
    intro s symbols hx ht
    refine ⟨fun i hr he hi => ?_, fun hr hnone => ?_, fun hr => ?_⟩
    · rw [exec_xinFailure, xinFailure_onXin s symbols hx ht, if_pos hr, loseReference_toRing _ _ i (by rwa [xinLost_ringRefEn]) hi, xinLost]
    · rw [exec_xinFailure, xinFailure_onXin s symbols hx ht, if_pos hr, loseReference_toNone _ _ (by rwa [xinLost_ringRefEn]), xinLost]
    · rw [exec_xinFailure, xinFailure_onXin s symbols hx ht, if_neg hr, xinLost]
  case tclk => exact fun s us h hus => by rw [exec_tclkReturn, tclkReturn_runs s us h, if_pos hus]
  case serdesLoss => exact fun s h => by rw [exec_serdesPllLossOfLock, serdesLoss_locked s h]
  case serdesLock => exact fun s h hr => by rw [exec_serdesPllLock, serdesLock_runs s h hr]
  case xinOk => exact fun s us h hus => by rw [exec_tclkReturn, tclkReturn_runs s us h, if_neg (Nat.not_le.mpr hus)]
  case onRc => exact fun s symbols hx ht hr => by rw [exec_xinFailure, xinFailure_onRc s symbols hx ht hr]

end Sys2Proof.Machine
end

section
/-! The reference edges of the angle (spec/02_angle_and_clocks.md R25 to R34, R530, R531): what a level on an input brings, what an edge does
in an acquisition and in lock, and holdover. -/

namespace Sys2Proof.Machine

@[simp] theorem State.modAng_ang (s : State) (f : AngleState → AngleState) : (s.modAng f).ang = f s.ang := rfl

theorem edgeShare_modAng (s : State) (f : AngleState → AngleState) : edgeShare (s.modAng f) = edgeShare s := rfl

/-! ### Levels (R25) -/

theorem levelTaken_change (pin : Option Bool) (level : Bool) (held : Nat) (hp : pin ≠ some level) (hh : 16 ≤ held) :
    levelTaken pin level held = true := by
  rw [levelTaken, Bool.and_eq_true, decide_eq_true_eq, bne_iff_ne]
  exact ⟨hh, hp⟩

theorem referencePin_short (s : State) (spacing : Nat) (level : Bool) (held : Nat) (h : levelTaken s.ang.pin level held = false) :
    referencePin s spacing level held = s.modAng fun a => { a with gap := a.gap + spacing } := by
  simp only [referencePin, h, Bool.not_false, if_true, State.modAng]

theorem referencePin_otherEdge (s : State) (spacing : Nat) (level : Bool) (held : Nat) (h : levelTaken s.ang.pin level held = true)
    (hl : level ≠ activeLevel s) :
    referencePin s spacing level held = s.modAng fun a => { a with pin := some level, gap := a.gap + spacing } := by
  simp only [referencePin, h, Bool.not_true, Bool.false_eq_true, if_false, beq_iff_eq, if_neg hl, State.modAng]

theorem referencePin_activeEdge (s : State) (spacing held : Nat) (h : levelTaken s.ang.pin (activeLevel s) held = true) :
    referencePin s spacing (activeLevel s) held =
      referenceEdge (s.modAng fun a => { a with pin := some (activeLevel s), gap := 0 }) (s.ang.gap + spacing) := by
  simp only [referencePin, h, Bool.not_true, Bool.false_eq_true, if_false, beq_self_eq_true, if_true]

theorem altPinChange_short (s : State) (spacing : Nat) (level : Bool) (held : Nat) (h : levelTaken s.ang.altPin level held = false) :
    altPinChange s spacing level held = s.modAng fun a => { a with altGap := a.altGap + spacing } := by
  simp only [altPinChange, h, Bool.not_false, if_true, State.modAng]

theorem altPinChange_otherEdge (s : State) (spacing : Nat) (level : Bool) (held : Nat) (h : levelTaken s.ang.altPin level held = true)
    (hl : level ≠ activeLevel s) :
    altPinChange s spacing level held = s.modAng fun a => { a with altPin := some level, altGap := a.altGap + spacing } := by
  simp only [altPinChange, h, Bool.not_true, Bool.false_eq_true, if_false, beq_iff_eq, if_neg hl, State.modAng]

theorem altPinChange_activeEdge (s : State) (spacing held : Nat) (h : levelTaken s.ang.altPin (activeLevel s) held = true) :
    altPinChange s spacing (activeLevel s) held =
      altEdge (s.modAng fun a => { a with altPin := some (activeLevel s), altGap := 0 }) (s.ang.altGap + spacing) := by
  simp only [altPinChange, h, Bool.not_true, Bool.false_eq_true, if_false, beq_self_eq_true, if_true]

/-! ### The second input (R28) -/

/-- R28: the conditions under which the edges of ANGREF_ALT are judged. -/
def altJudged (s : State) : Prop :=
  s.get F.ANG_CFG_SRC = 0 ∧ s.get F.ANG_STATUS_ACTIVE_SRC = 0 ∧ angEff s F.ANG_CFG_ALT_FAILOVER = 1 ∧ s.locked = true

theorem altEdge_judged (s : State) (k : Nat) (h : altJudged s) :
    altEdge s k = if gateOf s k = some 1 then
        s.modAng fun a => { a with altGood := min 8 (a.altGood + 1), altIdle := 0, altAt := a.stamp }
      else s.modAng fun a => { a with altGood := 0 } := by
  obtain ⟨hsrc, hact, halt, hl⟩ := h
  simp only [altEdge, hsrc, hact, halt, hl, beq_self_eq_true, Bool.and_self, if_true]
  split
  case h_1 hg => rw [if_pos hg]
  case h_2 hg => rw [if_neg hg]

theorem altPinChange_judged (s : State) (spacing held : Nat) (h : levelTaken s.ang.altPin (activeLevel s) held = true)
    (hj : altJudged s) :
    altPinChange s spacing (activeLevel s) held = if gateOf s (s.ang.altGap + spacing) = some 1 then
        s.modAng fun a =>
          { a with altPin := some (activeLevel s), altGap := 0, altGood := min 8 (a.altGood + 1), altIdle := 0, altAt := a.stamp }
      else s.modAng fun a => { a with altPin := some (activeLevel s), altGap := 0, altGood := 0 } := by
  rw [altPinChange_activeEdge s spacing held h]
  exact altEdge_judged _ _ hj

/-! ### An edge in an acquisition (R29, R30) -/

theorem referenceEdge_free (s : State) (k : Nat) (h : angFree s = true) : referenceEdge s k = s := if_pos h

theorem referenceEdge_acquiring (s : State) (k : Nat) (q : Acq) (hf : angFree s = false) (hq : s.ang.acq = some q) :
    referenceEdge s k = acquireEdge s q k := by
  simp only [referenceEdge, hf, Bool.false_eq_true, if_false, hq]

theorem acquireEdge_first (s : State) (q : Acq) (k : Nat) (h : q.edgeSeen = false) :
    acquireEdge s q k = s.modAng fun a => { a with took := true, acq := some { q with edgeSeen := true }, sinceAcc := some 0 } := by
  simp only [acquireEdge, h, Bool.not_false, if_true]

theorem acquireEdge_outOfRange (s : State) (q : Acq) (k : Nat) (h : q.edgeSeen = true) (hr : periodInRange (k * edgeShare s) = false) :
    acquireEdge s q k = rangeFault (countStray s) := by
  simp only [acquireEdge, h, hr, Bool.not_true, Bool.not_false, Bool.false_eq_true, if_false, if_true]

theorem acquireEdge_measures (s : State) (q : Acq) (k : Nat) (h : q.edgeSeen = true) (hr : periodInRange (k * edgeShare s) = true)
    (hm : ∀ m, q.meas = some m → within05 k m = false) :
    acquireEdge s q k = takeMeasurement (s.modAng fun a =>
      { a with took := true, sinceAcc := some 0, cfgEff := BitVec.ofNat 32 (s.reg R.ANG_CFG) }) k := by
  simp only [acquireEdge, h, hr, Bool.not_true, Bool.false_eq_true, if_false]
  split
  case h_1 => rfl
  case h_2 m hq => rw [hm m hq, if_neg Bool.false_ne_true]

theorem acquisitionComplete_agrees (s : State) (spacing m : Nat) (hq : s.ang.acq = some ⟨true, some m⟩)
    (hr : periodInRange (spacing * edgeShare s) = true) (hm : within05 spacing m = true) :
    acquisitionComplete s spacing = lockAcquired (s.modAng fun a => { a with pin := some (activeLevel s), gap := 0 }) (256 * m) := by
  rw [acquisitionComplete]
  simp only [State.modAng_ang, edgeShare_modAng, hq, hr, hm, Bool.and_self, if_true]

/-! ### An edge outside every gate (R26, R27) -/

theorem edgeShare_countStray (s : State) : edgeShare (countStray s) = edgeShare s := by
  rw [edgeShare, countStray, State.addSat_get_of_ne _ _ _ _ (by decide), edgeShare]

theorem countStray_ang (s : State) : (countStray s).ang = s.ang := State.addSat_ang s _ _

/-- The first stray, or one that does not agree with the last, is kept as the last. -/
theorem strayEdge_kept (s : State) (k : Nat) (h : ∀ q, s.ang.lastStray = some q → within05 k q = false) :
    strayEdge s k = (countStray s).modAng fun a => { a with lastStray := some k } := by
  rw [strayEdge]
  simp only [countStray_ang]
  split
  case h_1 q hq => rw [h q hq, if_neg Bool.false_ne_true]
  case h_2 => rfl

theorem strayEdge_frequencyChange (s : State) (k q : Nat) (hq : s.ang.lastStray = some q) (hk : within05 k q = true)
    (hr : periodInRange (k * edgeShare s) = true) :
    strayEdge s k = takeMeasurement (((countStray s).modAng fun a => { a with lastStray := none, sinceAcc := some 0 }).event 18) k := by
  rw [strayEdge]
  simp only [countStray_ang, hq, hk, edgeShare_countStray, hr, if_true]

theorem strayEdge_outOfRange (s : State) (k q : Nat) (hq : s.ang.lastStray = some q) (hk : within05 k q = true)
    (hr : periodInRange (k * edgeShare s) = false) :
    strayEdge s k = rangeFault ((countStray s).modAng fun a => { a with lastStray := none }) := by
  rw [strayEdge]
  simp only [countStray_ang, hq, hk, edgeShare_countStray, hr, if_true, Bool.false_eq_true, if_false]

/-! ### An edge in lock or in holdover (R26, R32) -/

section
variable (s : State) (k t : Nat) (hf : angFree s = false) (hq : s.ang.acq = none) (ht : s.ang.sinceAcc = some t)
include hf hq ht

theorem referenceEdge_tracking : referenceEdge s k = gateEdge s (t + k) k := by
  simp only [referenceEdge, hf, Bool.false_eq_true, if_false, hq, ht]

theorem referenceEdge_stray (hg : gateOf s (t + k) = none) :
    referenceEdge s k = strayEdge (s.modAng fun a => { a with sinceAcc := some (t + k) }) k := by
  rw [referenceEdge_tracking s k t hf hq ht, gateEdge]
  simp only [hg]

theorem referenceEdge_gatedOutOfRange (n : Nat) (hg : gateOf s (t + k) = some n)
    (hr : spacingInRange ((t + k) * edgeShare s) n = false) :
    referenceEdge s k = rangeFault ((countStray (s.modAng fun a => { a with sinceAcc := some (t + k), lastStray := none })).modAng
      fun a => { a with lastStray := some k }) := by
  rw [referenceEdge_tracking s k t hf hq ht, gateEdge]
  simp only [hg, hr, Bool.false_eq_true, if_false]
  rw [strayEdge_kept _ k fun q (h : none = some q) => nomatch h]

theorem referenceEdge_gated (n : Nat) (hg : gateOf s (t + k) = some n) (hr : spacingInRange ((t + k) * edgeShare s) n = true) :
    referenceEdge s k = acceptEdge s (t + k) n := by
  rw [referenceEdge_tracking s k t hf hq ht, gateEdge]
  simp only [hg, hr, if_true]

end

/-- R32: a gated edge locks a PLL that is out of lock. -/
theorem acceptEdge_relocks (s : State) (t n : Nat) (h : s.holdover = true ∨ s.locked = false) :
    acceptEdge s t n = lockOnEdge (ageAlt s n) (trackPeriod s t n) := by
  have hc : ((ageAlt s n).holdover || !(ageAlt s n).locked) = true := by
    rw [Bool.or_eq_true, Bool.not_eq_true']
    exact h
  rw [acceptEdge, if_pos hc]
  rfl

/-- R26, R531: a gated edge moves the period of a PLL in lock. -/
theorem acceptEdge_tracks (s : State) (t n : Nat) (hh : s.holdover = false) (hl : s.locked = true) :
    acceptEdge s t n = alignToEdge (((ageAlt s n).modAng fun a =>
      { a with took := true, sinceAcc := some 0, lastStray := none, base := incOfPeriod (trackPeriod s t n * edgeShare s)
               cfgEff := BitVec.ofNat 32 (s.reg R.ANG_CFG) }).put F.ANG_PERIOD_PERIOD (trackPeriod s t n)) := by
  have hc : ¬ ((ageAlt s n).holdover || !(ageAlt s n).locked) = true := by
    rw [Bool.or_eq_true, Bool.not_eq_true', not_or, Bool.not_eq_true, Bool.not_eq_false]
    exact ⟨hh, hl⟩
  rw [acceptEdge, if_neg hc]
  rfl

/-! ### The counters of edges (R243) -/

/-- A pin's edge starts as not taken. -/
def edgeStart (s : State) : State := s.modAng fun a => { a with took := false }

theorem edgeAndTally_of_edgeAndSet (s u : State) (f : State → State) (h : edgeAndSet (edgeStart s) f = u) :
    edgeAndTally s f = if u.ang.took && decide (u.get F.ANG_CFG_SRC < 2) then u.modTally fun y => { y with refEdge := true } else u := by
  subst h
  rfl

/-- What an edge does counts only from the state in which it is not taken yet. -/
theorem edgeAndTally_congr (s : State) (f g : State → State) (h : f (edgeStart s) = g (edgeStart s)) :
    edgeAndTally s f = edgeAndTally s g := by
  have hset : edgeAndSet (edgeStart s) f = edgeAndSet (edgeStart s) g := by rw [edgeAndSet, edgeAndSet, h]
  rw [edgeAndTally_of_edgeAndSet s _ f hset, edgeAndTally_of_edgeAndSet s _ g rfl]

/-- An accepted edge outside an acquisition is told to the counters. -/
theorem edgeAndTally_accepted (s u : State) (f : State → State) (hfu : f (edgeStart s) = u) (hq : s.flag F.ANG_STATUS_ACQUIRE = false)
    (htook : u.ang.took = true) (hsrc : u.get F.ANG_CFG_SRC < 2) :
    edgeAndTally s f = u.modTally fun y => { y with refEdge := true } := by
  have hset : edgeAndSet (edgeStart s) f = u := by
    rw [edgeAndSet, hfu]
    exact if_neg (by rw [edgeStart, State.modAng_flag, hq]; exact Bool.false_ne_true)
  rw [edgeAndTally_of_edgeAndSet s u f hset, htook, decide_eq_true hsrc, Bool.and_self, if_pos rfl]

/-- An edge that is not taken is told to no counter. -/
theorem edgeAndTally_notTaken (s u : State) (f : State → State) (hfu : f (edgeStart s) = u)
    (hq : u.flag F.ANG_STATUS_ACQUIRE = s.flag F.ANG_STATUS_ACQUIRE) (htook : u.ang.took = false) : edgeAndTally s f = u := by
  have hset : edgeAndSet (edgeStart s) f = u := by
    rw [edgeAndSet, hfu]
    exact if_neg (by rw [edgeStart, State.modAng_flag, hq, Bool.and_not_self]; exact Bool.false_ne_true)
  rw [edgeAndTally_of_edgeAndSet s u f hset, htook, Bool.false_and, if_neg Bool.false_ne_true]

theorem edgeAndTally_short (s : State) (spacing : Nat) (level : Bool) (held : Nat) (h : levelTaken s.ang.pin level held = false) :
    edgeAndTally s (referencePin · spacing level held) = s.modAng fun a => { a with took := false, gap := a.gap + spacing } :=
  edgeAndTally_notTaken s _ _ (referencePin_short (edgeStart s) spacing level held h) rfl rfl

theorem edgeAndTally_otherEdge (s : State) (spacing : Nat) (level : Bool) (held : Nat) (h : levelTaken s.ang.pin level held = true)
    (hl : level ≠ activeLevel s) :
    edgeAndTally s (referencePin · spacing level held) =
      s.modAng fun a => { a with took := false, pin := some level, gap := a.gap + spacing } :=
  edgeAndTally_notTaken s _ _ (referencePin_otherEdge (edgeStart s) spacing level held h hl) rfl rfl

theorem edgeAndTally_completes (s : State) (spacing m : Nat) (hq : s.ang.acq = some ⟨true, some m⟩)
    (hr : periodInRange (spacing * edgeShare s) = true) (hm : within05 spacing m = true) :
    edgeAndTally s (acquisitionComplete · spacing) = edgeAndTally s fun t =>
      lockAcquired (t.modAng fun a => { a with pin := some (activeLevel t), gap := 0 }) (256 * m) :=
  edgeAndTally_congr s _ _ (acquisitionComplete_agrees (edgeStart s) spacing m hq hr hm)

theorem angFree_pin (s : State) (h : s.get F.ANG_CFG_SRC < 2) : angFree s = false := by
  rw [angFree, Bool.or_eq_false_iff, Bool.and_eq_false_iff, beq_eq_false_iff_ne, beq_eq_false_iff_ne]
  omega

/-! ### Holdover (R28, R32, R34) -/

/-- R28: the conditions under which the PLL moves to ANGREF_ALT in place of holdover. -/
theorem holdoverEntry_failsOver (s : State) (hf : angFree s = false) (hr : s.angRun = true) (hh : s.holdover = false)
    (hj : altJudged s) (ha : altReady s = true) : holdoverEntry s = altFailover s := by
  obtain ⟨hsrc, hact, halt, hl⟩ := hj
  simp only [holdoverEntry, hf, hr, hh, hl, hact, hsrc, halt, ha, beq_self_eq_true, Bool.and_self, Bool.not_true, Bool.or_self,
    Bool.false_eq_true, if_false, if_true]

theorem holdoverEntry_enters (s : State) (hf : angFree s = false) (hr : s.angRun = true) (hh : s.holdover = false)
    (hn : ¬ (altJudged s ∧ altReady s = true)) :
    holdoverEntry s = syncInc (((((s.put F.ANG_STATUS_LOCKED 0).put F.ANG_STATUS_PHASE_OK 0).put F.ANG_STATUS_HOLDOVER 1).put
      F.ANG_STATUS_ALIGNED 0).modAng (fun a => { a with phaseErr := 0 }) |>.event 16) := by
  have hno : ¬ (s.locked && s.get F.ANG_STATUS_ACTIVE_SRC == 0 && s.get F.ANG_CFG_SRC == 0 &&
      angEff s F.ANG_CFG_ALT_FAILOVER == 1 && altReady s) = true := by
    simp only [Bool.and_eq_true, beq_iff_eq]
    exact fun ⟨⟨⟨⟨hl, hact⟩, hsrc⟩, halt⟩, ha⟩ => hn ⟨⟨hsrc, hact, halt, hl⟩, ha⟩
  rw [holdoverEntry, if_neg (by simp only [hf, hr, hh, Bool.not_true, Bool.or_self]; exact Bool.false_ne_true), if_neg hno]

theorem holdoverExpired_limit (s : State) (hh : s.holdover = true) (hm : s.flag F.ANG_HOLD_MAX_CYCLES = true)
    (he : s.flag F.ANG_STATUS_HOLD_EXP = false) : holdoverExpired s = (s.put F.ANG_STATUS_HOLD_EXP 1).raise 37 0 1 0 0 := by
  simp only [holdoverExpired, hh, hm, he, Bool.not_false, Bool.and_self, if_true]

/-! ### The rows -/

theorem exec_referenceEdge_ring (s : State) (spacing : Nat) (level : Bool) (held : Nat) (h : s.get F.ANG_CFG_SRC = 2) :
    exec (.referenceEdge spacing level held) s = .next (settle s s) := by
  rw [exec_referenceEdge, if_pos (beq_iff_eq.mpr h)]

theorem exec_referenceEdge_pin (s : State) (spacing : Nat) (level : Bool) (held : Nat) (h : s.get F.ANG_CFG_SRC ≠ 2) :
    exec (.referenceEdge spacing level held) s =
      .next (settle s (syncAligned (edgeAndTally s (referencePin · spacing level held)))) := by
  rw [exec_referenceEdge, if_neg (mt beq_iff_eq.mp h)]

/-- What a slew toward an edge leaves as it was. -/
theorem alignToEdge_src (s : State) : (alignToEdge s).get F.ANG_CFG_SRC = s.get F.ANG_CFG_SRC :=
  alignToEdge_get s _ (not_evtRegs _ _ (by decide) (.inl (by decide))) (by decide) (by decide) (.inl (by decide))

/-- R26, R531: the state in which an active edge of a PLL in lock has been taken, `k` ANG clocks after the last accepted one. -/
def edgeAccepted (s : State) (k n : Nat) : State :=
  alignToEdge (((ageAlt s n).modAng fun a =>
    { a with took := true, pin := some (activeLevel s), gap := 0, sinceAcc := some 0, lastStray := none
             base := incOfPeriod (trackPeriod s k n * edgeShare s), cfgEff := BitVec.ofNat 32 (s.reg R.ANG_CFG) }).put
    F.ANG_PERIOD_PERIOD (trackPeriod s k n))

theorem edgeAccepted_took (s : State) (k n : Nat) : (edgeAccepted s k n).ang.took = true := by
  rw [edgeAccepted, alignToEdge_took, State.put_ang, State.modAng_ang]

theorem edgeAccepted_src (s : State) (k n : Nat) : (edgeAccepted s k n).get F.ANG_CFG_SRC = s.get F.ANG_CFG_SRC := by
  rw [edgeAccepted, alignToEdge_src, State.get_put_of_ne _ _ _ _ (by decide), State.modAng_get, ageAlt, State.modAng_get]

/-- The active level has been taken on the pin, and its edge is not judged yet. -/
def pinTaken (s : State) : State := (edgeStart s).modAng fun a => { a with pin := some (activeLevel s), gap := 0 }

theorem edgeShare_pinTaken (s : State) : edgeShare (pinTaken s) = edgeShare s := rfl

theorem referencePin_accepted (s : State) (spacing held t n : Nat) (hsrc : s.get F.ANG_CFG_SRC < 2)
    (hp : s.ang.pin ≠ some (activeLevel s)) (hh : 16 ≤ held) (hq : s.ang.acq = none) (ht : s.ang.sinceAcc = some t)
    (hg : gateOf s (t + (s.ang.gap + spacing)) = some n)
    (hr : spacingInRange ((t + (s.ang.gap + spacing)) * edgeShare s) n = true) (hl : s.locked = true) (hho : s.holdover = false) :
    referencePin (edgeStart s) spacing (activeLevel s) held = edgeAccepted s (t + (s.ang.gap + spacing)) n := by
  have htaken : levelTaken (edgeStart s).ang.pin (activeLevel (edgeStart s)) held = true := levelTaken_change _ _ held hp hh
  rw [← edgeShare_pinTaken s] at hr
  calc referencePin (edgeStart s) spacing (activeLevel s) held
    _ = referenceEdge (pinTaken s) (s.ang.gap + spacing) := referencePin_activeEdge (edgeStart s) spacing held htaken
    _ = acceptEdge (pinTaken s) (t + (s.ang.gap + spacing)) n :=
      referenceEdge_gated (pinTaken s) _ t (angFree_pin s hsrc) hq ht n hg hr
    _ = edgeAccepted s (t + (s.ang.gap + spacing)) n := acceptEdge_tracks (pinTaken s) _ n hho hl

/-- Settles O1: each row is its operation with what follows it; an edge that the counters see is followed from `edgeStart`, and the
clauses of `referenceEdge` are its equations, branch by branch. -/
theorem angleReference : Obligations.AngleReference := by
  refine ⟨⟨?accepted, ?complete, ?holdover, ?expired, ?altEdge, ?noEdge, exec_referenceEdge_ring, ?failover, ?altNoEdge⟩,
    ⟨referenceEdge_free, ?acquiring, ?tracking⟩, exec_referenceEdge, exec_acquisitionComplete, exec_holdoverEntry, exec_holdoverExpired,
    exec_angrefAltEdge⟩
  case accepted =>
    intro s spacing held t n hsrc hp hh hq ht hg hr hl hho ha
    have hpin := referencePin_accepted s spacing held t n hsrc hp hh hq ht hg hr hl hho
    rw [exec_referenceEdge_pin s _ _ _ (by omega), edgeAndTally_accepted s _ _ hpin ha (edgeAccepted_took ..)
      (by rwa [edgeAccepted_src]), edgeAccepted]
  case complete =>
    intro s spacing m hq hr hm
    rw [exec_acquisitionComplete, edgeAndTally_completes s spacing m hq hr hm]
  case holdover =>
    intro s hf hr hh hn
    rw [exec_holdoverEntry, holdoverEntry_enters s hf hr hh]
    rintro ⟨⟨hsrc, hact, halt, hl⟩, ha⟩
    simp only [hsrc, hact, halt, hl, ha, ne_eq, not_true_eq_false, Bool.true_eq_false, or_self] at hn
  case expired => exact fun s hh hm he => by rw [exec_holdoverExpired, holdoverExpired_limit s hh hm he]
  case altEdge =>
    intro s spacing held hp hh hsrc hact halt hl
    rw [exec_angrefAltEdge, altPinChange_judged s spacing held (levelTaken_change _ _ held hp hh) ⟨hsrc, hact, halt, hl⟩]
    exact ⟨fun hg => by rw [if_pos hg], fun hg => by rw [if_neg hg]⟩
  case noEdge =>
    intro s spacing level held hsrc
    refine ⟨fun h => ?_, fun h hl => ?_⟩
    · rw [exec_referenceEdge_pin s _ _ _ hsrc, edgeAndTally_short s spacing level held h]
    · rw [exec_referenceEdge_pin s _ _ _ hsrc, edgeAndTally_otherEdge s spacing level held h hl]
  case failover =>
    intro s hf hr hh hl hact hsrc halt ha
    rw [exec_holdoverEntry, holdoverEntry_failsOver s hf hr hh ⟨hsrc, hact, halt, hl⟩ ha, altFailover]
  case altNoEdge =>
    intro s spacing level held
    exact ⟨fun h => by rw [exec_angrefAltEdge, altPinChange_short s _ _ _ h],
      fun h hl => by rw [exec_angrefAltEdge, altPinChange_otherEdge s _ _ _ h hl]⟩
  case acquiring =>
    intro s k q hf hq
    rw [referenceEdge_acquiring s k q hf hq]
    exact ⟨acquireEdge_first s q k, acquireEdge_outOfRange s q k, acquireEdge_measures s q k⟩
  case tracking =>
    intro s k t hf hq ht
    refine ⟨?first, ?differs, ?change, ?rejected, ?gatedOutOfRange, ?relocks⟩
    case first =>
      intro hg hs
      rw [referenceEdge_stray s k t hf hq ht hg, strayEdge_kept _ k fun q h => by cases hs.symm.trans h]
    case differs =>
      intro q hg hs hk
      rw [referenceEdge_stray s k t hf hq ht hg, strayEdge_kept _ k fun r h => by cases hs.symm.trans h; exact hk]
    case change =>
      intro q hg hs hk hr
      rw [referenceEdge_stray s k t hf hq ht hg]
      exact strayEdge_frequencyChange _ k q hs hk hr
    case rejected =>
      intro q hg hs hk hr
      rw [referenceEdge_stray s k t hf hq ht hg]
      exact strayEdge_outOfRange _ k q hs hk hr
    case gatedOutOfRange => exact fun n hg hr => referenceEdge_gatedOutOfRange s k t hf hq ht n hg hr
    case relocks =>
      intro n hg hr hh
      rw [referenceEdge_gated s k t hf hq ht n hg hr, acceptEdge_relocks s _ n hh]

end Sys2Proof.Machine
end

section
/-! The comparators of the rail guard (spec/03_rail_guard.md R59 to R70): which filters count and what a count does, the settings that
reach a comparator, and the fault of filtered OV. -/

namespace Sys2Proof.Machine

/-! ### Which filters count (R63, R79, R80, R317) -/

/-- R79, R317: a filter stands still for its comparator's own proof and while the references move. -/
theorem filterFrozen_eq_false_iff (s : State) (n : Nat) (uv : Bool) :
    filterFrozen s n uv = false ↔ (∀ p, (s.gr n).proof = some p → p.uv ≠ uv) ∧ s.spare.moved = 0 := by
  rw [filterFrozen, Bool.or_eq_false_iff, decide_eq_false_iff_not, Nat.not_lt, Nat.le_zero]
  cases (s.gr n).proof with
  | none => simp only [reduceCtorEq, false_imp_iff, implies_true]
  | some p => simp only [Option.some.injEq, forall_eq', beq_eq_false_iff_ne]

theorem spareJoined_iff (s : State) (n : Nat) :
    spareJoined s n = true ↔ ∃ b, s.spare.sub = some b ∧ b.rail = n ∧ 3 ≤ b.step ∧ b.step < 6 := by
  rw [spareJoined]
  cases s.spare.sub with
  | none => simp only [Bool.false_eq_true, reduceCtorEq, false_and, exists_false]
  | some b => simp only [Bool.and_eq_true, beq_iff_eq, decide_eq_true_eq, and_assoc, Option.some.injEq, exists_eq_left']

theorem filterRuns_own_iff (s : State) (n : Nat) (uv : Bool) :
    filterRuns s n uv false = true ↔
      railUse s n = true ∧ (∀ p, (s.gr n).proof = some p → p.uv ≠ uv) ∧ s.spare.moved = 0 := by
  simp only [filterRuns, Bool.false_eq_true, if_false, Bool.and_eq_true, Bool.not_eq_true', filterFrozen_eq_false_iff]

theorem filterRuns_spare_iff (s : State) (n : Nat) (uv : Bool) :
    filterRuns s n uv true = true ↔
      railUse s n = true ∧ (∃ b, s.spare.sub = some b ∧ b.rail = n ∧ 3 ≤ b.step ∧ b.step < 6) ∧ s.spare.moved = 0 := by
  simp only [filterRuns, if_true, Bool.and_eq_true, beq_iff_eq, spareJoined_iff]

/-! ### What a count does (R63, R64) -/

/-- R63: F is a time in units of 100 ns, in edges of 97.65625 ns: 1.024 × F, rounded up. -/
theorem filterN_ceil (f : Nat) : 1000 * filterN f < 1024 * f + 1000 ∧ 1024 * f ≤ 1000 * filterN f := by
  rw [filterN]
  omega

section
variable {s : State} {n : Nat} {uv spare raw : Bool} {edges : Nat}
variable (hruns : filterRuns s n uv spare = true) (hraw : rawOut s n uv = raw)
include hruns hraw

theorem filterCount_reached (he : filterNeed s n uv raw ≤ edges) :
    filterCount s n uv spare raw edges = refreshOut (s.modGuard n fun g => g.setFilter uv spare raw 0) n := by
  simp only [filterCount, hruns, hraw, beq_self_eq_true, Bool.and_self, if_true, if_pos he]

/-- Before the filter's edges only the running count moves, of a filter whose output is at the other level. -/
theorem filterCount_counts (hout : (s.gr n).out uv spare ≠ raw) (he : edges < filterNeed s n uv raw) :
    filterCount s n uv spare raw edges = s.modGuard n fun g => g.setFilter uv spare (g.out uv spare) edges := by
  simp only [filterCount, hruns, hraw, beq_self_eq_true, Bool.and_self, if_true, if_neg (Nat.not_le.mpr he)]
  exact State.modGuard_congr s n _ _ (by rw [if_neg (mt beq_iff_eq.mp hout)])

end

/-! ### Settings (R61, R66) -/

theorem guardThreshWrite_next (s : State) (n : Nat) (new : GuardThr) (rest : List GuardThr) (h : (s.gr n).thrPend = new :: rest) :
    guardThreshWrite s n =
      let t := refreshRaw (checkOrder (s.modGuard n fun g => { g with old := g.old ++ [g.eff], eff := new, thrPend := rest }) n) n
      recount (recount (recount (recount t n false false) n true false) n false true) n true true := by
  rw [guardThreshWrite, h]

theorem guardChangeoverEnd_next (s : State) (n : Nat) (o : GuardThr) (rest : List GuardThr) (h : (s.gr n).old = o :: rest) :
    guardChangeoverEnd s n = refreshRaw (s.modGuard n fun g => { g with old := rest }) n := by
  rw [guardChangeoverEnd, h]

/-- R61: in a change-over a comparator trips and releases at the more protective of the two settings. -/
theorem levels_changeover (g : GuardRail) (o : GuardThr) (h : g.old = [o]) :
    ovTripLevel g = min g.eff.ov o.ov ∧ ovReleaseLevel g = min g.eff.ovRelease o.ovRelease ∧
      uvTripLevel g = max g.eff.uv o.uv ∧ uvReleaseLevel g = max g.eff.uvRelease o.uvRelease := by
  simp only [ovTripLevel, ovReleaseLevel, uvTripLevel, uvReleaseLevel, h, List.foldl_cons, List.foldl_nil, and_self]

/-! ### Filtered OV (R69, R70) -/

/-- R69: filtered OV has been counted, and its event has arisen. -/
def ovNoted (s : State) (n : Nat) : State := (s.addSat (F.RAILn_GUARD_CNT_OV_CNT n)).evtBit (F.RAILn_GUARD_EVT_OV_SEEN n) 64

theorem ovNoted_reg (s : State) (n a : Nat) (hc : a ≠ R.RAILn_GUARD_CNT n) (he : a ≠ R.RAILn_GUARD_EVT n) (ha : a ∉ evtRegs 64) :
    (ovNoted s n).reg a = s.reg a := by
  rw [ovNoted, State.evtBit_reg _ _ _ _ ha he]
  exact State.reg_put_of_ne s _ _ _ hc

theorem ovNoted_enLatch (s : State) (n : Nat) (h : n < 64) : enLatch (ovNoted s n) n = enLatch s n := by
  have hreg : (ovNoted s n).reg (R.RAILn_GUARD_STATUS n) = s.reg (R.RAILn_GUARD_STATUS n) := by
    refine ovNoted_reg s n _ ?_ ?_ (not_evtRegs _ _ (by decide) ?_) <;>
      simp only [R.RAILn_GUARD_STATUS, R.RAILn_GUARD_CNT, R.RAILn_GUARD_EVT] <;> omega
  simp only [enLatch, State.flag, State.get, F.RAILn_GUARD_STATUS_EN_LATCH, hreg]

/-- The Hallmark's reaction sets stand above the rails' registers. -/
theorem ovNoted_fatalReg (s : State) (n a : Nat) (h : n < 64) (ha : 0x6900 ≤ a) : (ovNoted s n).reg a = s.reg a := by
  refine ovNoted_reg s n a ?_ ?_ (not_evtRegs a _ (by decide) (.inr (.inr ha))) <;>
    simp only [R.RAILn_GUARD_CNT, R.RAILn_GUARD_EVT] <;> omega

theorem ovNoted_guardClass (s : State) (n : Nat) (h : n < 64) :
    guardClass (ovNoted s n) R.HM_FATAL_OV_LO R.HM_FATAL_OV_HI n = guardClass s R.HM_FATAL_OV_LO R.HM_FATAL_OV_HI n := by
  have hnamed : fatalNamed (ovNoted s n) R.HM_FATAL_OV_LO R.HM_FATAL_OV_HI n = fatalNamed s R.HM_FATAL_OV_LO R.HM_FATAL_OV_HI n := by
    rw [fatalNamed, ovNoted_fatalReg s n _ h (by decide), ovNoted_fatalReg s n _ h (by decide), fatalNamed]
  rw [guardClass, hnamed, guardClass]

theorem raiseOv_eq (s : State) (n : Nat) (h : n < 64) :
    raiseOv s n = if enLatch s n then (ovNoted s n).raise 0 0 (guardClass s R.HM_FATAL_OV_LO R.HM_FATAL_OV_HI n) n n
      else (ovNoted s n).raise 1 0 1 n n := by
  rw [← ovNoted_enLatch s n h, ← ovNoted_guardClass s n h]
  rfl

/-- Settles O6: each row is its operation with what follows it, a filter takes the branch of `filterCount` that its edges give it, and the
laws of the filter values, of OV and of the levels are those above. -/
theorem guardComparators : Obligations.GuardComparators := by
  refine ⟨⟨exec_guardRawChange, ?assert, ?deassert, ?setting, ?changeover, ?assertCount, ?deassertCount⟩,
    fun f _ => ⟨filterN_ceil f, rfl⟩, raiseOv_eq, ⟨filterRuns_own_iff, filterRuns_spare_iff, levels_changeover⟩,
    exec_guardFilterAssert, exec_guardFilterDeassert, exec_guardThreshWrite, exec_guardChangeoverEnd⟩
  case assert => exact fun s n uv spare edges hr hw he => by rw [exec_guardFilterAssert, filterAssert, filterCount_reached hr hw he]
  case deassert => exact fun s n uv spare edges hr hw he => by rw [exec_guardFilterDeassert, filterDeassert, filterCount_reached hr hw he]
  case setting => exact fun s n new rest h => by rw [exec_guardThreshWrite, guardThreshWrite_next s n new rest h]
  case changeover => exact fun s n o rest h => by rw [exec_guardChangeoverEnd, guardChangeoverEnd_next s n o rest h]
  case assertCount =>
    intro s n uv spare edges hr hw ho he
    rw [exec_guardFilterAssert, filterAssert, filterCount_counts hr hw (by rw [ho]; decide) he]
  case deassertCount =>
    intro s n uv spare edges hr hw ho he
    rw [exec_guardFilterDeassert, filterDeassert, filterCount_counts hr hw (by rw [ho]; decide) he]

end Sys2Proof.Machine
end

section
/-! The pins of a rail (spec/03_rail_guard.md R56, R67, R68, R71 to R78, R97): common mode, power good, the EN latch and its ball. -/

namespace Sys2Proof.Machine

/-! ### What a status bit leaves as it was -/

/-- The bits of `RAILn_GUARD_STATUS` are apart. -/
theorem statusBit_put (s : State) (n v : Nat) {i j : Nat} (hj : j < 32) (h : i ≠ j) :
    (s.put ⟨R.RAILn_GUARD_STATUS n, i, 1⟩ v).flag ⟨R.RAILn_GUARD_STATUS n, j, 1⟩ = s.flag ⟨R.RAILn_GUARD_STATUS n, j, 1⟩ :=
  State.flag_put_apart _ _ _ _ hj (by dsimp only; omega)

theorem guardCfg_put_status (s : State) (n v : Nat) (f g : Field) (hf : f.addr = R.RAILn_GUARD_STATUS n)
    (hg : g.addr = R.RAILn_GUARD_CFG n) : (s.put f v).get g = s.get g := by
  refine State.get_put_of_ne _ _ _ _ ?_
  rw [hf, hg]
  simp only [R.RAILn_GUARD_STATUS, R.RAILn_GUARD_CFG]
  omega

theorem guardCfgFlag_put_status (s : State) (n v : Nat) (f g : Field) (hf : f.addr = R.RAILn_GUARD_STATUS n)
    (hg : g.addr = R.RAILn_GUARD_CFG n) : (s.put f v).flag g = s.flag g := by
  rw [State.flag, guardCfg_put_status s n v f g hf hg, State.flag]

theorem railUse_put_status (s : State) (n v : Nat) (f : Field) (hf : f.addr = R.RAILn_GUARD_STATUS n) :
    railUse (s.put f v) n = railUse s n :=
  guardCfgFlag_put_status s n v f _ hf rfl

theorem pgFilterN_put_status (s : State) (n v : Nat) (f : Field) (hf : f.addr = R.RAILn_GUARD_STATUS n) :
    pgFilterN (s.put f v) n = pgFilterN s n := by
  rw [pgFilterN, guardCfg_put_status s n v f _ hf rfl, pgFilterN]

/-! ### Common mode (R56, R68) -/

/-- SNSNn is out of its band: CM_ERR stands, and the sample in progress has seen it. -/
def cmErrSet (s : State) (n : Nat) : State :=
  (s.modFine n fun g => { g with cmNow := true }).put (F.RAILn_GUARD_STATUS_CM_ERR n) 1

theorem cmErrSet_railUse (s : State) (n : Nat) : railUse (cmErrSet s n) n = railUse s n :=
  railUse_put_status _ n 1 _ rfl

/-- R68: with USE = 0 CM_ERR alone (log entry 93). -/
theorem commonModeError_new (s : State) (n : Nat) (h : s.flag (F.RAILn_GUARD_STATUS_CM_ERR n) = false) :
    commonModeError s n =
      if railUse s n then ((cmErrSet s n).evtBit (F.RAILn_GUARD_EVT_CM_SEEN n) 68).raise 5 0 1 n n else cmErrSet s n := by
  rw [← cmErrSet_railUse, commonModeError, h, Bool.false_and, if_neg Bool.false_ne_true]
  rfl

/-! ### Power good (R71, R72) -/

theorem pgFilterChange_rawOnly (s : State) (n : Nat) (level : Bool) (edges : Nat)
    (h : railUse s n = false ∨ s.flag (F.RAILn_GUARD_CFG_PG_USE n) = false) :
    pgFilterChange s n level edges = s.putB (F.RAILn_GUARD_STATUS_PG_RAW n) level := by
  refine if_pos ?_
  rw [State.putB, railUse_put_status _ _ _ _ rfl, guardCfgFlag_put_status _ n _ _ _ rfl rfl]
  rcases h with h | h
  · rw [h, Bool.not_false, Bool.true_or, Bool.true_or]
  · rw [h, Bool.not_false, Bool.or_true, Bool.true_or]

theorem enLatch_pgJudged (s : State) (n : Nat) (raw good : Bool) :
    enLatch ((s.putB (F.RAILn_GUARD_STATUS_PG_RAW n) raw).putB (F.RAILn_GUARD_STATUS_PG_GOOD n) good) n = enLatch s n :=
  (statusBit_put _ n _ (by decide) (by decide)).trans (statusBit_put s n _ (by decide) (by decide))

/-- On a rail that is on, the filtered input is judged for PG lost; EV70 is a rail's that is off. -/
theorem pgFilterChange_enabled (s : State) (n : Nat) (level : Bool) (edges : Nat) (hu : railUse s n = true)
    (hp : s.flag (F.RAILn_GUARD_CFG_PG_USE n) = true) (he : pgFilterN s n ≤ edges) (hl : enLatch s n = true) :
    pgFilterChange s n level edges = checkPgLost ((s.putB (F.RAILn_GUARD_STATUS_PG_RAW n) level).putB
      (F.RAILn_GUARD_STATUS_PG_GOOD n) (level != s.flag (F.RAILn_GUARD_CFG_PG_POL n))) n := by
  have hcfg (g : Field) (hg : g.addr = R.RAILn_GUARD_CFG n) : (s.putB (F.RAILn_GUARD_STATUS_PG_RAW n) level).flag g = s.flag g :=
    guardCfgFlag_put_status s n _ _ g rfl hg
  have huse : railUse (s.putB (F.RAILn_GUARD_STATUS_PG_RAW n) level) n = true := (hcfg _ rfl).trans hu
  have hpg := (hcfg (F.RAILn_GUARD_CFG_PG_USE n) rfl).trans hp
  have hpol := hcfg (F.RAILn_GUARD_CFG_PG_POL n) rfl
  have hedges : decide (edges < pgFilterN (s.putB (F.RAILn_GUARD_STATUS_PG_RAW n) level) n) = false := by
    rw [State.putB, pgFilterN_put_status _ _ _ _ rfl, decide_eq_false_iff_not, Nat.not_lt]
    exact he
  simp only [pgFilterChange, huse, hpg, hpol, hedges, Bool.not_true, Bool.or_self, Bool.false_eq_true, if_false, enLatch_pgJudged, hl,
    Bool.and_false, State.when]

/-! ### The ball ENn (R76) -/

section
variable (s : State) (n : Nat) (level : Bool)

theorem enPin_enDrive : (s.putB (F.RAILn_GUARD_STATUS_EN_PIN n) level).flag (F.RAILn_GUARD_STATUS_EN_DRIVE n) =
    s.flag (F.RAILn_GUARD_STATUS_EN_DRIVE n) :=
  statusBit_put s n _ (by decide) (by decide)

theorem enPin_enLevel : enLevel (s.putB (F.RAILn_GUARD_STATUS_EN_PIN n) level) n = enLevel s n := by
  have hlatch : enLatch (s.putB (F.RAILn_GUARD_STATUS_EN_PIN n) level) n = enLatch s n := statusBit_put s n _ (by decide) (by decide)
  rw [enLevel, hlatch, State.putB, guardCfgFlag_put_status _ n _ _ _ rfl rfl, enLevel]

theorem enReadback_unjudged (edges : Nat) (h : edges < 20 ∨ s.flag (F.RAILn_GUARD_STATUS_EN_DRIVE n) = false) :
    enReadback s n level edges = s.putB (F.RAILn_GUARD_STATUS_EN_PIN n) level := by
  refine if_pos ?_
  rwa [enPin_enDrive, Bool.or_eq_true, decide_eq_true_eq, Bool.not_eq_true']

variable {edges : Nat} (he : 20 ≤ edges) (hd : s.flag (F.RAILn_GUARD_STATUS_EN_DRIVE n) = true)
include he hd

/-- R76: a driven ball is judged from the twentieth edge on. -/
theorem enReadback_judged : enReadback s n level edges =
    let t := s.putB (F.RAILn_GUARD_STATUS_EN_PIN n) level
    if level = enLevel s n then (t.put (F.RAILn_GUARD_STATUS_EN_MISMATCH n) 0).endCond 4 n
    else if (s.flag (F.RAILn_GUARD_CFG_EN_OD n) && enLevel s n) = true then t
    else if (!railUse s n || s.condStands 4 n) = true then t.put (F.RAILn_GUARD_STATUS_EN_MISMATCH n) 1
    else ((t.put (F.RAILn_GUARD_STATUS_EN_MISMATCH n) 1).evtBit (F.RAILn_GUARD_EVT_EN_MISMATCH_SEEN n) 67).raise 4 0 1 n n := by
  have hjudged : ¬ (decide (edges < 20) ||
      !(s.putB (F.RAILn_GUARD_STATUS_EN_PIN n) level).flag (F.RAILn_GUARD_STATUS_EN_DRIVE n)) = true := by
    rw [enPin_enDrive, hd, decide_eq_false (Nat.not_lt.mpr he)]
    exact Bool.false_ne_true
  have hod : (s.putB (F.RAILn_GUARD_STATUS_EN_PIN n) level).flag (F.RAILn_GUARD_CFG_EN_OD n) = s.flag (F.RAILn_GUARD_CFG_EN_OD n) :=
    guardCfgFlag_put_status _ n _ _ _ rfl rfl
  have huse : railUse ((s.putB (F.RAILn_GUARD_STATUS_EN_PIN n) level).put (F.RAILn_GUARD_STATUS_EN_MISMATCH n) 1) n = railUse s n :=
    (railUse_put_status _ n _ _ rfl).trans (railUse_put_status s n _ _ rfl)
  have hcond : ((s.putB (F.RAILn_GUARD_STATUS_EN_PIN n) level).put (F.RAILn_GUARD_STATUS_EN_MISMATCH n) 1).condStands 4 n =
      s.condStands 4 n := by
    simp only [State.condStands, State.put_flt, State.putB_flt]
  simp only [enReadback, if_neg hjudged, enPin_enLevel, beq_iff_eq, hod, huse, hcond]

theorem enReadback_match (hl : level = enLevel s n) : enReadback s n level edges =
    ((s.putB (F.RAILn_GUARD_STATUS_EN_PIN n) level).put (F.RAILn_GUARD_STATUS_EN_MISMATCH n) 0).endCond 4 n := by
  rw [enReadback_judged s n level he hd]
  exact if_pos hl

/-- An open drain that is let go may read either level. -/
theorem enReadback_mismatch (hl : level ≠ enLevel s n) (hod : s.flag (F.RAILn_GUARD_CFG_EN_OD n) = false ∨ enLevel s n = false)
    (hu : railUse s n = true) (hc : s.condStands 4 n = false) : enReadback s n level edges =
      (((s.putB (F.RAILn_GUARD_STATUS_EN_PIN n) level).put (F.RAILn_GUARD_STATUS_EN_MISMATCH n) 1).evtBit
        (F.RAILn_GUARD_EVT_EN_MISMATCH_SEEN n) 67).raise 4 0 1 n n := by
  have hdriven : (s.flag (F.RAILn_GUARD_CFG_EN_OD n) && enLevel s n) = false := Bool.and_eq_false_iff.mpr hod
  simp only [enReadback_judged s n level he hd, if_neg hl, hdriven, hu, hc, Bool.not_true, Bool.or_self, Bool.false_eq_true, if_false]

end

/-! ### The EN latch (R67, R74, R97) -/

theorem latchOn_off (s : State) (n : Nat) (hl : enLatch s n = false) (hd : onDropped s = false) :
    latchOn s n = (let t := (syncEnPin (s.put (F.RAILn_GUARD_STATUS_EN_LATCH n) 1) n)
      let t := (t.modGuard n fun g => { g with onAt := t.tclk }).modFine n fun g => { g with slopeArm := true }
      if t.flag (F.RAILn_GUARD_STATUS_UV_OUT n) then checkPgLost t n else checkPgLost (armUv t n) n) :=
  if_neg (by rw [hl, hd, Bool.or_self]; exact Bool.false_ne_true)

theorem latchOn_idle (s : State) (n : Nat) (h : enLatch s n = true ∨ onDropped s = true) : latchOn s n = s :=
  if_pos (Bool.or_eq_true_iff.mpr h)

theorem latchOff_on (s : State) (n : Nat) (h : enLatch s n = true) :
    latchOff s n = checkPgLost ((((syncEnPin (s.put (F.RAILn_GUARD_STATUS_EN_LATCH n) 0) n).modFine n fun g =>
      { g with slopeArm := false }).put (F.RAILn_FINE_STATE_SLOPE_ACTIVE n) 0).put (F.RAILn_GUARD_STATUS_UV_ARMED n) 0) n :=
  if_pos h

theorem latchOff_idle (s : State) (n : Nat) (h : enLatch s n = false) : latchOff s n = s :=
  if_neg (by rw [h]; exact Bool.false_ne_true)

theorem regHook_enSet (t : State) (n : Fin 64) (old : Nat) : regHook t (R.RAILn_EN_CTRL n) old 1 = latchOn t n := by
  rw [regHook_enCtrl, if_neg (by decide), if_pos (by decide)]

/-- EN_CLR acts alone, and wins over EN_SET in one write. -/
theorem regHook_enClr (t : State) (n : Fin 64) (old v : Nat) (h : bitOf v 1 = true) :
    regHook t (R.RAILn_EN_CTRL n) old v = latchOff t n := by
  rw [regHook_enCtrl, if_pos h]

/-- Settles O7: each row is its operation with what follows it, on the branch that the state gives it; the rows of EN_CTRL store their
word and move the latch. -/
theorem railPins : Obligations.RailPins := by
  refine ⟨⟨?cmError, exec_senseCommonModeClear, ?pgUnused, ?pgEnabled, ?readback, ?enSet, ?enClr, ?offWins, ?cmUnused, ?unjudged⟩,
    ⟨latchOn_off, latchOn_idle, latchOff_on, latchOff_idle⟩, exec_senseCommonModeError, exec_pgFilterChange, exec_enReadbackMismatch,
    exec_enSet, exec_enClr⟩
  case cmError => exact fun s n hu h => by rw [exec_senseCommonModeError, commonModeError_new s n h, if_pos hu, cmErrSet]
  case pgUnused => exact fun s n level edges h => by rw [exec_pgFilterChange, pgFilterChange_rawOnly s n level edges h]
  case pgEnabled =>
    intro s n level edges hu hp he hl
    rw [exec_pgFilterChange, pgFilterChange_enabled s n level edges hu hp he hl]
  case readback =>
    intro s n level edges he hd
    refine ⟨fun hl => ?_, fun hl hod hu hc => ?_⟩
    · rw [exec_enReadbackMismatch, enReadback_match s n level he hd hl]
    · rw [exec_enReadbackMismatch, enReadback_mismatch s n level he hd hl hod hu hc]
  case enSet => exact fun s p n h => write_row (latchOn · n) (exec_enSet s p n false) h fun t => regHook_enSet t n _
  case enClr => exact fun s p n h => write_row (latchOff · n) (exec_enClr s p n) h fun t => regHook_enClr t n _ 2 rfl
  case offWins =>
    intro s p n h
    rw [exec_enSet, if_pos rfl, writeRow_of_writable s p _ 3 h, regHook_enClr _ n _ 3 rfl]
  case cmUnused =>
    intro s n hu h
    rw [exec_senseCommonModeError, commonModeError_new s n h, hu, if_neg Bool.false_ne_true, cmErrSet]
  case unjudged => exact fun s n level edges h => by rw [exec_enReadbackMismatch, enReadback_unjudged s n level edges h]

end Sys2Proof.Machine
end

section
/-! Proofs of the guard path and slice substitution (spec/03_rail_guard.md R79, R80; spec/12_twins_spares.md R314 to R319). -/

namespace Sys2Proof.Machine

/-! ### A proof starts or is skipped (R79) -/

/-- R79: the codes by which the latest fine result lies on the safe side of a comparator's threshold. -/
def safeMargin (s : State) (n : Nat) (uv : Bool) (r : Int) : Int :=
  if uv then r - ((s.gr n).eff.uv : Nat) else (((s.gr n).eff.ov : Nat) : Int) - r

/-- R79: the code that a proof sets its threshold to lies outside codes 0 to 4,095. -/
def proofOutOfRange (uv : Bool) (r : Int) : Bool := if uv then decide (4095 < r + 32) else decide (r - 32 < 0)

theorem proofOutOfRange_eq_false (uv : Bool) (r : Int) (hu : uv = true → r + 32 ≤ 4095) (ho : uv = false → 0 ≤ r - 32) :
    proofOutOfRange uv r = false := by
  cases uv with
  | false => exact decide_eq_false (Int.not_lt.mpr (ho rfl))
  | true => exact decide_eq_false (Int.not_lt.mpr (hu rfl))

section
variable (s : State) (n : Nat) (uv : Bool) (hu : railUse s n = true) (hp : (s.gr n).proof = none)
variable (hf : s.flag (if uv then F.RAILn_GUARD_STATUS_UV_FAILED n else F.RAILn_GUARD_STATUS_OV_FAILED n) = false)
include hu hp hf

theorem proofStart_noResult (hc : proofCode s n = none) : proofStart s n uv = s.addSat (F.RAILn_PROOF_SKIP_CNT n) := by
  simp only [proofStart, hu, hp, hf, hc, Option.isSome_none, Bool.not_true, Bool.or_self, Bool.false_eq_true, if_false]

/-- With a fine result at hand a proof starts, unless the output stands asserted by right, or the proof would not tell. -/
theorem proofStart_result (r : Int) (hc : proofCode s n = some r) :
    proofStart s n uv =
      let stuck := rawOut s n uv && decide (32 ≤ safeMargin s n uv r)
      if (!stuck && (rawOut s n uv || s.flag (F.RAILn_GUARD_STATUS_SUBST n) || proofOutOfRange uv r)) = true then
        s.addSat (F.RAILn_PROOF_SKIP_CNT n)
      else s.modGuard n fun g => { g with proof := some ⟨uv, stuck, false⟩ } := by
  simp only [proofStart, hu, hp, hf, hc, Option.isSome_none, Bool.not_true, Bool.or_self, Bool.false_eq_true, if_false]
  rfl

theorem proofStart_deasserted (r : Int) (hc : proofCode s n = some r) (hraw : rawOut s n uv = false) :
    proofStart s n uv =
      if (s.flag (F.RAILn_GUARD_STATUS_SUBST n) || proofOutOfRange uv r) = true then s.addSat (F.RAILn_PROOF_SKIP_CNT n)
      else s.modGuard n fun g => { g with proof := some ⟨uv, false, false⟩ } := by
  simp only [proofStart_result s n uv hu hp hf r hc, hraw, Bool.false_and, Bool.not_false, Bool.true_and, Bool.false_or]

/-- An output asserted 32 codes or more on the safe side is stuck, and its proof starts all the same. -/
theorem proofStart_asserted (r : Int) (hc : proofCode s n = some r) (hraw : rawOut s n uv = true) :
    proofStart s n uv =
      if 32 ≤ safeMargin s n uv r then s.modGuard n fun g => { g with proof := some ⟨uv, true, false⟩ }
      else s.addSat (F.RAILn_PROOF_SKIP_CNT n) := by
  rw [proofStart_result s n uv hu hp hf r hc]
  by_cases h : 32 ≤ safeMargin s n uv r
  · simp only [hraw, h, decide_true, Bool.and_self, Bool.not_true, Bool.false_and, Bool.false_eq_true, if_false, if_true]
  · simp only [hraw, h, decide_false, Bool.and_false, Bool.not_false, Bool.true_or, Bool.and_self, if_true, if_false]

end

/-! ### The sample and the end of a proof -/

theorem proofSample_passes (s : State) (n : Nat) (uv : Bool) (h : (s.gr n).proof = some ⟨uv, false, false⟩) :
    proofSample s n true = ((s.modGuard n fun g => { g with proof := some ⟨uv, false, true⟩ }).put
      (if uv then F.RAILn_PROOF_UV_MISS n else F.RAILn_PROOF_OV_MISS n) 0).put (F.RAILn_PROOF_LAST_OK n) 1 := by
  rw [proofSample, h]
  rfl

theorem proofSample_misses (s : State) (n : Nat) (uv stuck : Bool) (h : (s.gr n).proof = some ⟨uv, stuck, false⟩) :
    proofSample s n false =
      (let miss := if uv then F.RAILn_PROOF_UV_MISS n else F.RAILn_PROOF_OV_MISS n
       let t := (((s.modGuard n fun g => { g with proof := some ⟨uv, stuck, true⟩ }).addSat miss).put (F.RAILn_PROOF_LAST_OK n) 0).evtBit
         (F.RAILn_GUARD_EVT_PROOF_FAIL n) 69
       if t.get miss = 3 then comparatorFailed t n uv else t) := by
  rw [proofSample, h]
  rfl

theorem proofEnd_sampled (s : State) (n : Nat) (uv stuck : Bool) (h : (s.gr n).proof = some ⟨uv, stuck, true⟩) :
    proofEnd s n = refreshRaw (s.modGuard n fun g => { g with proof := none }) n := by
  rw [proofEnd, h]
  exact if_pos rfl

/-! ### A substitution starts (R80, R109, R315) -/

/-- R314: the first slice has left the queue, and the start is told. -/
def sliceTaken (s : State) (rest : List (Nat × Option Bool)) : State :=
  (s.modSpare fun p => { p with slices := rest }).evtBit F.TWIN_EVT_SUB_START 140

/-- R80 step 1: spare `k` stands beside the rail's slice, with the coefficients derived from the worn slice's (R109). -/
def substBegun (s : State) (n k : Nat) : State :=
  let (t, o, g) := transferCoeffs (abortRailCal s n) n k
  let worn := coeffsInUse t n
  let t := ((t.putS (F.RAILn_CAL_OFFSET_OFFSET n) o).put (F.RAILn_CAL_GAIN_GAIN n) g).put (F.RAILn_CAL_STATUS_STATE n) 1
  let t := ((t.modSpare fun p => { p with sub := some ⟨n, k, 1⟩ }).put (F.SPAREk_STATUS_STATE k) 1).put (F.SPAREk_STATUS_RAIL k) n
  let t := (t.put (F.RAILn_GUARD_STATUS_SUBST n) 1).modGuard n fun g =>
    { g with spOv := false, spUv := false, cntSpOv := 0, cntSpUv := 0 }
  syncSpares (t.modFine n fun g => { g with outage := 1, worn := some worn })

section
variable (s : State) (ok : BitVec 8) (n : Nat) (cmp : Option Bool) (rest : List (Nat × Option Bool))
variable (hq : s.spare.slices = (n, cmp) :: rest) (hs : s.spare.sub = none) (hm : s.mode ≠ mHoldup) (t : State)
include hs hm

theorem subst_mayStart : ¬ (s.spare.sub.isSome || s.mode == mHoldup) = true := by
  rw [hs, Option.isSome_none, Bool.false_or, beq_iff_eq]
  exact hm

include hq

theorem substStart_found (k : Nat) (hp : pickSpare (sliceTaken s rest) n ok (freeSpares (sliceTaken s rest)) = (t, some k)) :
    substStart s ok = substBegun t n k := by
  rw [sliceTaken] at hp
  simp only [substStart, hq, if_neg (subst_mayStart s hs hm), hp]
  rfl

/-- R319: no spare passed its check. -/
theorem substStart_noSpare (hp : pickSpare (sliceTaken s rest) n ok (freeSpares (sliceTaken s rest)) = (t, none)) :
    substStart s ok = syncSpares (degradeSlice t n cmp) := by
  rw [sliceTaken] at hp
  simp only [substStart, hq, if_neg (subst_mayStart s hs hm), hp]

end

/-! ### The stages of a substitution (R80) -/

theorem substStep_next (s : State) (b : Subst) (h : s.spare.sub = some b) :
    substStep s =
      let t := s.modSpare fun p => { p with sub := some { b with step := b.step + 1 } }
      if b.step = 5 then substStep6 t b else if b.step = 6 then substStep7 t b else if b.step = 2 then refreshRaw t b.rail else t := by
  rw [substStep, h]

theorem substStep_timed (s : State) (b : Subst) (h : s.spare.sub = some b) (hlt : b.step < 5) (hne : b.step ≠ 2) :
    substStep s = s.modSpare fun p => { p with sub := some { b with step := b.step + 1 } } := by
  simp only [substStep_next s b h, if_neg (Nat.ne_of_lt hlt), if_neg (by omega : b.step ≠ 6), if_neg hne]

/-- Settles O8: each row is its operation with what follows it; a proof takes the branch that the raw output and the margin of the fine
result give it, a substitution that of `pickSpare`'s answer and of its step. -/
theorem guardProofs : Obligations.GuardProofs := by
  refine ⟨⟨?starts, ?skipped, ?passes, ?misses, ?ends, ?asserted⟩, ⟨?substitution, ?stages⟩, exec_guardProofStart,
    exec_guardProofSample, exec_guardProofEnd, exec_substitutionStart, exec_substitutionStep⟩
  case starts =>
    intro s n uv r hu hp hf hc hsub hhi hlo hraw
    rw [exec_guardProofStart, proofStart_deasserted s n uv hu hp hf r hc hraw, hsub, proofOutOfRange_eq_false uv r hhi hlo, Bool.or_self,
      if_neg Bool.false_ne_true]
  case skipped =>
    intro s n uv hu hp hf h
    rw [exec_guardProofStart]
    cases hc : proofCode s n with
    | none => rw [proofStart_noResult s n uv hu hp hf hc]
    | some r =>
      obtain ⟨hsub, hraw⟩ := h.resolve_left (by rw [hc]; exact Option.some_ne_none r)
      rw [proofStart_deasserted s n uv hu hp hf r hc hraw, hsub, Bool.true_or, if_pos rfl]
  case passes => exact fun s n uv h => by rw [exec_guardProofSample, proofSample_passes s n uv h]
  case misses => exact fun s n uv stuck h => by rw [exec_guardProofSample, proofSample_misses s n uv stuck h]
  case ends => exact fun s n uv stuck h => by rw [exec_guardProofEnd, proofEnd_sampled s n uv stuck h]
  case asserted =>
    intro s n uv r hu hp hf hc hraw
    rw [exec_guardProofStart, proofStart_asserted s n uv hu hp hf r hc hraw]
    exact ⟨fun h => by rw [if_pos (show 32 ≤ safeMargin s n uv r from h)],
      fun h => by rw [if_neg (show ¬ 32 ≤ safeMargin s n uv r from Int.not_le.mpr h)]⟩
  case substitution =>
    intro s ok n cmp rest hq hs hm
    rw [exec_substitutionStart]
    exact ⟨fun t k hp => by rw [substStart_found s ok n cmp rest hq hs hm t k hp, substBegun],
      fun t hp => by rw [substStart_noSpare s ok n cmp rest hq hs hm t hp]⟩
  case stages =>
    intro s b h
    rw [exec_substitutionStep]
    refine ⟨fun hlt hne => ?_, fun h5 => ?_, fun h6 => ?_, fun h2 => ?_⟩
    · rw [substStep_timed s b h hlt hne]
    · simp only [substStep_next s b h, h5, if_true]
    · simp only [substStep_next s b h, h6, if_true, if_neg (by decide : (6 : Nat) ≠ 5)]
    · simp only [substStep_next s b h, h2, if_true, if_neg (by decide : (2 : Nat) ≠ 5), if_neg (by decide : (2 : Nat) ≠ 6)]

end Sys2Proof.Machine
end

section
/-! The fine path (spec/04_rail_fine_path.md R87 to R93, R96, R105): what a sample gives, the writes of a rail's fine registers, and the
restarts on a sample boundary. -/

namespace Sys2Proof.Machine

/-! ### Samples (R87, R92, R93, R108) -/

/-- R92: the sample is clipped: the calibrated code or the output is beyond its range, or the modulator is in overload. -/
def sampleClips (s : State) (n : Nat) (raw : Int) : Bool :=
  (calibrate s n (clampInt codeMin codeMax raw)).2.2 || decide (raw < codeMin ∨ codeMax < raw) || (s.fr n).ovl.isSome

/-- R108: the sample carries SUBST = 1, as each does before step 7 of R80, and after it each until the spare's first valid one. -/
def sampleSubstituted (s : State) (n : Nat) (raw : Int) : Bool :=
  (s.fr n).outage == 1 ||
    ((s.fr n).outage == 2 && (decide (0 < (s.fr n).marks) || sampleClips s n raw || (windowFlags s n).2.2.1))

section
variable (s : State) (n : Nat) (raw : Int) (back quiet stim : Bool) (h : fineRun s n = true)
include h

theorem fineSample_delivered : (fineSample s n raw back quiet stim).2.delivered = true := by
  rw [fineSample, h]
  rfl

theorem fineSample_settling : (fineSample s n raw back quiet stim).2.settling = decide (0 < (s.fr n).marks) := by
  rw [fineSample, h]
  rfl

theorem fineSample_code : (fineSample s n raw back quiet stim).2.code = match (s.fr n).ovl with
    | some true => codeMin | some false => codeMax | none => (calibrate s n (clampInt codeMin codeMax raw)).2.1 := by
  rw [fineSample, h]
  rfl

theorem fineSample_valid : (fineSample s n raw back quiet stim).2.valid =
    (!decide (0 < (s.fr n).marks) && !sampleSubstituted s n raw && !sampleClips s n raw && !(windowFlags s n).2.2.1) := by
  rw [fineSample, h]
  rfl

end

theorem sampleClips_eq_false (s : State) (n : Nat) (raw : Int) :
    sampleClips s n raw = false ↔ (s.fr n).ovl = none ∧ (calibrate s n (clampInt codeMin codeMax raw)).2.2 = false ∧
      codeMin ≤ raw ∧ raw ≤ codeMax := by
  rw [sampleClips, Bool.or_eq_false_iff, Bool.or_eq_false_iff, decide_eq_false_iff_not, not_or, Int.not_lt, Int.not_lt,
    Option.isSome_eq_false_iff, Option.isNone_iff_eq_none, and_comm]

/-- Past step 7 a sample that is otherwise valid is no longer one of the substitution. -/
theorem sampleSubstituted_of_good (s : State) (n : Nat) (raw : Int) (hm : (s.fr n).marks = 0) (hc : sampleClips s n raw = false)
    (hcm : (windowFlags s n).2.2.1 = false) : sampleSubstituted s n raw = ((s.fr n).outage == 1) := by
  rw [sampleSubstituted, hm, hc, hcm, decide_eq_false (Nat.lt_irrefl 0), Bool.or_self, Bool.or_self, Bool.and_false, Bool.or_false]

theorem fineSample_valid_iff (s : State) (n : Nat) (raw : Int) (back quiet stim : Bool) (h : fineRun s n = true) :
    (fineSample s n raw back quiet stim).2.valid = true ↔ (s.fr n).marks = 0 ∧ (s.fr n).outage ≠ 1 ∧
      sampleClips s n raw = false ∧ (windowFlags s n).2.2.1 = false := by
  simp only [fineSample_valid s n raw back quiet stim h, Bool.and_eq_true, Bool.not_eq_true', decide_eq_false_iff_not, Nat.not_lt,
    Nat.le_zero]
  constructor
  · rintro ⟨⟨⟨hm, hs⟩, hc⟩, hcm⟩
    rw [sampleSubstituted_of_good s n raw hm hc hcm, beq_eq_false_iff_ne] at hs
    exact ⟨hm, hs, hc, hcm⟩
  · rintro ⟨hm, ho, hc, hcm⟩
    refine ⟨⟨⟨hm, ?_⟩, hc⟩, hcm⟩
    rwa [sampleSubstituted_of_good s n raw hm hc hcm, beq_eq_false_iff_ne]

/-- A running path always delivers, so the blocks that wait on the sample always follow. -/
theorem railSample_running (s : State) (n : Nat) (raw : Int) (back : Bool) (h : fineRun s n = true) :
    railSample s n raw back =
      let (t, o) := fineSample s n raw back (!stepOnRail s n && !workOwns s n) (stimOn s n)
      marginSample (sampleForSteps (checkSample t n raw o (assayStim t n)) n o) n o :=
  if_pos (fineSample_delivered s n raw back _ _ h)

theorem fineOverload_noted (s : State) (n : Nat) (neg : Bool) (h : fineRun s n = true) (ho : (s.fr n).ovl = none) :
    fineOverload s n neg =
      ((s.modFine n fun g => { g with ovl := some neg }).evtBit (F.RAILn_FINE_STATE_OVERLOAD_SEEN n) 75).raiseOnce 11 0 0 n n :=
  if_pos (by rw [h, ho]; rfl)

/-! ### Sample boundaries (R90, R91, R105) -/

theorem commitCoeffs_idle (s : State) (n : Nat) (ho : (s.fr n).offPend = none) (hg : (s.fr n).gainPend = none) :
    commitCoeffs s n = s :=
  if_neg (by rw [ho, hg]; exact Bool.false_ne_true)

theorem fr_of_fine {s t : State} (n : Nat) (h : t.fine = s.fine) : t.fr n = s.fr n := congrArg (vget · n) h

theorem modFine_pend (s : State) (n : Nat) (f : FineRail → FineRail) (h : ∀ g, (f g).pend = g.pend) :
    ((s.modFine n f).fr n).pend = (s.fr n).pend :=
  vget_vmod_proj s.fine n n f FineRail.pend h

/-- A commit leaves the restart that is scheduled. -/
theorem commitCoeffs_pend (s : State) (n : Nat) : ((commitCoeffs s n).fr n).pend = (s.fr n).pend := by
  unfold commitCoeffs
  dsimp only
  split
  · rw [fr_of_fine n (State.endCond_fine ..), fr_of_fine n (State.put_fine ..), modFine_pend]
    · cases (s.fr n).offPend <;> cases (s.fr n).gainPend <;> simp only [State.fr, State.put_fine]
    · exact fun _ => rfl
  · rfl

theorem fineRestart_unscheduled (s : State) (n : Nat) (h : (s.fr n).pend = none) : fineRestart s n = commitCoeffs s n := by
  simp only [fineRestart, commitCoeffs_pend, h]

section
variable (s : State) (n k : Nat) (ho : (s.fr n).offPend = none) (hg : (s.fr n).gainPend = none) (hp : (s.fr n).pend = some k)
variable (hw : fineWanted s n = true)
include ho hg hp hw

theorem fineRestart_running (hr : fineRun s n = true) : fineRestart s n = restartFine (takeFineCfg s n) n k := by
  simp only [fineRestart, commitCoeffs_idle s n ho hg, hp, hw, hr, Bool.not_true, Bool.false_eq_true, if_false, if_true]

/-- R86: the boundary starts a path that is wanted and does not run. -/
theorem fineRestart_starting (hr : fineRun s n = false) :
    fineRestart s n = restartFine (takeFineCfg (((s.put (F.RAILn_FINE_STATE_RUN n) 1).put (F.RAILn_FINE_STATE_WIN n) 0).modFine n
      fun g => { g with inCount := 0, outCount := 0, ovl := none }) n) n k := by
  simp only [fineRestart, commitCoeffs_idle s n ho hg, hp, hw, hr, Bool.not_true, Bool.false_eq_true, if_false]

end

theorem restartFine_marks (s : State) (n k : Nat) (hn : n < 64) :
    ((restartFine s n k).fr n).marks = if (s.fr n).fresh && (s.fr n).freshAt == s.tclk then max (s.fr n).marks k else k := by
  rw [restartFine, State.modFine_fr s n _ hn]

/-! ### The writes of a rail's fine registers (R90, R96, R105) -/

/-- A rail's registers are no window onto others. -/
theorem elementOf_rail (s : State) (a : Nat) (h : 0x4000 ≤ a ∧ a < 0x6000) : elementOf s a = a := elementOf_self s a (by omega)

theorem fineCfg_inRails (n : Fin 64) : 0x4000 ≤ R.RAILn_FINE_CFG n ∧ R.RAILn_FINE_CFG n < 0x6000 := by
  simp only [R.RAILn_FINE_CFG]
  omega

theorem regHook_fineWin (t : State) (n : Fin 64) (hi : Bool) (old v : Nat) :
    regHook t (if hi then R.RAILn_FINE_WIN_HI n else R.RAILn_FINE_WIN_LO n) old v = fineWindowWritten t n := by
  cases hi with
  | false => exact regHook_fineWinLo t n old v
  | true => exact regHook_fineWinHi t n old v

theorem regHook_calCoeff (t : State) (n : Fin 64) (gain : Bool) (old v : Nat) :
    regHook t (if gain then R.RAILn_CAL_GAIN n else R.RAILn_CAL_OFFSET n) old v = calCoeffWrite t n gain v := by
  cases gain with
  | false => exact regHook_calOffset t n old v
  | true => exact regHook_calGain t n old v

/-- Settles O9: each row is its operation with what follows it; the write rows store their word and act on it, a sample goes to the blocks
that wait on it, and a boundary takes the branch that what is scheduled and the state of the path give it. -/
theorem finePath : Obligations.FinePath := by
  refine ⟨⟨?sample, ?restart, ?overload, ?window, ?cfg, ?coeff, ?result, ?start, ?unscheduled⟩, ?outcome, fun _ _ => ⟨rfl, rfl⟩,
    ⟨fun _ _ _ => rfl, ?ownMarks, ?mostMarks⟩, exec_fineSample, exec_fineCfgWrite, exec_fineRestart, exec_fineModulatorOverload,
    exec_fineWindowWrite, exec_calCoeffWrite⟩
  case sample => exact fun s n raw back h => by rw [exec_fineSample, railSample_running s n raw back h]
  case restart => exact fun s n k ho hg hp hw hr => by rw [exec_fineRestart, fineRestart_running s n k ho hg hp hw hr]
  case overload => exact fun s n neg h ho => by rw [exec_fineModulatorOverload, fineOverload_noted s n neg h ho]
  case window =>
    exact fun s p n hi v h => write_row (fineWindowWritten · n) (exec_fineWindowWrite s p n hi v) h fun t => regHook_fineWin t n hi _ _
  case cfg =>
    exact fun s p n v h => write_row (fineCfgWritten · n (s.reg (R.RAILn_FINE_CFG n))) (exec_fineCfgWrite s p n v) h fun t => by
      rw [elementOf_rail s _ (fineCfg_inRails n), regHook_fineCfg]
  case coeff =>
    exact fun s p n gain v h => write_row (calCoeffWrite · n gain v.toNat) (exec_calCoeffWrite s p n gain v) h fun t =>
      regHook_calCoeff t n gain _ _
  case result => exact fun s p n => by rw [exec_fineResultRead, readRow_fineResult, fineResultRead]
  case start => exact fun s n k ho hg hp hw hr => by rw [exec_fineRestart, fineRestart_starting s n k ho hg hp hw hr]
  case unscheduled => exact fun s n h => by rw [exec_fineRestart, fineRestart_unscheduled s n h]
  case outcome =>
    intro s n raw back quiet stim h
    refine ⟨fineSample_delivered s n raw back quiet stim h, fineSample_code s n raw back quiet stim h,
      fineSample_settling s n raw back quiet stim h, ?_⟩
    rw [fineSample_valid_iff s n raw back quiet stim h, sampleClips_eq_false]
    simp only [and_assoc]
  case ownMarks =>
    intro s n k h
    rw [restartFine_marks s n k n.isLt, if_neg]
    rw [Bool.and_eq_true, beq_iff_eq]
    exact fun ⟨hf, ha⟩ => h.elim (fun h => by rw [h] at hf; cases hf) (· ha)
  case mostMarks =>
    intro s n k hf ha
    rw [restartFine_marks s n k n.isLt, hf, ha, beq_self_eq_true, Bool.and_self, if_pos rfl]

end Sys2Proof.Machine
end

section
/-! Coefficients and calibrations (spec/04_rail_fine_path.md R100 to R106; spec/05_converter_benches.md R140). -/

namespace Sys2Proof.Machine

/-! ### Coefficients that wait for the boundary (R105) -/

/-- R90: on a running path the boundary that takes the coefficient is a restart. -/
theorem calCoeffWrite_running (s : State) (n : Nat) (gain : Bool) (v : Nat) (h : fineRun s n = true) :
    calCoeffWrite s n gain v = scheduleRestart (s.modFine n fun g =>
      if gain then { g with gainPend := some (v % 2 ^ 24) } else { g with offPend := some (v % 2 ^ 24) }) n 4 :=
  if_pos (by rw [fineRun, State.modFine_flag, ← fineRun, h, Bool.true_or])

theorem commitCoeffs_offset (s : State) (n v : Nat) (ho : (s.fr n).offPend = some v) (hg : (s.fr n).gainPend = none) :
    commitCoeffs s n = (((s.put (F.RAILn_CAL_OFFSET_OFFSET n) v).modFine n fun g =>
      { g with offPend := none, gainPend := none, worn := g.worn.map fun w => (toSigned 24 v, w.2.1, 0) }).put
        (F.RAILn_CAL_STATUS_STATE n) 0).endCond 12 n := by
  simp only [commitCoeffs, ho, hg, Option.isSome_some, Bool.true_or, if_true]
  rw [State.modFine_congr]
  rw [fr_of_fine n (State.put_fine ..), ho, hg]
  rfl

theorem commitCoeffs_gain (s : State) (n v : Nat) (ho : (s.fr n).offPend = none) (hg : (s.fr n).gainPend = some v) :
    commitCoeffs s n = (((s.put (F.RAILn_CAL_GAIN_GAIN n) v).modFine n fun g =>
      { g with offPend := none, gainPend := none, worn := g.worn.map fun w => (w.1, v, 0) }).put
        (F.RAILn_CAL_STATUS_STATE n) 0).endCond 12 n := by
  simp only [commitCoeffs, ho, hg, Option.isSome_some, Bool.or_true, if_true]
  rw [State.modFine_congr]
  rw [fr_of_fine n (State.put_fine ..), ho, hg]
  rfl

/-! ### The end of an average (R102) -/

theorem railAverageDone_unstable (s : State) (n : Nat) (c : CalRun) (h : (s.fr n).cal = some c) (he : c.ended = true)
    (hc : c.commit = none) (hn : c.n < c.count) :
    railAverageDone s n = endRailCal s n 3 stCalUnstable (refusalWords noWord 0) := by
  simp only [railAverageDone, h, he, hc, Bool.not_true, Option.isSome_none, Bool.or_self, Bool.false_eq_true, if_false,
    if_neg (Nat.not_le.mpr hn), calResult_unstable _ _ _ _ hn]
  rfl

theorem poolAverageDone_unstable (s : State) (c : PoolCal) (h : s.pool.cal = some c) (he : c.run.ended = true)
    (hc : c.run.commit = none) (hn : c.run.n < c.run.count) :
    poolAverageDone s = endPoolCal s 3 stCalUnstable (refusalWords noWord 0) := by
  simp only [poolAverageDone, h, he, hc, Bool.not_true, Option.isSome_none, Bool.or_self, Bool.false_eq_true, if_false,
    if_neg (Nat.not_le.mpr hn), calResult_unstable _ _ _ _ hn]
  rfl

/-! ### The commit (R105, R140) -/

/-- R105: the coefficient of a rail's calibration, and what is done since, stand in the registers. -/
def railCoeffStored (s : State) (n : Nat) (full : Bool) (coef : Nat) : State :=
  if full then (s.put (F.RAILn_CAL_GAIN_GAIN n) coef).put (F.RAILn_CAL_STATUS_FULL_DONE n) 1
  else ((s.put (F.RAILn_CAL_OFFSET_OFFSET n) coef).put (F.RAILn_CAL_STATUS_ZERO_DONE n) 1).put (F.RAILn_CAL_STATUS_FULL_DONE n) 0

theorem railCalCommit_waiting (s : State) (n : Nat) (c : CalRun) (coef : Nat) (mean : Int) (h : (s.fr n).cal = some c)
    (hc : c.commit = some (coef, mean)) :
    railCalCommit s n =
      (let t := restartFine (((railCoeffStored s n c.full coef).put (F.RAILn_CAL_STATUS_STATE n) 0).endCond 12 n) n 4
       endRailCal t n 1 stOk (calWords c mean coef (t.get (F.RAILn_CAL_STATUS_SPREAD n)))) := by
  simp only [railCalCommit, h, hc, railCoeffStored]

theorem poolCalCommit_waiting (s : State) (c : PoolCal) (coef : Nat) (mean : Int) (h : s.pool.cal = some c)
    (hc : c.run.commit = some (coef, mean)) :
    poolCalCommit s =
      (let t := s.put (if c.run.full then F.pairGain c.gain c.aux else F.pairOffset c.gain c.aux) coef
       let t := (t.put (F.pairState c.gain c.aux) 0).endCond 15 0
       endPoolCal t 1 stOk (calWords c.run mean coef (t.get F.POOL_CAL_STATUS_SPREAD))) := by
  simp only [poolCalCommit, h, hc, apply_ite (s.put · coef)]

/-- Settles O10: a boundary commits what waits for it; each row is its operation with what follows it, on the branch that the calibration
gives it. -/
theorem calibrations : Obligations.Calibrations := by
  refine ⟨⟨calCoeffWrite_running, commitCoeffs_offset, commitCoeffs_gain⟩,
    ⟨?railUnstable, ?zero, ?full, ?poolUnstable, ?pool⟩, exec_calibrationAverageDone, exec_calibrationCommit⟩
  case railUnstable =>
    intro s n c h he hc hn
    simp only [exec_calibrationAverageDone, railAverageDone_unstable s n c h he hc hn]
  case zero =>
    intro s n c coef mean h hc hf
    simp only [exec_calibrationCommit, railCalCommit_waiting s n c coef mean h hc, railCoeffStored, hf, Bool.false_eq_true, if_false]
  case full =>
    intro s n c coef mean h hc hf
    simp only [exec_calibrationCommit, railCalCommit_waiting s n c coef mean h hc, railCoeffStored, hf, if_true]
  case poolUnstable =>
    intro s c h he hc hn
    simp only [exec_calibrationAverageDone, poolAverageDone_unstable s c h he hc hn]
  case pool =>
    intro s c coef mean h hc
    simp only [exec_calibrationCommit, poolCalCommit_waiting s c coef mean h hc]

end Sys2Proof.Machine
end

section
/-! The Benches (spec/05_converter_benches.md R124, R127 to R132, R142): the writes that arm, stop and trigger a Bench, what a trigger does at
a Bench that runs, and what one that acts runs; the angle targets (spec/02_angle_and_clocks.md R37, R39). -/

namespace Sys2Proof.Machine

/-! ### The writes (R124, R127, R132, R142) -/

/-- R127: START on a stopped Bench arms it, and the angle targets of its triggers with it. -/
theorem benchStart_arms (s : State) (b : Nat) (h : benchStartRefused s b = false)
    (hs : benchStopped (((s.put (F.BENCHb_STATUS_ROVR b) 0).put (F.BENCHb_STATUS_IOVR b) 0).modBn b fun t => { t with passCnt := 0 }) b = true) :
    benchStart s b = ((((s.put (F.BENCHb_STATUS_ROVR b) 0).put (F.BENCHb_STATUS_IOVR b) 0).modBn b fun t => { t with passCnt := 0 }).modBn b
      fun t => { t with stepNext := 0, regFrom := s.ang.stamp, injFrom := s.ang.stamp }).put (F.BENCHb_STATUS_STATE b) 1 := by
  simp only [benchStart, h, hs, Bool.false_eq_true, if_false, if_true, State.modBn_ang, State.put_ang]

theorem regHook_benchStart (t : State) (b : Fin 8) (old : Nat) : regHook t (R.BENCHb_CTRL b) old 1 = benchStart t b := by
  simp [regHook_benchCtrl, bitOf]

theorem regHook_benchStop (t : State) (b : Fin 8) (old : Nat) : regHook t (R.BENCHb_CTRL b) old 2 = benchStop t b := by
  simp [regHook_benchCtrl, bitOf]

theorem regHook_benchTrig (t : State) (b : Fin 8) (old : Nat) : regHook t (R.BENCHb_CTRL b) old 4 = poolServe (regTrigger t b) := by
  simp [regHook_benchCtrl, bitOf]

theorem regHook_benchItrig (t : State) (b : Fin 8) (old : Nat) : regHook t (R.BENCHb_CTRL b) old 8 = poolServe (injTrigger t b) := by
  simp [regHook_benchCtrl, bitOf]

theorem regHook_poolCoeff (t : State) (gain : Bool) (old v : Nat) :
    regHook t (if gain then R.POOL_CAL_GAIN else R.POOL_CAL_OFFSET) old v = poolCoeffWrite t gain v := by
  cases gain with
  | false => exact regHook_poolCalOffset t old v
  | true => exact regHook_poolCalGain t old v

/-! ### Triggers (R128 to R131) -/

/-- R137: a stopped Bench, and one that the mode silences, takes no trigger. -/
theorem regTrigger_rests (s : State) (b : Nat) (h : benchStopped s b = true ∨ benchQuiet s b = true) : regTrigger s b = s :=
  if_pos (Bool.or_eq_true_iff.mpr h)

theorem injTrigger_rests (s : State) (b : Nat) (h : benchStopped s b = true ∨ benchQuiet s b = true) : injTrigger s b = s :=
  if_pos (Bool.or_eq_true_iff.mpr h)

section
variable (s : State) (b : Nat) (hs : benchStopped s b = false) (hq : benchQuiet s b = false)
include hs hq

theorem bench_takesTriggers : ¬ (benchStopped s b || benchQuiet s b) = true := by
  rw [hs, hq]
  exact Bool.false_ne_true

/-- R131: a trigger that meets a pass is counted. -/
theorem regTrigger_overrun (hm : s.get (F.BENCHb_CFG_MODE b) ≠ 1) (hp : (s.bn b).passOn = true) :
    regTrigger s b = s.addSat (F.BENCHb_STATUS_ROVR b) := by
  simp only [regTrigger, if_neg (bench_takesTriggers s b hs hq), hm, hp, decide_false, Bool.false_and, Bool.false_eq_true, if_false,
    Bool.or_true, if_true]

/-- R128: in CONT a trigger that meets a run, or a trigger before it, changes nothing. -/
theorem regTrigger_later (hm : s.get (F.BENCHb_CFG_MODE b) = 1)
    (h : (s.bn b).passOn = true ∨ (s.bn b).regDelay.isSome = true ∨ s.flag (F.BENCHb_STATUS_REG_PEND b) = true) : regTrigger s b = s := by
  have hmet : ((s.bn b).passOn || (s.bn b).regDelay.isSome || s.flag (F.BENCHb_STATUS_REG_PEND b)) = true := by
    rwa [Bool.or_assoc, Bool.or_eq_true_iff, Bool.or_eq_true_iff]
  simp only [regTrigger, if_neg (bench_takesTriggers s b hs hq), hm, hmet, decide_true, Bool.and_true, if_true]

theorem injTrigger_overrun (hi : (s.bn b).injOn = true) : injTrigger s b = s.addSat (F.BENCHb_STATUS_IOVR b) := by
  simp only [injTrigger, if_neg (bench_takesTriggers s b hs hq), hi, Bool.or_true, if_true]

section
variable (hp : (s.bn b).passOn = false) (hd : (s.bn b).regDelay = none) (hpend : s.flag (F.BENCHb_STATUS_REG_PEND b) = false)
include hp hd hpend

/-- R129: no regular trigger is at work, and no delay applies. -/
theorem regTrigger_atOnce (ht : trigDelay s b false = none) : regTrigger s b = regAct s b := by
  simp only [regTrigger, if_neg (bench_takesTriggers s b hs hq), hp, hd, hpend, ht, Option.isSome_none, Bool.or_self, Bool.and_false,
    Bool.false_eq_true, if_false]

/-- R130: no regular trigger is at work, and the delay starts. -/
theorem regTrigger_delayed (d : TrigDelay) (ht : trigDelay s b false = some d) :
    regTrigger s b = syncBenchState (s.modBn b fun t => { t with regDelay := some d }) b := by
  simp only [regTrigger, if_neg (bench_takesTriggers s b hs hq), hp, hd, hpend, ht, Option.isSome_none, Bool.or_self, Bool.and_false,
    Bool.false_eq_true, if_false]

end
end

theorem regAct_fires (s : State) (b : Nat) (hi : (s.bn b).injOn = false) : regAct s b = poolServe (regFire s b) :=
  if_neg (by rw [hi]; exact Bool.false_ne_true)

/-- R131: a trigger that meets the injected sequence waits for its end. -/
theorem regAct_pends (s : State) (b : Nat) (hi : (s.bn b).injOn = true) (hp : (s.bn b).passOn = false) :
    regAct s b = syncBenchState (s.put (F.BENCHb_STATUS_REG_PEND b) 1) b :=
  if_pos (by rw [hi, hp]; rfl)

/-! ### The delay of a trigger (R129, R130) -/

theorem trigDelay_none (s : State) (b : Nat) (h : s.get (F.BENCHb_TRIG_SRC b) = 2 ∨ s.get (F.BENCHb_TRIG_DELAY b) = 0) :
    trigDelay s b false = none :=
  if_pos h

section
variable (s : State) (b : Nat) (hsrc : s.get (F.BENCHb_TRIG_SRC b) ≠ 2) (hdelay : s.get (F.BENCHb_TRIG_DELAY b) ≠ 0)
include hsrc hdelay

theorem trigDelay_angle (h : s.flag (F.BENCHb_TRIG_DLY_ANG b) = true) :
    trigDelay s b false = some (.angle (s.ang.stamp + BitVec.ofNat 48 (s.get (F.BENCHb_TRIG_DELAY b)))) :=
  (if_neg (not_or_intro hsrc hdelay)).trans (if_pos h)

theorem trigDelay_time (h : s.flag (F.BENCHb_TRIG_DLY_ANG b) = false) :
    trigDelay s b false = some (.tclk (s.tclk + (128 * s.get (F.BENCHb_TRIG_DELAY b) + 124) / 125)) :=
  (if_neg (not_or_intro hsrc hdelay)).trans (if_neg (by rw [h]; exact Bool.false_ne_true))

end

/-! ### A trigger that acts (R128) -/

theorem State.modBn_bn (s : State) (b : Fin 8) (f : BenchState → BenchState) : (s.modBn b f).bn b = f (s.bn b) :=
  vget_vmod_self _ _ _ b.isLt

theorem regFire_slice (s : State) (b : Fin 8) (h : s.get (F.BENCHb_CFG_MODE b) ≠ 2) :
    (regFire s b).bn b = { s.bn b with passOn := true, todo := benchSlice s b } := by
  rw [regFire, State.modBn_bn, if_neg h]

/-- R128: in STEP the entry at `i` of the slice runs, and the next trigger takes the one after it. -/
theorem regFire_step (s : State) (b : Fin 8) (i : Nat) (h : s.get (F.BENCHb_CFG_MODE b) = 2)
    (hi : (if (s.bn b).stepNext < (benchSlice s b).length then (s.bn b).stepNext else 0) = i) :
    (regFire s b).bn b = { s.bn b with
      passOn := true, todo := [(benchSlice s b).getD i 0], stepNext := if i + 1 < (benchSlice s b).length then i + 1 else 0 } := by
  subst hi
  rw [regFire, State.modBn_bn, if_pos h]

/-! ### Angle targets (R37) -/

/-- R37: a target armed at its own angle waits a whole cycle. -/
theorem nextAngle_angleOf (since : Stamp) : nextAngle since (angleOf since) = since + BitVec.ofNat 48 (2 ^ 20) := by
  have hcycle : (angleOf since + 2 ^ 20 - 1 - angleOf since) % 2 ^ 20 + 1 = 2 ^ 20 := by omega
  rw [nextAngle, hcycle]

/-- Settles O11: a write row stores its word and acts on it; a trigger takes the branch that the state of its Bench gives it. -/
theorem benches : Obligations.Benches := by
  refine ⟨⟨?start, benchStart_arms, ?stop, ?trig, ?itrig, ?layout, ?coeff⟩,
    ⟨regTrigger_overrun, ?atOnce, ?pends, injTrigger_overrun, fun s b h => ⟨regTrigger_rests s b h, injTrigger_rests s b h⟩,
      fun s b d hs hq hp hd hpend ht => regTrigger_delayed s b hs hq hp hd hpend d ht, regTrigger_later,
      fun s b => ⟨trigDelay_none s b, trigDelay_angle s b, trigDelay_time s b⟩⟩,
    ⟨?slice, ?next, ?first⟩, ⟨angleOf_nextAngle, nextAngle_angleOf, fun _ _ _ => rfl⟩,
    exec_benchStart, exec_benchStop, exec_benchTrig, exec_benchItrig, exec_benchLayoutWrite, exec_poolCalWrite⟩
  case start => exact fun s p b h => write_row (benchStart · b) (exec_benchStart s p b) h fun t => regHook_benchStart t b _
  case stop => exact fun s p b h => write_row (benchStop · b) (exec_benchStop s p b) h fun t => regHook_benchStop t b _
  case trig =>
    exact fun s p b h => write_row (fun t => poolServe (regTrigger t b)) (exec_benchTrig s p b) h fun t => regHook_benchTrig t b _
  case itrig =>
    exact fun s p b h => write_row (fun t => poolServe (injTrigger t b)) (exec_benchItrig s p b) h fun t => regHook_benchItrig t b _
  case layout =>
    exact fun s p v h => write_row (fun t => poolServe (syncAssay (syncPoolMap t))) (exec_benchLayoutWrite s p v) h fun t =>
      regHook_benchLayout t _ _
  case coeff =>
    exact fun s p gain v h => write_row (poolCoeffWrite · gain v.toNat) (exec_poolCalWrite s p gain v) h fun t =>
      regHook_poolCoeff t gain _ _
  case atOnce =>
    intro s b hs hq hp hd hpend ht hi
    rw [regTrigger_atOnce s b hs hq hp hd hpend ht, regAct_fires s b hi]
  case pends =>
    intro s b hs hq hp hd hpend ht hi
    rw [regTrigger_atOnce s b hs hq hp hd hpend ht, regAct_pends s b hi hp]
  case slice =>
    intro s b h
    rw [regFire_slice s b h]
    exact ⟨rfl, rfl⟩
  case next =>
    intro s b h hi
    rw [regFire_step s b _ h (if_pos hi)]
    exact ⟨rfl, rfl⟩
  case first =>
    intro s b h hi
    rw [regFire_step s b 0 h (if_neg (Nat.not_lt.mpr hi))]

end Sys2Proof.Machine
end

section
/-! The work of the pool converters (spec/05_converter_benches.md R120, R122, R129, R130, R137, R138): the triggers from outside, samples and
the end of an entry, the hold-up input, a worn converter, and the reads of results. -/

namespace Sys2Proof.Machine

/-! ### Triggers from an input, an angle target and a delay (R129, R130, R37) -/

theorem pwmSyncEdge_change (s : State) (sel : Nat) (level : Bool) (h : s.pool.pwm.getLsbD sel ≠ level) :
    pwmSyncEdge s sel level = sourceTrigger (s.modPool fun p => { p with pwm := p.pwm ^^^ (1#4 <<< sel) }) 3 sel
      fun e => if level then e == 1 || e == 3 else e == 2 || e == 3 :=
  if_neg (by rwa [beq_iff_eq])

/-- R129, R37: the angle target of a Bench's trigger matches now. -/
def targetMatches (s : State) (b src : Nat) (since : Stamp) (target : Nat) : Bool :=
  src = 2 && !benchStopped s b && angleReached s since target

theorem targetMatches_iff (s : State) (b src : Nat) (since : Stamp) (target : Nat) :
    targetMatches s b src since target = true ↔ src = 2 ∧ benchStopped s b = false ∧ angleReached s since target = true := by
  rw [targetMatches, Bool.and_eq_true, Bool.and_eq_true, decide_eq_true_eq, Bool.not_eq_true', and_assoc]

theorem not_targetMatches (s : State) (b src : Nat) (since : Stamp) (target : Nat)
    (h : benchStopped s b = true ∨ src ≠ 2 ∨ angleReached s since target = false) : ¬ targetMatches s b src since target = true := by
  rw [targetMatches_iff]
  rintro ⟨hsrc, hs, ha⟩
  rcases h with h | h | h
  · exact Bool.false_ne_true (hs.symm.trans h)
  · exact h hsrc
  · exact Bool.false_ne_true (h.symm.trans ha)

/-- R37: an angle target that has matched matches next in the cycle that follows. -/
theorem benchAngle_injected (s : State) (b : Nat) : benchAngle s b true =
    if targetMatches s b (s.get (F.BENCHb_ITRIG_SRC b)) (s.bn b).injFrom (s.get (F.BENCHb_ITRIG_TARGET b)) then
      injTrigger (s.modBn b fun t => { t with injFrom := s.ang.stamp }) b
    else s := rfl

theorem benchAngle_regular (s : State) (b : Nat) : benchAngle s b false =
    if targetMatches s b (s.get (F.BENCHb_TRIG_SRC b)) (s.bn b).regFrom (s.get (F.BENCHb_TRIG_TARGET b)) then
      regTrigger (s.modBn b fun t => { t with regFrom := s.ang.stamp }) b
    else s := rfl

theorem delayEnd_injected (s : State) (b : Nat) (d : TrigDelay) (h : (s.bn b).injDelay = some d) (ho : d.over s = true) :
    delayEnd s b true = injAct (s.modBn b fun t => { t with injDelay := none }) b := by
  simp only [delayEnd, if_true, h, ho, Bool.not_true, Bool.false_eq_true, if_false]

theorem delayEnd_regular (s : State) (b : Nat) (d : TrigDelay) (h : (s.bn b).regDelay = some d) (ho : d.over s = true) :
    delayEnd s b false = regAct (s.modBn b fun t => { t with regDelay := none }) b := by
  simp only [delayEnd, Bool.false_eq_true, if_false, h, ho, Bool.not_true]

/-! ### Samples and the end of an entry (R120) -/

/-- A sample of a converter's own work that is no calibration. -/
theorem poolSample_work (s : State) (n : Nat) (raw : Int) (ovl cm : Bool) (w : PcWork) (h : (s.pc n).work = some w)
    (hk : (w.kind == .cal) = false) :
    poolSample s n raw ovl cm =
      (let (t, w', _) := sampleWork s w n false raw ovl cm
       t.modPc n fun c => { c with work := some w' }) := by
  simp only [poolSample, h, hk, Bool.false_eq_true, if_false]

theorem entryComplete_through (s : State) (n : Nat) (w : PcWork) (h : (s.pc n).work = some w) (hk : w.entry? = true)
    (ht : w.through = true) : entryComplete s n = poolServe (completeConv s n w) := by
  simp only [entryComplete, h, hk, ht, Bool.and_self, if_true]

theorem PcWork.entry?_of_kind (w : PcWork) (b : Nat) (inj : Bool) (k : Nat) (h : w.kind = .entry b inj k) : w.entry? = true := by
  rw [PcWork.entry?, h]

/-! ### The hold-up input (R137) -/

/-- R137: a conversion in HOLDUP on the converter at the lowest position, outside an overload and with AUXCOM in its band. -/
theorem holdupConversion_inBand (s : State) (raw : Int) (n : Nat) (hn : ((below 8).filterMap (posConv s)).head? = some n)
    (hm : s.mode = mHoldup) (he : s.flag F.POOL_HU_CFG_EN = true) :
    holdupConversion s raw false false =
      (let g := s.get F.POOL_HU_CFG_GAIN
       let w := newWork s .node (s.get F.POOL_HU_CFG_AUX) 0 (if g = 3 then 0 else g) false false false 1 1
       let (t, code, beyond) := poolCode s w (poolU w n raw)
       let t := if beyond then t else t.endCond 13 n
       (t.delivers [(336, BitVec.ofNat 32 (t.reg R.POOL_HU_RES))]).setReg R.POOL_HU_RES
         (poolWord 0 false beyond false (t.flag F.CLK_STATUS_FALLBACK) t.holdover code)) := by
  have hc (beyond : Bool) (t u : State) : (if !beyond then u else t) = if beyond then t else u := by cases beyond <;> rfl
  simp only [holdupConversion, hn, hm, he, beq_self_eq_true, Bool.and_self, if_true, Bool.false_or, Bool.not_false, Bool.true_and,
    Bool.and_true, Bool.false_eq_true, if_false, hc]
  rfl

/-! ### A worn converter (R138) -/

theorem convSubst_spare (s : State) (n : Nat) (rest : List Nat) (pos k : Nat) (more : List Nat) (hq : s.spare.convs = n :: rest)
    (hm : s.mode ≠ mHoldup) (hp : convPos (s.modSpare fun p => { p with convs := rest }) n = some pos)
    (hk : freeConvSpares (s.modSpare fun p => { p with convs := rest }) = k :: more) :
    convSubst s = mapChanged (((convSubstitute ((s.modSpare fun p => { p with convs := rest }).evtBit
      F.TWIN_EVT_SUB_START 140) pos k).endCond 17 (128 + n)).evtBit F.TWIN_EVT_SUB_DONE 141) := by
  simp only [convSubst, hq, beq_iff_eq, if_neg hm, hp, hk]

/-! ### Reads of results (R122) -/

theorem readRow_poolResult (s : State) (p : Port) (a : Nat) (hr : isPoolResult a = true) (hl : latchReg a = false)
    (ha : a ≠ R.ANG_STAMP_HI) : readRow s p a = (poolResultRead s p a).readBack p (peek s a) := by
  simp only [readRow, readReg, hl, Bool.false_eq_true, if_false, if_neg ha, hr, if_true]

/-- Settles O12: each row is its operation with what follows it, on the branch that the state of the pool gives it. -/
theorem poolWork : Obligations.PoolWork := by
  refine ⟨⟨?pwm, ?target, ?injDelay, ?regDelay, ?sample, ?entry, ?holdup, ?worn, ?result, ?noTarget⟩, exec_pwmSyncEdge,
    exec_benchAngleTrigger, exec_triggerDelayEnd, exec_poolSample, exec_entryComplete, exec_poolResultRead, exec_holdupPoolConversion,
    exec_converterSubstitution⟩
  case pwm => exact fun s sel level h => by rw [exec_pwmSyncEdge, pwmSyncEdge_change s sel level h]
  case target =>
    intro s b hs
    refine ⟨fun hsrc ha => ?_, fun hsrc ha => ?_⟩
    · rw [exec_benchAngleTrigger, benchAngle_injected, if_pos ((targetMatches_iff ..).mpr ⟨hsrc, hs, ha⟩)]
    · rw [exec_benchAngleTrigger, benchAngle_regular, if_pos ((targetMatches_iff ..).mpr ⟨hsrc, hs, ha⟩)]
  case injDelay => exact fun s b d h ho => by rw [exec_triggerDelayEnd, delayEnd_injected s b d h ho]
  case regDelay => exact fun s b d h ho => by rw [exec_triggerDelayEnd, delayEnd_regular s b d h ho]
  case sample => exact fun s n raw ovl cm w h hk => by rw [exec_poolSample, poolSample_work s n _ ovl cm w h hk]
  case entry =>
    intro s n w b inj k h hk ht
    rw [exec_entryComplete, entryComplete_through s n w h (w.entry?_of_kind b inj k hk) ht, completeConv]
  case holdup => exact fun s raw n hn hm he => by rw [exec_holdupPoolConversion, holdupConversion_inBand s _ n hn hm he]
  case worn =>
    exact fun s n rest pos k more hq hm hp hk => by rw [exec_converterSubstitution, convSubst_spare s n rest pos k more hq hm hp hk]
  case result => exact fun s p a hr hl ha => by rw [exec_poolResultRead, if_pos hr, readRow_poolResult s p a hr hl ha]
  case noTarget =>
    intro s b
    refine ⟨fun h => ?_, fun h => ?_⟩
    · rw [exec_benchAngleTrigger, benchAngle_injected, if_neg (not_targetMatches _ _ _ _ _ h)]
    · rw [exec_benchAngleTrigger, benchAngle_regular, if_neg (not_targetMatches _ _ _ _ _ h)]

end Sys2Proof.Machine
end

section
/-! The voltage references (spec/06_assay.md R144 to R147): the watch, the record and its three steps, the triage and its verdict. -/

namespace Sys2Proof.Machine

/-! ### The watch (R144) -/

theorem referenceWatch_rests (s : State) (diff : Int) (h : assayMode s = false ∨ s.flag F.ASSAY_CFG_REF_EN = false) :
    referenceWatch s diff = s :=
  if_pos (by simpa only [Bool.or_eq_true, Bool.not_eq_true'] using h)

section
variable (s : State) (diff : Int) (hm : assayMode s = true) (he : s.flag F.ASSAY_CFG_REF_EN = true)
include hm he

/-- A watch that runs stores its reading, and judges it against the tolerance. -/
theorem referenceWatch_runs :
    referenceWatch s diff =
      (let t := s.putS F.ASSAY_REF_DIFF_DIFF (clampInt (-32768) 32767 diff)
       if (t.get F.ASSAY_REF_TOL_TOL : Int) < diff.natAbs then
         let u := syncAssay (t.modAssay fun a => { a with refMiss := min 16 (a.refMiss + 1) })
         if u.assay.refMiss = missLimit u F.ASSAY_REF_TOL_MISS then mismatch u .reference else u
       else
         let u := syncAssay ((t.modAssay fun a => { a with refMiss := 0 }).endCond 18 0)
         if u.assay.recordDue then recordStart u else u) :=
  if_neg (by rw [hm, he]; exact Bool.false_ne_true)

theorem referenceWatch_inside
    (h : (diff.natAbs : Int) ≤ ((s.putS F.ASSAY_REF_DIFF_DIFF (clampInt (-32768) 32767 diff)).get F.ASSAY_REF_TOL_TOL : Int)) :
    referenceWatch s diff =
      (let u := syncAssay (((s.putS F.ASSAY_REF_DIFF_DIFF (clampInt (-32768) 32767 diff)).modAssay
         fun a => { a with refMiss := 0 }).endCond 18 0)
       if u.assay.recordDue then recordStart u else u) := by
  rw [referenceWatch_runs s diff hm he]
  exact if_neg (Int.not_lt.mpr h)

theorem referenceWatch_outside
    (h : ((s.putS F.ASSAY_REF_DIFF_DIFF (clampInt (-32768) 32767 diff)).get F.ASSAY_REF_TOL_TOL : Int) < diff.natAbs) :
    referenceWatch s diff =
      (let u := syncAssay ((s.putS F.ASSAY_REF_DIFF_DIFF (clampInt (-32768) 32767 diff)).modAssay
         fun a => { a with refMiss := min 16 (a.refMiss + 1) })
       if u.assay.refMiss = missLimit u F.ASSAY_REF_TOL_MISS then mismatch u .reference else u) := by
  rw [referenceWatch_runs s diff hm he]
  exact if_pos h

end

/-! ### The record (R145, R147) -/

section
variable (s : State) (hm : assayMode s = true) (hw : s.spare.vrefWorn.getLsbD 2 = false) (hr : s.assay.ref = none)
include hm hw hr

/-- With VREF_C at hand and none of its work under way, the miss count alone decides. -/
theorem referenceRecord_idle :
    referenceRecord s =
      if 0 < s.assay.refMiss then s.modAssay fun a => { a with recordDue := true }
      else (s.modAssay fun a => { a with ref := some ⟨false, false, none, none⟩, recordDue := false }).put
        F.ASSAY_STATUS_VREF_C_ON 1 := by
  rw [referenceRecord, hr]
  exact if_neg (by rw [hm, hw, hr]; exact Bool.false_ne_true)

theorem referenceRecord_begins (h0 : s.assay.refMiss = 0) :
    referenceRecord s =
      (s.modAssay fun a => { a with ref := some ⟨false, false, none, none⟩, recordDue := false }).put F.ASSAY_STATUS_VREF_C_ON 1 :=
  (referenceRecord_idle s hm hw hr).trans (if_neg (Nat.not_lt.mpr (Nat.le_of_eq h0)))

/-- R145 step 1: a record met by a miss count is skipped, and due. -/
theorem referenceRecord_skipped (h0 : 0 < s.assay.refMiss) :
    referenceRecord s = s.modAssay fun a => { a with recordDue := true } :=
  (referenceRecord_idle s hm hw hr).trans (if_pos h0)

end

section
variable (s : State) (r : RefRun) (hr : s.assay.ref = some r) (ht : r.triage = false) (hm : assayMode s = true)
include hr ht hm

theorem referenceRecord_asks (ha : r.asked = false) : referenceRecord s = refAsk s r := by
  simp only [referenceRecord, hr, ht, hm, ha, Bool.not_true, Bool.not_false, Bool.or_self, Bool.false_eq_true, if_false, if_true]

theorem referenceRecord_stores (b c : Nat) (ha : r.asked = true) (hb : r.b = some b) (hc : r.c = some c) :
    referenceRecord s = recordStore s b c := by
  simp only [referenceRecord, hr, ht, hm, ha, hb, hc, Bool.not_true, Bool.or_self, Bool.false_eq_true, if_false]

end

/-- R145, R146: no record or triage of the references is at work any more. -/
def recordOver (s : State) : State := s.modAssay fun a => { a with ref := none }

/-- Without a miss count a record is judged against the one before it, where one stands and VREF_C serves no other role. -/
theorem recordStore_taken (s : State) (b c : Nat) (h0 : s.assay.refMiss = 0) :
    recordStore s b c =
      (let t := recordOver s
       if s.assay.recorded && s.spare.vrefRole == 0 && refMoved t c (t.get F.ASSAY_REF_RATIO_C0) then
         if refMoved t b (t.get F.ASSAY_REF_RATIO_B0) then queueTriage (vrefCOff t) .reference
         else mapChanged ((((vrefCOff (t.modSpare fun p => { p with vrefWorn := p.vrefWorn ||| 4#3 })).setReg R.ASSAY_VERDICT
           (2 ^ 28 + 2 * 2 ^ 20)).event 97).raiseMomentary 17 0 0 2)
       else vrefCOff (((t.put F.ASSAY_REF_RATIO_B0 b).put F.ASSAY_REF_RATIO_C0 c).modAssay fun a => { a with recorded := true })) :=
  if_neg (Nat.not_lt.mpr (Nat.le_of_eq h0))

theorem recordStore_first (s : State) (b c : Nat) (h0 : s.assay.refMiss = 0) (hr : s.assay.recorded = false) :
    recordStore s b c = vrefCOff ((((recordOver s).put F.ASSAY_REF_RATIO_B0 b).put F.ASSAY_REF_RATIO_C0 c).modAssay
      fun a => { a with recorded := true }) := by
  simp only [recordStore_taken s b c h0, hr, Bool.false_and, Bool.false_eq_true, if_false]

section
variable (s : State) (b c : Nat) (h0 : s.assay.refMiss = 0) (hr : s.assay.recorded = true) (hv : s.spare.vrefRole = 0)
variable (hc : refMoved (recordOver s) c ((recordOver s).get F.ASSAY_REF_RATIO_C0) = true)
include h0 hr hv hc

theorem recordStore_bothMoved (hb : refMoved (recordOver s) b ((recordOver s).get F.ASSAY_REF_RATIO_B0) = true) :
    recordStore s b c = queueTriage (vrefCOff (recordOver s)) .reference := by
  simp only [recordStore_taken s b c h0, hr, hv, hc, hb, beq_self_eq_true, Bool.and_self, if_true]

/-- R147: VREF_C alone has moved. -/
theorem recordStore_vrefCMoved (hb : refMoved (recordOver s) b ((recordOver s).get F.ASSAY_REF_RATIO_B0) = false) :
    recordStore s b c = mapChanged ((((vrefCOff ((recordOver s).modSpare fun p => { p with vrefWorn := p.vrefWorn ||| 4#3 })).setReg
      R.ASSAY_VERDICT (2 ^ 28 + 2 * 2 ^ 20)).event 97).raiseMomentary 17 0 0 2) := by
  simp only [recordStore_taken s b c h0, hr, hv, hc, hb, beq_self_eq_true, Bool.and_self, if_true, Bool.false_eq_true, if_false]

end

theorem vrefC_marked_worn (s : State) (a v : Nat) :
    ((vrefCOff (s.modSpare fun p => { p with vrefWorn := p.vrefWorn ||| 4#3 })).setReg a v).spare.vrefWorn.getLsbD 2 = true := by
  have hspare : ((vrefCOff (s.modSpare fun p => { p with vrefWorn := p.vrefWorn ||| 4#3 })).setReg a v).spare.vrefWorn =
      s.spare.vrefWorn ||| 4#3 := rfl
  rw [hspare, BitVec.getLsbD_or, Bool.or_eq_true]
  exact .inr (by decide)

/-! ### The reference triage (R146, R147) -/

section
variable (s : State) (r : RefRun) (ht : s.assay.triage = some .reference) (hr : s.assay.ref = some r)
include ht hr

theorem referenceTriage_noVrefC (h : s.spare.vrefRole ≠ 0 ∨ s.spare.vrefWorn.getLsbD 2 = true) :
    referenceTriage s = startTriage (referenceUnresolved (recordOver s)) := by
  have hno : (decide (s.spare.vrefRole ≠ 0) || s.spare.vrefWorn.getLsbD 2) = true := by
    rwa [Bool.or_eq_true, decide_eq_true_eq]
  simp only [referenceTriage, ht, hr, bne_self_eq_false, Bool.false_eq_true, if_false, hno, if_true, recordOver]

section
variable (hv : s.spare.vrefRole = 0) (hw : s.spare.vrefWorn.getLsbD 2 = false)
include hv hw

theorem referenceTriage_asks (ha : r.asked = false) : referenceTriage s = refAsk s r := by
  simp only [referenceTriage, ht, hr, hv, hw, ha, bne_self_eq_false, ne_eq, not_true_eq_false, decide_false, Bool.or_self,
    Bool.false_eq_true, if_false, Bool.not_false, if_true]

theorem referenceTriage_judges (b c : Nat) (ha : r.asked = true) (hb : r.b = some b) (hc : r.c = some c) :
    referenceTriage s = startTriage (referenceVerdict (recordOver s) b c) := by
  simp only [referenceTriage, ht, hr, hv, hw, ha, hb, hc, bne_self_eq_false, ne_eq, not_true_eq_false, decide_false, Bool.or_self,
    Bool.false_eq_true, if_false, Bool.not_true, recordOver]

end
end

/-- R146: how far a reading lies from the recorded ratio. -/
def refShift (s : State) (f : Field) (x : Nat) : Int := (x : Int) - (s.get f : Nat)

/-- R146, R317: VREF_C takes the role of the worn reference, and new ratios are due. -/
def referenceWorn (s : State) (part : Nat) : State :=
  (referenceSubst (endTriage s .reference 1 part 15 0) part).modAssay fun a => { a with recordDue := true, recorded := false }

theorem referenceVerdict_unrecorded (s : State) (b c : Nat) (h : s.assay.recorded = false) :
    referenceVerdict s b c = referenceUnresolved s :=
  if_pos (by rw [h]; rfl)

/-- R146: against recorded ratios the verdict falls by which of the two has moved. -/
theorem referenceVerdict_recorded (s : State) (b c : Nat) (h : s.assay.recorded = true) :
    referenceVerdict s b c =
      (let db := refShift s F.ASSAY_REF_RATIO_B0 b
       let dc := refShift s F.ASSAY_REF_RATIO_C0 c
       let tol : Int := (s.get F.ASSAY_REF_TOL_TOL : Nat)
       if ((dc - db).natAbs : Int) ≤ tol ∧ tol < db.natAbs then referenceWorn s 0
       else if (dc.natAbs : Int) ≤ tol ∧ tol < db.natAbs then referenceWorn s 1
       else referenceUnresolved s) :=
  if_neg (by rw [h]; exact Bool.false_ne_true)

section
variable (s : State) (b c : Nat)

theorem referenceVerdict_alike (h : s.assay.recorded = true)
    (ha : ((refShift s F.ASSAY_REF_RATIO_C0 c - refShift s F.ASSAY_REF_RATIO_B0 b).natAbs : Int) ≤ (s.get F.ASSAY_REF_TOL_TOL : Nat))
    (hb : ((s.get F.ASSAY_REF_TOL_TOL : Nat) : Int) < (refShift s F.ASSAY_REF_RATIO_B0 b).natAbs) :
    referenceVerdict s b c = referenceWorn s 0 := by
  rw [referenceVerdict_recorded s b c h]
  exact if_pos ⟨ha, hb⟩

theorem referenceVerdict_vrefBMoved (h : s.assay.recorded = true)
    (ha : ((s.get F.ASSAY_REF_TOL_TOL : Nat) : Int) < (refShift s F.ASSAY_REF_RATIO_C0 c - refShift s F.ASSAY_REF_RATIO_B0 b).natAbs)
    (hc : ((refShift s F.ASSAY_REF_RATIO_C0 c).natAbs : Int) ≤ (s.get F.ASSAY_REF_TOL_TOL : Nat))
    (hb : ((s.get F.ASSAY_REF_TOL_TOL : Nat) : Int) < (refShift s F.ASSAY_REF_RATIO_B0 b).natAbs) :
    referenceVerdict s b c = referenceWorn s 1 := by
  rw [referenceVerdict_recorded s b c h]
  exact (if_neg fun hn => Int.not_le.mpr ha hn.1).trans (if_pos ⟨hc, hb⟩)

/-- A verdict of worn rests on a move of VREF_B's ratio. -/
theorem referenceVerdict_vrefBStays (hb : ((refShift s F.ASSAY_REF_RATIO_B0 b).natAbs : Int) ≤ (s.get F.ASSAY_REF_TOL_TOL : Nat)) :
    referenceVerdict s b c = referenceUnresolved s := by
  cases h : s.assay.recorded with
  | false => exact referenceVerdict_unrecorded s b c h
  | true =>
    rw [referenceVerdict_recorded s b c h]
    exact (if_neg fun hn => Int.not_lt.mpr hb hn.2).trans (if_neg fun hn => Int.not_lt.mpr hb hn.2)

end

/-- Settles O13: each row is its operation with what follows it; the watch, the record and the triage take the branch that the counts, the
step they stand at and the readings give them. -/
theorem references : Obligations.References := by
  refine ⟨⟨?watch, ?watchOff, ?begins, ?steps, recordStore_first⟩, ⟨?triage, ?verdict, ?moved⟩, exec_referenceWatch,
    exec_referenceRatioRecord, exec_referenceTriage⟩
  case watch =>
    intro s diff hm he
    refine ⟨fun h => ?_, fun h => ?_⟩
    · rw [exec_referenceWatch, referenceWatch_inside s diff hm he h]
    · rw [exec_referenceWatch, referenceWatch_outside s diff hm he h]
  case watchOff => exact fun s diff h => by rw [exec_referenceWatch, referenceWatch_rests s diff h]
  case begins =>
    intro s hm hw hr
    refine ⟨fun h => ?_, fun h => ?_⟩
    · rw [exec_referenceRatioRecord, referenceRecord_begins s hm hw hr h]
    · rw [exec_referenceRatioRecord, referenceRecord_skipped s hm hw hr h]
  case steps =>
    intro s r hr ht hm
    refine ⟨fun ha => ?_, fun b c ha hb hc => ?_⟩
    · rw [exec_referenceRatioRecord, referenceRecord_asks s r hr ht hm ha, refAsk]
    · rw [exec_referenceRatioRecord, referenceRecord_stores s r hr ht hm b c ha hb hc]
  case triage =>
    intro s r ht hr
    refine ⟨fun h => ?_, fun hv hw => ⟨fun ha => ?_, fun b c ha hb hc => ?_⟩⟩
    · rw [exec_referenceTriage, referenceTriage_noVrefC s r ht hr h, recordOver]
    · rw [exec_referenceTriage, referenceTriage_asks s r ht hr hv hw ha]
    · rw [exec_referenceTriage, referenceTriage_judges s r ht hr hv hw b c ha hb hc, recordOver]
  case verdict =>
    exact fun s b c => ⟨referenceVerdict_unrecorded s b c, referenceVerdict_alike s b c, referenceVerdict_vrefBMoved s b c,
      referenceVerdict_vrefBStays s b c⟩
  case moved =>
    exact fun s b c h0 hr hv hc => ⟨recordStore_bothMoved s b c h0 hr hv hc,
      fun hb => ⟨_, recordStore_vrefCMoved s b c h0 hr hv hc hb, vrefC_marked_worn ..⟩⟩

end Sys2Proof.Machine
end

section
/-! The rounds and the triages of the Assay (spec/06_assay.md R148 to R153, R156 to R158): a round from its start to its end, the
conversions that are delivered, and the verdicts of a converter's and of a rail's triage. -/

namespace Sys2Proof.Machine

/-! ### A round (R148, R149, R152) -/

theorem roundStart_rests (s : State) (stim : Nat → Bool)
    (h : assayMode s = false ∨ s.flag F.ASSAY_CFG_CONV_EN = false ∨ s.assay.roundOn = true) : roundStart s stim = s :=
  if_pos (by simpa only [Bool.or_eq_true, Bool.not_eq_true', or_assoc] using h)

theorem roundStart_begins (s : State) (stim : Nat → Bool) (hm : assayMode s = true) (he : s.flag F.ASSAY_CFG_CONV_EN = true)
    (hr : s.assay.roundOn = false) :
    roundStart s stim =
      (let t := s.put F.ASSAY_STATUS_ROUND (s.get F.ASSAY_STATUS_ROUND % 6 + 1)
       let t := t.forEach (below 10) fun t n =>
         t.modPc n fun c => { c with need := (convPos t n).isSome || t.get (F.PCn_STATUS_ROLE n) == 1, due := false, u := none }
       let t := t.modAssay fun a => { a with roundOn := true }
       let n := t.get F.ASSAY_STATUS_NEXT_RAIL
       assayServe (roundCheck (t.put F.ASSAY_STATUS_NEXT_RAIL (n + 1)) n (stim n)) false) :=
  if_neg (by rw [hm, he, hr]; exact Bool.false_ne_true)

/-- R152: the next working converter in position order takes the check of the round, and a check that is skipped passes it by. -/
theorem roundCheck_of_nextConv (s : State) (n : Nat) (stim : Bool) (p : Nat) (h : nextConv s s.assay.nextPos = some p) :
    roundCheck s n stim =
      (let t := s.modAssay fun a => { a with nextPos := (p + 1) % 8 }
       if railCheckSkipped t n stim then t
       else t.modAssay fun a => { a with jobs := a.jobs ++ [⟨(posConv t p).toList, .railCheck n, 0⟩] }) := by
  rw [roundCheck, h]

theorem roundEnd_closes (s : State) (h : s.assay.roundOn = true) :
    roundEnd s =
      (let t := sparePeriod ((roundCut s).addWrap F.ASSAY_CNT_ROUNDS)
       poolServe (syncAssay (roundJudge t (t.get F.ASSAY_STATUS_ROUND)))) :=
  if_neg (by rw [h]; exact Bool.false_ne_true)

theorem roundEnd_rests (s : State) (h : s.assay.roundOn = false) : roundEnd s = s := if_pos (by rw [h]; rfl)

/-! ### Conversions (R148, R156) -/

theorem conversionDue_awaited (s : State) (n : Nat)
    (h : (s.pc n).need = true ∨ (s.assay.jobs.any fun j => (jobConvs s j).contains n) = true) :
    conversionDue s n = poolServe (s.modPc n fun c => { c with due := true }) :=
  if_pos (Bool.or_eq_true_iff.mpr h)

section
variable (s : State) (n : Nat) (stim : Nat → Bool) (w : PcWork) (hw : (s.pc n).work = some w) (ht : w.through = true)
include hw ht

theorem conversionComplete_node (hk : w.kind = .node) :
    conversionComplete s n stim = poolServe ((endOn s n).modPc n fun c => { c with need := false, due := false, u := some w.usum }) := by
  simp only [conversionComplete, hw, ht, hk, Bool.not_true, Bool.false_eq_true, if_false]

theorem conversionComplete_railCheck (r : Nat) (hk : w.kind = .railCheck r) :
    conversionComplete s n stim = poolServe (judgeChecks ((endOn s n).modAssay fun a =>
      { a with checks := a.checks.map fun c => if c.rail = r then { c with done := some (w.t0, w.t1, w.sum) } else c }) r (stim r)) := by
  simp only [conversionComplete, hw, ht, hk, Bool.not_true, Bool.false_eq_true, if_false]

theorem conversionComplete_triage (hk : w.kind = .triage) :
    conversionComplete s n stim = poolServe ((endOn s n).modAssay fun a => { a with got := a.got ++ [(n, w.usum)] }) := by
  simp only [conversionComplete, hw, ht, hk, Bool.not_true, Bool.false_eq_true, if_false]

theorem conversionComplete_recheck (r : Nat) (hk : w.kind = .recheck r) :
    conversionComplete s n stim = poolServe ((endOn s n).modAssay fun a => { a with got := a.got ++ [(n, w.sum)] }) := by
  simp only [conversionComplete, hw, ht, hk, Bool.not_true, Bool.false_eq_true, if_false]

theorem conversionComplete_reference (c : Bool) (hk : w.kind = .ref c) :
    conversionComplete s n stim = poolServe (refConverted (endOn s n) c w.sum) := by
  simp only [conversionComplete, hw, ht, hk, Bool.not_true, Bool.false_eq_true, if_false]

end

/-! ### The triage of a converter (R150, R158) -/

/-- R150: the verdict on converter `n`, whose sum is `u`, by the witnesses `a` and `b`, whose sums are `w1` and `w2`. -/
def converterVerdict (s : State) (n round a b : Nat) (u w1 w2 : Int) : State :=
  if convDiffer s w1 w2 then endTriage s (.converter n round) 3 n a b
  else if convDiffer s u w1 && convDiffer s u w2 then declareConv (resetRailCounts (endTriage s (.converter n round) 1 n a b) n) n
  else endTriage (s.modPc n fun c => { c with miss := 0 }) (.converter n round) 2 n a b

/-- Once the suspect and both witnesses have delivered, the verdict falls. -/
theorem converterTriage_delivered (s : State) (n round x a b : Nat) (u w1 w2 : Int)
    (ht : s.assay.triage = some (.converter n round)) (hf : assayFrozen s = false) (hg : s.assay.group = [x, a, b])
    (hu : gotOf s x = some u) (h1 : gotOf s a = some w1) (h2 : gotOf s b = some w2) :
    converterTriage s = startTriage (syncAssay (converterVerdict s n round a b u w1 w2)) := by
  simp only [converterTriage, ht, hf, hg, hu, h1, h2, List.map_cons, List.map_nil, Bool.false_eq_true, if_false, converterVerdict]

section
variable (s : State) (n round a b : Nat) (u w1 w2 : Int)

theorem converterVerdict_unresolved (h : convDiffer s w1 w2 = true) :
    converterVerdict s n round a b u w1 w2 = endTriage s (.converter n round) 3 n a b :=
  if_pos h

variable (h : convDiffer s w1 w2 = false)
include h

theorem converterVerdict_worn (h1 : convDiffer s u w1 = true) (h2 : convDiffer s u w2 = true) :
    converterVerdict s n round a b u w1 w2 = declareConv (resetRailCounts (endTriage s (.converter n round) 1 n a b) n) n := by
  simp only [converterVerdict, h, h1, h2, Bool.and_self, Bool.false_eq_true, if_false, if_true]

/-- The suspect agrees with a witness. -/
theorem converterVerdict_none (hd : convDiffer s u w1 = false ∨ convDiffer s u w2 = false) :
    converterVerdict s n round a b u w1 w2 = endTriage (s.modPc n fun c => { c with miss := 0 }) (.converter n round) 2 n a b := by
  have hboth : (convDiffer s u w1 && convDiffer s u w2) = false := Bool.and_eq_false_iff.mpr hd
  simp only [converterVerdict, h, hboth, Bool.false_eq_true, if_false]

end

/-- Log entry 95: a triage met by the freeze gives up its results, and waits its turn again. -/
theorem converterTriage_frozen (s : State) (n round : Nat) (hf : assayFrozen s = true)
    (ht : s.assay.triage = some (.converter n round)) : converterTriage s = triageDrop s := by
  simp only [converterTriage, ht, hf, if_true]

/-! ### The triage of a rail (R153, R158) -/

theorem railTriage_frozen (s : State) (n c1 : Nat) (p1 fs : Int) (cnt : Nat) (hf : assayFrozen s = true)
    (ht : s.assay.triage = some (.rail n c1 p1 fs cnt)) : railTriage s = triageDrop s := by
  simp only [railTriage, ht, hf, if_true]

theorem railTriage_delivered (s : State) (n c1 : Nat) (p1 fs : Int) (cnt c2 : Nat) (pool : Int)
    (ht : s.assay.triage = some (.rail n c1 p1 fs cnt)) (hf : assayFrozen s = false) (hg : s.assay.group = [c2])
    (hp : gotOf s c2 = some pool) : railTriage s = startTriage (syncAssay (railVerdict s n c1 c2 p1 fs cnt pool)) := by
  simp only [railTriage, ht, hf, hg, hp, List.map_cons, List.map_nil, Bool.false_eq_true, if_false]

/-- R153: the count of a rail's misses returns to 0. -/
def railCleared (s : State) (n : Nat) : State := s.modAssay fun a => { a with railMiss := vmod a.railMiss n fun _ => 0 }

section
variable (s : State) (n c1 c2 : Nat) (p1 fs : Int) (cnt : Nat) (pool : Int)

/-- The fine path agrees with neither converter, and they with each other. -/
theorem railVerdict_sliceWorn (hp : poolsDiffer s p1 pool = false) (h1 : railDiffer s p1 fs cnt = true)
    (h2 : railDiffer s pool fs cnt = true) :
    railVerdict s n c1 c2 p1 fs cnt pool = declareSlice (endTriage s (.rail n c1 p1 fs cnt) 1 (sliceOf s n) c1 c2) n none := by
  simp only [railVerdict, hp, h1, h2, Bool.not_true, Bool.not_false, Bool.and_self, if_true]

/-- The first converter stands alone, and is the suspect of a triage of its own. -/
theorem railVerdict_converterSuspect (hp : poolsDiffer s p1 pool = true) (h1 : railDiffer s p1 fs cnt = true)
    (h2 : railDiffer s pool fs cnt = false) :
    railVerdict s n c1 c2 p1 fs cnt pool =
      (let t := railCleared (endTriage s (.rail n c1 p1 fs cnt) 2 (sliceOf s n) c1 c2) n
       mismatch (t.modPc c1 fun c => { c with miss := missLimit t F.ASSAY_CONV_TOL_MISS }) (.converter c1 1)) := by
  simp only [railVerdict, hp, h1, h2, Bool.not_true, Bool.not_false, Bool.and_self, Bool.and_false, Bool.false_eq_true, if_false, if_true,
    railCleared]

/-- The second converter agrees with both. -/
theorem railVerdict_none (hp : poolsDiffer s p1 pool = false) (h2 : railDiffer s pool fs cnt = false) :
    railVerdict s n c1 c2 p1 fs cnt pool = railCleared (endTriage s (.rail n c1 p1 fs cnt) 2 (sliceOf s n) c1 c2) n := by
  simp only [railVerdict, hp, h2, Bool.not_true, Bool.not_false, Bool.and_false, Bool.and_self, Bool.false_eq_true, if_false, if_true,
    railCleared]

end

/-- Settles O14: each row is its operation with what follows it; a conversion is delivered by its kind, and a verdict falls by which of the
readings differ. -/
theorem assay : Obligations.Assay := by
  refine ⟨⟨?start, ?startOff, ?check, ?due, ?complete, ?roundEnds, ?roundOff⟩, ⟨?converter, ?rail, ?verdict, ?frozen⟩,
    exec_assayRoundStart, exec_assayConversionComplete, exec_assayRoundEnd, exec_converterTriage, exec_railTriage,
    exec_assayConversionDue⟩
  case start => exact fun s hm he hr => by rw [exec_assayRoundStart, roundStart_begins s (assayStim s) hm he hr]
  case startOff => exact fun s h => by rw [exec_assayRoundStart, roundStart_rests s (assayStim s) h]
  case check =>
    intro s n stim p h
    rw [roundCheck_of_nextConv s n stim p h]
    exact ⟨fun hs => if_pos hs, fun hs => if_neg (by rw [hs]; exact Bool.false_ne_true)⟩
  case due => exact fun s n h => by rw [exec_assayConversionDue, conversionDue_awaited s n h]
  case complete =>
    intro s n w hw ht
    rw [exec_assayConversionComplete]
    refine ⟨fun hk => ?_, fun r hk => ?_, fun hk => ?_, fun r hk => ?_, fun c hk => ?_⟩
    · rw [conversionComplete_node s n _ w hw ht hk]
    · rw [conversionComplete_railCheck s n _ w hw ht r hk]
    · rw [conversionComplete_triage s n _ w hw ht hk]
    · rw [conversionComplete_recheck s n _ w hw ht r hk]
    · rw [conversionComplete_reference s n _ w hw ht c hk]
  case roundEnds => exact fun s h => by rw [exec_assayRoundEnd, roundEnd_closes s h]
  case roundOff => exact fun s h => by rw [exec_assayRoundEnd, roundEnd_rests s h]
  case converter =>
    intro s n round x a b u w1 w2 ht hf hg hu h1 h2
    rw [exec_converterTriage, converterTriage_delivered s n round x a b u w1 w2 ht hf hg hu h1 h2]
    refine ⟨fun hd => ?_, fun hd hd1 hd2 => ?_, fun hd hdu => ?_⟩
    · rw [converterVerdict_unresolved s n round a b u w1 w2 hd]
    · rw [converterVerdict_worn s n round a b u w1 w2 hd hd1 hd2]
    · rw [converterVerdict_none s n round a b u w1 w2 hd hdu]
  case rail =>
    exact fun s n c1 p1 fs cnt c2 pool ht hf hg hp => by
      rw [exec_railTriage, railTriage_delivered s n c1 p1 fs cnt c2 pool ht hf hg hp]
  case verdict =>
    exact fun s n c1 c2 p1 fs cnt pool => ⟨railVerdict_sliceWorn s n c1 c2 p1 fs cnt pool,
      railVerdict_converterSuspect s n c1 c2 p1 fs cnt pool, railVerdict_none s n c1 c2 p1 fs cnt pool⟩
  case frozen =>
    intro s n hf
    refine ⟨fun round ht => ?_, fun c1 p1 fs cnt ht => ?_⟩
    · rw [exec_converterTriage, converterTriage_frozen s n round hf ht]
    · rw [exec_railTriage, railTriage_frozen s n c1 p1 fs cnt hf ht]

end Sys2Proof.Machine
end

section
/-! The checks of spare slices (spec/06_assay.md R154) and of SRAM rows (spec/12_twins_spares.md R318). -/

namespace Sys2Proof.Machine

/-! ### Spare slices (R154) -/

theorem spareCheck_rests (s : State) (k : Nat) (raw0 raw1 : Int)
    (h : s.flag F.ASSAY_CFG_SPARE_EN = false ∨ s.assay.spareDue.getLsbD k = false) : spareCheck s k raw0 raw1 = s := by
  refine if_pos ?_
  rcases h with h | h
  · rw [h]
    rfl
  · rw [h]
    exact Bool.or_true _

/-- R154: the check of spare slice `k` is no longer due, and is counted. -/
def spareCounted (s : State) (k : Nat) : State :=
  (s.modAssay fun a => { a with spareDue := a.spareDue &&& ~~~(1#8 <<< k) }).addWrap (F.SPAREk_CNT_CHECKS k)

/-- R154, R155: spare slice `k` has passed its check, and its factors follow the medians. -/
def sparePassed (s : State) (k : Nat) (raw0 raw1 m0 m1 : Int) : State :=
  let t := (s.put (F.SPAREk_STATUS_CHECK_OK k) 1).modSpare fun p => { p with lastBad := p.lastBad &&& ~~~(1#8 <<< k) }
  let t := t.modAssay fun a => { a with spareMiss := vmod a.spareMiss k fun _ => 0 }
  syncSpares (sliceUpdate (sliceUpdate t (64 + k) raw0 1 (m0 * 128) 3355443200) (64 + k) raw1 1 (m1 * 128) 3355443200)

theorem spareCheck_passes (s : State) (k : Nat) (raw0 raw1 m0 m1 : Int) (he : s.flag F.ASSAY_CFG_SPARE_EN = true)
    (hm : assayMode s = true) (hq : s.mode ≠ mQuiescent) (hs : s.get (F.SPAREk_STATUS_STATE k) = 0)
    (hd : s.assay.spareDue.getLsbD k = true) (h0 : s.assay.median0 = some m0) (h1 : s.assay.median1 = some m1)
    (hf : assayFrozen s = false) (hmiss : spareMisses (spareCounted s k) (64 + k) raw0 raw1 m0 m1 = false) :
    spareCheck s k raw0 raw1 = sparePassed (spareCounted s k) k raw0 raw1 m0 m1 := by
  have hmode : (s.mode == mQuiescent) = false := beq_eq_false_iff_ne.mpr hq
  have hfrozen : assayFrozen (s.modAssay fun a => { a with spareDue := a.spareDue &&& ~~~(1#8 <<< k) }) = false := hf
  rw [spareCounted] at hmiss
  simp only [spareCheck, he, hm, hmode, hs, hd, h0, h1, hfrozen, hmiss, bne_self_eq_false, Bool.not_true, Bool.or_self,
    Bool.false_eq_true, if_false, sparePassed, spareCounted]

theorem sparePeriod_over (s : State) (h : max 1 (s.get F.ASSAY_CFG_SPARE_PER) ≤ s.assay.sparePer + 1) :
    sparePeriod s = s.modAssay fun a => { a with sparePer := 0, spareDue := 255 } := if_pos h

theorem sparePeriod_runs (s : State) (h : s.assay.sparePer + 1 < max 1 (s.get F.ASSAY_CFG_SPARE_PER)) :
    sparePeriod s = s.modAssay fun a => { a with sparePer := a.sparePer + 1 } := if_neg (Nat.not_le.mpr h)

/-! ### SRAM rows (R318) -/

/-- R318: a corrected error of the row lies at most 24 h back. -/
def sramRepeated (s : State) (row : Nat) : Bool := s.spare.sramErr.any fun e => e.1 == row && decide (s.tclk - e.2 ≤ day)

/-- R318: the error is noted in place of the row's last one. -/
def sramNoted (s : State) (row : Nat) : State :=
  s.modSpare fun p => { p with sramErr := p.sramErr.filter (fun e => e.1 != row) ++ [(row, s.tclk)] }

theorem sramError_first (s : State) (row : Nat) (h : sramRepeated s row = false) : sramError s row = sramNoted s row := by
  rw [sramRepeated] at h
  simp only [sramError, h, Bool.false_and, Bool.false_eq_true, if_false, sramNoted]

theorem sramError_remaps (s : State) (row : Nat) (h : sramRepeated s row = true) (hw : s.spare.sramWorn.contains row = false)
    (hu : s.get F.SPR_STATUS_SRAM_USED < 32) :
    sramError s row =
      mapChanged (((sramNoted s row).modSpare fun p => { p with sramWorn := p.sramWorn ++ [row] }).addSat F.SPR_STATUS_SRAM_USED) := by
  have hworn : (sramNoted s row).spare.sramWorn.contains row = false := hw
  rw [sramRepeated] at h
  rw [sramNoted] at hworn
  simp only [sramError, h, hworn, Bool.not_false, Bool.and_self, if_true, State.modSpare_get, if_pos hu, sramNoted]

/-- Settles O15: each row is its operation with what follows it; a check takes the branch of a spare that is due and agrees with the
medians, an error that of the row's earlier ones. -/
theorem spareChecks : Obligations.SpareChecks := by
  refine ⟨⟨?rests, ?passes, ?period, ?first, ?remaps⟩, exec_spareSliceCheck, exec_sramCorrectedError⟩
  case rests => exact fun s k raw0 raw1 h => by rw [exec_spareSliceCheck, spareCheck_rests s k raw0 raw1 h]
  case passes =>
    intro s k raw0 raw1 m0 m1 he hm hq hs hd h0 h1 hf t hmiss
    rw [exec_spareSliceCheck, spareCheck_passes s k raw0 raw1 m0 m1 he hm hq hs hd h0 h1 hf hmiss]
    rfl
  case period =>
    intro s
    refine ⟨fun h => ?_, fun h => ?_⟩
    · rw [sparePeriod_over s h]
      exact ⟨rfl, rfl⟩
    · rw [sparePeriod_runs s h]
      exact ⟨rfl, rfl⟩
  case first =>
    intro s row h
    rw [exec_sramCorrectedError, sramError_first s row h, sramNoted]
  case remaps =>
    intro s row h hw hu
    rw [exec_sramCorrectedError, sramError_remaps s row h hw hu, sramNoted]

end Sys2Proof.Machine
end

section
/-! The control of the Quires (spec/07_quires.md R2, R163, R166, R167, R182, R483): the starts and the resume by QUIREq_CTRL and SEQ_CTRL, a
write of the members, what the control word shows, and the step at which a start begins. -/

namespace Sys2Proof.Machine

/-! ### The words of SEQ_CTRL (R166) -/

theorem hookStarts_seqUp (t : State) (m : BitVec 16) :
    hookStarts t R.SEQ_CTRL m.toNat = (quireList m.toNat).foldl startUp (endAuto t 3) := by
  have hm : m.toNat < 65536 := m.isLt
  rw [hookStarts_seq, Nat.div_eq_of_lt hm, Nat.mod_eq_of_lt hm, quireList_zero, List.foldl_nil]

theorem hookStarts_seqDown (t : State) (m : BitVec 16) :
    hookStarts t R.SEQ_CTRL (65536 * m.toNat) = (quireList m.toNat).foldl startDown (endAuto t 3) := by
  rw [hookStarts_seq, Nat.mul_mod_right, Nat.mul_div_cancel_left _ (by decide), quireList_zero, List.foldl_nil]

/-! ### The control word (R2) -/

theorem quireCtrlWord_upRuns (s : State) (q : Nat) (hu : s.flag ⟨R.QUIREq_CTRL q, 0, 1⟩ = true)
    (hd : s.flag ⟨R.QUIREq_CTRL q, 1, 1⟩ = false) (h : qState s q = qUpRun) : quireCtrlWord s q = 1 := by
  simp only [quireCtrlWord, hu, hd, h, beq_self_eq_true, Bool.true_or, Bool.and_self, Bool.false_and, Bool.false_eq_true, if_true, if_false]

theorem quireCtrlWord_downRuns (s : State) (q : Nat) (hd : s.flag ⟨R.QUIREq_CTRL q, 1, 1⟩ = true)
    (hu : s.flag ⟨R.QUIREq_CTRL q, 0, 1⟩ = false) (h : qState s q = qDownRun) : quireCtrlWord s q = 2 := by
  simp only [quireCtrlWord, hu, hd, h, beq_self_eq_true, Bool.true_or, Bool.and_self, Bool.false_and, Bool.false_eq_true, if_true, if_false]

/-- R2: no sequence runs in these states, so neither start reads 1. -/
theorem quireCtrlWord_complete (s : State) (q : Nat) (h : qState s q = qOn ∨ qState s q = qOff ∨ qState s q = qStopped) :
    quireCtrlWord s q = 0 := by
  have hruns : (qState s q == qUpRun) = false ∧ (qState s q == qDownRun) = false ∧ (qState s q == qHeld) = false := by
    rcases h with h | h | h <;> rw [h] <;> decide
  obtain ⟨hup, hdown, hheld⟩ := hruns
  simp only [quireCtrlWord, hup, hdown, hheld, Bool.false_and, Bool.or_false, Bool.and_false, Bool.false_eq_true, if_false]

/-! ### Where a start leads (R166) -/

theorem startUp_off (s : State) (q : Nat) (h : qState s q = qOff) :
    startUp s q =
      (let t := (s.setReg (R.QUIREq_DONE q) 0).setReg (R.QUIREq_CTRL q) 0
       readyStep ((resetRused t (members t q)).put (F.QUIREq_STATUS_STATE q) qUpRun) q false 0) := by
  have hstopped : (qOff == qStopped) = false := rfl
  simp only [startUp, h, hstopped, Bool.false_and, Bool.false_eq_true, if_false, beq_self_eq_true, if_true]

theorem startUp_stopped (s : State) (q : Nat) (h : qState s q = qStopped) (hd : curDown s q = false) :
    startUp s q = readyStep (((s.setReg (R.QUIREq_DONE q) 0).setReg (R.QUIREq_CTRL q) 0).put (F.QUIREq_STATUS_STATE q) qUpRun)
      q false (curStep s q) := by
  have hoff : (qStopped == qOff) = false := rfl
  simp only [startUp, h, hd, hoff, beq_self_eq_true, Bool.not_false, Bool.and_self, Bool.false_eq_true, if_true, if_false]

/-! ### Past the last step (R163, R167) -/

theorem readyStep_upDone (s : State) (q i : Nat) (h : stepValid s q false i = false) :
    readyStep s q false i = seqRan (qEvent (((s.put (F.QUIREq_STATUS_STATE q) qOn).modQ q fun t => { t with phase := .idle }).endCond 19 q)
      q F.QUIREq_EVT_UP_DONE 2) := by
  simp only [readyStep, h, Bool.false_eq_true, if_false]

theorem readyStep_downDone (s : State) (q i : Nat) (h : stepValid s q true i = false) :
    readyStep s q true i = seqRan (downFinal s q) := by
  simp only [readyStep, h, Bool.false_eq_true, if_false, if_true]

/-- Settles O16: a write that nothing refuses is stored and its starts act on what is stored; a start takes the branch of the state that
it finds, and the control word that of the state that it shows. -/
theorem quireControl : Obligations.QuireControl := by
  refine ⟨⟨?up, ?down, ?resumes, ?seqUp, ?seqDown, ?memberWrite, ?word⟩,
    ⟨startUp_off, startUp_stopped, fun _ _ => rfl, readyStep_upDone, readyStep_downDone⟩,
    exec_quireUp, exec_quireDown, exec_quireCtrlResume, exec_seqCtrlUp, exec_seqCtrlDown, exec_quireMembersWrite⟩
  case up =>
    exact fun s p q h => write_row (fun t => (startUp (endAuto t 3) q).setReg (R.QUIREq_CTRL q) 1) (exec_quireUp s p q) h fun t => by
      rw [regHook_quireCtrl, hookStarts_up]
  case down =>
    exact fun s p q h => write_row (fun t => (startDown (endAuto t 3) q).setReg (R.QUIREq_CTRL q) 2) (exec_quireDown s p q) h fun t => by
      rw [regHook_quireCtrl, hookStarts_down]
  case resumes =>
    exact fun s p q h => write_row (fun t => resume (endAuto t 3) q) (exec_quireCtrlResume s p q) h fun t => by
      rw [regHook_quireCtrl, hookStarts_resume]
  case seqUp =>
    exact fun s p m h => write_row (fun t => (quireList m.toNat).foldl startUp (endAuto t 3)) (exec_seqCtrlUp s p m) h fun t => by
      rw [regHook_seqCtrl, hookStarts_seqUp]
  case seqDown =>
    exact fun s p m h => write_row (fun t => (quireList m.toNat).foldl startDown (endAuto t 3)) (exec_seqCtrlDown s p m) h fun t => by
      rw [regHook_seqCtrl, hookStarts_seqDown]
  case memberWrite =>
    exact fun s p q hi v h => write_row id (exec_quireMembersWrite s p q hi v) h fun t => regHook_members t q hi _ _
  case word => exact fun s q => ⟨quireCtrlWord_upRuns s q, quireCtrlWord_downRuns s q, quireCtrlWord_complete s q⟩

end Sys2Proof.Machine
end

section
/-! The steps of a Quire (spec/07_quires.md R38, R167 to R172, R181, R182): what a row does in the phase that it serves, the failed attempt
of an up-step, and the barrier. -/

namespace Sys2Proof.Machine

/-! ### The action and its gate (R167, R168, R38) -/

section
variable (s : State) (q off : Nat) (hr : seqRuns s = true)
include hr

theorem stepAction_applies (hp : (s.qu q).phase = .action) : stepAction s q off = applyAction s q off := by
  simp only [stepAction, hr, hp, beq_self_eq_true, Bool.and_self, if_true]

/-- R168, R38: the gate opens where the angle lies in the window, and where the edge reaches or passes the opening angle. -/
theorem gateOpen_applies (hp : (s.qu q).phase = .gate) (ha : s.angRun = true)
    (hw : windowOpen (stepGet s q (curDown s q) (curStep s q) 4 (F.QUIREq_STEP4_ANG_OPEN q))
        (stepGet s q (curDown s q) (curStep s q) 5 (F.QUIREq_STEP5_ANG_CLOSE q)) (angleOf s.ang.stamp) = true ∨
      angPassed s (stepGet s q (curDown s q) (curStep s q) 4 (F.QUIREq_STEP4_ANG_OPEN q)) = true) :
    gateOpen s q off = applyAction s q off := by
  have hnow : windowNow s (stepGet s q (curDown s q) (curStep s q) 4 (F.QUIREq_STEP4_ANG_OPEN q))
      (stepGet s q (curDown s q) (curStep s q) 5 (F.QUIREq_STEP5_ANG_CLOSE q)) = true := Bool.or_eq_true_iff.mpr hw
  simp only [gateOpen, hr, hp, ha, hnow, beq_self_eq_true, Bool.and_self, if_true]

theorem gateTimeout_applies (hp : (s.qu q).phase = .gate) (hg : s.flag (F.QUIREq_CFG_GATE_TO q) = true) :
    gateTimeout s q off = applyAction (qEvent s q F.QUIREq_EVT_GATE_LATE 7) q off := by
  simp only [gateTimeout, hr, hp, hg, beq_self_eq_true, Bool.and_self, if_true]

/-- R172: the next attempt of a gated step waits at its gate again. -/
theorem retryOffEnd_gated (hp : (s.qu q).phase = .retryOff) (hg : curFlag s q F.QUIREq_STEP2_ANG_GATE = true) :
    retryOffEnd s q off = s.modQ q fun t => { t with phase := .gate } := by
  simp only [retryOffEnd, hr, hp, hg, beq_self_eq_true, Bool.and_self, if_true]

theorem retryOffEnd_applies (hp : (s.qu q).phase = .retryOff) (hg : curFlag s q F.QUIREq_STEP2_ANG_GATE = false) :
    retryOffEnd s q off = applyAction s q off := by
  simp only [retryOffEnd, hr, hp, hg, beq_self_eq_true, Bool.and_self, Bool.false_eq_true, if_true, if_false]

end

/-! ### The settle wait (R170) -/

theorem settleEnd_waits (s : State) (q : Nat) (hp : (s.qu q).phase = .wait) (hh : s.flag F.SEQ_STATUS_HALT_SUSP = false) :
    settleEnd s q = s.modQ q fun t => { t with settled := true } := by
  simp only [settleEnd, hp, hh, Bool.false_eq_true, if_false]

/-! ### The step completes, or its conditions stay open (R167, R181) -/

section
variable (s : State) (q : Nat) (hr : seqRuns s = true) (hp : (s.qu q).phase = .wait)
include hr hp

theorem stepComplete_holds (hc : openConds (latchConds s q) q % 32 = 0) :
    stepComplete s q =
      if barSelected (latchConds s q) q then arrive (latchConds s q) q else completeStep (latchConds s q) q := by
  simp only [stepComplete, hr, hp, hc, Bool.not_true, Bool.false_eq_true, if_false, ne_eq, not_true_eq_false]

theorem stepComplete_open (hc : openConds (latchConds s q) q % 32 ≠ 0) : stepComplete s q = latchConds s q := by
  simp only [stepComplete, hr, hp, Bool.not_true, Bool.false_eq_true, if_false, if_pos hc]

end

/-! ### The timeout (R171, R172, R181, R182, R184) -/

section
variable (s : State) (q : Nat) (hr : seqRuns s = true) (ht : stepGet s q (curDown s q) (curStep s q) 3 (F.QUIREq_STEP3_TIMEOUT q) ≠ 0)
  (ho : ((railList (curRails s q)).any fun n => (s.fr n).outage != 0) = false)
include hr ht ho

theorem stepTimeout_downOpen (hp : (s.qu q).phase = .wait) (hc : openConds (latchConds s q) q % 32 ≠ 0) (hd : curDown s q = true) :
    stepTimeout s q = readyStep
      ((((latchConds s q).addSat (F.QUIREq_CNT_TIMEOUTS q)).raise 21 0 0 q (q + curStep s q * 16)).put (F.QUIREq_STATUS_CAUSE q) 1) q true
        (curStep s q + 1) := by
  rw [hd] at ht
  simp only [stepTimeout, hr, ht, ho, hp, hc, hd, Bool.not_true, decide_false, Bool.or_self, Bool.false_eq_true, if_false, if_true]

theorem stepTimeout_upOpen (hp : (s.qu q).phase = .wait) (hc : openConds (latchConds s q) q % 32 ≠ 0) (hd : curDown s q = false) :
    stepTimeout s q =
      (let t := (latchConds s q).addSat (F.QUIREq_CNT_TIMEOUTS q)
       failAttempt t q 1 (holdingRails t q)) := by
  rw [hd] at ht
  simp only [stepTimeout, hr, ht, ho, hp, hc, hd, Bool.not_true, decide_false, Bool.or_self, Bool.false_eq_true, if_false]

/-- R181, R182: only the barrier is open: the step arrives at it, and holds. -/
theorem stepTimeout_arrives (hp : (s.qu q).phase = .wait) (hc : openConds (latchConds s q) q % 32 = 0)
    (hb : barSelected (latchConds s q) q = true) : stepTimeout s q = holdQuire (arrive (latchConds s q) q) q := by
  simp only [stepTimeout, hr, ht, ho, hp, hc, hb, Bool.not_true, decide_false, Bool.or_self, Bool.false_eq_true, if_false, if_true]

/-- R182: a step that no release has reached holds; one that holds already stays as it is. -/
theorem stepTimeout_atBarrier (hp : (s.qu q).phase = .bar none) :
    stepTimeout s q = if qState s q == qHeld then s else holdQuire s q := by
  simp only [stepTimeout, hr, ht, ho, hp, Bool.not_true, decide_false, Bool.or_self, Bool.false_eq_true, if_false]

theorem stepTimeout_holds (hp : (s.qu q).phase = .bar none) (hh : qState s q ≠ qHeld) : stepTimeout s q = holdQuire s q := by
  rw [stepTimeout_atBarrier s q hr ht ho hp, if_neg (mt beq_iff_eq.mp hh)]

theorem stepTimeout_held (hp : (s.qu q).phase = .bar none) (hh : qState s q = qHeld) : stepTimeout s q = s := by
  rw [stepTimeout_atBarrier s q hr ht ho hp, if_pos (beq_iff_eq.mpr hh)]

end

/-! ### Attempts (R172) -/

/-- An attempt belongs to an up-run, which a Quire in HELD has left. -/
theorem attemptOn_held (s : State) (q n : Nat) (h : qState s q = qHeld) : attemptOn s q n = false := by
  have hup : (qHeld == qUpRun) = false := rfl
  simp only [attemptOn, h, hup, Bool.false_and]

theorem failAttempt_retries (s : State) (q cause holding : Nat)
    (h : (s.put (F.QUIREq_STATUS_CAUSE q) cause).get (F.QUIREq_STATUS_ATTEMPT q) ≠
      stepGet (s.put (F.QUIREq_STATUS_CAUSE q) cause) q false (curStep (s.put (F.QUIREq_STATUS_CAUSE q) cause) q) 2 (F.QUIREq_STEP2_RETRY q)) :
    failAttempt s q cause holding =
      (let t := s.put (F.QUIREq_STATUS_CAUSE q) cause
       let t := (t.put (F.QUIREq_STATUS_ATTEMPT q) (t.get (F.QUIREq_STATUS_ATTEMPT q) + 1)).addSat (F.QUIREq_CNT_RETRIES q)
       (qEvent (applyLatch t 0 (curRails t q)) q F.QUIREq_EVT_RETRY 4).modQ q fun u => { u with phase := .retryOff, slopeHeld := 0 }) :=
  if_neg h

/-! ### A release that has matched (R181) -/

theorem barrierMatch_completes (s : State) (q : Nat) (t : Stamp) (hp : (s.qu q).phase = .bar (some t)) (ha : s.angRun = true)
    (ht : stampReached s.ang.stamp t = true) (hr : seqRuns s = true) : barrierMatch s q = completeStep s q := by
  simp only [barrierMatch, hp, ha, ht, hr, Bool.and_self, if_true]

/-- Settles O17: each row is its operation with what follows it, and the operation takes the branch of the step's phase and of what is open. -/
theorem quireSteps : Obligations.QuireSteps := by
  refine ⟨⟨?action, ?gate, ?gateLate, ?settled, ?completes, ?staysOpen, ?timeout, ?barrier, attemptOn_held, ?retry, ?released⟩,
    ⟨failAttempt_retries, fun _ _ => rfl⟩, exec_stepAction, exec_angleGateOpen, exec_gateTimeout, exec_settleEnd, exec_stepComplete,
    exec_stepTimeout, exec_retryOffEnd, exec_barrierReleaseMatch⟩
  case action => exact fun s q off hr hp => by rw [exec_stepAction, stepAction_applies s q _ hr hp]
  case gate => exact fun s q off hr hp ha hw => by rw [exec_angleGateOpen, gateOpen_applies s q _ hr hp ha hw]
  case gateLate => exact fun s q off hr hp hg => by rw [exec_gateTimeout, gateTimeout_applies s q _ hr hp hg]
  case settled => exact fun s q hp hh => by rw [exec_settleEnd, settleEnd_waits s q hp hh]
  case completes => exact fun s q hr hp hc => by rw [exec_stepComplete, stepComplete_holds s q hr hp hc]
  case staysOpen => exact fun s q hr hp hc => by rw [exec_stepComplete, stepComplete_open s q hr hp hc]
  case timeout =>
    intro s q hr hp ht ho hc
    exact ⟨fun hd => by rw [exec_stepTimeout, stepTimeout_downOpen s q hr ht ho hp hc hd],
      fun hd => by rw [exec_stepTimeout, stepTimeout_upOpen s q hr ht ho hp hc hd]⟩
  case barrier =>
    intro s q hr ht ho
    exact ⟨fun hp hc hb => by rw [exec_stepTimeout, stepTimeout_arrives s q hr ht ho hp hc hb],
      fun hp hh => by rw [exec_stepTimeout, stepTimeout_holds s q hr ht ho hp hh],
      fun hp hh => by rw [exec_stepTimeout, stepTimeout_held s q hr ht ho hp hh]⟩
  case retry =>
    intro s q off hr hp
    exact ⟨fun hg => by rw [exec_retryOffEnd, retryOffEnd_gated s q _ hr hp hg],
      fun hg => by rw [exec_retryOffEnd, retryOffEnd_applies s q _ hr hp hg]⟩
  case released => exact fun s q t hp ha ht hr => by rw [exec_barrierReleaseMatch, barrierMatch_completes s q t hp ha ht hr]

end Sys2Proof.Machine
end

section
/-! The orders of the sequencer (spec/07_quires.md R174 to R178, R180, R188, R190, R467): the retry cycle of one rail, the orders that are
taken from the inbox, the stages of the Hallmark down-order and of the shutdown at Halt, and what a shut does in each state. -/

namespace Sys2Proof.Machine

/-! ### The retry cycle of a rail (R175, R190) -/

section
variable (s : State) (n : Nat) (hr : seqRuns s = true)
include hr

/-- R190: a stage or a shut that turns the rail off on this edge ends the cycle, whatever the state of the Quire. -/
theorem railRetryOffEnd_off (q : Nat) (hq : quireOf s n = some q) (hc : (s.rs n).cycle = .off) :
    railRetryOffEnd s n true = s.modRs n fun r => { r with cycle := .none } := by
  simp only [railRetryOffEnd, hq, hr, hc, bne_self_eq_false, Bool.not_true, Bool.or_self, Bool.false_eq_true, Bool.true_or, if_false, if_true]

theorem railRetryOffEnd_on (q : Nat) (hq : quireOf s n = some q) (hc : (s.rs n).cycle = .off) (hs : qState s q = qOn) :
    railRetryOffEnd s n false = latchCycle (latchOn (s.modRs n fun r =>
      { r with cycle := .waiting, cycleValids := 0, cyclePg := false, cycleWin := false }) n) n := by
  have hstays : (false || qOn == qShutting || qOn == qDownRun || qOn == qHallmark || qOn == qOff || qOn == qStopped) = false := rfl
  simp only [railRetryOffEnd, hq, hr, hc, hs, hstays, bne_self_eq_false, Bool.not_true, Bool.or_self, Bool.false_eq_true, if_false]

theorem railRetryDone_holds (hc : (s.rs n).cycle = .waiting) (hh : cycleHolds (latchCycle s n) n = true) :
    railRetryDone s n = armUv ((latchCycle s n).modRs n fun r => { r with cycle := .none }) n := by
  simp only [railRetryDone, hr, hc, hh, bne_self_eq_false, Bool.not_true, Bool.or_self, Bool.false_eq_true, if_false, if_true]

theorem railRetryTimeout_shuts (q k i : Nat) (hq : quireOf s n = some q) (he : (s.rs n).enabler = some (k, i))
    (hc : (s.rs n).cycle = .waiting) (ht : stepGet s k false i 3 (F.QUIREq_STEP3_TIMEOUT k) ≠ 0) (ho : (s.fr n).outage = 0)
    (hh : cycleHolds (latchCycle s n) n = false) :
    railRetryTimeout s n = shutQuire ((latchCycle s n).raise 20 0 1 n (n + 256 * q)) q := by
  simp only [railRetryTimeout, hq, he, hr, hc, ht, ho, hh, bne_self_eq_false, Bool.not_true, decide_false, Bool.or_self, Bool.false_eq_true,
    if_false]

end

theorem budgetRefill_refills (s : State) (n : Nat) (he : enLatch s n = true) (hov : s.condStands 0 n = false)
    (huv : s.condStands 2 n = false) (hpg : s.condStands 3 n = false) : budgetRefill s n = s.put (F.SEQ_RAIL_RUSED n) 0 := by
  simp only [budgetRefill, he, hov, huv, hpg, Bool.not_false, Bool.and_self, if_true]

/-! ### An order is taken (R177, R178, R180) -/

theorem takeOrder_due (s : State) (o : SeqOrder) (h : s.seq.inbox.contains o = true) :
    takeOrder s o = (s.modSeq fun t => { t with inbox := t.inbox.erase o }, true) := if_pos h

theorem quireShutOrder_due (s : State) (q : Nat) (h : s.seq.inbox.contains (.shut q) = true) :
    quireShutOrder s q = shutQuire (s.modSeq fun t => { t with inbox := t.inbox.erase (.shut q) }) q := by
  simp only [quireShutOrder, takeOrder_due s _ h, if_true]

theorem shutAllOrder_due (s : State) (h : s.seq.inbox.contains .shutAll = true) :
    shutAllOrder s = shutAllQuires (s.modSeq fun t => { t with inbox := t.inbox.erase .shutAll }) := by
  simp only [shutAllOrder, takeOrder_due s _ h, if_true]

theorem hallmarkOrder_due (s : State) (h : s.seq.inbox.contains .hallmark = true) :
    hallmarkOrder s = hallmarkStart (s.modSeq fun t => { t with inbox := t.inbox.erase .hallmark }) := by
  simp only [hallmarkOrder, takeOrder_due s _ h, if_true]

/-! ### The stages of the down-order and of the shutdown at Halt (R180, R188, R467) -/

theorem nextStage_eq (s : State) (k : Nat) :
    nextStage s k = if k < 16 ∧ F.HM_ORDER_CFG_VALID.extract (s.reg (R.hmStage k 2)) = 1 then some k else none := by
  simp only [nextStage, hmStageValid, beq_iff_eq]

theorem haltStage_invalid (s : State) (qs k fuel : Nat) (h : hmStageValid s k = false) : haltStage fuel s qs k = haltEnd s qs := by
  cases fuel with
  | zero => rfl
  | succ fuel => simp only [haltStage, h, Bool.not_false, if_true]

section
variable (s : State) (hrun : s.flag F.SEQ_STATUS_HM_RUN = true)
include hrun

/-- While stages remain the row goes on to the stage after the one that acted. -/
theorem hallmarkStageEnd_next (hl : s.seq.hmLast = false) :
    hallmarkStageEnd s = hmStageNext s (s.get F.SEQ_STATUS_HM_STAGE + 1) := by
  simp only [hallmarkStageEnd, hrun, hl, Bool.false_eq_true, if_true, if_false]

theorem hallmarkStageEnd_acts (k : Nat) (hl : s.seq.hmLast = false) (hk : nextStage s (s.get F.SEQ_STATUS_HM_STAGE + 1) = some k) :
    hallmarkStageEnd s = applyLatch (s.put F.SEQ_STATUS_HM_STAGE k) 0 (hmStageRails s k) := by
  simp only [hallmarkStageEnd_next s hrun hl, hmStageNext, hk, hmStageAct]

theorem hallmarkStageEnd_allOff (hl : s.seq.hmLast = false) (hk : nextStage s (s.get F.SEQ_STATUS_HM_STAGE + 1) = none) :
    hallmarkStageEnd s = (applyLatch s 0 (2 ^ 64 - 1)).modSeq fun t => { t with hmLast := true } := by
  simp only [hallmarkStageEnd_next s hrun hl, hmStageNext, hk, allOff]

theorem hallmarkStageEnd_completes (hl : s.seq.hmLast = true) : hallmarkStageEnd s = hallmarkDone s := by
  simp only [hallmarkStageEnd, hrun, hl, if_true]

end

theorem hallmarkStageEnd_halt (s : State) (qs k : Nat) (hrun : s.flag F.SEQ_STATUS_HM_RUN = false) (h : s.seq.haltOff = some (qs, k)) :
    hallmarkStageEnd s = haltStage (15 - k) s qs (k + 1) := by
  simp only [hallmarkStageEnd, hrun, h, Bool.false_eq_true, if_false]

theorem hallmarkStageEnd_rests (s : State) (hrun : s.flag F.SEQ_STATUS_HM_RUN = false) (h : s.seq.haltOff = none) :
    hallmarkStageEnd s = s := by
  simp only [hallmarkStageEnd, hrun, h, Bool.false_eq_true, if_false]

/-! ### A shut (R174, R177, R188) -/

theorem shutQuire_commission (s : State) (q : Nat) (h : s.mode = mCommission) : shutQuire s q = applyLatch s 0 (members s q) := by
  simp only [shutQuire, h, beq_self_eq_true, if_true]

section
variable (s : State) (q : Nat) (hm : s.mode ≠ mCommission)
include hm

theorem shutQuire_halt (hh : s.flag F.SEQ_STATUS_HALT_SUSP = true) : shutQuire s q = haltShut s (2 ^ q) := by
  simp only [shutQuire, beq_eq_false_iff_ne.mpr hm, hh, Bool.false_eq_true, if_false, if_true]

/-- R177: a Quire that is OFF, under the down-order or shut already is left alone. -/
theorem shutQuire_rests (hh : s.flag F.SEQ_STATUS_HALT_SUSP = false)
    (hs : qState s q = qOff ∨ qState s q = qHallmark ∨ qState s q = qShutting) : shutQuire s q = s := by
  have hrests : (qState s q == qOff || qState s q == qHallmark || qState s q == qShutting) = true := by
    simp only [Bool.or_eq_true, beq_iff_eq, or_assoc]
    exact hs
  simp only [shutQuire, beq_eq_false_iff_ne.mpr hm, hh, hrests, Bool.false_eq_true, if_false, if_true]

/-- R177: the down-sequence runs from D0; a Quire with no step in progress records no cause. -/
theorem shutQuire_on (hs : qState s q = qOn) (hh : s.flag F.SEQ_STATUS_HALT_SUSP = false)
    (hp : ((endCycles s (members s q)).qu q).phase = .idle) :
    shutQuire s q = readyStep (((abandonStep (endCycles s (members s q)) q).setReg (R.QUIREq_DONE q) 0).put
      (F.QUIREq_STATUS_STATE q) qShutting) q true 0 := by
  have hacts : (qOn == qOff || qOn == qHallmark || qOn == qShutting) = false := rfl
  have hdown : (qOn == qDownRun) = false := rfl
  simp only [shutQuire, beq_eq_false_iff_ne.mpr hm, hh, hs, hacts, hdown, hp, bne_self_eq_false, Bool.false_eq_true, if_false]

end

/-- Settles O18: each row is its operation with what follows it; a rail's cycle takes the branch of the state that it is in, an order is taken
from the inbox, a stage's end takes the branch of what is still to come, and a shut that of the mode and of the Quire's state. -/
theorem quireOrders : Obligations.QuireOrders := by
  refine ⟨⟨?cycleOn, ?cycleOff, ?cycleDone, ?cycleTimeout, ?budget⟩,
    ⟨?shut, ?shutAll, ?hallmark, ?stageActs, ?allOff, ?completes, nextStage_eq, ?haltStage, fun s qs k fuel => haltStage_invalid s qs k fuel,
      ?rests⟩,
    ⟨shutQuire_commission, fun s q hm hh hs => shutQuire_rests s q hm hh hs, shutQuire_halt, shutQuire_on⟩,
    exec_railRetryOffEnd, exec_railRetryTimeout, exec_railRetryDone, exec_retryBudgetRefill, exec_quireShut, exec_shutAll,
    exec_hallmarkDownOrderStart, exec_hallmarkStageEnd⟩
  case cycleOn => exact fun s n q hq hr hc hs => by rw [exec_railRetryOffEnd, railRetryOffEnd_on s n hr q hq hc hs]
  case cycleOff => exact fun s n q hq hr hc => by rw [exec_railRetryOffEnd, railRetryOffEnd_off s n hr q hq hc]
  case cycleDone => exact fun s n hr hc hh => by rw [exec_railRetryDone, railRetryDone_holds s n hr hc hh]
  case cycleTimeout =>
    exact fun s n q k i hq he hr hc ht ho hh => by rw [exec_railRetryTimeout, railRetryTimeout_shuts s n hr q k i hq he hc ht ho hh]
  case budget => exact fun s n he hov huv hpg => by rw [exec_retryBudgetRefill, budgetRefill_refills s n he hov huv hpg]
  case shut => exact fun s q h => by rw [exec_quireShut, quireShutOrder_due s q h]
  case shutAll => exact fun s h => by rw [exec_shutAll, shutAllOrder_due s h]
  case hallmark => exact fun s h => by rw [exec_hallmarkDownOrderStart, hallmarkOrder_due s h]
  case stageActs => exact fun s k hrun hl hk => by rw [exec_hallmarkStageEnd, hallmarkStageEnd_acts s hrun k hl hk]
  case allOff => exact fun s hrun hl hk => by rw [exec_hallmarkStageEnd, hallmarkStageEnd_allOff s hrun hl hk]
  case completes => exact fun s hrun hl => by rw [exec_hallmarkStageEnd, hallmarkStageEnd_completes s hrun hl, hallmarkDone]
  case haltStage => exact fun s qs k hrun h => by rw [exec_hallmarkStageEnd, hallmarkStageEnd_halt s qs k hrun h]
  case rests => exact fun s hrun h => by rw [exec_hallmarkStageEnd, hallmarkStageEnd_rests s hrun h]

end Sys2Proof.Machine
end

section
/-! Barriers (spec/16_hexip_ring.md R181, R430, R431, R444) and ring-wide Folios (R329, R432, R433): the cells that a
node takes, the writes of an entry, and when an entry releases. -/

namespace Sys2Proof.Machine

/-! ### A cell that the node takes -/

theorem cellRow_took (s : State) (port : RingPort) (cell : RingCell) (kind : Nat) (f : State → State) (u : State)
    (h : receiveCell s port cell kind = (u, true)) : cellRow s port cell kind f = f u := by
  simp only [cellRow, h, if_true]

theorem arrivalCell_master (s : State) (cell : RingCell) (h : isMaster s = true) :
    arrivalCell s cell = masterArrival s (payNat cell 0 1) (bitOf (payNat cell 1 1) 0) (bitOf (payNat cell 1 1) 1) (payNat cell 2 2)
      cell.src.toNat := if_pos h

/-- R431: no valid entry holds the arrival's barrier. -/
theorem masterArrival_unknown (s : State) (bar : Nat) (hold twin : Bool) (pair addr : Nat)
    (h : ((below 4).any fun k => s.flag (F.RING_BARk_CFG_VALID k) && s.get (F.RING_BARk_CFG_BAR_ID k) == bar) = false) :
    masterArrival s bar hold twin pair addr = (ringEvt s F.RING_EVT_BAR_UNKNOWN 15).raiseMomentary 89 0 0 bar := by
  have hnone : (below 4).find? (fun k => s.flag (F.RING_BARk_CFG_VALID k) && s.get (F.RING_BARk_CFG_BAR_ID k) == bar) = none :=
    List.find?_eq_none.mpr (List.any_eq_false.mp h)
  simp only [masterArrival, hnone]

theorem arrivalRepeat_waits (s : State) (q : Nat) (h : (s.qu q).phase = .bar none) : arrivalRepeat s q = sendArrival s q := by
  simp only [arrivalRepeat, h]

/-! ### The writes of an entry (R431) -/

theorem regHook_barForce (t : State) (k : Fin 4) (old : Nat) : regHook t (R.RING_BARk_CTRL k) old 2 = forceEntry t k := by
  have hclear : bitOf 2 0 = false := by decide
  have hforce : bitOf 2 1 = true := by decide
  simp only [regHook_barCtrl, hclear, hforce, Bool.false_eq_true, if_false, if_true]

theorem regHook_barClear (t : State) (k : Fin 4) (old : Nat) : regHook t (R.RING_BARk_CTRL k) old 1 = clearEntry t k := by
  have hclear : bitOf 1 0 = true := by decide
  have hforce : bitOf 1 1 = false := by decide
  simp only [regHook_barCtrl, hclear, hforce, Bool.false_eq_true, if_false, if_true]

/-! ### An entry clears itself, or releases (R431) -/

theorem barAutoClear_clears (s : State) (k : Nat) (hm : isMaster s = true) (hs : barState s k = 2)
    (ha : s.flag (F.RING_BARk_CFG_AUTO_CLR k) = true) (ht : stampReached s.ang.stamp (barStamp s k) = true) :
    barAutoClear s k = clearEntry s k := by
  simp only [barAutoClear, hm, hs, ha, ht, beq_self_eq_true, Bool.and_self, if_true]

/-- R431: no release is sent while RUN is 0. -/
theorem releaseEntry_stopped (s : State) (k : Nat) (forced : Bool) (h : s.angRun = false) : releaseEntry s k forced = s := by
  simp only [releaseEntry, h, Bool.not_false, if_true]

/-- FORCE acts on a collecting entry alone (DESIGN CHOICE, log entry 108). -/
theorem forceEntry_collecting (s : State) (k : Nat) (h : barState s k = 1) : forceEntry s k = releaseEntry s k true := if_pos h

theorem forceEntry_rests (s : State) (k : Nat) (h : barState s k ≠ 1) : forceEntry s k = s := if_neg h

theorem releaseDue_complete (s : State) (k : Nat) (hs : barState s k = 1) (he : s.get (F.RING_BARk_EXPECT_COUNT k) ≠ 0)
    (hc : s.get (F.RING_BARk_EXPECT_COUNT k) ≤ (rbar s k).keys.length) : releaseDue s k = releaseEntry s k false :=
  if_pos ⟨hs, he, hc⟩

theorem releaseDue_incomplete (s : State) (k : Nat)
    (h : barState s k ≠ 1 ∨ (rbar s k).keys.length < s.get (F.RING_BARk_EXPECT_COUNT k)) : releaseDue s k = s :=
  if_neg fun ⟨hs, _, hc⟩ => h.elim (· hs) (Nat.not_lt.mpr hc)

/-! ### Ring-wide Folios (R432, R433) -/

/-- A request of which the node has taken the match already is not taken again, nor answered. -/
theorem folioRequest_had (s : State) (cell : RingCell) (h : s.ring.folioLast = some (payNat cell 0 2, payStamp cell 2)) :
    folioRequest s cell = s := by
  simp only [folioRequest, h, beq_self_eq_true, Bool.or_true, if_true]

/-- R329, R433: a node that is armed for another target refuses, and stays armed. -/
theorem folioRequest_refused (s : State) (cell : RingCell) (hl : s.ring.folioLast ≠ some (payNat cell 0 2, payStamp cell 2))
    (ha : s.flag F.FOLIO_STATUS_ARMED = true) (hf : s.ring.folioArmed ≠ some (payNat cell 0 2, payStamp cell 2)) :
    folioRequest s cell = originate (folioEvent s F.FOLIO_EVT_AT_REFUSED 4) 0 0xA 1 (beBytes 2 (payNat cell 0 2) ++ [2]) := by
  have hfull : folioRingArm s (payStamp cell 2) (payNat cell 0 2) = (folioEvent s F.FOLIO_EVT_AT_REFUSED 4, true) := if_pos ha
  simp only [folioRequest, beq_eq_false_iff_ne.mpr hl, beq_eq_false_iff_ne.mpr hf, hfull, Bool.and_false, Bool.or_self,
    Bool.false_eq_true, if_false, if_true]

section
variable (s : State) (cell : RingCell) (hm : isMaster s = true) (ha : s.flag F.RING_RF_STATUS_ACTIVE = true)
  (hid : payNat cell 0 2 = s.get F.RING_RF_STATUS_ID)
include hm ha hid

theorem folioAck_armed (h : payNat cell 2 1 = 1) : folioAck s cell = s.addSat F.RING_RF_CNT_ARMED := by
  simp only [folioAck, hm, ha, hid, h, beq_self_eq_true, Bool.and_self, if_true]

theorem folioAck_refused (h : payNat cell 2 1 = 2) : folioAck s cell = s.addSat F.RING_RF_CNT_REFUSED := by
  simp only [folioAck, hm, ha, hid, h, beq_self_eq_true, Bool.and_self, if_true]

theorem folioAck_late (h : payNat cell 2 1 = 3) : folioAck s cell = s.addSat F.RING_RF_LATE_LATE := by
  simp only [folioAck, hm, ha, hid, h, beq_self_eq_true, Bool.and_self, if_true]

end

/-- Settles O37: a cell that is taken acts on what its receipt leaves; a write that nothing refuses acts on what is stored; an entry takes the
branch of its state and its count, a Folio cell that of what the node is armed for or of the answer that it carries. -/
theorem ringBarriers : Obligations.RingBarriers := by
  refine ⟨⟨?arrival, masterArrival_unknown, ?repeats, ?release, ?force, ?clear, ?cfg, ?autoClear, releaseEntry_stopped,
      fun s k => ⟨forceEntry_collecting s k, forceEntry_rests s k⟩, fun s k => ⟨releaseDue_complete s k, releaseDue_incomplete s k⟩⟩,
    ⟨?had, ?refused, ?ack⟩, exec_arrival, exec_arrivalRepeat, exec_release, exec_ringBarForce, exec_ringBarClear, exec_ringBarCfgWrite,
    exec_barrierAutoClear, exec_folio, exec_folioAck⟩
  case arrival => exact fun s port cell u h hm => by rw [exec_arrival, cellRow_took s port cell 7 _ u h, arrivalCell_master u cell hm]
  case repeats => exact fun s q h => by rw [exec_arrivalRepeat, arrivalRepeat_waits s q h]
  case release => exact fun s port cell u h => by rw [exec_release, cellRow_took s port cell 8 _ u h, releaseCell]
  case force => exact fun s p k h => write_row (forceEntry · k) (exec_ringBarForce s p k) h fun t => regHook_barForce t k _
  case clear => exact fun s p k h => write_row (clearEntry · k) (exec_ringBarClear s p k) h fun t => regHook_barClear t k _
  case cfg => exact fun s p k v h => write_row (clearEntry · k) (exec_ringBarCfgWrite s p k v) h fun t => regHook_barCfg t k _ _
  case autoClear =>
    exact fun s k hm hs ha ht => by rw [exec_barrierAutoClear, barAutoClear_clears s k hm hs ha ht, clearEntry]
  case had => exact fun s port cell u h hl => by rw [exec_folio, cellRow_took s port cell 9 _ u h, folioRequest_had u cell hl]
  case refused =>
    exact fun s port cell u h hl ha hf => by rw [exec_folio, cellRow_took s port cell 9 _ u h, folioRequest_refused u cell hl ha hf]
  case ack =>
    intro s port cell u h hm ha hid
    rw [exec_folioAck, cellRow_took s port cell 0xA _ u h]
    exact ⟨fun hk => by rw [folioAck_armed u cell hm ha hid hk], fun hk => by rw [folioAck_refused u cell hm ha hid hk],
      fun hk => by rw [folioAck_late u cell hm ha hid hk]⟩

end Sys2Proof.Machine
end

section
/-! Margin tests (spec/08_margin_sounding.md R195, R196, R198 to R203, R216): the writes of MARG_CTRL, the steps of a test, its end, and the
slew of a code. -/

namespace Sys2Proof.Machine

/-! ### MARG_CTRL (R200, R216) -/

theorem regHook_margStart (t : State) (n : Fin 64) (dir : BitVec 2) (old : Nat) (hd : dir ≠ 0#2) :
    regHook t R.MARG_CTRL old (F.MARG_CTRL_START.insert (F.MARG_CTRL_DIR.insert n dir.toNat) 1) = startMargin t n dir.toNat := by
  obtain ⟨hrail, habort, hstart, hdir⟩ := marg_start_bits n dir.toNat n.isLt dir.isLt
  have hne : dir.toNat ≠ 0 := fun h => hd (BitVec.eq_of_toNat_eq h)
  simp only [regHook_margCtrl, hrail, habort, hstart, hdir, ne_eq, hne, not_false_eq_true, and_self, Bool.false_eq_true, if_true, if_false]

theorem regHook_margAbort (t : State) (n : Fin 64) (old : Nat) :
    regHook t R.MARG_CTRL old (F.MARG_CTRL_ABORT.insert n 1) = abortTest t n 8 false false := by
  obtain ⟨hrail, habort, hstart⟩ := marg_abort_bits n n.isLt
  simp only [regHook_margCtrl, hrail, habort, hstart, Bool.false_eq_true, false_and, if_true, if_false]

/-- R200, R201: a test on the margin output begins with its baseline. -/
theorem startMargin_output (s : State) (n dir : Nat) (h : margSrc s n ≠ 2) :
    startMargin s n dir = syncTest ((s.modMr n fun r => { r with test := some (newTest s n false (margDirs dir)), acc := 0 }).modMarg
      fun m => { m with svcWork := true }) n := by
  simp only [startMargin, beq_eq_false_iff_ne.mpr h, Bool.false_eq_true, if_false]

/-! ### The baseline (R201) -/

/-- R201: the baseline is judged: too small, a prediction that comes near the guard, or the first direction. -/
theorem baselineDone_judges (s : State) (n : Nat) (t : MargTest) (u : State) (base : Int) (ht : (s.mr n).test = some t)
    (hp : t.phase = .baseline) (hn : margAvg s n ≤ t.n) (hr : s.rounded t.sum (margAvg s n) = (u, base)) :
    baselineDone s n =
      (let v := u.modTest n fun t => { t with base := base }
       if base < 524288 then abortTest v n 1 false false
       else if t.dirs.any fun d => nearGuard v n d (predicted v n { t with base := base } d) then abortTest v n 2 false false
       else startDirection v n) := by
  simp only [baselineDone, ht, hp, Nat.not_lt.mpr hn, hr, bne_self_eq_false, decide_false, Bool.or_self, Bool.false_eq_true, if_false]

/-! ### The steps of a direction (R202, R203) -/

section
variable (s : State) (n : Nat) (t : MargTest) (ht : (s.mr n).test = some t)
include ht

section
variable (hsub : inSubst s n = false) (hsnd : sndOn s n = false) (hpm : t.pmbus = false)
include hsub hsnd hpm

theorem codeArrived_dwells (hp : t.phase = .stepping) : codeArrived s n = setPhase (setCode s n (targetCode s n)) n .dwell := by
  simp only [codeArrived, hsub, hsnd, ht, hpm, hp, Bool.or_self, Bool.false_eq_true, if_false]

theorem codeArrived_returned (hp : t.phase = .returning) :
    codeArrived s n = if t.ended then dropTest (setCode s n 0) n else setPhase (setCode s n 0) n .window := by
  simp only [codeArrived, hsub, hsnd, ht, hpm, hp, Bool.or_self, Bool.false_eq_true, if_false]

end

theorem dwellEnd_measures (hp : t.phase = .dwell) : dwellEnd s n = setPhase s n .measuring := by
  simp only [dwellEnd, ht, hp, beq_self_eq_true, if_true]

/-- R202 step 4: DEV is the deviation in units of 10 ppm, and a direction whose DEV lies outside its range is missed. -/
theorem measureDone_judges (u : State) (q : Int) (hp : t.phase = .measuring) (hn : margAvg s n ≤ t.n)
    (ha : s.approx ((t.sum - margAvg s n * t.base) * 100000) (margAvg s n * t.base.toNat) = (u, q)) :
    measureDone s n =
      (let dev := clampInt (-32768) 32767 q
       let v := u.putS (F.MARGn_STATUS_DEV n) dev
       let hi := t.dirs.headD true
       let d := if hi then dev else -dev
       let miss := decide (d < (t.minDev : Int) ∨ (t.maxDev : Int) < d)
       startReturn (v.modTest n fun t =>
         { t with missed := t.missed || miss, devHi := if hi then dev else t.devHi, devLo := if hi then t.devLo else dev }) n) := by
  simp only [measureDone, ht, hp, Nat.not_lt.mpr hn, ha, bne_self_eq_false, decide_false, Bool.or_self, Bool.false_eq_true, if_false]

section
variable (hpm : t.pmbus = false) (hp : t.phase = .window) (he : t.ended = false)
include hpm hp he

theorem returnDone_inside (hw : windowInside s n = true) :
    returnDone s n =
      (let u := (setCode s n 0).modTest n fun t => { t with dirs := t.dirs.tail, stepped := false }
       if t.dirs.tail = [] then dropTest (endTest u n (if t.missed then 2 else 1) 0) n else startDirection u n) := by
  simp only [returnDone, ht, hpm, hp, he, hw, beq_self_eq_true, Bool.true_or, Bool.not_true, Bool.or_self, Bool.false_eq_true, if_false]

theorem returnTimeout_outside (hw : windowInside s n = false) :
    returnTimeout s n = dropTest (endTest (setCode s n 0) n 2 0xC) n := by
  simp only [returnTimeout, ht, hpm, hp, he, hw, beq_self_eq_true, Bool.true_or, Bool.not_true, Bool.or_self, Bool.false_eq_true, if_false]

end

/-! ### The end of a test that passes (R203) -/

theorem endTest_pass :
    endTest s n 1 0 =
      finishC ((margEvent (((((s.put (F.MARGn_STATUS_OUTCOME n) 1).put F.MARG_EVT_RAIL n).endCond 23 n)).endCond 25 n)
          F.MARG_EVT_DONE 0).modTest n fun t => { t with ended := true }) (isMarginCmd n) stOk
        [BitVec.ofNat 32 (ofSigned 32 t.base), BitVec.ofNat 32 (ofSigned 16 t.devHi * 65536 + ofSigned 16 t.devLo),
         BitVec.ofNat 32 65536] := by
  have hfail : (1 : Nat) ≠ 2 := by decide
  have habort : (1 : Nat) ≠ 3 := by decide
  simp only [endTest, ht, if_true, if_neg hfail, if_pos habort]

end

/-! ### Lost compliance (R195) -/

theorem complianceLoss_drives (s : State) (n : Nat) (h : mrgDrives s n = true) :
    complianceLoss s n = leaveSweep
      (abortTest ((margEvent (s.put F.MARG_EVT_RAIL n) F.MARG_EVT_COMPLIANCE 3).raiseOnce 25 0 0 n n) n 5 false false) n false := by
  simp only [complianceLoss, h, Bool.not_true, Bool.false_eq_true, if_false]

theorem complianceLoss_rests (s : State) (n : Nat) (h : mrgDrives s n = false) : complianceLoss s n = s := by
  simp only [complianceLoss, h, Bool.not_false, if_true]

/-! ### The slew of a code (R196, R199; log entry 46) -/

theorem tickMargin_rests (s : State) (n : Nat) (h : margCode s n = targetCode s n ∨ inSubst s n = true) : tickMargin s n = s :=
  if_pos (by simpa only [Bool.or_eq_true, decide_eq_true_eq] using h)

/-- Log entry 46: a TCLK edge adds the rate to the accumulator, whose whole codes leave it. -/
def slewed (s : State) (n : Nat) : State := s.modMr n fun r => { r with acc := ((s.mr n).acc + slewRate s n) % 1024 }

theorem slewed_acc (s : State) (n : Nat) (hn : n < 64) : ((slewed s n).mr n).acc = ((s.mr n).acc + slewRate s n) % 1024 :=
  congrArg MargRail.acc (vget_vmod_self s.marg.rail n _ hn)

section
variable (s : State) (n : Nat) (hsub : inSubst s n = false)
include hsub

theorem tickMargin_up (h : margCode s n < targetCode s n) :
    tickMargin s n =
      setCode (slewed s n) n (min (targetCode s n) (margCode s n + (((s.mr n).acc + slewRate s n) / 1024 : Nat))) := by
  simp only [tickMargin, hsub, Int.ne_of_lt h, decide_false, Bool.or_self, Bool.false_eq_true, if_false, if_pos h, slewed]

theorem tickMargin_down (h : targetCode s n < margCode s n) :
    tickMargin s n =
      setCode (slewed s n) n (max (targetCode s n) (margCode s n - (((s.mr n).acc + slewRate s n) / 1024 : Nat))) := by
  simp only [tickMargin, hsub, Int.ne_of_gt h, decide_false, Bool.or_self, Bool.false_eq_true, if_false, if_neg (Int.lt_asymm h), slewed]

end

theorem slewRate_noTest (s : State) (n : Nat) (h : (s.mr n).test = none) : slewRate s n = if sndDrives s n then 8000 else 1600 := by
  simp only [slewRate, h]

theorem slewRate_forced (s : State) (n : Nat) (t : MargTest) (ht : (s.mr n).test = some t) (hf : t.forced = true) :
    slewRate s n = 1600 := by
  simp only [slewRate, ht, hf, if_true]

theorem slewRate_slew (s : State) (n : Nat) (t : MargTest) (ht : (s.mr n).test = some t) (hf : t.forced = false) :
    slewRate s n = [10, 100, 400, 1600].getD (s.get (F.MARGn_CFG_SLEW n)) 1600 := by
  simp only [slewRate, ht, hf, Bool.false_eq_true, if_false]
  match s.get (F.MARGn_CFG_SLEW n) with
  | 0 | 1 | 2 | 3 | _ + 4 => rfl

/-! ### The return of a Sounding's code (R198) -/

section
variable (s : State) (n : Nat) (hs : sndOn s n = false)
include hs

theorem targetCode_returns (ht : (s.mr n).test = none) : targetCode s n = 0 := by
  simp only [targetCode, ht, sndDrives, hs, Bool.false_and, Bool.false_eq_true, if_false]

theorem workOwns_return (ht : (s.mr n).test = none) (hc : margCode s n ≠ 0) : workOwns s n = true := by
  have hreturns : sndReturns s n = true := by
    simp only [sndReturns, testOwns, ht, hs, Option.isSome_none, Bool.not_false, Bool.true_and]
    exact bne_iff_ne.mpr hc
  rw [workOwns, hreturns, Bool.or_true]

end

/-- R198, R401: no work starts on a rail that work, or its return, owns. -/
theorem railRefusal_owned (s : State) (n : Nat) (h : workOwns s n = true) : (railRefusal s n).isSome = true := by
  simp only [railRefusal, h, if_true, apply_ite Option.isSome, Option.isSome_some, ite_self]

/-- Settles O19: a write that nothing refuses is stored and acts on what is stored; each row is its operation with what follows it, on the
branch that the phase of the test gives it; an edge moves a code by the whole LSBs that its accumulator holds. -/
theorem marginTests : Obligations.MarginTests := by
  refine ⟨⟨?start, ?abort, startMargin_output, ?baseline⟩,
    ⟨?dwells, ?returned, ?measures, ?judged, ?inside, ?timeout, ?compliance, ?noDrive⟩,
    endTest_pass,
    ⟨tickMargin_rests, ?slews, slewRate_noTest, fun s n t ht => ⟨slewRate_forced s n t ht, slewRate_slew s n t ht⟩, ?owned⟩,
    exec_margStart, exec_margAbort, exec_marginBaselineDone, exec_marginCodeArrived, exec_marginDwellEnd, exec_marginMeasureDone,
    exec_marginReturnDone, exec_marginReturnTimeout, exec_mrgComplianceLoss⟩
  case start =>
    exact fun s p dir n hd h => write_row (startMargin · n dir.toNat) (exec_margStart s p dir n) h fun t => regHook_margStart t n dir _ hd
  case abort =>
    exact fun s p n h => write_row (abortTest · n 8 false false) (exec_margAbort s p n) h fun t => regHook_margAbort t n _
  case baseline =>
    intro s n t u base ht hp hn hr v
    have hjudged := baselineDone_judges s n t u base ht hp hn hr
    exact ⟨fun h => by rw [exec_marginBaselineDone, hjudged.trans (if_pos h)],
      fun h hg => by rw [exec_marginBaselineDone, hjudged.trans ((if_neg (Int.not_lt.mpr h)).trans (if_pos hg))],
      fun h hg => by rw [exec_marginBaselineDone, hjudged.trans ((if_neg (Int.not_lt.mpr h)).trans (if_neg (ne_true_of_eq_false hg)))]⟩
  case dwells => exact fun s n t hsub hsnd ht hpm hp => by rw [exec_marginCodeArrived, codeArrived_dwells s n t ht hsub hsnd hpm hp]
  case returned => exact fun s n t hsub hsnd ht hpm hp => by rw [exec_marginCodeArrived, codeArrived_returned s n t ht hsub hsnd hpm hp]
  case measures => exact fun s n t ht hp => by rw [exec_marginDwellEnd, dwellEnd_measures s n t ht hp]
  case judged => exact fun s n t u q ht hp hn ha => by rw [exec_marginMeasureDone, measureDone_judges s n t ht u q hp hn ha]
  case inside =>
    intro s n t ht hpm hp he hw u
    have hdone := returnDone_inside s n t ht hpm hp he hw
    exact ⟨fun hd => by rw [exec_marginReturnDone, hdone.trans (if_pos hd)],
      fun hd => by rw [exec_marginReturnDone, hdone.trans (if_neg hd)]⟩
  case timeout => exact fun s n t ht hpm hp he hw => by rw [exec_marginReturnTimeout, returnTimeout_outside s n t ht hpm hp he hw]
  case compliance => exact fun s n h => by rw [exec_mrgComplianceLoss, complianceLoss_drives s n h]
  case noDrive => exact fun s n h => by rw [exec_mrgComplianceLoss, complianceLoss_rests s n h]
  case slews =>
    exact fun s n hn hsub _ => ⟨fun h => ⟨slewed s n, tickMargin_up s n hsub h, slewed_acc s n hn⟩,
      fun h => ⟨slewed s n, tickMargin_down s n hsub h, slewed_acc s n hn⟩⟩
  case owned =>
    intro s n ht hs hc
    have howns := workOwns_return s n hs ht hc
    exact ⟨targetCode_returns s n hs ht, howns, railRefusal_owned s n howns⟩

end Sys2Proof.Machine
end

section
/-! Soundings (spec/08_margin_sounding.md R47, R206, R208 to R213, R215, R216, R218): the writes of SND_CTRL, the parts of a sweep, its end
and its pause, and the archive's records. -/

namespace Sys2Proof.Machine

/-! ### SND_CTRL (R206, R216) -/

theorem regHook_sndStart (t : State) (old : Nat) : regHook t R.SND_CTRL old 1 = (startSounding t).setReg R.SND_CTRL 1 :=
  regHook_sndCtrl t old 1

theorem regHook_sndStop (t : State) (old : Nat) : regHook t R.SND_CTRL old 2 = abortSounding t :=
  regHook_sndCtrl t old 2

/-! ### The target (R47, R206) -/

theorem soundingMatch_begins (s : State) (w : Sounding) (hw : s.marg.snd = some w) (hp : w.part = .target) (hfb : w.pausedFb = false)
    (hh : w.pausedHalt = false) (hf : s.flag F.CLK_STATUS_FALLBACK = false) (ha : s.angRun = true)
    (ht : stampReached s.ang.stamp (stampOf (s.reg R.SND_AT_HI) (s.reg R.SND_AT_LO)) = true) : soundingMatch s = beginSweep s := by
  simp only [soundingMatch, hw, hp, hfb, hh, hf, ha, ht, beq_self_eq_true, Bool.not_false, Bool.and_self, if_true]

theorem soundingMatch_fallback (s : State) (h : s.flag F.CLK_STATUS_FALLBACK = true) : soundingMatch s = s := by
  simp only [soundingMatch, h, Bool.not_true, Bool.and_false, Bool.false_and, Bool.false_eq_true, if_false]
  split <;> rfl

/-! ### The end of a sweep (R215, R216) -/

/-- R214, R215: the summaries of the rails that are still in the sweep. -/
def summarised (s : State) (w : Sounding) : State := s.live.foldl (fun s r => summarise s r w.wasPaused) s

section
variable (s : State) (w : Sounding) (hw : s.marg.snd = some w)
include hw

section
variable (hp : w.part = .complete)
include hp

theorem soundingComplete_unarchived (h : (summarised s w).flag F.SND_CFG_ARCHIVE = false) :
    soundingComplete s = endSounding (summarised s w) := by
  rw [summarised] at h ⊢
  simp only [soundingComplete, hw, hp, bne_self_eq_false, h, Bool.false_and, Bool.false_eq_true, if_false]

theorem soundingComplete_archived (h : (summarised s w).flag F.SND_CFG_ARCHIVE = true) (hl : (summarised s w).live ≠ []) :
    soundingComplete s =
      (let u := summarised s w
       endSounding ((u.modMarg fun m => { m with arcQueue := m.arcQueue ++ u.live.map fun r => archiveRecords u r w }).put
         F.SND_STATUS_ARC_BUSY 1)) := by
  have hsome : (summarised s w).live.isEmpty = false := List.isEmpty_eq_false_iff.mpr hl
  rw [summarised] at h hsome ⊢
  simp only [soundingComplete, hw, hp, bne_self_eq_false, h, hsome, Bool.not_false, Bool.and_self, Bool.false_eq_true, if_true, if_false]

end

theorem pauseTimeout_aborts (h : w.pausedFb = true) : pauseTimeout s = abortSounding s := by
  simp only [pauseTimeout, hw, h, if_true]

end

section
variable (s : State) (n : Nat) (capped : Bool) (hs : sndOn s n = true)
include hs

theorem leaveSweep_last (h : (leaveRail s n capped).live.isEmpty = true) : leaveSweep s n capped = endSounding (leaveRail s n capped) := by
  simp only [leaveSweep, hs, h, Bool.not_true, Bool.false_eq_true, if_true, if_false]

theorem leaveSweep_goesOn (h : (leaveRail s n capped).live.isEmpty = false) : leaveSweep s n capped = sndTurn (leaveRail s n capped) := by
  simp only [leaveSweep, hs, h, Bool.not_true, Bool.false_eq_true, if_false]

end

/-! ### The archive (R218) -/

/-- R218: what a rail's archive holds once its records are written, neither of them in a retired sector. -/
def SndArchive.written (t f : List Word) (a : SndArchive) : SndArchive :=
  { a with trend := compactTrend a.trend ++ [t], full := (f :: a.full).take 10 }

theorem archiveDone_idle (s : State) (h : s.marg.arcQueue = []) : archiveDone s = s := by
  simp only [archiveDone, h]

/-- R218: the records at the head of the queue are written, and the rest of the queue waits on. -/
theorem archiveDone_writes (s : State) (n : Nat) (t f : List Word) (m : Nat × List Word × List Word)
    (rest : List (Nat × List Word × List Word)) (hq : s.marg.arcQueue = (n, t, f) :: m :: rest)
    (hfull : archiveDead s n ((vget s.marg.archive n).seq % 10) true = false)
    (htrend : archiveDead s n (compactTrend (vget s.marg.archive n).trend).length false = false) :
    ∃ u : State, archiveDone s = syncArchive (u.put (sumFlag n 10) 1) n ∧
      u.marg = { s.marg with arcQueue := m :: rest, archive := vmod s.marg.archive n (SndArchive.written t f) } := by
  simp only [archiveDone, hq, List.isEmpty_cons, Bool.false_eq_true, if_false]
  refine ⟨_, rfl, ?_⟩
  refine congrArg (fun v => { s.marg with arcQueue := m :: rest, archive := v }) (vmod_congr s.marg.archive n _ _ ?_)
  simp only [hfull, htrend, Bool.false_eq_true, if_false, SndArchive.written]

/-! ### The settings of a sweep (R197, R206) -/

theorem sndAmp_modSr (s : State) (n : Nat) (g : SndRail → SndRail) (f : Field) : sndAmp (s.modSr n g) f = sndAmp s f := by
  simp only [sndAmp, State.modSr, State.modSnd, State.modMarg]
  cases s.marg.snd <;> rfl

theorem mlsReps_modSr (s : State) (n : Nat) (g : SndRail → SndRail) : mlsReps (s.modSr n g) = mlsReps s := by
  simp only [mlsReps, sndAmp_modSr]

/-! ### The parts of a sweep (R209, R210, R212, R213) -/

section
variable (s : State) (w : Sounding) (hw : s.marg.snd = some w) (hfb : w.pausedFb = false) (hh : w.pausedHalt = false)
include hw hfb hh

/-- R209: the plus step ends, and the minus step begins. -/
theorem dcStep_plus (hp : w.part = .plus) :
    dcStep s = syncSnd (dcCodes ((s.modLive fun r => if r.dcDone then r else { r with plus := tapMean r }).modSnd
      fun w => { w with part := .minus }) (-1)) := by
  simp only [dcStep, hw, hfb, hh, hp, Bool.or_self, Bool.false_eq_true, if_false]

theorem settleDone_integrates (k : Nat) (hp : w.part = .settle k) :
    settleDone s = syncSnd ((s.modLive fun r =>
      if r.done then { r with ran := true } else { r.fresh with ran := false, holdN := s.holdover }).modSnd
        fun w => { w with part := .integ k }) := by
  simp only [settleDone, hw, hfb, hh, hp, Bool.or_self, Bool.false_eq_true, if_false]

section
variable (k : Nat) (hp : w.part = .integ k)
include hp

theorem tickSounding_counts (hd : w.div < 7) : tickSounding s = s.modSnd fun w => { w with div := w.div + 1 } := by
  simp only [tickSounding, hw, hfb, hh, hp, hd, Bool.or_self, Bool.false_eq_true, if_true, if_false]

/-- R208, log entry 101: the phase accumulator moves on every eighth TCLK edge. -/
theorem tickSounding_advances (hd : 7 ≤ w.div) :
    tickSounding s = stimAll (s.modSnd fun w => { w with div := 0, phase := (w.phase + pointInc s k) % 2 ^ 32 }) := by
  simp only [tickSounding, hw, hfb, hh, hp, Nat.not_lt.mpr hd, Bool.or_self, Bool.false_eq_true, if_false]

end

section
variable (r : SndRail) (n : Nat) (hr : s.sndRails.find? (·.rail == n) = some r) (hl : r.left = false)
include hr hl

/-- R207, R209: a tap sample of the baseline is used where the code is zero and nothing spoils it. -/
theorem tapSample_baseline (raw : Int) (clip : Bool) (u : State) (code : Int) (beyond : Bool) (hp : w.part = .base)
    (hc : calibrate s n raw = (u, code, beyond)) :
    tapSample s n raw clip = u.modSr n fun t => { t with
      marks := t.marks - 1
      taps := ((if decide (r.marks = 0) && !clip && !beyond && !u.flag (F.RAILn_GUARD_STATUS_CM_ERR n) && margCode u n == 0
        then some code else none) :: t.taps).take 800 } := by
  have htarget : (SndPart.base == SndPart.target) = false := rfl
  simp only [tapSample, hw, hr, hp, hl, hfb, hh, hc, htarget, bne_self_eq_false, Bool.or_self, Bool.false_or, Bool.and_false,
    Bool.false_and, Bool.false_eq_true, if_false]

/-! #### The judgement of a fit (R212), after which the rails that are done wait for the others (log entry 45) -/

section
variable (k : Nat) (f : LockIn) (hp : w.part = .integ k) (hran : r.ran = false) (hf : r.fit.solve (tapMag (pointInc s k)) = some f)
include hp hran hf

/-- R212: a fit beyond SDEV is repeated at half the amplitude, up to three times. -/
theorem pointEnd_halves (hh3 : r.halv < 3)
    (hb : (sdev s n * r.base.1.natAbs * 65536) ^ 2 < (f.a * f.a + f.b * f.b).natAbs * (10000 * r.base.2) ^ 2) :
    pointEnd s n = pointTurn (s.modSr n fun r =>
      { r with amp := max 1 (r.amp / 2), halv := r.halv + 1, ran := true, reduced := true }) k := by
  simp only [pointEnd, hw, hr, hp, hl, hran, hfb, hh, hf, hb, hh3, decide_true, Bool.and_self, Bool.or_self, Bool.false_eq_true, if_true,
    if_false]

theorem pointEnd_keeps (hb : (f.a * f.a + f.b * f.b).natAbs * (10000 * r.base.2) ^ 2 ≤ (sdev s n * r.base.1.natAbs * 65536) ^ 2) :
    pointEnd s n = pointTurn (s.modSr n fun u =>
      { u with ran := true, done := true, capped := u.capped || false
               pts := u.pts ++ [⟨k, pointInc s k, f.a, f.b, f.sigma, r.amp, r.halv, true, false, nearCarrier s (pointInc s k), r.holdN,
                 decide (4 * r.accN < r.totN)⟩] }) k := by
  simp only [pointEnd, hw, hr, hp, hl, hran, hfb, hh, hf, Nat.not_lt.mpr hb, decide_false, Bool.false_and, Bool.or_self, Bool.not_false,
    Bool.false_eq_true, if_false]

end

/-! #### A period of the sequence (R213) -/

section
variable (hp : w.part = .mls) (hd : r.done = false)
include hp hd

/-- R213: a period that is not the last adds its response to the mean. -/
theorem mlsPeriod_adds (h0 : r.period ≠ 0) (hreps : r.period < mlsReps s) :
    mlsPeriod s n =
      (let hs := r.mlsH ++ [(below (nPts s)).map fun k => mlsAt s r (impulse (mlsOrder s) r.mlsX) (pointInc s k)]
       s.modSr n fun r => { r with period := r.period + 1, mlsX := [], mlsH := hs }) := by
  simp only [mlsPeriod, hw, hr, hp, hl, hd, hfb, hh, h0, mlsReps_modSr, hreps, bne_self_eq_false, Bool.or_self, Bool.false_eq_true,
    if_true, if_false]

/-- R213: the discarded period is repeated at half the amplitude. -/
theorem mlsPeriod_halves (h0 : r.period = 0) (hdev : r.devSeen = true) (hh3 : r.halv < 3) :
    mlsPeriod s n = mlsAll (s.modSr n fun r =>
      { r.fresh with amp := max 1 (r.amp / 2), halv := r.halv + 1, devSeen := false, reduced := true }) := by
  simp only [mlsPeriod, hw, hr, hp, hl, hd, hfb, hh, h0, hdev, hh3, bne_self_eq_false, decide_true, Bool.and_self, Bool.or_self,
    Bool.false_eq_true, if_true, if_false]

end

end

end

/-- Settles O20: a write that nothing refuses is stored and acts on what is stored; each row is its operation with what follows it, on the
branch that the part of the sweep gives it. -/
theorem soundings : Obligations.Soundings := by
  refine ⟨⟨?start, ?stop, ?target, ?fallback, ?complete, ?pause, ?archive, ?idle,
      fun s n capped hs => ⟨leaveSweep_last s n capped hs, leaveSweep_goesOn s n capped hs⟩⟩,
    ⟨?plus, ?settled, ?fit, ?period, ?tap,
      fun s w k hw hfb hh hp => ⟨tickSounding_counts s w hw hfb hh k hp, tickSounding_advances s w hw hfb hh k hp⟩⟩,
    exec_sndStart, exec_sndStop, exec_soundingTargetMatch, exec_soundingDcStep, exec_soundingTapSample, exec_soundingSettleEnd,
    exec_soundingPointEnd, exec_mlsPeriodEnd, exec_soundingComplete, exec_soundingPauseTimeout, exec_archiveWriteDone⟩
  case start =>
    exact fun s p h => write_row (fun t => (startSounding t).setReg R.SND_CTRL 1) (exec_sndStart s p) h fun t => regHook_sndStart t _
  case stop => exact fun s p h => write_row abortSounding (exec_sndStop s p) h fun t => regHook_sndStop t _
  case target =>
    exact fun s w hw hp hfb hh hf ha ht => by rw [exec_soundingTargetMatch, soundingMatch_begins s w hw hp hfb hh hf ha ht]
  case fallback => exact fun s h => by rw [exec_soundingTargetMatch, soundingMatch_fallback s h]
  case complete =>
    intro s w hw hp u
    exact ⟨fun h => by rw [exec_soundingComplete, soundingComplete_unarchived s w hw hp h]; rfl,
      fun h hl => by rw [exec_soundingComplete, soundingComplete_archived s w hw hp h hl]; rfl⟩
  case pause => exact fun s w hw h => by rw [exec_soundingPauseTimeout, pauseTimeout_aborts s w hw h]
  case archive =>
    intro s n t f m rest hq hfull htrend
    obtain ⟨u, hdone, hmarg⟩ := archiveDone_writes s n t f m rest hq hfull htrend
    refine ⟨u, by rw [exec_archiveWriteDone, hdone], by rw [hmarg], fun hn => ?_⟩
    rw [hmarg, vget_vmod_self s.marg.archive n _ hn]
    exact ⟨rfl, rfl⟩
  case idle => exact fun s h => by rw [exec_archiveWriteDone, archiveDone_idle s h]
  case plus => exact fun s w hw hfb hh hp => by rw [exec_soundingDcStep, dcStep_plus s w hw hfb hh hp]
  case settled => exact fun s w k hw hfb hh hp => by rw [exec_soundingSettleEnd, settleDone_integrates s w hw hfb hh k hp]
  case fit =>
    intro s w r k n f hw hr hp hl hran hfb hh hf
    exact ⟨fun hh3 hb => by rw [exec_soundingPointEnd, pointEnd_halves s w hw hfb hh r n hr hl k f hp hran hf hh3 hb],
      fun hb => by rw [exec_soundingPointEnd, pointEnd_keeps s w hw hfb hh r n hr hl k f hp hran hf hb]⟩
  case period =>
    intro s w r n hw hr hp hl hd hfb hh
    exact ⟨fun h0 hreps => by rw [exec_mlsPeriodEnd, mlsPeriod_adds s w hw hfb hh r n hr hl hp hd h0 hreps],
      fun h0 hdev hh3 => by rw [exec_mlsPeriodEnd, mlsPeriod_halves s w hw hfb hh r n hr hl hp hd h0 hdev hh3]⟩
  case tap =>
    exact fun s w r n raw clip u code beyond hw hr hp hl hfb hh hc => by
      rw [exec_soundingTapSample, tapSample_baseline s w hw hfb hh r n hr hl raw.toInt clip u code beyond hp hc]

end Sys2Proof.Machine
end

section
/-! Transactions of the regulator ports (spec/09_regulator_ports.md R222, R226, R227, R230, R233, R237): the end of a transaction and its
retry, how one stands on the bus, and which one a free port takes. -/

namespace Sys2Proof.Machine

/-! ### A port after a change -/

theorem State.pp_modPp_self (s : State) (p : Nat) (f : PmPort → PmPort) (hp : p < 4) : (s.modPp p f).pp p = f (s.pp p) :=
  vget_vmod_self s.pm p f hp

@[simp] theorem syncPort_pp (s : State) (p i : Nat) : (syncPort s p).pp i = s.pp i := by
  simp only [State.pp, syncPort, State.putB_pm, State.put_pm]

/-! ### The end of a transaction (R222, R227, R230, R233, R237) -/

/-- R233: a PEC is judged only on a read, and only where the entry carries it. -/
theorem busResult_pec_iff (t : PmPort) (r : PmTrans) (res : SmbResult) :
    busResult t r res = .pec ↔ res = .pec ∧ 3 ≤ r.kind ∧ ∃ b, t.bus = some b ∧ b.pec = true := by
  cases res with
  | pec => cases hb : t.bus <;> by_cases hk : 3 ≤ r.kind <;> simp [busResult, hb, hk]
  | ok | nack | arbLost | timeout => simp [busResult]

/-- R233: what is not a PEC error stands as it is. -/
theorem busResult_timeout (t : PmPort) (r : PmTrans) : busResult t r .timeout = .timeout := rfl

theorem busResult_timeout_ne_ok (t : PmPort) (r : PmTrans) : busResult t r .timeout ≠ .ok := by
  rw [busResult_timeout]
  decide

theorem transEnd_idle (s : State) (p : Nat) (h : (s.pp p).run = none) (res : SmbResult) (data : Nat) (alertLow : Bool) :
    transEnd s p res data alertLow = lostPartners s := by
  simp only [transEnd, transDone, h]

/-- R227, R234: the transaction of a port has completed: its bus is free, and not stuck. -/
def busCompleted (s : State) (p : Nat) : State :=
  (((s.modPp p fun t => { t with run := none, bus := none }).addWrap (F.PMp_CNT_DONE p)).put (F.PMp_STATUS_STUCK p) 0).endCond 31 p

/-- R233: the transaction of a port has failed for good. -/
def busFailed (s : State) (p : Nat) : State :=
  pmEvent ((s.modPp p fun t => { t with run := none, bus := none }).addSat (F.PMp_CNT_FAILS p)) p F.PMp_EVT_BUS_ERR 3

/-- The result of a transaction goes to what asked for it, and the port takes its next. -/
def handOn (s : State) (p : Nat) (r : PmTrans) (res : SmbResult) (data : Nat) : State × Option MargReply :=
  (pmServe (transResult s p r res data).1 p, (transResult s p r res data).2)

theorem handOn_host (s : State) (p : Nat) (r : PmTrans) (res : SmbResult) (data : Nat) (h : r.cls = 3) :
    handOn s p r res data = (pmServe (hostDone s p r (xferOutcome res) data) p, none) := by
  simp only [handOn, transResult, h]

theorem handOn_poll (s : State) (p : Nat) (r : PmTrans) (res : SmbResult) (data : Nat) (h : r.cls = 4) :
    handOn s p r res data = (pmServe (pollDone s p r.entry r.code (res == .ok) data) p, none) := by
  simp only [handOn, transResult, h]

section
variable (s : State) (p : Nat) (r : PmTrans) (alertLow : Bool) (hr : (s.pp p).run = some r) (hk : r.kind ≠ 5)
  (hw : (s.pp p).retryWait = false) (hb : (s.pp p).blocked = false) (hn : ((s.putB (F.PMp_STATUS_ALERT_LOW p) alertLow).pp p).noAck < 8)
include hr hk hw hb hn

theorem transDone_ok (result : SmbResult) (data : Nat) (h : busResult (s.pp p) r result = .ok) :
    transDone s p result data alertLow = handOn (busCompleted (s.putB (F.PMp_STATUS_ALERT_LOW p) alertLow) p) p r .ok data := by
  simp only [transDone, hr, hw, hb, h, beq_eq_false_iff_ne.mpr hk, Nat.not_le.mpr hn, bne_self_eq_false, beq_self_eq_true, Bool.or_self,
    Bool.false_and, Bool.false_eq_true, if_true, if_false, busCompleted, handOn]

section
variable (result : SmbResult) (data : Nat) (hres : busResult (s.pp p) r result ≠ .ok)
include hres

theorem transDone_repeats (ho : r.once = false) (h : (s.pp p).tries < (s.putB (F.PMp_STATUS_ALERT_LOW p) alertLow).get (F.PMp_CFG_RETRY p)) :
    transDone s p result data alertLow = (syncPort ((s.putB (F.PMp_STATUS_ALERT_LOW p) alertLow).modPp p fun t =>
      { t with tries := t.tries + 1, retryWait := true }) p, none) := by
  simp only [transDone, hr, hw, hb, bne_iff_ne.mpr hres, beq_eq_false_iff_ne.mpr hk, Nat.not_le.mpr hn, ho, h, Bool.or_self,
    Bool.not_false, decide_true, Bool.and_self, Bool.false_eq_true, if_true, if_false]

theorem transDone_fails (h : (s.putB (F.PMp_STATUS_ALERT_LOW p) alertLow).get (F.PMp_CFG_RETRY p) ≤ (s.pp p).tries) :
    transDone s p result data alertLow =
      handOn (busFailed (s.putB (F.PMp_STATUS_ALERT_LOW p) alertLow) p) p r (busResult (s.pp p) r result) data := by
  simp only [transDone, hr, hw, hb, beq_eq_false_iff_ne.mpr hres, beq_eq_false_iff_ne.mpr hk, Nat.not_le.mpr hn, Nat.not_lt.mpr h,
    Bool.or_self, decide_false, Bool.and_false, Bool.false_eq_true, if_false, handOn, busFailed]

end

end

/-! ### On the bus (R226, R227) -/

/-- R226: the alert read carries PEC always. -/
theorem busAccess_alert (s : State) (r : PmTrans) (h : r.kind = 5) : busAccess s r = ⟨0x0C, none, true, 30⟩ := by
  rw [busAccess, if_pos h]
  rfl

section
variable (s : State) (r : PmTrans) (h : r.kind ≠ 5)
include h

theorem busAccess_addr : (busAccess s r).addr = s.get (F.PMPk_CFG_ADDR r.entry) := by rw [busAccess, if_neg h]

theorem busAccess_pec : (busAccess s r).pec = s.flag (F.PMPk_CFG_PEC r.entry) := by rw [busAccess, if_neg h]

theorem busAccess_paged (hp : s.flag (F.PMPk_CFG_PAGE_EN r.entry) = true) :
    (busAccess s r).page = some (s.get (F.PMPk_CFG_PAGE r.entry)) ∧
      (busAccess s r).periods = if s.flag (F.PMPk_CFG_PEC r.entry) then sclPeriods r.kind + 39 else sclPeriods r.kind - 9 + 30 := by
  rw [busAccess, if_neg h]
  cases hc : s.flag (F.PMPk_CFG_PEC r.entry) <;>
    simp only [hp, hc, sclPeriods, Nat.sub_zero, Nat.reduceSub, Bool.false_eq_true, if_true, if_false, and_self]

theorem busAccess_unpaged (hp : s.flag (F.PMPk_CFG_PAGE_EN r.entry) = false) :
    (busAccess s r).page = none ∧
      (busAccess s r).periods = if s.flag (F.PMPk_CFG_PEC r.entry) then sclPeriods r.kind else sclPeriods r.kind - 9 := by
  rw [busAccess, if_neg h]
  cases hc : s.flag (F.PMPk_CFG_PEC r.entry) <;>
    simp only [hp, hc, Nat.sub_zero, Nat.add_zero, Bool.false_eq_true, if_true, if_false, and_self]

end

/-- R227: a free port takes the first that waits, and puts it on the bus. -/
theorem pmServe_takes (s : State) (p : Nat) (r : PmTrans) (rest : List PmTrans) (u : State) (hu : pollTurn (alertLevel s p) p = u)
    (hq : pmWaiting u p = r :: rest) (hr : (u.pp p).run = none) (hb : (u.pp p).blocked = false) (he : u.flag (F.PMp_CFG_EN p) = true)
    (hrole : u.get F.TWIN_STATUS_ROLE < 2) (hm : u.mode ≠ mHoldup ∨ r.cls = 0) :
    pmServe s p =
      syncPort (u.modPp p fun t => { t with run := some r, bus := some (busAccess u r), tries := 0, retryWait := false }) p := by
  have hserved : (u.mode == mHoldup && r.cls != 0) = false := by
    simpa only [Bool.and_eq_false_iff, beq_eq_false_iff_ne, bne_eq_false_iff_eq] using hm
  simp only [pmServe, hu, hq, hr, hb, he, hserved, Nat.not_le.mpr hrole, Option.isSome_none, Bool.not_true, decide_false, Bool.or_self,
    Bool.false_eq_true, if_false]

/-- Settles O21: a transaction that ends takes the branch of `transDone` that its result and its retries give it, and its result goes to
what asked for it by its class; the bus access is read off `busAccess`, and a free port takes the front of `pmWaiting`. -/
theorem regulatorTransactions : Obligations.RegulatorTransactions := by
  refine ⟨⟨?completes, ?repeats, ?fails, ?idle, busResult_pec_iff, exec_smbusRetry⟩,
    ⟨rfl, busAccess_alert, ?access, ?serve⟩⟩
  case completes =>
    intro s p r result data alertLow hr hk hw hb hres hn u
    have hdone := transDone_ok s p r alertLow hr hk hw hb hn result data.toNat hres
    exact ⟨fun hc => by rw [exec_smbusTransactionDone, transEnd, hdone, handOn_host _ _ _ _ _ hc]; rfl,
      fun hc => by rw [exec_smbusTransactionDone, transEnd, hdone, handOn_poll _ _ _ _ _ hc]; rfl⟩
  case repeats =>
    intro s p r alertLow hr hk ho hw hb hn h
    rw [exec_smbusTimeout, transEnd, transDone_repeats s p r alertLow hr hk hw hb hn .timeout 0 (busResult_timeout_ne_ok _ _) ho h]
  case fails =>
    intro s p r alertLow hr hc hk hw hb hn h u
    rw [exec_smbusTimeout, transEnd, transDone_fails s p r alertLow hr hk hw hb hn .timeout 0 (busResult_timeout_ne_ok _ _) h,
      busResult_timeout, handOn_host _ _ _ _ _ hc]
    rfl
  case idle =>
    intro s p h
    exact ⟨fun result data alertLow => by rw [exec_smbusTransactionDone, transEnd_idle s p h],
      fun alertLow => by rw [exec_smbusTimeout, transEnd_idle s p h]⟩
  case access =>
    intro s r h
    exact ⟨busAccess_addr s r h, by rw [busAccess_pec s r h], busAccess_paged s r h, busAccess_unpaged s r h⟩
  case serve =>
    intro s p r rest hp u hq hr hb he hrole hm
    have htaken := pmServe_takes s p r rest u rfl hq hr hb he hrole hm
    rw [htaken, syncPort_pp, State.pp_modPp_self _ _ _ hp]
    exact ⟨rfl, rfl⟩

end Sys2Proof.Machine
end

section
/-! Rounds, alerts, recovery and partner entries of the regulator ports (spec/09_regulator_ports.md R223, R228 to R231, R234, R235, R237,
R239). -/

namespace Sys2Proof.Machine

/-! ### Rounds (R228) -/

section
variable (s : State) (p : Nat) (he : s.flag (F.PMp_CFG_EN p) = true) (hper : pollPer s p ≠ 0) (hsus : pmSuspended s = false)
include he hper hsus

theorem pollRoundStart_starts (hst : s.flag (F.PMp_STATUS_STUCK p) = false) (hon : (s.pp p).roundOn = false) :
    pollRoundStart s p = pmServe (startRound s p) p := by
  simp only [pollRoundStart, he, hper, hsus, hst, hon, Bool.not_true, decide_false, Bool.or_self, Bool.false_eq_true, if_false]

theorem pollRoundStart_late (hst : s.flag (F.PMp_STATUS_STUCK p) = false) (hon : (s.pp p).roundOn = true) :
    pollRoundStart s p = (lateRound s p).modPp p fun t => { t with due := true } := by
  simp only [pollRoundStart, he, hper, hsus, hst, hon, Bool.not_true, decide_false, Bool.or_self, Bool.false_eq_true, if_true, if_false]

theorem pollRoundStart_stuck (hst : s.flag (F.PMp_STATUS_STUCK p) = true) : pollRoundStart s p = lateRound s p := by
  simp only [pollRoundStart, he, hper, hsus, hst, Bool.not_true, decide_false, Bool.or_self, Bool.false_eq_true, if_true, if_false]

end

theorem pollRoundStart_rests (s : State) (p : Nat) (h : s.flag (F.PMp_CFG_EN p) = false ∨ pollPer s p = 0 ∨ pmSuspended s = true) :
    pollRoundStart s p = s := by
  have hrests : (!s.flag (F.PMp_CFG_EN p) || decide (pollPer s p = 0) || pmSuspended s) = true := by
    simpa only [Bool.or_eq_true, Bool.not_eq_true', decide_eq_true_eq, or_assoc] using h
  simp only [pollRoundStart, hrests, if_true]

/-! ### The alert line (R229) -/

theorem alertLevel_off (s : State) (p : Nat) (h : s.get (F.PMp_CFG_ALERT_MODE p) = 0) :
    alertLevel s p = s.modPp p fun t => { t with alertPend := false, alertReads := [], extraRan := false } := by
  simp only [alertLevel, h]

section
variable (s : State) (p : Nat) (hlow : s.flag (F.PMp_STATUS_ALERT_LOW p) = true) (hs : alertsServed s p = true)
include hlow hs

theorem alertLevel_service (h : s.get (F.PMp_CFG_ALERT_MODE p) = 1) :
    alertLevel s p = s.modPp p fun t => { t with alertPend := t.alertPend || t.alertReads.isEmpty, extraRan := false } := by
  simp only [alertLevel, h, hlow, hs, Bool.and_self, Bool.true_and]

/-- R229: a low level that has had no extra round asks for one. -/
theorem alertLevel_round_extra (h : s.get (F.PMp_CFG_ALERT_MODE p) = 2) (hp : p < 4) (hran : (s.pp p).extraRan = false) :
    ((alertLevel s p).pp p).extra = roundEntries s p := by
  simp only [alertLevel, h, State.pp_modPp_self _ _ _ hp, hlow, hs, hran, Bool.not_false, Bool.and_self, if_true]

end

/-! ### Recovery (R234) -/

theorem recoverBus_freed (s : State) (p : Nat) (r : PmTrans) (hr : (s.pp p).run = some r) :
    recoverBus s p true = lostPartners (pmServe (s.modPp p fun t => { t with blocked := false }) p) := by
  simp only [recoverBus, busRecovery, hr, Option.isNone_some, Bool.false_and, Bool.false_eq_true, if_true, if_false, List.foldl_nil]

/-- R234: a bus that the pulses do not free blocks its port; no host transfer and no margin transaction waits that would fail with it. -/
theorem recoverBus_blocks (s : State) (p : Nat) (r : PmTrans) (hr : (s.pp p).run = some r) (hh : (s.pp p).host = none)
    (hm : (s.pp p).margin = []) :
    recoverBus s p false = lostPartners (syncPort (((s.modPp p fun t =>
      { t with blocked := true, run := none, bus := none, retryWait := false, margin := [] }).put (F.PMp_STATUS_STUCK p) 1).raiseOnce
        31 0 1 p p) p) := by
  simp only [recoverBus, busRecovery, hr, hh, hm, Option.isNone_some, Option.isSome_none, Bool.false_and, Bool.false_eq_true,
    if_true, if_false, List.length_nil, Nat.add_zero, List.map_nil, List.foldl_nil]

theorem recoverBus_idle (s : State) (p : Nat) (freed : Bool) (hr : (s.pp p).run = none) (hb : (s.pp p).blocked = false) :
    recoverBus s p freed = lostPartners s := by
  simp only [recoverBus, busRecovery, hr, hb, Option.isNone_none, Bool.not_false, Bool.and_self, if_true, List.foldl_nil]

/-! ### Lost entries (R235) -/

theorem lostEntryPoll_asks (s : State) (k : Nat) (hv : entryValid s k = true) (hl : entryLost s k = true) (hsus : pmSuspended s = false)
    (hper : pollPer s (portOf k) ≠ 0) (hskip : entrySkipped s s.tclk k = false) (hq : (s.pp (portOf k)).lostQ.contains k = false) :
    lostEntryPoll s k = pmServe (s.modPp (portOf k) fun t => { t with lostQ := t.lostQ ++ [k] }) (portOf k) := by
  simp only [lostEntryPoll, hv, hl, hsus, hskip, hq, bne_iff_ne.mpr hper, Bool.not_false, Bool.and_self, if_true]

theorem lostEntryPoll_rests (s : State) (k : Nat)
    (h : entryValid s k = false ∨ entryLost s k = false ∨ pmSuspended s = true ∨ pollPer s (portOf k) = 0) : lostEntryPoll s k = s := by
  have hrests : (entryValid s k && entryLost s k && !pmSuspended s && pollPer s (portOf k) != 0) = false := by
    simpa only [Bool.and_eq_false_iff, Bool.not_eq_false', bne_eq_false_iff_eq, or_assoc] using h
  simp only [lostEntryPoll, hrests, Bool.false_and, Bool.false_eq_true, if_false]

/-! ### STATUS_WORD (R231, R235) -/

/-- R231: the bits that EVT_MASK reports and that the word brings anew. -/
def statusRose (s : State) (k word : Nat) : Bool :=
  (below 16).any fun b => bitOf word b && !bitOf (s.get (F.PMPk_STATUS_STATUS_WORD k)) b &&
    bitOf ((s.put (F.PMPk_STATUS_STATUS_WORD k) word).get (F.PMPk_MASK_EVT_MASK k)) b

/-- R231: what a word of a successful read makes of the fault of its entry. -/
def statusFault (s : State) (k masked : Nat) : State :=
  if masked ≠ 0 then
    if !s.flag (F.PMPk_STATUS_FAULT k) then (s.put (F.PMPk_STATUS_FAULT k) 1).raise 29 0 1 k (k + 256 * lowestBit masked) else s
  else if s.flag (F.PMPk_STATUS_FAULT k) then
    ((s.put (F.PMPk_STATUS_FAULT k) 0).endCond 29 k).modPp (portOf k) fun t => { t with faultEnd := some (k, s.tclk) }
  else s.endCond 29 k

/-- R235: a successful read restores an entry that was lost. -/
def statusRestores (s : State) (k : Nat) : State :=
  if entryLost s k then
    needVoutMode ((pmEvent (s.put (F.PMPk_STATUS_LOST k) 0) (portOf k) F.PMp_EVT_RESTORED 2).endCond 30 k) k
  else s

theorem absorbStatus_of_not_rose (s : State) (k word : Nat) (h : statusRose s k word = false) :
    absorbStatus s k word =
      statusRestores ((statusFault (s.put (F.PMPk_STATUS_STATUS_WORD k) word) k
        (Nat.land word (s.get (F.PMPk_MASK_FAULT_MASK k)))).put (F.PMPk_STATUS_FAILS k) 0) k := by
  rw [statusRose] at h
  simp only [absorbStatus, h, Bool.false_eq_true, if_false]
  rfl

section
variable (s : State) (k : Nat)

theorem statusFault_raises (masked : Nat) (hm : masked ≠ 0) (hf : s.flag (F.PMPk_STATUS_FAULT k) = false) :
    statusFault s k masked = (s.put (F.PMPk_STATUS_FAULT k) 1).raise 29 0 1 k (k + 256 * lowestBit masked) := by
  rw [statusFault, if_pos hm, hf]
  rfl

theorem statusFault_ends (hf : s.flag (F.PMPk_STATUS_FAULT k) = true) :
    statusFault s k 0 =
      ((s.put (F.PMPk_STATUS_FAULT k) 0).endCond 29 k).modPp (portOf k) fun t => { t with faultEnd := some (k, s.tclk) } := by
  rw [statusFault, if_neg (not_not_intro rfl), if_pos hf]

theorem statusFault_none (hf : s.flag (F.PMPk_STATUS_FAULT k) = false) : statusFault s k 0 = s.endCond 29 k := by
  rw [statusFault, if_neg (not_not_intro rfl), if_neg (ne_true_of_eq_false hf)]

theorem statusRestores_kept (h : entryLost s k = false) : statusRestores s k = s := if_neg (ne_true_of_eq_false h)

theorem statusRestores_lost (h : entryLost s k = true) :
    statusRestores s k = needVoutMode ((pmEvent (s.put (F.PMPk_STATUS_LOST k) 0) (portOf k) F.PMp_EVT_RESTORED 2).endCond 30 k) k :=
  if_pos h

end

/-! ### Register writes and host transfers (R223, R237, R239) -/

theorem elementOf_partnerCfg (s : State) (k : Fin 128) : elementOf s (R.PMPk_CFG k) = R.PMPk_CFG k :=
  elementOf_self s _ (by have := k.isLt; simp only [R.PMPk_CFG]; omega)

/-- A word into which START is written has it set. -/
theorem bitOf_xferStart (v : Nat) : bitOf (F.PM_XFER_CTRL_START.insert v 1) 31 = true := by
  have hbit : F.PM_XFER_CTRL_START.insert v 1 / 2 ^ 31 % 2 ^ 1 = 1 := Field.extract_insert F.PM_XFER_CTRL_START v 1
  rw [bitOf, beq_iff_eq]
  exact hbit

theorem regHook_xferStart (t : State) (old v : Nat) :
    regHook t R.PM_XFER_CTRL old (F.PM_XFER_CTRL_START.insert v 1) = xferStart t := by
  rw [regHook_pmXferCtrl, if_pos (bitOf_xferStart v)]

theorem xferStart_refused (s : State) (h : s.flag F.PM_XFER_STATUS_BUSY = true ∨ pmSuspended s = true ∨
    xferPair (s.get F.PM_XFER_CTRL_CODE) (s.get F.PM_XFER_CTRL_KIND) = false) : xferStart s = s.put F.PM_XFER_STATUS_OUTCOME 5 := by
  simp only [xferStart]
  obtain hbusy | hsus | hpair := h
  · rw [if_pos (by simp only [hbusy, Bool.true_or])]
  · rw [if_pos (by simp only [hsus, Bool.or_true])]
  · rw [if_pos (by simp only [hpair, Bool.not_false, Bool.or_true, Bool.true_or])]

theorem hostDone_invalid (s : State) (p : Nat) (r : PmTrans) (outcome data : Nat) (h : entryValid s r.entry = false) :
    hostDone s p r outcome data = s.modPp p fun t => { t with host := none } := by
  rw [entryValid] at h
  simp only [hostDone, entryValid, State.modPp_flag, h, Bool.not_false, if_true]

/-- Settles O22: each row is its operation with what follows it, on the branch that the state of the port or the entry gives it; a
STATUS_WORD passes to its fault and then to its restoring; a write that nothing refuses is stored and acts on what is stored. -/
theorem regulatorPorts : Obligations.RegulatorPorts := by
  refine ⟨⟨?round, ?rests, exec_smbalertAssert, ?level, exec_smbalertStuckClear, ?freed, ?blocks, ?idle, ?asks, ?notAsked⟩,
    ⟨?raises, ?ends⟩, ⟨?partner, ?xfer, xferStart_refused, hostDone_invalid⟩,
    exec_pollRoundStart, exec_busRecovery, exec_lostEntryPoll, exec_pmXferStart, exec_partnerCfgWrite⟩
  case round =>
    intro s p he hper hsus
    exact ⟨fun hst hon => by rw [exec_pollRoundStart, pollRoundStart_starts s p he hper hsus hst hon, startRound],
      fun hst hon => by rw [exec_pollRoundStart, pollRoundStart_late s p he hper hsus hst hon, lateRound],
      fun hst => by rw [exec_pollRoundStart, pollRoundStart_stuck s p he hper hsus hst, lateRound]⟩
  case rests => exact fun s p h => by rw [exec_pollRoundStart, pollRoundStart_rests s p h]
  case level =>
    exact fun s p => ⟨fun h hlow hs => alertLevel_service s p hlow hs h, alertLevel_off s p,
      fun h hlow hs hran => alertLevel_round_extra s p hlow hs h p.isLt hran⟩
  case freed => exact fun s p r hr => by rw [exec_busRecovery, recoverBus_freed s p r hr]
  case blocks => exact fun s p r hr hh hm => by rw [exec_busRecovery, recoverBus_blocks s p r hr hh hm]
  case idle => exact fun s p freed hr hb => by rw [exec_busRecovery, recoverBus_idle s p freed hr hb]
  case asks =>
    exact fun s k hv hl hsus hper hskip hq => by rw [exec_lostEntryPoll, lostEntryPoll_asks s k hv hl hsus hper hskip hq]
  case notAsked => exact fun s k h => by rw [exec_lostEntryPoll, lostEntryPoll_rests s k h]
  case raises =>
    intro s k w hrose hm hf u hlost
    rw [absorbStatus_of_not_rose s k w hrose, statusFault_raises _ k _ hm hf, statusRestores_kept _ k hlost]
  case ends =>
    intro s k w hrose hm v
    rw [absorbStatus_of_not_rose s k w hrose, hm]
    constructor
    · intro hf u hlost
      rw [statusFault_ends _ k hf, statusRestores_kept _ k hlost]
    · intro hf u hlost
      rw [statusFault_none _ k hf, statusRestores_lost _ k hlost]
  case partner =>
    intro s p k v h
    refine write_row (partnerCfgWritten · k (s.reg (R.PMPk_CFG k))) (exec_partnerCfgWrite s p k v) h fun t => ?_
    rw [regHook_partner, elementOf_partnerCfg]
  case xfer => exact fun s p v h => write_row xferStart (exec_pmXferStart s p v) h fun t => regHook_xferStart t _ _

end Sys2Proof.Machine
end

section
/-! The counters of the Tally (spec/10_tally.md R243, R245 to R249, R255): when a write takes effect, the step of a counter by its source, a
match, and the edge of a linked neighbour. That a row lets the clock run to a TCLK edge, and that a write counts its three edges from the
latest one, are the model's choices (log entries 6 and 115). -/

namespace Sys2Proof.Machine

/-! ### The effect edge of a write (R245, R246, R249) -/

theorem tallyEffectEdge_idle (s : State) (k : Nat) (h : s.tally.writes = []) : tallyEffectEdge k s = s := by
  cases k with
  | zero => rfl
  | succ k => simp only [tallyEffectEdge, h]

section
variable (s : State) (k : Nat) (w : TallyWrite) (rest : List TallyWrite) (h : s.tally.writes = w :: rest)
include h

theorem tallyEffectEdge_due (hw : w.left ≤ 1) : tallyEffectEdge (k + 1) s = tclkEdge s := by
  simp only [tallyEffectEdge, h, if_pos hw]

theorem tallyEffectEdge_waits (hw : 1 < w.left) : tallyEffectEdge (k + 1) s = tallyEffectEdge k (tclkEdge s) := by
  simp only [tallyEffectEdge, h, if_neg (Nat.not_le.mpr hw)]

end

/-- R249: a CMP at or behind the count held before the edge is marked. -/
theorem tallyApply_cmp (s : State) (n left : Nat) (v : Word) :
    tallyApply s ⟨n, 0, v, left⟩ =
      if (v.toNat + 2 ^ 32 - tCount s n) % 2 ^ 32 = 0 ∨ 2 ^ 31 < (v.toNat + 2 ^ 32 - tCount s n) % 2 ^ 32 then
        ((s.setReg (R.Tn_CMP n) v.toNat).put (F.Tn_STATUS_CMP_PAST n) 1).event 26
      else s.setReg (R.Tn_CMP n) v.toNat := by
  simp only [tallyApply]

/-! ### The step of a counter (R243) -/

section
variable (s : State) (t : TallyState) (n : Nat)

theorem tickStep_tclk (h : tSource s n = 0) : tickStep s t n = 1 := by simp only [tickStep, h]

theorem tickStep_angle (h : tSource s n = 1) : tickStep s t n = t.adv := by simp only [tickStep, h]

theorem tickStep_reference (h : tSource s n = 2) : tickStep s t n = if t.refEdge then 1 else 0 := by simp only [tickStep, h]

theorem tickStep_input (h : tSource s n = 3) (c : Nat) (l : Bool) (hc : t.cap = some (c, l)) :
    tickStep s t n = if capCounts s n c l then 1 else 0 := by
  simp only [tickStep, h, hc]

theorem tickStep_input_still (h : tSource s n = 3) (hc : t.cap = none) : tickStep s t n = 0 := by simp only [tickStep, h, hc]

theorem tickStep_neighbour (h : tSource s n = 4) : tickStep s t n = if t.carry.getLsbD (n - 1) then 1 else 0 := by
  simp only [tickStep, h]

end

/-! ### Stepping onto or past CMP (R247) -/

section
variable (s : State) (n step : Nat) (hc : tCount s n + step < 2 ^ 32)
include hc

theorem tallyStep_unmatched (h : (tCmp s n + 2 ^ 32 - tCount s n) % 2 ^ 32 = 0 ∨ step < (tCmp s n + 2 ^ 32 - tCount s n) % 2 ^ 32) :
    tallyStep s n step = s.setReg (R.Tn_COUNT n) (tCount s n + step) := by
  have hmiss : ¬(1 ≤ (tCmp s n + 2 ^ 32 - tCount s n) % 2 ^ 32 ∧ (tCmp s n + 2 ^ 32 - tCount s n) % 2 ^ 32 ≤ step) := by omega
  simp only [tallyStep, Nat.mod_eq_of_lt hc, if_neg (Nat.not_le.mpr hc), if_neg hmiss]

theorem tallyStep_matches (h : 1 ≤ (tCmp s n + 2 ^ 32 - tCount s n) % 2 ^ 32 ∧ (tCmp s n + 2 ^ 32 - tCount s n) % 2 ^ 32 ≤ step) :
    tallyStep s n step = tallyMatch (s.setReg (R.Tn_COUNT n) (tCount s n + step)) n (tCmp s n) := by
  simp only [tallyStep, Nat.mod_eq_of_lt hc, if_neg (Nat.not_le.mpr hc), if_pos h]

end

/-! ### A match (R248) -/

/-- R248: what a match marks, shows and counts. -/
def matchNoted (s : State) (n cmp : Nat) : State :=
  (((s.put (F.Tn_STATUS_MATCH n) 1).event (32 + n)).setReg (R.Tn_MATCHED n) cmp).addWrap (F.Tn_STATUS_MCOUNT n)

/-- R258: what a match triggers: the Benches, the Folio, the outputs. -/
def matchTold (s : State) (n : Nat) : State :=
  let u := sourceTrigger s 1 n (fun _ => true)
  outMatch (if u.flag F.FOLIO_CFG_TALLY_EN && u.get F.FOLIO_CFG_TALLY_SEL == n then folioTrigger u 3 else u) n

section
variable (s : State) (n cmp : Nat)

theorem tallyMatch_once (h : (matchNoted s n cmp).flag (F.Tn_CFG_AUTO n) = false) :
    tallyMatch s n cmp = matchTold (matchNoted s n cmp) n := by
  rw [matchNoted] at h
  simp only [tallyMatch, h, Bool.false_eq_true, if_false]
  rfl

/-- R248: with AUTO, the next CMP lies INTV beyond the one matched. -/
theorem tallyMatch_auto (h : (matchNoted s n cmp).flag (F.Tn_CFG_AUTO n) = true) :
    tallyMatch s n cmp = matchTold ((matchNoted s n cmp).setReg (R.Tn_CMP n)
      ((cmp + (matchNoted s n cmp).reg (R.Tn_INTV n)) % 2 ^ 32)) n := by
  rw [matchNoted] at h
  simp only [tallyMatch, h, if_true]
  rfl

end

/-! ### The edge on which a counter matches, or a wrap is counted (R247, R255) -/

theorem tallyMatchEdge_matches (s : State) (n : Nat) (h : (tclkEdge s).get (F.Tn_STATUS_MCOUNT n) ≠ s.get (F.Tn_STATUS_MCOUNT n)) :
    tallyMatchEdge s n = tclkEdge s := if_neg h

theorem tallyMatchEdge_rests (s : State) (n : Nat) (h : (tclkEdge s).get (F.Tn_STATUS_MCOUNT n) = s.get (F.Tn_STATUS_MCOUNT n)) :
    tallyMatchEdge s n = s := if_pos h

theorem tallyCarryEdge_counts (s : State) (n : Nat) (hw : s.tally.carry.getLsbD n = true) (hs : tSource s (n + 1) = 4) (hn : n < 31) :
    tallyCarryEdge s n = tclkEdge s := by
  simp only [tallyCarryEdge, hw, hs, hn, beq_self_eq_true, decide_true, Bool.and_self, if_true]

theorem tallyCarryEdge_rests (s : State) (n : Nat) (h : s.tally.carry.getLsbD n = false ∨ tSource s (n + 1) ≠ 4 ∨ 31 ≤ n) :
    tallyCarryEdge s n = s := by
  have hrests : (s.tally.carry.getLsbD n && tSource s (n + 1) == 4 && decide (n < 31)) = false := by
    simpa only [Bool.and_eq_false_iff, beq_eq_false_iff_ne, decide_eq_false_iff_not, Nat.not_lt, or_assoc] using h
  simp only [tallyCarryEdge, hrests, Bool.false_eq_true, if_false]

/-- Settles O23: a write that nothing refuses is stored and waits for its effect edge; each row is its operation with what follows it; a
counter takes the step of its source, and the branch of `tallyStep` and `tallyMatch` that its distance to CMP and AUTO give it. That the
rows let the clock run to the TCLK edge is log entry 6, that a write counts from the latest edge log entry 115 (both DESIGN CHOICE). -/
theorem tallyCounters : Obligations.TallyCounters := by
  refine ⟨⟨?cmp, ?intv, ?cfg, fun _ _ _ _ => rfl, ?due, ?waits, ?idle, fun _ => rfl, fun s n v => tallyApply_cmp s n 1 v⟩,
    ⟨?hit, ?missed, ?source, ?step, ?auto, ?wraps, ?unlinked⟩,
    exec_tallyRegWrite, exec_tallyWriteEffect, exec_tallyMatch, exec_tallyWrap⟩
  case cmp =>
    exact fun s p n v h => write_row (tallyWrite · n 0 v.toNat) (exec_tallyRegWrite s p n 0 v) h fun t => regHook_tallyCmp t n _ _
  case intv =>
    exact fun s p n v h => write_row (tallyWrite · n 1 v.toNat) (exec_tallyRegWrite s p n 1 v) h fun t => regHook_tallyIntv t n _ _
  case cfg =>
    exact fun s p n v h => write_row (tallyWrite · n 2 v.toNat) (exec_tallyRegWrite s p n 2 v) h fun t => regHook_tallyCfg t n _ _
  case due => exact fun s w rest h hw => by rw [exec_tallyWriteEffect, tallyEffectEdge_due s 3 w rest h hw]
  case waits => exact fun s w rest h hw => by rw [exec_tallyWriteEffect, tallyEffectEdge_waits s 3 w rest h hw]
  case idle => exact fun s h => by rw [exec_tallyWriteEffect, tallyEffectEdge_idle s 4 h]
  case hit => exact fun s n h => by rw [exec_tallyMatch, tallyMatchEdge_matches s n h]
  case missed => exact fun s n h => by rw [exec_tallyMatch, tallyMatchEdge_rests s n h]
  case source =>
    exact fun s t n => ⟨tickStep_tclk s t n, tickStep_angle s t n, tickStep_reference s t n, tickStep_input s t n,
      tickStep_input_still s t n, tickStep_neighbour s t n⟩
  case step => exact fun s n step hc _ => ⟨tallyStep_unmatched s n step hc, tallyStep_matches s n step hc⟩
  case auto => exact fun s n cmp => ⟨matchNoted s n cmp, rfl, tallyMatch_once s n cmp, tallyMatch_auto s n cmp⟩
  case wraps => exact fun s n hw hs hn => by rw [exec_tallyWrap, tallyCarryEdge_counts s n hw hs hn]
  case unlinked =>
    intro s n h
    rw [exec_tallyWrap, tallyCarryEdge_rests s n (h.imp_right (Or.imp_right fun hn => Nat.le_of_eq hn.symm))]

end Sys2Proof.Machine
end

section
/-! The captures and outputs of the Tally (spec/10_tally.md R252 to R254, R256, R259). That an edge of an input lets the clock run to the
next TCLK edge, and that a count is read as the latest edge left it, are the model's choices (log entries 6 and 115). -/

namespace Sys2Proof.Machine

/-! ### The edges of an input (R252) -/

theorem capEdgeTick_same (s : State) (cap : Nat) (level : Bool) (h : s.tally.level.getLsbD cap = level) : capEdgeTick s cap level = s := by
  rw [capEdgeTick, if_pos (beq_iff_eq.mpr h)]

theorem capEdgeTick_change (s : State) (cap : Nat) (level : Bool) (h : s.tally.level.getLsbD cap ≠ level) :
    capEdgeTick s cap level =
      tclkEdge (s.modTally fun t => { t with level := t.level ^^^ (1#8 <<< cap), cap := some (cap, level) }) := by
  rw [capEdgeTick, if_neg (mt beq_iff_eq.mp h)]

theorem capCounts_iff (s : State) (n cap : Nat) (level : Bool) :
    capCounts s n cap level = true ↔ s.get (F.Tn_CFG_SRC_CAP n) = cap ∧ edgeKind (s.get (F.Tn_CFG_SRC_EDGE n)) level = true := by
  rw [capCounts, Bool.and_eq_true, beq_iff_eq]

/-! ### A capture and its overflow (R253, R254) -/

/-- R254: the mark of a capture, which comes before it is judged whether the queue takes the count. -/
def captureSeen (s : State) (n : Nat) : State := (s.put (F.Tn_STATUS_CAP_SEEN n) 1).event 24

theorem tallyCapture_overflows (s : State) (n : Nat) (h : 4 ≤ (vget (captureSeen s n).tally.caps n).length) :
    tallyCapture s n = ((captureSeen s n).put (F.Tn_STATUS_CAP_OVF n) 1).event 25 := if_neg (Nat.not_lt.mpr h)

theorem tallyCapture_queues (s : State) (n : Nat) (h : (vget (captureSeen s n).tally.caps n).length < 4) :
    tallyCapture s n = syncCap ((captureSeen s n).modTally fun u =>
      { u with caps := vmod u.caps n (· ++ [tCount (captureSeen s n) n]) }) n := if_pos h

/-- R254: a read takes the oldest value. -/
theorem capRead_oldest (s : State) (n v : Nat) (rest : List Nat) (h : vget s.tally.caps n = v :: rest) :
    capRead s n = (syncCap (s.modTally fun t => { t with caps := vmod t.caps n (·.drop 1) }) n, v) := by
  simp only [capRead, h, List.headD_cons]

/-! ### The end of a pulse (R259) -/

theorem outPulseEnd_pulse (s : State) (k : Nat) (h : s.get (F.TALLY_OUTk_MODE k) = 1) :
    outPulseEnd s k = s.modTally fun t => { t with out := t.out &&& ~~~(1#4 <<< k), width := vmod t.width k (fun _ => 0) } := by
  rw [outPulseEnd, if_pos (beq_iff_eq.mpr h)]

theorem outPulseEnd_other (s : State) (k : Nat) (h : s.get (F.TALLY_OUTk_MODE k) ≠ 1) : outPulseEnd s k = s := by
  rw [outPulseEnd, if_neg (mt beq_iff_eq.mp h)]

/-- Settles O24: each row is its operation with what follows it; a capture takes the branch that the length of its queue gives it, and a
read of the queue its oldest value. That CAP_EDGE runs to the next TCLK edge is log entry 6, that COUNT is read as the latest edge left it log
entry 115 (both DESIGN CHOICE). -/
theorem tallyCaptures : Obligations.TallyCaptures := by
  refine ⟨⟨?same, ?change, capCounts_iff, tallyCapture_overflows, tallyCapture_queues, ?capture, ?count, ?pulse, ?other⟩,
    exec_capEdge, exec_tallyCapRead, exec_evtOutPulseEnd⟩
  case same => exact fun s cap => by rw [exec_capEdge, capEdgeTick_same s cap _ rfl]
  case change => exact fun s cap level h => by rw [exec_capEdge, capEdgeTick_change s cap level h]
  case capture => exact fun s p n v rest h => by rw [exec_tallyCapRead, readRow_tallyCap, capRead_oldest s n v rest h]
  case count => exact fun s p n => by rw [exec_tallyCountRead, readRow_tallyCount]
  case pulse => exact fun s k h => by rw [exec_evtOutPulseEnd, outPulseEnd_pulse s k h]
  case other => exact fun s k h => by rw [exec_evtOutPulseEnd, outPulseEnd_other s k h]

end Sys2Proof.Machine
end

section
/-! The TXDIS outputs (spec/16_hexip_ring.md R409, R436, R437). -/

namespace Sys2Proof.Machine

/-- R409, R436, R437: the rules hold the transmitter of port `p` off. -/
def portDark (s : State) (p : Nat) : Bool :=
  !s.flag F.CLK_STATUS_SERDES_LOCK || (match sideOfPort s p with
    | none => true
    | some i => s.flag F.RING_STATUS_HU_SINGLE && i != liveSide s)

/-- The word of three port bits has at each port the bit that its rule gives. -/
theorem portBits_getLsbD (dark : Nat → Bool) (p : Nat) (hp : p < 3) :
    (BitVec.ofNat 3 ((below 3).foldl (fun m p => if dark p then m + 2 ^ p else m) 0)).getLsbD p = dark p := by
  have hports : below 3 = [0, 1, 2] := rfl
  rw [hports]
  simp only [List.foldl_cons, List.foldl_nil]
  generalize h0 : dark 0 = b0
  generalize h1 : dark 1 = b1
  generalize h2 : dark 2 = b2
  have hdark : dark p = [b0, b1, b2].getD p false := by
    match p, hp with
    | 0, _ => exact h0
    | 1, _ => exact h1
    | 2, _ => exact h2
  rw [hdark]
  clear h0 h1 h2 hdark
  revert b0 b1 b2 p
  decide

theorem syncTxdis_getLsbD (s : State) (p : Nat) (hp : p < 3) : (syncTxdis s).ring.txdis.getLsbD p = portDark s p :=
  portBits_getLsbD (portDark s) p hp

theorem txdisOk_step (s s' : State) (h : step s = .next s') : txdisOk s' = true := by
  obtain ⟨old, t, ht⟩ := step_settles s
  obtain rfl : s' = settle old t := Host.Outcome.next.inj (h.symm.trans ht)
  exact txdisOk_settle old t

/-- Settles O60: every step ends in `settle`, which makes the outputs anew by the rule of each port. -/
theorem txdisEveryStep : Obligations.TxdisEveryStep := ⟨txdisOk_step, syncTxdis_getLsbD⟩

end Sys2Proof.Machine
end

section
/-! The operations that effects are written with: fields and counters, events (R286, R287), fault conditions (R262). -/

namespace Sys2Proof.Machine

/-! ### Fields -/

theorem State.get_put_other (s : State) (f g : Field) (v : Nat) (hg : g.lo + g.width ≤ 32)
    (h : g.addr ≠ f.addr ∨ f.lo + f.width ≤ g.lo ∨ g.lo + g.width ≤ f.lo) : (s.put f v).get g = s.get g :=
  h.elim (State.get_put_of_ne s f g v) (State.get_put_apart s f g v hg)

/-- A field of a register is within its width. -/
theorem State.get_lt (s : State) (f : Field) : s.get f < 2 ^ f.width := Nat.mod_lt _ (Nat.two_pow_pos _)

theorem State.addSat_get_self (s : State) (f : Field) (n : Nat) (h : f.lo + f.width ≤ 32) :
    (s.addSat f n).get f = min (s.get f + n) f.max := by
  have hmax : f.max < 2 ^ f.width := Nat.sub_lt (Nat.two_pow_pos _) Nat.one_pos
  rw [State.addSat, State.get_put_self _ _ _ h, Nat.mod_eq_of_lt (Nat.lt_of_le_of_lt (Nat.min_le_right _ _) hmax)]

/-! ### The canonical form of the register store -/

theorem State.regs_wf_put (s : State) (f : Field) (v : Nat) (h : storeWf s.regs = true) : storeWf (s.put f v).regs = true :=
  State.regs_wf_setReg s _ _ h

theorem State.regs_wf_ringEvent (s : State) (n : Nat) (h : storeWf s.regs = true) : storeWf (s.ringEvent n).regs = true := by
  unfold State.ringEvent
  split
  · exact h
  · split
    · exact h
    · simp only [State.send_regs, State.modFlt_regs, State.addSat]
      exact State.regs_wf_put _ _ _ (State.regs_wf_put _ _ _ (State.regs_wf_put _ _ _ h))

theorem State.regs_wf_event (s : State) (n : Nat) (h : storeWf s.regs = true) : storeWf (s.event n).regs = true := by
  unfold State.event
  split
  · exact h
  · dsimp only
    split
    · exact State.regs_wf_ringEvent _ n (State.regs_wf_put _ _ _ h)
    · exact State.regs_wf_put _ _ _ h

/-! ### Events (R286, R287) -/

theorem State.event_seen (s : State) (n : Nat) (h : s.flag (evtStatus n) = true) : s.event n = s := if_pos h

theorem evtStatus_within (n : Nat) : (evtStatus n).lo + (evtStatus n).width ≤ 32 := by
  simp only [evtStatus]
  omega

/-- A status bit that stands is not cleared where another sets. -/
theorem State.flag_evtStatus_put (s : State) (n m : Nat) (h : s.flag (evtStatus n) = true) :
    (s.put (evtStatus m) 1).flag (evtStatus n) = true := by
  by_cases hnm : n = m
  · subst hnm
    rw [State.flag_put_self _ _ _ (evtStatus_within n)]
    rfl
  · rw [State.flag, State.get_put_other _ _ _ _ (evtStatus_within n), ← State.flag, h]
    simp only [evtStatus, R.EVT_Gg_STATUS]
    omega

theorem State.ringEvent_keeps_status (s : State) (n : Nat) (hn : n < 256) (h : s.flag (evtStatus n) = true) :
    (s.ringEvent n).flag (evtStatus n) = true := by
  have hq : (evtStatus n).addr ≠ F.RING_EVQ_DROPPED.addr := by
    simp only [evtStatus, F.RING_EVQ_DROPPED, R.EVT_Gg_STATUS, R.RING_EVQ]
    omega
  have he : (evtStatus n).addr ≠ F.RING_EVT_EVQ_DROP.addr := by
    simp only [evtStatus, F.RING_EVT_EVQ_DROP, R.EVT_Gg_STATUS, R.RING_EVT]
    omega
  unfold State.ringEvent
  split
  · exact h
  · split
    · exact h
    · rw [State.send_flag, State.modFlt_flag]
      apply State.flag_evtStatus_put
      rw [State.flag_put_of_ne _ _ _ _ he, State.addSat, State.flag_put_of_ne _ _ _ _ hq, h]

theorem State.event_sets_status (s : State) (n : Nat) (hn : n < 256) : (s.event n).flag (evtStatus n) = true := by
  have hset : (s.put (evtStatus n) 1).flag (evtStatus n) = true := by
    rw [State.flag_put_self _ _ _ (evtStatus_within n)]
    rfl
  unfold State.event
  split
  · assumption
  · dsimp only
    split
    · exact State.ringEvent_keeps_status _ n hn hset
    · exact hset

/-! ### Fault conditions (R262) -/

theorem State.raise_condStands (s : State) (src kind cls inst detail : Nat) :
    (s.raise src kind cls inst detail).condStands src inst = true := by
  simp [State.condStands, State.raise, State.send, State.modFlt]

theorem State.endCond_condStands (s : State) (src inst : Nat) : (s.endCond src inst).condStands src inst = false := by
  simp only [State.condStands, State.endCond, State.modFlt, List.any_eq_false, List.mem_filter]
  rintro c ⟨-, hc⟩ h
  rw [h] at hc
  exact absurd hc (by decide)

/-- Settles O57: each operation is a write of a register, or a change of the collector's lists, whose law is above. -/
theorem namedOperations : Obligations.NamedOperations := by
  refine ⟨State.get_put_self, State.get_put_other, fun _ _ _ => rfl, ?counts, ?saturates, fun s n _ => State.event_seen s n,
    State.event_sets_status, State.event_reg, ?raise, ?ends, fun s f v n h => ⟨State.regs_wf_put s f v h, State.regs_wf_event s n h⟩⟩
  case counts => exact fun s f n hf h => by rw [State.addSat_get_self s f n hf, Nat.min_eq_left h]
  case saturates => exact fun s f n hf h => by rw [State.addSat_get_self s f n hf, Nat.min_eq_right (Nat.le_of_lt h)]
  case raise => exact fun s src kind cls inst detail => ⟨State.raise_condStands s src kind cls inst detail, rfl, rfl⟩
  case ends => exact fun s src inst => ⟨State.endCond_condStands s src inst, rfl⟩

end Sys2Proof.Machine
end

section
/-! The states of the fault sources (spec/11_fault_collection.md R267, R268). -/

namespace Sys2Proof.Machine

theorem fltClass_put_state (s : State) (i v : Nat) : fltClass (s.put (F.FLT_SRCs_STAT_STATE i) v) i = fltClass s i :=
  State.get_put_apart _ _ _ _ (show 8 ≤ 32 by decide) (.inl (show 2 ≤ 6 by decide))

theorem fltState_put_class (s : State) (i v : Nat) : fltState (s.put (F.FLT_SRCs_STAT_CLASS i) v) i = fltState s i :=
  State.get_put_apart _ _ _ _ (show 2 ≤ 32 by decide) (.inr (show 2 ≤ 6 by decide))

theorem fltState_put (s : State) (i v : Nat) : fltState (s.put (F.FLT_SRCs_STAT_STATE i) v) i = v % 4 :=
  State.get_put_self _ _ _ (show 2 ≤ 32 by decide)

theorem fltClass_put (s : State) (i v : Nat) : fltClass (s.put (F.FLT_SRCs_STAT_CLASS i) v) i = v % 4 :=
  State.get_put_self _ _ _ (show 8 ≤ 32 by decide)

theorem fltClass_lt (s : State) (i : Nat) : fltClass s i < 4 := State.get_lt s _

/-- R268: the class that a message brings; one that a shadow list covers (R280) counts as Corrected. -/
def msgClass (m : FaultMsg) : Nat := if m.cls = 3 then 0 else m.cls

/-- R268: the class a message leaves its source with. -/
def newClass (s : State) (m : FaultMsg) : Nat :=
  if fltState s m.source = 0 then msgClass m else max (msgClass m) (fltClass s m.source)

/-- R267: the state a message leaves its source with. -/
def newState (s : State) (m : FaultMsg) : Nat :=
  if msgClass m = 2 ∨ fltState s m.source = 3 then 3 else if s.condLevel m.source then 1 else 2

/-- R281: a message that takes its source out of CLEAR marks whether an injection opened it. -/
def openNoted (s : State) (m : FaultMsg) : State :=
  if fltState s m.source = 0 && m.inj then
    s.modFlt fun f => { f with openInj := m.source :: f.openInj.filter (· != m.source) }
  else if fltState s m.source = 0 then s.modFlt fun f => { f with openInj := f.openInj.filter (· != m.source) } else s

theorem openNoted_get (s : State) (m : FaultMsg) (f : Field) : (openNoted s m).get f = s.get f := by
  unfold openNoted
  split
  · exact State.modFlt_get ..
  · split
    · exact State.modFlt_get ..
    · rfl

theorem openNoted_condLevel (s : State) (m : FaultMsg) (i : Nat) : (openNoted s m).condLevel i = s.condLevel i := by
  unfold openNoted
  split
  · rfl
  · split <;> rfl

theorem stateMessage_eq (s : State) (m : FaultMsg) : stateMessage s m =
    ((openNoted s m).put (F.FLT_SRCs_STAT_CLASS m.source) (newClass s m)).put (F.FLT_SRCs_STAT_STATE m.source) (newState s m) := by
  have hstate : fltState (openNoted s m) m.source = fltState s m.source := openNoted_get s m _
  have hclass : fltClass (openNoted s m) m.source = fltClass s m.source := openNoted_get s m _
  have hcond : ∀ v, ((openNoted s m).put (F.FLT_SRCs_STAT_CLASS m.source) v).condLevel m.source = s.condLevel m.source :=
    fun v => openNoted_condLevel s m _
  have hcls : (if m.cls == 3 then 0 else m.cls) = msgClass m := by simp only [msgClass, beq_iff_eq]
  have hunfold : stateMessage s m = (let s := openNoted s m
      let s := s.put (F.FLT_SRCs_STAT_CLASS m.source) (if fltState s m.source = 0 then msgClass m else max (msgClass m) (fltClass s m.source))
      if msgClass m = 2 || fltState s m.source = 3 then s.put (F.FLT_SRCs_STAT_STATE m.source) 3
      else s.put (F.FLT_SRCs_STAT_STATE m.source) (if s.condLevel m.source then 1 else 2)) := by
    rw [← hcls]
    rfl
  rw [hunfold]
  simp only [hstate, hclass, fltState_put_class, hcond, newClass, newState, Bool.or_eq_true, decide_eq_true_eq]
  split <;> rfl

theorem newState_lt (s : State) (m : FaultMsg) : newState s m < 4 := by
  unfold newState
  split
  · decide
  · split <;> decide

theorem stateMessage_state (s : State) (m : FaultMsg) : fltState (stateMessage s m) m.source = newState s m := by
  rw [stateMessage_eq, fltState_put, Nat.mod_eq_of_lt (newState_lt s m)]

theorem stateMessage_class (s : State) (m : FaultMsg) (h : m.cls < 4) : fltClass (stateMessage s m) m.source = newClass s m := by
  have hold : fltClass s m.source < 4 := fltClass_lt s _
  have hnew : newClass s m < 4 := by
    unfold newClass msgClass
    split <;> split <;> omega
  rw [stateMessage_eq, fltClass_put_state, fltClass_put, Nat.mod_eq_of_lt hnew]

/-- Settles O26: a message leaves its source in `newState` with `newClass`. -/
theorem faultStates : Obligations.FaultStates := by
  refine ⟨?fatal, ?stays, ?other⟩
  case fatal =>
    intro s m h
    have hcls : msgClass m = 2 := by rw [msgClass, h]; rfl
    rw [stateMessage_state, stateMessage_class s m (by omega), newState, if_pos (.inl hcls), newClass, hcls]
    refine ⟨rfl, ?_⟩
    split
    · exact Nat.le_refl 2
    · exact Nat.le_max_left ..
  case stays =>
    intro s m _ h
    rw [stateMessage_state, newState, if_pos (.inr h)]
  case other =>
    intro s m h hlt hne
    have hcls : msgClass m ≠ 2 := by
      unfold msgClass
      split
      · decide
      · exact h
    rw [stateMessage_state, stateMessage_class s m hlt, newState, if_neg (not_or.mpr ⟨hcls, hne⟩), newClass]
    exact ⟨rfl, fun h0 => if_pos h0, fun h0 => if_neg h0⟩

end Sys2Proof.Machine
end

section
/-! The order of reactions and of messages (spec/11_fault_collection.md R276): two queues kept by a key, each new entry behind those of its
own key. -/

namespace Sys2Proof.Machine

/-! ### Reactions, by falling class -/

theorem mem_insertReaction (r x : Reaction) (l : List Reaction) : x ∈ insertReaction r l ↔ x = r ∨ x ∈ l := by
  induction l with
  | nil => simp only [insertReaction, List.mem_singleton, List.not_mem_nil, or_false]
  | cons y rest ih =>
    unfold insertReaction
    split
    · exact List.mem_cons
    · simp only [List.mem_cons, ih, or_left_comm]

theorem insertReaction_ordered (r : Reaction) (l : List Reaction) (h : l.Pairwise fun a b => b.msg.cls ≤ a.msg.cls) :
    (insertReaction r l).Pairwise fun a b => b.msg.cls ≤ a.msg.cls := by
  induction l with
  | nil => exact List.pairwise_singleton ..
  | cons y rest ih =>
    obtain ⟨hy, hrest⟩ := List.pairwise_cons.mp h
    unfold insertReaction
    split
    next hlt =>
      refine List.pairwise_cons.mpr ⟨fun b hb => ?_, h⟩
      rcases List.mem_cons.mp hb with rfl | hb
      · exact Nat.le_of_lt hlt
      · exact Nat.le_trans (hy b hb) (Nat.le_of_lt hlt)
    next hge =>
      refine List.pairwise_cons.mpr ⟨fun b hb => ?_, ih hrest⟩
      rcases (mem_insertReaction r b rest).mp hb with rfl | hb
      · exact Nat.not_lt.mp hge
      · exact hy b hb

/-- A reaction moves no other. -/
theorem insertReaction_filter_ne (r : Reaction) (l : List Reaction) (c : Nat) (hc : c ≠ r.msg.cls) :
    ((insertReaction r l).filter fun x => x.msg.cls = c) = l.filter fun x => x.msg.cls = c := by
  induction l with
  | nil => simp only [insertReaction, List.filter_cons, List.filter_nil, Ne.symm hc, decide_false, Bool.false_eq_true, if_false]
  | cons y rest ih =>
    unfold insertReaction
    split
    · rw [List.filter_cons, if_neg (by simpa using Ne.symm hc)]
    · simp only [List.filter_cons, ih]

/-- In an ordered queue a reaction stands behind every one of its class. -/
theorem insertReaction_filter_self (r : Reaction) (l : List Reaction) (h : l.Pairwise fun a b => b.msg.cls ≤ a.msg.cls) :
    ((insertReaction r l).filter fun x => x.msg.cls = r.msg.cls) = (l.filter fun x => x.msg.cls = r.msg.cls) ++ [r] := by
  induction l with
  | nil => simp only [insertReaction, List.filter_cons, List.filter_nil, decide_true, if_true, List.nil_append]
  | cons y rest ih =>
    obtain ⟨hy, hrest⟩ := List.pairwise_cons.mp h
    unfold insertReaction
    split
    next hlt =>
      have hnone : ((y :: rest).filter fun x => x.msg.cls = r.msg.cls) = [] := by
        refine List.filter_eq_nil_iff.mpr fun b hb => ?_
        have hle : b.msg.cls ≤ y.msg.cls := by
          rcases List.mem_cons.mp hb with rfl | hb
          · exact Nat.le_refl _
          · exact hy b hb
        simpa using Nat.ne_of_lt (Nat.lt_of_le_of_lt hle hlt)
      rw [hnone, List.filter_cons, if_pos (by simp only [decide_true]), hnone, List.nil_append]
    next =>
      simp only [List.filter_cons, ih hrest]
      split <;> rfl

/-! ### Messages of one command, by rising source -/

theorem mem_byPort (m x : FaultMsg) (l : List FaultMsg) : x ∈ byPort m l ↔ x = m ∨ x ∈ l := by
  induction l with
  | nil => simp only [byPort, List.mem_singleton, List.not_mem_nil, or_false]
  | cons y rest ih =>
    unfold byPort
    split
    · exact List.mem_cons
    · simp only [List.mem_cons, ih, or_left_comm]

theorem byPort_ordered (m : FaultMsg) (l : List FaultMsg) (h : l.Pairwise fun a b => a.source ≤ b.source) :
    (byPort m l).Pairwise fun a b => a.source ≤ b.source := by
  induction l with
  | nil => exact List.pairwise_singleton ..
  | cons y rest ih =>
    obtain ⟨hy, hrest⟩ := List.pairwise_cons.mp h
    unfold byPort
    split
    next hlt =>
      refine List.pairwise_cons.mpr ⟨fun b hb => ?_, h⟩
      rcases List.mem_cons.mp hb with rfl | hb
      · exact Nat.le_of_lt hlt
      · exact Nat.le_trans (Nat.le_of_lt hlt) (hy b hb)
    next hge =>
      refine List.pairwise_cons.mpr ⟨fun b hb => ?_, ih hrest⟩
      rcases (mem_byPort m b rest).mp hb with rfl | hb
      · exact Nat.not_lt.mp hge
      · exact hy b hb

/-- In an ordered list a message stands behind those of its own source, and moves none of another. -/
theorem byPort_filter (m : FaultMsg) (l : List FaultMsg) (c : Nat) (h : l.Pairwise fun a b => a.source ≤ b.source) :
    ((byPort m l).filter fun x => x.source = c) = (l.filter fun x => x.source = c) ++ [m].filter fun x => x.source = c := by
  induction l with
  | nil => simp only [byPort, List.filter_nil, List.nil_append]
  | cons y rest ih =>
    obtain ⟨hy, hrest⟩ := List.pairwise_cons.mp h
    unfold byPort
    split
    next hlt =>
      by_cases hc : m.source = c
      · have hnone : ((y :: rest).filter fun x => x.source = c) = [] := by
          refine List.filter_eq_nil_iff.mpr fun b hb => ?_
          have hle : y.source ≤ b.source := by
            rcases List.mem_cons.mp hb with rfl | hb
            · exact Nat.le_refl _
            · exact hy b hb
          simpa using Nat.ne_of_gt (Nat.lt_of_lt_of_le (hc ▸ hlt) hle)
        rw [List.filter_cons (x := m), hnone, if_pos (by simpa using hc), List.nil_append]
        simp [hc]
      · have hm : [m].filter (fun x => x.source = c) = [] := by simp [hc]
        rw [hm, List.append_nil, List.filter_cons, if_neg (by simpa using hc)]
    next =>
      rw [List.filter_cons, List.filter_cons, ih hrest]
      split <;> rfl

/-- The messages of one command, each put in its place in turn: ordered by source, those of one source as they were sent. -/
theorem foldl_byPort (l acc : List FaultMsg) (h : acc.Pairwise fun a b => a.source ≤ b.source) :
    (l.foldl (fun l m => byPort m l) acc).Pairwise (fun a b => a.source ≤ b.source) ∧
      ∀ c, ((l.foldl (fun l m => byPort m l) acc).filter fun m => m.source = c) =
        (acc.filter fun m => m.source = c) ++ l.filter fun m => m.source = c := by
  induction l generalizing acc with
  | nil => exact ⟨h, fun c => by simp only [List.foldl_nil, List.filter_nil, List.append_nil]⟩
  | cons m rest ih =>
    obtain ⟨hord, hfilt⟩ := ih (byPort m acc) (byPort_ordered m acc h)
    refine ⟨hord, fun c => ?_⟩
    rw [List.foldl_cons, hfilt, byPort_filter m acc c h, List.append_assoc, ← List.filter_append, List.singleton_append]

/-- Settles O27: both queues are insertions by a key, `insertReaction` and `byPort`. -/
theorem reactionOrder : Obligations.ReactionOrder := by
  refine ⟨fun r l h => ⟨insertReaction_ordered r l h, insertReaction_filter_self r l h, insertReaction_filter_ne r l⟩,
    fun old s => ?messages⟩
  case messages =>
    obtain ⟨hord, hfilt⟩ := foldl_byPort (s.flt.msgs.drop old.flt.msgs.length) [] .nil
    exact ⟨_, rfl, hord, hfilt⟩

end Sys2Proof.Machine
end

section
/-! The messages of the fault collector (spec/11_fault_collection.md R263, R267, R269, R270, R279): the oldest message, a condition that
changes, the ends of quiet periods, windows and shadows. -/

namespace Sys2Proof.Machine

/-! ### The oldest message (R263, R267) -/

theorem faultMessage_sound (s : State) (m : FaultMsg) (rest : List FaultMsg) (h : s.flt.msgs = m :: rest) :
    faultMessage s false =
      (let u := s.modFlt fun f => { f with msgs := rest }
       takeMessage u m (if m.cls = 2 then fatalAction u m else actionOf u m)) := by
  simp only [faultMessage, h, messageAction, beq_iff_eq, Bool.false_eq_true, if_false]

theorem faultMessage_corrupt (s : State) (m : FaultMsg) (rest : List FaultMsg) (h : s.flt.msgs = m :: rest) :
    faultMessage s true = corruptMessage (s.modFlt fun f => { f with msgs := rest }) m := by
  simp only [faultMessage, h, if_true]

/-! ### A condition that changes (R267) -/

theorem condChange_rises (s : State) (i : Nat) (hup : s.condLevel i = true) (hq : fltState s i = 2) :
    condChange s i = syncFaults (s.put (F.FLT_SRCs_STAT_STATE i) 1) := by
  simp only [condChange, hup, hq, decide_true, Bool.and_self, if_true]

theorem condChange_falls (s : State) (i : Nat) (hdown : s.condLevel i = false) (ha : fltState s i = 1) (hc : fltClass s i < 2) :
    condChange s i = syncFaults (s.put (F.FLT_SRCs_STAT_STATE i) 2) := by
  simp only [condChange, hdown, ha, hc, decide_true, Bool.not_false, Bool.and_self, Bool.false_and, Bool.false_eq_true, if_true, if_false]

/-! ### The end of a quiet period (R269, R270) -/

section
variable (s : State) (i : Nat) (hq : fltState s i = 2)
include hq

/-- R270: an expiry beyond the limit of its window is a Fatal message of its own. -/
theorem quietExpiry_escalates (h0 : (s.addSat (F.FLT_SRCs_STAT_WCNT i)).get (F.FLT_SRCs_CFG_ESC_LIMIT i) ≠ 0)
    (h : (s.addSat (F.FLT_SRCs_STAT_WCNT i)).get (F.FLT_SRCs_CFG_ESC_LIMIT i) <
      (s.addSat (F.FLT_SRCs_STAT_WCNT i)).get (F.FLT_SRCs_STAT_WCNT i)) :
    quietExpiry s i = escalate (s.addSat (F.FLT_SRCs_STAT_WCNT i)) i := by
  simp only [quietExpiry, hq, ne_eq, not_true_eq_false, if_false, if_pos (And.intro h0 h)]

/-- R269: the source is CLEAR again, its recovery counted; its class stays (log entry 67). -/
theorem quietExpiry_clears (h : (s.addSat (F.FLT_SRCs_STAT_WCNT i)).get (F.FLT_SRCs_CFG_ESC_LIMIT i) = 0 ∨
      (s.addSat (F.FLT_SRCs_STAT_WCNT i)).get (F.FLT_SRCs_STAT_WCNT i) ≤
        (s.addSat (F.FLT_SRCs_STAT_WCNT i)).get (F.FLT_SRCs_CFG_ESC_LIMIT i)) :
    quietExpiry s i = syncFaults (((((s.addSat (F.FLT_SRCs_STAT_WCNT i)).put (F.FLT_SRCs_STAT_STATE i) 0).addSat
      (F.FLT_SRCs_STAT_RECOV i)).modNvm fun v => { v with cntDirty := true }).event 4) := by
  have hwithin : ¬((s.addSat (F.FLT_SRCs_STAT_WCNT i)).get (F.FLT_SRCs_CFG_ESC_LIMIT i) ≠ 0 ∧
      (s.addSat (F.FLT_SRCs_STAT_WCNT i)).get (F.FLT_SRCs_CFG_ESC_LIMIT i) <
        (s.addSat (F.FLT_SRCs_STAT_WCNT i)).get (F.FLT_SRCs_STAT_WCNT i)) :=
    fun ⟨h0, hlt⟩ => h.elim h0 (Nat.not_le.mpr hlt)
  simp only [quietExpiry, hq, ne_eq, not_true_eq_false, if_false, if_neg hwithin]

end

/-- Settles O25: each row is its operation with what follows it, which the collector makes only while it runs (log entry 18); a quiet
period ends in CLEAR, the class kept (log entry 67), or beyond the limit in an escalation. -/
theorem faultMessages : Obligations.FaultMessages := by
  refine ⟨⟨?message, ?rises, ?falls, ?quiet, ?window, ?shadow, ?stopped⟩, exec_faultMessage, exec_condChange, exec_quietExpiry,
    exec_escalationWindowEnd, exec_reactionDispatch, exec_shadowExpiry⟩
  case message =>
    intro s m rest hc h
    exact ⟨by rw [exec_faultMessage, if_pos hc, faultMessage_sound s m rest h],
      by rw [exec_faultMessage, if_pos hc, faultMessage_corrupt s m rest h]⟩
  case rises => exact fun s i hc hup hq => by rw [exec_condChange, if_pos hc, condChange_rises s i hup hq]
  case falls => exact fun s i hc hdown ha hcls => by rw [exec_condChange, if_pos hc, condChange_falls s i hdown ha hcls]
  case quiet =>
    intro s i hc hq u
    exact ⟨fun h => by rw [exec_quietExpiry, if_pos hc, quietExpiry_clears s i hq h],
      fun h0 h => by rw [exec_quietExpiry, if_pos hc, quietExpiry_escalates s i hq h0 h]; rfl⟩
  case window => exact fun s i hc => by rw [exec_escalationWindowEnd, if_pos hc, escWindowEnd]
  case shadow => exact fun s l hc => by rw [exec_shadowExpiry, if_pos hc, shadowExpiry]
  case stopped =>
    intro s corrupt i l upTo hc
    have hstopped : ∀ t : State, (if collectorRuns s then t else s) = s := fun t => by rw [hc, if_neg Bool.false_ne_true]
    refine ⟨?_, ?_, ?_, ?_, ?_, ?_⟩
    · rw [exec_faultMessage, hstopped]
    · rw [exec_condChange, hstopped]
    · rw [exec_quietExpiry, hstopped]
    · rw [exec_escalationWindowEnd, hstopped]
    · rw [exec_shadowExpiry, hstopped]
    · rw [exec_reactionDispatch, hstopped]

end Sys2Proof.Machine
end

section
/-! The dispatch of reactions, and the clears of faults (spec/11_fault_collection.md R269, R271, R275, R281; spec/09_regulator_ports.md R239;
spec/13_folio_ledger_nvm.md R327). -/

namespace Sys2Proof.Machine

/-! ### The steps of a dispatch (R275) -/

section
variable (s : State) (r : Reaction) (hr : headReaction s = some r)
include hr

theorem dispatchStep_d1_folio (h0 : r.stage = 0) (h : s.flag (F.FLT_SRCs_CFG_FOLIO r.msg.source) = true ∨ r.msg.cls = 2) :
    dispatchStep s = syncFaults (setHead (folioTrigger s 2) (some { r with stage := 1 })) := by
  have hcall : (s.flag (F.FLT_SRCs_CFG_FOLIO r.msg.source) || r.msg.cls == 2) = true := by
    rwa [Bool.or_eq_true, beq_iff_eq]
  simp only [dispatchStep, hr, h0, hcall, if_true]

theorem dispatchStep_d1_plain (h0 : r.stage = 0) (hf : s.flag (F.FLT_SRCs_CFG_FOLIO r.msg.source) = false) (hc : r.msg.cls ≠ 2) :
    dispatchStep s = syncFaults (setHead s (some { r with stage := 1 })) := by
  simp only [dispatchStep, hr, h0, hf, beq_eq_false_iff_ne.mpr hc, Bool.or_self, Bool.false_eq_true, if_false]

theorem dispatchStep_d2 (h1 : r.stage = 1) :
    dispatchStep s = syncFaults (setHead (if s.flag (F.FLT_SRCs_CFG_SHADOW_EN r.msg.source) then
      s.put ⟨R.FLT_STATUS, s.get (F.FLT_SRCs_CFG_SHADOW_SEL r.msg.source), 1⟩ 1 else s) (some { r with stage := 2 })) := by
  simp only [dispatchStep, hr, h1]

end

/-- R327, R275: what D3 makes before the action: the reaction leaves, the Folio that it called for is latched, and margining and Sounding
end for a Fatal one. -/
def reactionLeaves (s : State) (r : Reaction) : State :=
  let u := syncFaults (setHead s none)
  let v := if bitOf u.folio.trig 2 then (latchFolio u).1 else u
  if r.msg.cls = 2 then abortWork v 6 true else v

theorem reactionDispatch_d3 (s : State) (r : Reaction) (upTo : Nat) (hr : headReaction s = some r) (h2 : r.stage = 2)
    (hu : upTo = 0 ∨ upTo = 3) :
    reactionDispatch s upTo =
      if partnerEnded (reactionLeaves s r) r then reactionLeaves s r else reactionAct (reactionLeaves s r) r.action := by
  have hlast : (if upTo = 0 then 3 else upTo) = 3 := by
    rcases hu with rfl | rfl <;> rfl
  by_cases hc : r.msg.cls = 2
  · simp only [reactionDispatch, hlast, dispatchUpTo, hr, h2, Nat.reduceLT, if_true, dispatchStep, reactionLeaves, hc, beq_self_eq_true]
  · simp only [reactionDispatch, hlast, dispatchUpTo, hr, h2, Nat.reduceLT, if_true, dispatchStep, reactionLeaves,
      beq_eq_false_iff_ne.mpr hc, Bool.false_eq_true, if_false, if_neg hc]

theorem reactionDispatch_idle (s : State) (upTo : Nat) (hr : headReaction s = none) : reactionDispatch s upTo = s := by
  simp only [reactionDispatch, dispatchUpTo, hr]

/-- R292: a standby records a reaction and applies none. -/
theorem reactionAct_standby (s : State) (a : FltAction) (h : 2 ≤ twinRole s) : reactionAct s a = s := if_pos h

theorem reactionAct_shutQuire (s : State) (n q : Nat) (h : twinRole s < 2) (hq : quireOf s n = some q)
    (hi : s.seq.inbox.contains (.shut q) = false) :
    reactionAct s (.shutQuire n) = s.modSeq fun t => { t with inbox := t.inbox ++ [.shut q] } := by
  simp only [reactionAct, if_neg (Nat.not_le.mpr h), hq, orderSeq, State.modSeq, hi, Bool.false_eq_true, if_false]

/-! ### Host clears (R271) -/

/-- A clear that names one source. -/
theorem sources_filter (i : Nat) (h : i < 96) : sources.filter (· == i) = [i] := by
  rw [sources, below, List.filter_beq, List.count_range, if_pos h, List.replicate_one]

section
variable (s : State) (i : Nat) (h : i < 96)
include h

theorem hostClear_state : hostClear s (128 + i) = syncFaults ((clearSource s i).event 8) := by
  have hsrc : (128 + i) % 128 = i := by omega
  have h31 : bitOf (128 + i) 31 = false := beq_eq_false_iff_ne.mpr (by omega)
  have h7 : bitOf (128 + i) 7 = true := beq_iff_eq.mpr (by omega)
  have h8 : bitOf (128 + i) 8 = false := beq_eq_false_iff_ne.mpr (by omega)
  have h9 : bitOf (128 + i) 9 = false := beq_eq_false_iff_ne.mpr (by omega)
  have h10 : bitOf (128 + i) 10 = false := beq_eq_false_iff_ne.mpr (by omega)
  simp only [hostClear, hsrc, h31, h7, h8, h9, h10, sources_filter i h, State.forEach, List.foldl_cons, List.foldl_nil, if_true,
    Bool.false_eq_true, if_false]

theorem hostClear_sticky : hostClear s (256 + i) = syncFaults ((s.put (stickyField i) 0).event 8) := by
  have hsrc : (256 + i) % 128 = i := by omega
  have h31 : bitOf (256 + i) 31 = false := beq_eq_false_iff_ne.mpr (by omega)
  have h7 : bitOf (256 + i) 7 = false := beq_eq_false_iff_ne.mpr (by omega)
  have h8 : bitOf (256 + i) 8 = true := beq_iff_eq.mpr (by omega)
  have h9 : bitOf (256 + i) 9 = false := beq_eq_false_iff_ne.mpr (by omega)
  have h10 : bitOf (256 + i) 10 = false := beq_eq_false_iff_ne.mpr (by omega)
  simp only [hostClear, hsrc, h31, h7, h8, h9, h10, sources_filter i h, State.forEach, List.foldl_cons, List.foldl_nil, if_true,
    Bool.false_eq_true, if_false]

end

/-- R271: a condition that stands is raised again. -/
theorem clearSource_stands (s : State) (i : Nat) (c : Cond) (h : (s.flt.conds.find? fun c => c.msg.source == i) = some c) :
    clearSource s i = ((s.put (F.FLT_SRCs_STAT_STATE i) 0).put (F.FLT_SRCs_STAT_CLASS i) 0).send c.msg := by
  simp only [clearSource, State.put_flt, h]

theorem recoveryWrite_dirty (s : State) (h : s.nvm.cntDirty = true) :
    recoveryWrite s = s.modNvm fun v => { v with cntPend := true } := if_pos h

/-- Settles O28: the head of the queue makes its next step, and D3 comes after the Folio's latch; a write that nothing refuses is stored and
its clear or injection acts. -/
theorem faultReactions : Obligations.FaultReactions := by
  refine ⟨⟨dispatchStep_d1_folio, dispatchStep_d1_plain, dispatchStep_d2, ?d3, ?idle, ?standby, reactionAct_shutQuire⟩,
    ⟨?clear, fun s i h => ⟨hostClear_state s i h, hostClear_sticky s i h⟩, fun s i c h _ => clearSource_stands s i c h, ?inject, ?counters⟩,
    exec_fltClearWrite, exec_fltInjGo, exec_recoveryCounterWrite⟩
  case d3 =>
    intro s r upTo hc hr h2 hu
    have hx : exec (.reactionDispatch upTo) s = .next (settle s (if partnerEnded (reactionLeaves s r) r then reactionLeaves s r
        else reactionAct (reactionLeaves s r) r.action)) := by
      rw [exec_reactionDispatch, if_pos hc, reactionDispatch_d3 s r upTo hr h2 (hu.imp (congrArg Fin.val) (congrArg Fin.val))]
    exact ⟨fun he => by rw [hx, reactionLeaves, he, if_neg Bool.false_ne_true], fun he => by rw [hx, reactionLeaves, he, if_pos rfl]⟩
  case idle => exact fun s upTo hc hr => by rw [exec_reactionDispatch, if_pos hc, reactionDispatch_idle s upTo hr]
  case standby =>
    exact fun s q n h => ⟨reactionAct_standby s _ h, reactionAct_standby s _ h, reactionAct_standby s _ h,
      fun _ => reactionAct_standby s _ h⟩
  case clear =>
    exact fun s p v h => write_row (hostClear · v.toNat) (exec_fltClearWrite s p v) h fun t => regHook_fltClear t _ _
  case inject =>
    exact fun s p v h => write_row (injectWrite · (F.FLT_INJ_GO.insert v.toNat 1)) (exec_fltInjGo s p v) h fun t => regHook_fltInj t _ _
  case counters => exact fun s h => by rw [exec_recoveryCounterWrite, recoveryWrite_dirty s h]

end Sys2Proof.Machine
end

section
/-! The twin link and the mirror (spec/12_twins_spares.md R294 to R297, R300, R308, R310). -/

namespace Sys2Proof.Machine

/-! ### The link (R294, R308, R310) -/

/-- A twin out of HOLDUP judges the frames that arrive, and sends. -/
theorem onLink_iff (s : State) : (isTwin s && s.mode != mHoldup) = true ↔ isTwin s = true ∧ s.mode ≠ mHoldup := by
  rw [Bool.and_eq_true, bne_iff_ne]

theorem offLink_iff (s : State) : (isTwin s && s.mode != mHoldup) = false ↔ isTwin s = false ∨ s.mode = mHoldup := by
  rw [Bool.and_eq_false_iff, bne_eq_false_iff_eq]

theorem sendFrame_onLink (s : State) (f : TwinFrame) (ht : isTwin s = true) (hm : s.mode ≠ mHoldup) :
    sendFrame s f = s.modTwin fun t => { t with tx := t.tx ++ [f] } := if_pos ((onLink_iff s).mpr ⟨ht, hm⟩)

theorem linkDown_aged (s : State) (hu : linkUp s = true) (ha : 5 ≤ s.get F.TWIN_STATUS_LINK_AGE) :
    linkDown s = setFresh ((twinEvt (((s.put F.TWIN_STATUS_LINK_UP 0).modTwin fun t => { t with good := 0, dynCrc := none }).addSat
      F.TWIN_CNT_LINK_DROPS) F.TWIN_EVT_LINK_DOWN 7).raiseOnce 48 0 1 0 0) false := by
  simp only [linkDown, hu, ha, decide_true, Bool.and_self, if_true]

theorem linkDown_rests (s : State) (h : linkUp s = false ∨ s.get F.TWIN_STATUS_LINK_AGE < 5) : linkDown s = s := by
  refine if_neg ?_
  rw [Bool.and_eq_true, decide_eq_true_eq]
  rintro ⟨hu, ha⟩
  exact h.elim (fun hd => absurd hu (by rw [hd]; decide)) (Nat.not_lt.mpr ha)

section
variable (s : State) (frames : Nat) (hu : linkUp s = false) (ht : isTwin s = true) (hm : s.mode ≠ mHoldup)
include hu ht hm

theorem linkRetrain_rises (h : 8 ≤ frames) :
    linkRetrain s frames = linkRises ((s.put F.TWIN_STATUS_LINK_AGE 0).modTwin fun t => { t with ageTicks := 0, good := 0 }) := by
  simp only [linkRetrain, hu, ht, beq_eq_false_iff_ne.mpr hm, h, Bool.not_true, Bool.or_self, Bool.false_eq_true, if_false, if_true]

theorem linkRetrain_counts (h : frames < 8) : linkRetrain s frames = s.modTwin fun t => { t with good := frames } := by
  simp only [linkRetrain, hu, ht, beq_eq_false_iff_ne.mpr hm, Nat.not_le.mpr h, Bool.not_true, Bool.or_self, Bool.false_eq_true, if_false]

end

/-- R294: what a heartbeat tells of the peer. -/
def peerTold (s : State) (role : Nat) (ready : Bool) (seq : Nat) : State :=
  (((goodFrame s).put F.TWIN_STATUS_PEER_ROLE role).putB F.TWIN_STATUS_PEER_READY ready).modTwin fun t => { t with peerSeq := seq }

theorem beatFrame_onLink (s : State) (role : Nat) (ready : Bool) (seq : Nat) (ht : isTwin s = true) (hm : s.mode ≠ mHoldup) :
    beatFrame s role ready seq =
      if role = 1 then twoActives (peerTold s role ready seq) else (peerTold s role ready seq).endCond 51 3 := by
  simp only [beatFrame, ht, beq_eq_false_iff_ne.mpr hm, Bool.not_true, Bool.or_self, Bool.false_eq_true, if_false, peerTold]

/-- R300, R429, R452: no heartbeat to the Warden. -/
theorem ringBeat_rests (s : State) (h : isTwin s = false ∨ s.flag F.RING_GRANT_HB_OK = false ∨ s.security = secRetired) :
    ringBeat s = s := by
  refine if_neg ?_
  rw [Bool.and_eq_true, Bool.and_eq_true, bne_iff_ne]
  rintro ⟨⟨ht, hb⟩, hs⟩
  rcases h with h | h | h
  · exact absurd ht (by rw [h]; decide)
  · exact absurd hb (by rw [h]; decide)
  · exact hs h

/-! ### The mirror (R295 to R297) -/

/-- What a frame leaves before its block acts: the link has judged it, at a twin out of HOLDUP. -/
theorem frameJudged_onLink (s : State) (ht : isTwin s = true) (hm : s.mode ≠ mHoldup) :
    (if isTwin s && s.mode != mHoldup then goodFrame s else s) = goodFrame s := if_pos ((onLink_iff s).mpr ⟨ht, hm⟩)

theorem frameJudged_offLink (s : State) (h : isTwin s = false ∨ s.mode = mHoldup) :
    (if isTwin s && s.mode != mHoldup then goodFrame s else s) = s := if_neg (Bool.not_eq_true _ ▸ (offLink_iff s).mpr h)

section
variable (s : State) (ht : isTwin s = true) (hm : s.mode ≠ mHoldup)
include ht hm

theorem latchFrame_mirrors (l : BitVec 64) (h : mirrors (goodFrame s) = true) :
    latchFrame s l = applyLatch (goodFrame s) l.toNat (2 ^ 64 - 1 - l.toNat) := by
  simp only [latchFrame, frameJudged_onLink s ht hm, h, if_true]

theorem configFrame_mirrors (c : CfgImage) (h : mirrors (goodFrame s) = true) :
    configFrame s c = syncFresh ((c.entries.foldl (fun s e => mirrorEntry s c.ratios e) (goodFrame s)).modTwin
      fun t => { t with cfgCrc := some (imageCrc c) }) := by
  simp only [configFrame, frameJudged_onLink s ht hm, h, if_true]

theorem dynFrame_rests (d : DynImage) (hr : twinRole (goodFrame s) ≠ 1) (h : mirrors (goodFrame s) = false) :
    dynFrame s d = goodFrame s := by
  simp only [dynFrame, frameJudged_onLink s ht hm, beq_eq_false_iff_ne.mpr hr, h, Bool.false_and, Bool.not_false, Bool.false_eq_true,
    if_false, if_true]

theorem dynSend_active (hr : twinRole s = 1) (hu : linkUp s = true) :
    dynSend s = s.modTwin fun t => { t with tx := t.tx ++ [.dynamic (dynImage s)] } := by
  simp only [dynSend, hr, hu, beq_self_eq_true, Bool.and_self, if_true, sendFrame_onLink s _ ht hm]

theorem configSend_active (hr : twinRole s = 1) (hu : linkUp s = true) :
    configSend s = s.modTwin fun t => { t with tx := t.tx ++ [.config (configImage s)] } := by
  simp only [configSend, hr, hu, beq_self_eq_true, Bool.and_self, if_true, sendFrame_onLink s _ ht hm]

end

theorem mirrorStale_standby (s : State) (h : 2 ≤ twinRole s) :
    mirrorStale s = syncFresh (s.modTwin fun t => { t with dynCrc := none }) := if_pos h

theorem mirrorStale_rests (s : State) (h : twinRole s < 2) : mirrorStale s = s := if_neg (Nat.not_le.mpr h)

section
variable (s : State) (hmir : mirrors s = false) (h : isTwin s = false ∨ s.mode = mHoldup)
include hmir h

theorem latchFrame_offLink (l : BitVec 64) : latchFrame s l = s := by
  simp only [latchFrame, frameJudged_offLink s h, hmir, Bool.false_eq_true, if_false]

theorem handoverFrame_offLink (l : BitVec 64) : handoverFrame s l = s := by
  simp only [handoverFrame, frameJudged_offLink s h, hmir, Bool.not_false, if_true]

theorem configFrame_offLink (c : CfgImage) : configFrame s c = s := by
  simp only [configFrame, frameJudged_offLink s h, hmir, Bool.false_eq_true, if_false]

end

/-- Settles O29: each row is its operation with what follows it; a frame is judged by the link first, and acts where the twin mirrors. -/
theorem twinLink : Obligations.TwinLink := by
  refine ⟨⟨?beat, ?down, ?up, ?retrain, ?heard, exec_twinRingHeartbeatSend, ringBeat_rests⟩,
    ⟨?latches, ?config, exec_dynamicImage, fun s d ht hm hr h => dynFrame_rests s ht hm d hr h, ?sends, ?stale, ?fresh, fun _ => rfl, ?offLink⟩,
    exec_twinLinkHeartbeatSend, exec_twinLinkDown, exec_twinLinkRetrain, exec_latchMirrorFrame, exec_dynamicImageSend, exec_configImage,
    exec_configImageSend, exec_mirrorStale, exec_handoverFrame, exec_linkHeartbeatFrame⟩
  case beat => exact fun s ht hm => by rw [exec_twinLinkHeartbeatSend, linkBeat, sendFrame_onLink s _ ht hm]
  case down => exact fun s hu ha => by rw [exec_twinLinkDown, linkDown_aged s hu ha]
  case up => exact fun s h => by rw [exec_twinLinkDown, linkDown_rests s h]
  case retrain =>
    intro s frames hu ht hm
    exact ⟨fun h => by rw [exec_twinLinkRetrain, linkRetrain_rises s frames hu ht hm h],
      fun h => by rw [exec_twinLinkRetrain, linkRetrain_counts s frames hu ht hm h]⟩
  case heard =>
    intro s role ready seq ht hm u
    have hval : role.val = 1 ↔ role = 1 := ⟨fun h => Fin.ext h, fun h => congrArg Fin.val h⟩
    constructor
    · intro h
      rw [exec_linkHeartbeatFrame, beatFrame_onLink s role ready seq.toNat ht hm, if_neg (mt hval.mp h)]
      rfl
    · intro h
      rw [exec_linkHeartbeatFrame, beatFrame_onLink s role ready seq.toNat ht hm, if_pos (hval.mpr h)]
      rfl
  case latches => exact fun s l ht hm h => by rw [exec_latchMirrorFrame, latchFrame_mirrors s ht hm l h]
  case config => exact fun s c ht hm h => by rw [exec_configImage, configFrame_mirrors s ht hm c h]
  case sends =>
    intro s ht hm hr hu
    exact ⟨by rw [exec_dynamicImageSend, dynSend_active s ht hm hr hu], by rw [exec_configImageSend, configSend_active s ht hm hr hu]⟩
  case stale => exact fun s h => by rw [exec_mirrorStale, mirrorStale_standby s h]
  case fresh => exact fun s h => by rw [exec_mirrorStale, mirrorStale_rests s h]
  case offLink =>
    intro s l hmir h
    exact ⟨by rw [exec_latchMirrorFrame, latchFrame_offLink s hmir h], by rw [exec_handoverFrame, handoverFrame_offLink s hmir h],
      fun c => by rw [exec_configImage, configFrame_offLink s hmir h]⟩

end Sys2Proof.Machine
end

section
/-! Changes of role between twins (spec/12_twins_spares.md R304, R306, R311, R312). That a twin under FROZEN completes a change in progress
and starts none is log entry 114. -/

namespace Sys2Proof.Machine

/-! ### HANDOVER (R304) -/

/-- R304: a HANDOVER has told the latches of the twin that hands over. -/
def handoverTold (s : State) (l : BitVec 64) : State :=
  applyLatch (twinEvt (goodFrame s) F.TWIN_EVT_HO_RECV 5) l.toNat (2 ^ 64 - 1 - l.toNat)

section
variable (s : State) (l : BitVec 64) (ht : isTwin s = true) (hm : s.mode ≠ mHoldup) (h : mirrors (goodFrame s) = true)
include ht hm h

theorem handoverFrame_unasked (hc : (handoverTold s l).twin.change = .none) (hf : roleFrozen (handoverTold s l) = false) :
    handoverFrame s l = becomeActive (handoverTold s l) := by
  rw [handoverTold] at hc hf
  simp only [handoverFrame, frameJudged_onLink s ht hm, h, Bool.not_true, Bool.false_eq_true, if_false, hc, hf, takeRole, handoverTold]

/-- R311: under FROZEN a HANDOVER that nothing asked for tells the latches alone (log entry 114). -/
theorem handoverFrame_frozen (hc : (handoverTold s l).twin.change = .none) (hf : roleFrozen (handoverTold s l) = true) :
    handoverFrame s l = handoverTold s l := by
  rw [handoverTold] at hc hf
  simp only [handoverFrame, frameJudged_onLink s ht hm, h, Bool.not_true, Bool.false_eq_true, if_false, hc, hf, if_true, handoverTold]

theorem handoverFrame_incoming (stale : Bool) (hc : (handoverTold s l).twin.change = .incoming stale) :
    handoverFrame s l = becomeActive (if stale then reconcile (handoverTold s l) else handoverTold s l) := by
  rw [handoverTold] at hc
  simp only [handoverFrame, frameJudged_onLink s ht hm, h, Bool.not_true, Bool.false_eq_true, if_false, hc, takeRole, handoverTold]

end

/-! ### TAKEOVER, DRIVING and the waits (R304, R306, R312) -/

section
variable (s : State) (ht : isTwin s = true) (hm : s.mode ≠ mHoldup)
include ht hm

theorem takeoverFrame_hands (hr : twinRole (goodFrame s) = 1) (ht' : isTwin (goodFrame s) = true)
    (hc : (goodFrame s).twin.change = .none) (hm' : (goodFrame s).mode ≠ mHoldup) (hf : roleFrozen (goodFrame s) = false) :
    takeoverFrame s = freezeAndHand (goodFrame s) := by
  simp only [takeoverFrame, frameJudged_onLink s ht hm, hr, ht', hc, bne_iff_ne.mpr hm', hf, beq_self_eq_true, Bool.not_false,
    Bool.and_self, if_true]

theorem takeoverFrame_frozen (hf : roleFrozen (goodFrame s) = true) : takeoverFrame s = goodFrame s := by
  simp only [takeoverFrame, frameJudged_onLink s ht hm, hf, Bool.not_true, Bool.and_false, Bool.false_and, Bool.false_eq_true, if_false]

theorem drivingFrame_outgoing (hc : (goodFrame s).twin.change = .outgoing) : drivingFrame s = becomeStandby (goodFrame s) := by
  simp only [drivingFrame, frameJudged_onLink s ht hm, hc, beq_self_eq_true, if_true]

end

section
variable (s : State) (stale : Bool) (hc : s.twin.change = .incoming stale)
include hc

theorem takeoverWaitEnd_takes (hm : s.mode ≠ mHoldup) :
    takeoverWaitEnd s = becomeActive (if stale then reconcile s else s) := by
  simp only [takeoverWaitEnd, hc, beq_eq_false_iff_ne.mpr hm, Bool.false_eq_true, if_false, takeRole]

theorem takeoverWaitEnd_holdup (hm : s.mode = mHoldup) : takeoverWaitEnd s = changeOver s := by
  simp only [takeoverWaitEnd, hc, hm, beq_self_eq_true, if_true]

end

theorem drivingTimeout_outgoing (s : State) (hc : s.twin.change = .outgoing) :
    drivingTimeout s = becomeStandby (s.raiseOnce 48 0 1 0 0) := if_pos (beq_iff_eq.mpr hc)

theorem handoverTimeout_noRails (s : State) (hp : s.flag F.TWIN_STATUS_HO_PEND = true) (hr : s.seq.hoRails = []) :
    handoverTimeout s = ((s.put F.TWIN_STATUS_HO_PEND 0).modSeq fun t => { t with hoRails := [] }).raiseMomentary 51 0 1 1 := by
  simp only [handoverTimeout, hp, hr, if_true, List.foldl_nil]

/-- Settles O30: each row is its operation with what follows it, on the branch that the change in progress gives it; under FROZEN a change
in progress completes and none starts (log entry 114). -/
theorem roleChanges : Obligations.RoleChanges := by
  refine ⟨⟨?handover, ?takeover, ?frozen, ?waitEnd, ?driving, ?drivingTimeout, ?handoverTimeout⟩,
    exec_takeoverFrame, exec_takeoverWaitEnd, exec_drivingFrame, exec_drivingTimeout, exec_handoverTimeout⟩
  case handover =>
    intro s l ht hm h u
    refine ⟨fun hc hf => ?_, fun hc hf => ?_, fun hc => ?_, fun hc => ?_⟩
    · rw [exec_handoverFrame, handoverFrame_unasked s l ht hm h hc hf]
      rfl
    · rw [exec_handoverFrame, handoverFrame_frozen s l ht hm h hc hf]
      rfl
    · rw [exec_handoverFrame, handoverFrame_incoming s l ht hm h false hc]
      rfl
    · rw [exec_handoverFrame, handoverFrame_incoming s l ht hm h true hc]
      rfl
  case takeover =>
    exact fun s ht hm hr ht' hc hm' hf => by rw [exec_takeoverFrame, takeoverFrame_hands s ht hm hr ht' hc hm' hf, freezeAndHand]
  case frozen => exact fun s ht hm hf => by rw [exec_takeoverFrame, takeoverFrame_frozen s ht hm hf]
  case waitEnd =>
    exact fun s stale hc => ⟨fun hm => by rw [exec_takeoverWaitEnd, takeoverWaitEnd_takes s stale hc hm],
      fun hm => by rw [exec_takeoverWaitEnd, takeoverWaitEnd_holdup s stale hc hm]⟩
  case driving => exact fun s ht hm hc => by rw [exec_drivingFrame, drivingFrame_outgoing s ht hm hc]
  case drivingTimeout => exact fun s hc => by rw [exec_drivingTimeout, drivingTimeout_outgoing s hc]
  case handoverTimeout => exact fun s hp hr => by rw [exec_handoverTimeout, handoverTimeout_noRails s hp hr]

end Sys2Proof.Machine
end

section
/-! The Warden and the cells of its pairs (spec/12_twins_spares.md R300 to R303, R311). -/

namespace Sys2Proof.Machine

/-! ### The cells of a twin (R302, R303, R311) -/

/-- A twin whose configuration is loaded acts on a cell that it takes. -/
theorem twinRow_took (s : State) (port : RingPort) (cell : RingCell) (kind : Nat) (f : State → State) (u : State)
    (h : receiveCell s port cell kind = (u, true)) (hl : u.twin.loaded = true) : twinRow s port cell kind f = f u := by
  rw [twinRow, cellRow_took s port cell kind _ u h, if_pos hl]

theorem ackCell_ownPair (s : State) (cell : RingCell) (ht : isTwin s = true) (hp : payNat cell 0 2 = s.get F.TWIN_PAIR_ID) :
    ackCell s cell = ((if s.flag F.TWIN_STATUS_WARDEN_OK then s else
      twinEvt (s.put F.TWIN_STATUS_WARDEN_OK 1) F.TWIN_EVT_WDN_BACK 11).put F.TWIN_STATUS_FROZEN 0).endCond 50 0 := by
  simp only [ackCell, ht, hp, beq_self_eq_true, Bool.and_self, if_true]

theorem ackTimeout_lost (s : State) (ht : isTwin s = true) (hw : s.flag F.TWIN_STATUS_WARDEN_OK = true) :
    ackTimeout s = ((twinEvt (s.put F.TWIN_STATUS_WARDEN_OK 0) F.TWIN_EVT_WDN_LOST 10).put F.TWIN_STATUS_FROZEN 1).raiseOnce 50 0 1 0 0 := by
  simp only [ackTimeout, ht, hw, if_true]

theorem tokenCell_rejects (s : State) (cell : RingCell) (h : tokenReason s cell ≠ 0) :
    tokenCell s cell = rejectToken s (tokenReason s cell) := if_pos h

section
variable (s : State) (cell : RingCell) (h : tokenReason s cell = 0)
include h

theorem tokenCell_take (ht : payNat cell 0 1 = 1) :
    tokenCell s cell = takeToken (acceptToken s cell) (bitOf (payNat cell 1 1) 0) := by
  simp only [tokenCell, h, ht, ne_eq, not_true_eq_false, if_false]

theorem tokenCell_relinquish (ht : payNat cell 0 1 = 2) : tokenCell s cell =
    if twinRole (acceptToken s cell) == 1 && !roleFrozen (acceptToken s cell) then becomeStandby (acceptToken s cell)
    else acceptToken s cell := by
  simp only [tokenCell, h, ht, ne_eq, not_true_eq_false, if_false]

/-- R311: at a twin that is FROZEN a token changes no role (log entry 114). -/
theorem tokenCell_frozen (ht : payNat cell 0 1 = 1 ∨ payNat cell 0 1 = 2) (hf : roleFrozen (acceptToken s cell) = true) :
    tokenCell s cell = acceptToken s cell := by
  rcases ht with ht | ht
  · rw [tokenCell_take s cell h ht, takeToken, hf, Bool.or_true, if_pos rfl]
  · rw [tokenCell_relinquish s cell h ht, hf, Bool.not_true, Bool.and_false, if_neg Bool.false_ne_true]

end

/-! ### A judgment (R301) -/

/-- R301: the wait of a pair begins anew. -/
def waitOver (s : State) (k : Nat) : State := s.modPair k fun p => { p with wait := 0 }

theorem sideReady_waitOver (s : State) (k : Nat) (b : Bool) : sideReady (waitOver s k) k b = sideReady s k b := by
  have hbeat : (wpair (waitOver s k) k).beat b = (wpair s k).beat b :=
    vget_vmod_proj s.wdn k k _ (WdnPair.beat · b) fun p => by cases b <;> rfl
  have hmiss : hbMiss (waitOver s k) k = hbMiss s k := rfl
  simp only [sideReady, silent, hbeat, hmiss]

section
variable (s : State) (k : Nat)

/-- R301: with no active twin, the side that the pair prefers is taken first. -/
theorem judgePair_preferred (ho : (wpair s k).owed = none) (ha : sideActive s k false = false) (hb : sideActive s k true = false)
    (hr : sideReady s k (s.flag (F.WDN_PAIRk_CFG_PREF k)) = true) :
    judgePair s k = issueToken (waitOver s k) k (s.flag (F.WDN_PAIRk_CFG_PREF k)) 1 false := by
  have hready := (sideReady_waitOver s k (s.flag (F.WDN_PAIRk_CFG_PREF k))).trans hr
  rw [waitOver] at hready
  simp only [judgePair, ho, ha, hb, judgeNone, hr, hready, Bool.not_true, Bool.not_false, Bool.false_and, Bool.and_self,
    Bool.false_eq_true, if_false, if_true, waitOver]

theorem judgePair_oneActive (b : Bool) (ho : (wpair s k).owed = none) (ha : sideActive s k b = true)
    (hb : sideActive s k (!b) = false) : judgePair s k = judgeOne (waitOver s k) k b := by
  cases b
  case false =>
    rw [Bool.not_false] at hb
    simp only [judgePair, ho, ha, hb, Bool.not_true, Bool.not_false, Bool.false_and, Bool.and_false, Bool.false_eq_true, if_false, waitOver]
  case true =>
    rw [Bool.not_true] at hb
    simp only [judgePair, ho, ha, hb, Bool.not_true, Bool.not_false, Bool.false_and, Bool.and_false, Bool.false_eq_true, if_false, waitOver]

theorem judgePair_bothActive (ho : (wpair s k).owed = none) (ha : sideActive s k false = true) (hb : sideActive s k true = true) :
    judgePair s k = silentEvent (waitOver s k) k := by
  simp only [judgePair, ho, ha, hb, Bool.not_true, Bool.and_self, Bool.false_eq_true, if_false, if_true, waitOver]

theorem judgePair_owed (x : Bool) (ho : (wpair s k).owed = some x) (ha : sideActive s k (!x) = true) :
    judgePair s k = issueToken ((waitOver s k).modPair k fun p => { p with owed := none }) k x 2 false := by
  simp only [judgePair, ho, ha, if_true, waitOver]

end

/-! ### The writes of the Warden's registers (R300, R429) -/

/-- R429: a change of the period of heartbeats is asked of the master. -/
theorem exec_wdnCfg_stored (s : State) (p : Port) (v : Word) (h : writable s p R.WDN_CFG v.toNat = true) :
    exec (.wdnCfgWrite p v) s = .next (settle s
      (if F.WDN_CFG_HB_PER.extract (s.reg R.WDN_CFG) == (written s R.WDN_CFG v.toNat).get F.WDN_CFG_HB_PER
        then written s R.WDN_CFG v.toNat else admitRequest (written s R.WDN_CFG v.toNat))) := by
  have hself : elementOf s R.WDN_CFG = R.WDN_CFG := elementOf_self s _ (by decide)
  rw [exec_wdnCfgWrite, writeRow_of_writable s p _ _ h, regHook_wdnCfg, hself]

/-- Settles O31: a cell that the twin takes acts by its checks, at a FROZEN twin none changes the role (log entry 114), and a token of a
further type acts in a row of its own (log entry 39); a judgment takes the first row that holds; a write of a pair's nodes begins its record
anew (log entry 37). -/
theorem warden : Obligations.Warden := by
  refine ⟨⟨?ack, ?ackTimeout, ?token, ?heartbeat⟩,
    ⟨exec_wardenJudgment, judgePair_preferred, judgePair_oneActive, judgePair_bothActive, judgePair_owed, ?nodes, ?samePeriod, ?newPeriod⟩,
    exec_wardenAckTimeout, exec_hbAck, exec_token, exec_heartbeat, exec_wdnPairNodesWrite, exec_wdnCfgWrite⟩
  case ack =>
    intro s port cell u h hl ht hp
    have hx : exec (.hbAck port cell) s = .next (settle s (ackCell u cell)) := by rw [exec_hbAck, twinRow_took s port cell 0xD _ u h hl]
    exact ⟨fun hw => by rw [hx, ackCell_ownPair u cell ht hp, if_pos hw],
      fun hw => by rw [hx, ackCell_ownPair u cell ht hp, if_neg (Bool.not_eq_true _ ▸ hw)]⟩
  case ackTimeout => exact fun s ht hw => by rw [exec_wardenAckTimeout, ackTimeout_lost s ht hw]
  case token =>
    intro s port cell u h hl hne
    have hx : exec (.token port cell) s = .next (settle s (tokenCell u cell)) := by
      rw [exec_token, twinRow_took s port cell 0xB _ u h hl, if_neg hne]
    refine ⟨?_, fun h0 ht => by rw [hx, tokenCell_take u cell h0 ht], ?_, fun h0 ht hf => by rw [hx, tokenCell_frozen u cell h0 ht hf]⟩
    · rintro r rfl hr
      rw [hx, tokenCell_rejects u cell hr, rejectToken]
    · intro h0 ht hr hf
      rw [hx, tokenCell_relinquish u cell h0 ht, hr, hf, if_pos (by decide)]
  case heartbeat => exact fun s port cell u h hl => by rw [exec_heartbeat, twinRow_took s port cell 0xC _ u h hl]
  case nodes =>
    exact fun s p k v h => write_row (fun t => syncPair (t.modPair k fun _ => default) k) (exec_wdnPairNodesWrite s p k v) h
      fun t => regHook_pairNodes t k _ _
  case samePeriod => exact fun s p v h hp => by rw [exec_wdnCfg_stored s p v h, hp, beq_self_eq_true, if_pos rfl]
  case newPeriod =>
    exact fun s p v h hp => by rw [exec_wdnCfg_stored s p v h, beq_eq_false_iff_ne.mpr hp, if_neg Bool.false_ne_true]

end Sys2Proof.Machine
end

section
/-! Folios: triggers, targets and buffers (spec/13_folio_ledger_nvm.md R325 to R333). -/

namespace Sys2Proof.Machine

/-! ### Triggers and targets (R325, R328) -/

section
variable (s : State) (level : Bool) (hl : s.folio.snap ≠ level)
include hl

theorem snapEdge_triggers (he : bitOf (s.get F.FOLIO_CFG_SNAP_EDGE) (if level then 0 else 1) = true) :
    snapEdge s level = folioTrigger (s.modFolio fun f => { f with snap := level }) 0 := by
  simp only [snapEdge, beq_eq_false_iff_ne.mpr hl, Bool.false_eq_true, if_false]
  exact if_pos he

theorem snapEdge_taken (he : bitOf (s.get F.FOLIO_CFG_SNAP_EDGE) (if level then 0 else 1) = false) :
    snapEdge s level = s.modFolio fun f => { f with snap := level } := by
  simp only [snapEdge, beq_eq_false_iff_ne.mpr hl, Bool.false_eq_true, if_false]
  exact if_neg (by rw [show (s.modFolio _).get F.FOLIO_CFG_SNAP_EDGE = s.get F.FOLIO_CFG_SNAP_EDGE from rfl, he]; decide)

end

/-- R330: a release that names no buffer. -/
theorem folioRelease_none (s : State) : folioRelease s 0 = s := by
  refine forEach_self s _ _ fun k _ => ?_
  rw [bitOf, Nat.zero_div]
  rfl

/-- What a write of FOLIO_CTRL does, by its three bits and the buffers that it releases. -/
def folioCtrlWritten (s : State) (disarm arm trig : Bool) (buffers : Nat) : State :=
  let s := if disarm then folioDisarm s else s
  let s := if arm then folioArm s else s
  let s := folioRelease s buffers
  if trig then folioTrigger s 1 else s

theorem regHook_folioCtrl_bits (t : State) (old v : Nat) :
    regHook t R.FOLIO_CTRL old v = folioCtrlWritten t (bitOf v 29) (bitOf v 30) (bitOf v 31) (v % 16) := regHook_folioCtrl t old v

theorem hookFolioCtrl_trig (t : State) (old : Nat) : regHook t R.FOLIO_CTRL old (2 ^ 31) = folioTrigger t 1 := by
  have h29 : bitOf (2 ^ 31) 29 = false := by decide
  have h30 : bitOf (2 ^ 31) 30 = false := by decide
  have h31 : bitOf (2 ^ 31) 31 = true := by decide
  have h0 : 2 ^ 31 % 16 = 0 := by decide
  rw [regHook_folioCtrl_bits, h29, h30, h31, h0]
  simp only [folioCtrlWritten, Bool.false_eq_true, if_false, if_true, folioRelease_none]

theorem hookFolioCtrl_arm (t : State) (old : Nat) : regHook t R.FOLIO_CTRL old (2 ^ 30) = folioArm t := by
  have h29 : bitOf (2 ^ 30) 29 = false := by decide
  have h30 : bitOf (2 ^ 30) 30 = true := by decide
  have h31 : bitOf (2 ^ 30) 31 = false := by decide
  have h0 : 2 ^ 30 % 16 = 0 := by decide
  rw [regHook_folioCtrl_bits, h29, h30, h31, h0]
  simp only [folioCtrlWritten, Bool.false_eq_true, if_false, if_true, folioRelease_none]

theorem hookFolioCtrl_disarm (t : State) (old : Nat) : regHook t R.FOLIO_CTRL old (2 ^ 29) = folioDisarm t := by
  have h29 : bitOf (2 ^ 29) 29 = true := by decide
  have h30 : bitOf (2 ^ 29) 30 = false := by decide
  have h31 : bitOf (2 ^ 29) 31 = false := by decide
  have h0 : 2 ^ 29 % 16 = 0 := by decide
  rw [regHook_folioCtrl_bits, h29, h30, h31, h0]
  simp only [folioCtrlWritten, Bool.false_eq_true, if_false, if_true, folioRelease_none]

/-- A bit beyond those of a short number is 0. -/
theorem bitOf_of_lt (v b : Nat) (h : v < 2 ^ b) : bitOf v b = false := by
  rw [bitOf, Nat.div_eq_of_lt h]
  rfl

theorem hookFolioCtrl_release (t : State) (old : Nat) (b : BitVec 4) :
    regHook t R.FOLIO_CTRL old b.toNat = folioRelease t b.toNat := by
  have hb : b.toNat < 2 ^ 4 := b.isLt
  have high (i : Nat) (hi : 4 ≤ i) : bitOf b.toNat i = false :=
    bitOf_of_lt _ _ (Nat.lt_of_lt_of_le hb (Nat.pow_le_pow_right (by decide) hi))
  rw [regHook_folioCtrl_bits, high 29 (by decide), high 30 (by decide), high 31 (by decide),
    show b.toNat % 16 = b.toNat from Nat.mod_eq_of_lt hb]
  simp only [folioCtrlWritten, Bool.false_eq_true, if_false]

theorem folioArm_armed (s : State) (h : s.flag F.FOLIO_STATUS_ARMED = true) : folioArm s = s := if_pos h

theorem folioArm_free (s : State) (h : s.flag F.FOLIO_STATUS_ARMED = false) :
    folioArm s = armTarget s (stampOf (s.reg R.FOLIO_AT_HI) (s.reg R.FOLIO_AT_LO)) false 0 :=
  if_neg (Bool.eq_false_iff.mp h)

/-- R328: the node's own target matches: a trigger, and no target is armed. -/
theorem folioMatch_own (s : State) (ha : s.flag F.FOLIO_STATUS_ARMED = true) (hr : s.angRun = true)
    (ht : stampReached s.ang.stamp s.folio.target = true) (ho : s.flag F.FOLIO_STATUS_RING = false) :
    folioMatch s = folioTrigger (folioDisarm s) 4 := by
  simp only [folioMatch, ha, hr, ht, ho, Bool.and_self, Bool.false_eq_true, if_true, if_false]

theorem folioMatch_free (s : State) (h : s.flag F.FOLIO_STATUS_ARMED = false) : folioMatch s = s := by
  simp only [folioMatch, h, Bool.false_and, Bool.false_eq_true, if_false]

/-- R431: the target of a ring-wide Folio has not come. -/
theorem targetMatch_noRing (s : State)
    (h : (folioMatch s).angRun = false ∨ stampReached (folioMatch s).ang.stamp (folioMatch s).ring.rfTarget = false) :
    targetMatch s = folioMatch s := by
  refine if_neg ?_
  rw [Bool.and_eq_true]
  rintro ⟨hr, ht⟩
  exact h.elim (fun h => Bool.false_ne_true (h.symm.trans hr)) (fun h => Bool.false_ne_true (h.symm.trans ht))

theorem targetMatch_own (s : State) (ha : s.flag F.FOLIO_STATUS_ARMED = true) (hr : s.angRun = true)
    (ht : stampReached s.ang.stamp s.folio.target = true) (ho : s.flag F.FOLIO_STATUS_RING = false)
    (hn : stampReached s.ang.stamp s.ring.rfTarget = false) : targetMatch s = folioTrigger (folioDisarm s) 4 := by
  have hm := folioMatch_own s ha hr ht ho
  rw [targetMatch_noRing s (.inr ?_), hm]
  simp only [hm, folioTrigger, State.modFolio, folioDisarm, State.put_ang, State.put_ring, hn]

theorem targetMatch_free (s : State) (h : s.flag F.FOLIO_STATUS_ARMED = false)
    (hn : s.angRun = false ∨ stampReached s.ang.stamp s.ring.rfTarget = false) : targetMatch s = s := by
  have hm := folioMatch_free s h
  rw [targetMatch_noRing s (by rw [hm]; exact hn), hm]

/-! ### The buffer a Folio takes (R330, R331) -/

/-- R331: the lowest FREE buffer. -/
def freeBuffer (s : State) : Option Nat := (below 4).find? fun k => bufState s k == 0

/-- R331: with none FREE, of the FILLED buffers the one of the oldest latch. -/
def oldestOf (s : State) (m : Option Nat) (k : Nat) : Option Nat :=
  match m with
  | some j => if vget s.folio.age k < vget s.folio.age j then some k else some j
  | none => some k

def filledBuffer (s : State) : Option Nat := ((below 4).filter fun k => bufState s k == 1).foldl (oldestOf s) none

theorem folioBuffer_eq (s : State) (mask : Nat) : folioBuffer s mask =
    match freeBuffer s with
    | some k => some k
    | none => if bitOf mask 6 || bitOf mask 7 then filledBuffer s else none := rfl

theorem oldestOf_either (s : State) (m : Option Nat) (k j : Nat) (h : oldestOf s m k = some j) : j = k ∨ m = some j := by
  cases m with
  | none => exact .inl (Option.some.inj h).symm
  | some i =>
    simp only [oldestOf] at h
    split at h
    · exact .inl (Option.some.inj h).symm
    · exact .inr h

/-- A fold that keeps one of two answers with one of those it was given. -/
theorem foldl_oldestOf_mem (s : State) (l : List Nat) (m : Option Nat) (j : Nat) (h : l.foldl (oldestOf s) m = some j) :
    j ∈ l ∨ m = some j := by
  induction l generalizing m with
  | nil => exact .inr h
  | cons k l ih =>
    rcases ih _ h with hj | hj
    · exact .inl (List.mem_cons_of_mem _ hj)
    · rcases oldestOf_either s m k j hj with rfl | hm
      · exact .inl (List.mem_cons_self ..)
      · exact .inr hm

theorem filledBuffer_filled (s : State) (k : Nat) (h : filledBuffer s = some k) : bufState s k = 1 := by
  rcases foldl_oldestOf_mem s _ none k h with hk | hk
  · exact beq_iff_eq.mp (List.mem_filter.mp hk).2
  · exact absurd hk (by simp)

theorem freeBuffer_free (s : State) (k : Nat) (h : freeBuffer s = some k) : bufState s k = 0 :=
  beq_iff_eq.mp (List.find?_some (p := fun k => bufState s k == 0) h)

theorem freeBuffer_lowest (s : State) (k j : Nat) (h : freeBuffer s = some k) (hj : j < k) : bufState s j ≠ 0 := by
  have hfind := (List.find?_range_eq_some.mp h).2.2 j hj
  rw [Bool.not_eq_true'] at hfind
  exact beq_eq_false_iff_ne.mp hfind

theorem folioBuffer_takable (s : State) (mask k : Nat) (h : folioBuffer s mask = some k) : bufState s k = 0 ∨ bufState s k = 1 := by
  rw [folioBuffer_eq] at h
  split at h
  next j hj => exact .inl (Option.some.inj h ▸ freeBuffer_free s j hj)
  next =>
    split at h
    · exact .inr (filledBuffer_filled s k h)
    · cases h

theorem folioBuffer_lowest (s : State) (mask k : Nat) (h : folioBuffer s mask = some k) (hk : bufState s k = 0) (j : Nat)
    (hj : j < k) : bufState s j ≠ 0 := by
  rw [folioBuffer_eq] at h
  split at h
  next i hi => exact freeBuffer_lowest s k j (hi.trans h) hj
  next =>
    split at h
    · exact absurd (hk.symm.trans (filledBuffer_filled s k h)) (by decide)
    · cases h

theorem folioBuffer_none (s : State) (mask : Nat) (h6 : bitOf mask 6 = false) (h7 : bitOf mask 7 = false)
    (h : ∀ k, k < 4 → bufState s k ≠ 0) : folioBuffer s mask = none := by
  have hfree : freeBuffer s = none :=
    List.find?_eq_none.mpr fun k hk => by rw [beq_iff_eq]; exact h k (List.mem_range.mp hk)
  rw [folioBuffer_eq, hfree]
  simp only [h6, h7, Bool.or_self, Bool.false_eq_true, if_false]

/-! ### The latch (R326, R327, R331) -/

theorem crossResults_settled (s : State) (words : List Word) (h : ∀ r ∈ s.folio.fresh, r.at' + 2 ≤ s.tclk) :
    crossResults s words = (s, words) := by
  have hnone : s.folio.fresh.filter (fun r => decide (s.tclk < r.at' + 2)) = [] :=
    List.filter_eq_nil_iff.mpr fun r hr => by rw [decide_eq_true_eq]; exact Nat.not_lt.mpr (h r hr)
  rw [crossResults, hnone]
  rfl

/-- R325: the triggers presented are taken. -/
def triggersTaken (s : State) : State := s.modFolio fun f => { f with trig := 0, trigId := 0, trigMsg := none }

/-- A trigger of none of the bits [7:5] is no mask of these bits. -/
theorem ne_of_bitOf_false (m b : Nat) (h : bitOf m b = false) : m ≠ 2 ^ b := by
  rintro rfl
  rw [bitOf, Nat.div_self (Nat.two_pow_pos b)] at h
  exact absurd h (by decide)

section
variable (s : State) (h5 : bitOf s.folio.trig 5 = false) (h6 : bitOf s.folio.trig 6 = false) (h7 : bitOf s.folio.trig 7 = false)
  (ht : s.folio.trig ≠ 0)
include h5 h6 h7 ht

theorem latchFolio_taken (k : Nat) (v : State) (words : List Word) (hb : folioBuffer (triggersTaken s) s.folio.trig = some k)
    (hc : crossResults (triggersTaken s) (folioWords (triggersTaken s) s.folio.trig 0) = (v, words)) (hk : bufState v k = 0) :
    (latchFolio s).1 = folioEvent ((((v.modFolio fun f => { f with
          buf := vmod f.buf k (fun _ => words), latches := f.latches + 1
          age := vmod f.age k (fun _ => f.latches), copies := f.copies ++ [] }).put (F.FOLIO_STATUS_BUF k) 1).put
        F.FOLIO_STATUS_NEWEST k)) F.FOLIO_EVT_TAKEN 0 := by
  rw [triggersTaken] at hb hc
  have h64 : s.folio.trig ≠ 64 := ne_of_bitOf_false _ 6 h6
  have h128 : s.folio.trig ≠ 128 := ne_of_bitOf_false _ 7 h7
  simp only [latchFolio, folioLatch, if_neg ht, h5, h6, h7, Bool.or_self, Bool.false_eq_true, if_false, hb, hc]
  simp only [hk, h64, h128, decide_false, Bool.or_self, Bool.false_eq_true, if_false, Nat.zero_ne_one]

theorem latchFolio_dropped (hb : folioBuffer (triggersTaken s) s.folio.trig = none) :
    (latchFolio s).1 = folioEvent ((triggersTaken s).addSat F.FOLIO_STATUS_DROPPED) F.FOLIO_EVT_DROPPED 1 := by
  rw [triggersTaken] at hb
  simp only [latchFolio, folioLatch, if_neg ht, h5, h6, h7, Bool.or_self, Bool.false_eq_true, if_false, hb, triggersTaken]

end

/-- Settles O32: SNAP, the bits of FOLIO_CTRL and a target; the buffer a Folio takes is the lowest FREE one, or for an episode or a
hold-up a FILLED one, never a LEDGER one; its words are those of the latch edge. -/
theorem folios : Obligations.Folios := by
  refine ⟨⟨?snap, ?trig, ?arm, ?disarm, ?release, folioArm_armed, folioArm_free, ?own, ?free⟩,
    ⟨?taken, crossResults_settled, ?dropped, folioBuffer_takable, folioBuffer_lowest, folioBuffer_none, ?read⟩,
    exec_snapEdge, exec_folioLatch, exec_folioTargetMatch, exec_folioTrig, exec_folioCtrlArm, exec_folioDisarm,
    exec_folioCtrlRelease⟩
  case snap =>
    exact fun s level hl => ⟨fun he => by rw [exec_snapEdge, snapEdge_triggers s level hl he],
      fun he => by rw [exec_snapEdge, snapEdge_taken s level hl he]⟩
  case trig => exact fun s p h => write_row (folioTrigger · 1) (exec_folioTrig s p) h (hookFolioCtrl_trig · _)
  case arm => exact fun s p h => write_row folioArm (exec_folioCtrlArm s p) h (hookFolioCtrl_arm · _)
  case disarm => exact fun s p h => by rw [write_row folioDisarm (exec_folioDisarm s p) h (hookFolioCtrl_disarm · _), folioDisarm]
  case release =>
    exact fun s p b h => write_row (folioRelease · b.toNat) (exec_folioCtrlRelease s p b) h (hookFolioCtrl_release · _ b)
  case own => exact fun s ha hr ht ho hn => by rw [exec_folioTargetMatch, targetMatch_own s ha hr ht ho hn, folioDisarm]
  case free => exact fun s ha hn => by rw [exec_folioTargetMatch, targetMatch_free s ha hn]
  case taken =>
    exact fun s k h5 h6 h7 ht hb v words hc hk => by rw [exec_folioLatch, latchFolio_taken s h5 h6 h7 ht k v words hb hc hk]
  case dropped =>
    exact fun s h5 h6 h7 ht hb => by rw [exec_folioLatch, latchFolio_dropped s h5 h6 h7 ht hb, triggersTaken]
  case read =>
    intro s p
    rw [show exec (.folioDataRead p) s = .next (settle s (readRow s p R.FOLIO_DATA)) from rfl, readRow_folioData, folioDataRead]

end Sys2Proof.Machine
end

section
/-! Ledger records, the device log and the work of the NVM (spec/13_folio_ledger_nvm.md R335 to R346, R351, R354). -/

namespace Sys2Proof.Machine

/-! ### Records that are staged (R335) -/

theorem ledgerStage_none (s : State) (h : s.folio.copies = []) : ledgerStage s = s := by simp only [ledgerStage, h]

/-- R330: the copy of the oldest Folio leaves its buffer. -/
def copyTaken (s : State) (c : FolioCopy) (rest : List FolioCopy) : State :=
  if bufState (s.modFolio fun f => { f with copies := rest }) c.buf = 2 then
    (s.modFolio fun f => { f with copies := rest }).put (F.FOLIO_STATUS_BUF c.buf) 0
  else s.modFolio fun f => { f with copies := rest }

section
variable (s : State) (c : FolioCopy) (rest : List FolioCopy) (h : s.folio.copies = c :: rest)
include h

theorem ledgerStage_lost (hl : 2 ≤ (copyTaken s c rest).nvm.stage.length) :
    ledgerStage s = recordLost (copyTaken s c rest) := by
  simp only [ledgerStage, h]
  exact if_pos hl

theorem ledgerStage_staged (hl : (copyTaken s c rest).nvm.stage.length < 2) :
    ledgerStage s = recordFill ((copyTaken s c rest).modNvm fun n =>
      { n with stage := n.stage ++ [⟨c.words, c.msg, c.stamp, n.secSet, c.msg.isNone, false, false⟩] }) := by
  simp only [ledgerStage, h]
  exact if_neg (Nat.not_le.mpr hl)

end

/-! ### The device log (R320, R345) -/

theorem deviceLogWrite_notReady (s : State) (h : s.nvm.ready = false) : deviceLogWrite s = s := by
  simp only [deviceLogWrite, h, Bool.not_false, Bool.true_or, if_true]

section
variable (s : State) (hr : s.nvm.ready = true) (hw : s.rst.phase ≠ .work)
  (ho : (s.nvm.ops.any fun o => jobClass o.job == 1) = false)
include hr hw ho

theorem deviceLogWrite_map (hp : s.spare.mapPend = true) (hm : s.mode ≠ mHoldup) : deviceLogWrite s =
    addOp (s.modSpare fun p => { p with mapPend := false }) (.logMap (mapEntry s)) 0 2 := by
  simp only [deviceLogWrite, hr, ho, hp, beq_eq_false_iff_ne.mpr hw, bne_iff_ne.mpr hw, bne_iff_ne.mpr hm, Bool.not_true, Bool.false_and,
    Bool.or_self, Bool.and_self, Bool.false_eq_true, if_false, if_true]

theorem deviceLogWrite_noMap (hp : s.spare.mapPend = false ∨ s.mode = mHoldup) : deviceLogWrite s =
    if s.nvm.cntPend then addOp (s.modNvm fun v => { v with cntPend := false, cntDirty := false }) (.logCnt (cntEntry s)) 0 4 else s := by
  have hn : (s.spare.mapPend && s.mode != mHoldup) = false := by
    rw [Bool.and_eq_false_iff, bne_eq_false_iff_eq]
    exact hp
  simp only [deviceLogWrite, hr, ho, hn, beq_eq_false_iff_ne.mpr hw, Bool.not_true, Bool.false_and, Bool.or_self, Bool.false_eq_true,
    if_false]

end

/-! ### A STORE, the seconds and the slots (R346, R354) -/

/-- NVM_STORE with the bits of the regions chosen. -/
def storeBits (cfg cal : Bool) : Nat := (if cfg then 1 else 0) + (if cal then 2 else 0)

theorem hookNvmStore (t : State) (old : Nat) (cfg cal : Bool) (h : cfg = true ∨ cal = true) :
    regHook t R.NVM_STORE old (storeBits cfg cal) = startStore t cfg cal := by
  rw [regHook_nvmStore]
  cases cfg
  · cases cal
    · exact absurd h (by decide)
    · rfl
  · cases cal <;> rfl

theorem ledgerDataRead_word (s : State) (v : Nat) (h : ledgerWord s (s.get F.LDG_RD_IDX_SLOT) (s.get F.LDG_RD_IDX_WORD) = some v) :
    ledgerDataRead s = (s.put F.LDG_RD_IDX_WORD (s.get F.LDG_RD_IDX_WORD + 1), v) := by
  simp only [ledgerDataRead, h]

/-! ### Program units (R338, R343) -/

theorem curOp_unit (s : State) (o : NvmOp) (hu : s.nvm.unit = some (some o.job))
    (hf : (s.nvm.ops.find? fun x => x.job == o.job) = some o) : curOp s = some o := by
  simp only [curOp, hu, hf]
  rfl

theorem unitDone_archive (s : State) (h : archiving s = true) :
    unitDone s true = syncNvm (endUnit (s.modNvm fun v => { v with arcRetry := false })) := by
  simp only [unitDone, h, if_true]

theorem unitDone_archiveFails (s : State) (h : archiving s = true) (hr : s.nvm.arcRetry = false) :
    unitDone s false = (s.addSat F.NVM_CNT_PFAIL).modNvm fun v => { v with arcRetry := true } := by
  simp only [unitDone, h, if_true, Bool.false_eq_true, if_false, archiveUnitFailed, State.addSat_nvm, hr]

theorem eraseDone_archive (s : State) (ok : Bool) (h : archiving s = true) : eraseDone s ok = s := by
  simp only [eraseDone]
  cases curOp s with
  | none => rfl
  | some o => simp only [h, Bool.or_true, if_true]

theorem unitDone_idle (s : State) (ok : Bool) (h : archiving s = false) (hc : curOp s = none) : unitDone s ok = s := by
  simp only [unitDone, h, hc, Bool.false_eq_true, if_false]

theorem eraseDone_idle (s : State) (ok : Bool) (hc : curOp s = none) : eraseDone s ok = s := by
  simp only [eraseDone, hc]

section
variable (s : State) (o : NvmOp) (ha : archiving s = false) (hc : curOp s = some o)
include ha hc

section
variable (he : o.erases = 0) (hu : o.units ≠ 0)
include he hu

theorem unitDone_next (h1 : o.units ≠ 1) :
    unitDone s true = syncNvm (endUnit (setCur s o (some { o with units := o.units - 1, retry := false }))) := by
  simp only [unitDone, ha, hc, he, hu, h1, Nat.lt_irrefl, decide_false, Bool.or_self, Bool.false_eq_true, if_false, if_true]

omit hu in
theorem unitDone_record (h1 : o.units = 1) (hj : o.job = .record) : unitDone s true = recordDone (setCur s o none) := by
  simp only [unitDone, ha, hc, he, h1, Nat.lt_irrefl, Nat.one_ne_zero, decide_false, Bool.or_self, Bool.false_eq_true, if_false,
    if_true, jobDone, hj]

theorem unitDone_fails : unitDone s false =
    if o.retry then jobWorn (s.addSat F.NVM_CNT_PFAIL) o else setCur (s.addSat F.NVM_CNT_PFAIL) o (some { o with retry := true }) := by
  simp only [unitDone, ha, hc, he, hu, Nat.lt_irrefl, decide_false, Bool.or_self, Bool.false_eq_true, if_false]

end

/-! ### Erases (R341, R343) -/

/-- R341: a Ledger slot is erased, and the condition of its page ends. -/
def slotErased (s : State) (o : NvmOp) (k : Nat) : State :=
  setCur ((s.modNvm fun v => { v with slots := v.slots.filter (·.1 != k), junk := v.junk.filter (· != k) }).endCond 62 (320 + k)) o none

theorem eraseDone_slot (k : Nat) (ok : Bool) (he : o.erases ≠ 0) (hj : o.job = .erase k) (hk : k < 1024) :
    eraseDone s ok = syncNvm (if ok then slotErased s o k else wornSector (slotErased s o k) (ledgerSector k)) := by
  have hin : (decide (320 ≤ 320 + k) && decide (320 + k < 1344)) = true := by
    rw [Bool.and_eq_true, decide_eq_true_eq, decide_eq_true_eq]; omega
  have hsector : (320 + k) / 8 = ledgerSector k := by rw [ledgerSector]; omega
  simp only [eraseDone, hc, he, ha, hj, erasePage, hin, decide_false, Bool.or_self, Bool.false_eq_true, if_false, if_true,
    Nat.add_sub_cancel_left, hsector]
  rfl

end

/-! ### What is in progress when a job joins (R342) -/

theorem takeUnit_live (s : State) (h : unitLive s = true) : takeUnit s = s := if_pos h

/-- What `syncNvm` shows in the registers leaves the unit that it took. -/
theorem syncNvm_unit (s : State) : (syncNvm s).nvm.unit = (takeUnit s).nvm.unit := by
  simp only [syncNvm, State.put_nvm, State.putB_nvm]

/-- A unit in progress is so still with one job more. -/
theorem unitLive_join (s : State) (x : NvmOp) (h : unitLive s = true) :
    unitLive (s.modNvm fun v => { v with ops := v.ops ++ [x] }) = true := by
  simp only [unitLive, State.modNvm] at h ⊢
  split at h
  next => exact h
  next =>
    rw [List.any_append]
    exact Bool.or_eq_true_iff.mpr (.inl h)
  next => exact absurd h (by decide)

theorem addOp_unit (s : State) (job : NvmJob) (erases units : Nat) (h : unitLive s = true) :
    (addOp s job erases units).nvm.unit = s.nvm.unit := by
  rw [addOp, takeUnit_live s h, syncNvm_unit, takeUnit_live _ (unitLive_join s _ h)]
  rfl

/-! ### Uncorrectable reads (R344) -/

/-- R344: the event and the fault of an uncorrectable read of a page. -/
def uncorrTold (s : State) (page : Nat) : State := (nvmEvent s F.NVM_EVT_UNCORR 7).raise 62 0 0 page page

section
variable (s : State) (addr page : Nat) (hp : addr / 512 = page)
include hp

theorem uncorrectable_configA (h : page < 128) : uncorrectable s addr =
    setCopy (uncorrTold s page) 0 { (vget (uncorrTold s page).nvm.copies 0) with valid := false } := by
  simp only [uncorrectable, hp, if_pos h, uncorrTold]

theorem uncorrectable_configB (h1 : 128 ≤ page) (h2 : page < 256) : uncorrectable s addr =
    setCopy (uncorrTold s page) 1 { (vget (uncorrTold s page).nvm.copies 1) with valid := false } := by
  simp only [uncorrectable, hp, if_neg (Nat.not_lt.mpr h1), if_pos h2, uncorrTold]

theorem uncorrectable_logA (h1 : 272 ≤ page) (h2 : page < 288) : uncorrectable s addr =
    (uncorrTold s page).modNvm fun v => { v with log := vmod v.log 0 (·.filter fun e => e.1 / 4 != page - 272) } := by
  simp only [uncorrectable, hp, if_neg (show ¬ page < 128 by omega), if_neg (show ¬ page < 256 by omega), if_neg (Nat.not_lt.mpr h1),
    if_pos h2, uncorrTold]

theorem uncorrectable_logB (h1 : 304 ≤ page) (h2 : page < 320) : uncorrectable s addr =
    (uncorrTold s page).modNvm fun v => { v with log := vmod v.log 1 (·.filter fun e => e.1 / 4 != page - 304) } := by
  simp only [uncorrectable, hp, if_neg (show ¬ page < 128 by omega), if_neg (show ¬ page < 256 by omega),
    if_neg (show ¬ page < 272 by omega), if_neg (show ¬ page < 288 by omega), if_neg (Nat.not_lt.mpr h1), if_pos h2, uncorrTold]

theorem uncorrectable_slot (h1 : 320 ≤ page) (h2 : page < 1344) : uncorrectable s addr =
    syncNvm ((uncorrTold s page).modNvm fun v =>
      { v with slots := v.slots.filter (·.1 != page - 320), junk := v.junk.filter (· != page - 320) ++ [page - 320] }) := by
  simp only [uncorrectable, hp, if_neg (show ¬ page < 128 by omega), if_neg (show ¬ page < 256 by omega),
    if_neg (show ¬ page < 272 by omega), if_neg (show ¬ page < 288 by omega), if_neg (show ¬ page < 304 by omega),
    if_neg (Nat.not_lt.mpr h1), if_pos h2, uncorrTold]

theorem uncorrectable_late (h : 3264 ≤ page) : uncorrectable s addr =
    if page < 3520 then (uncorrTold s page).modNvm fun v => { v with patch := [] } else uncorrTold s page := by
  simp only [uncorrectable, hp, if_neg (show ¬ page < 128 by omega), if_neg (show ¬ page < 256 by omega),
    if_neg (show ¬ page < 272 by omega), if_neg (show ¬ page < 288 by omega), if_neg (show ¬ page < 304 by omega),
    if_neg (show ¬ page < 320 by omega), if_neg (show ¬ page < 1344 by omega), if_neg (Nat.not_lt.mpr h), uncorrTold]

end

/-- Settles O33: staging, the device log, a STORE and the seconds; the outcomes of program units and erases; a job that joins leaves
the unit in progress (`addOp_unit`); an uncorrectable read, by the pages of R341. -/
theorem records : Obligations.Records := by
  refine ⟨⟨?stage, ?log, ?logDown, ?noCopy, ?store, ?slotRead, ?seconds⟩,
    ⟨?unit, ?erase, addOp_unit, curOp_unit, ?archive, ?idle, ?uncorr⟩,
    exec_ledgerStage, exec_nvmProgramUnitDone, exec_nvmEraseDone, exec_nvmUncorrectableRead, exec_deviceLogWrite,
    exec_nvmStoreWrite, exec_ldgRdDataRead, exec_ldgSecWrite⟩
  case stage =>
    exact fun s c rest h => ⟨fun hl => by rw [exec_ledgerStage, ledgerStage_lost s c rest h hl]; rfl,
      fun hl => by rw [exec_ledgerStage, ledgerStage_staged s c rest h hl]; rfl⟩
  case log =>
    refine fun s hr hw ho => ⟨fun hp hm => ?_, fun hp hc => ?_, fun hp hc => ?_⟩
    · rw [exec_deviceLogWrite, deviceLogWrite_map s hr hw ho hp hm]
    · rw [exec_deviceLogWrite, deviceLogWrite_noMap s hr hw ho hp, if_pos hc]
    · rw [exec_deviceLogWrite, deviceLogWrite_noMap s hr hw ho hp, if_neg (Bool.eq_false_iff.mp hc)]
  case logDown => exact fun s h => by rw [exec_deviceLogWrite, deviceLogWrite_notReady s h]
  case noCopy => exact fun s h => by rw [exec_ledgerStage, ledgerStage_none s h]
  case store =>
    exact fun s p cfg cal h hw =>
      write_row (startStore · cfg cal) (exec_nvmStoreWrite s p cfg cal) hw fun t => hookNvmStore t _ cfg cal h
  case slotRead =>
    exact fun s p v h => by rw [exec_ldgRdDataRead, readRow_ledgerData, ledgerDataRead_word s v h]
  case seconds =>
    exact fun s p v h => by rw [write_row (secWrite · v.toNat) (exec_ldgSecWrite s p v) h (regHook_ldgSec · _ _), secWrite]
  case unit =>
    refine fun s o ha hc he hu => ⟨fun h1 => ?_, fun h1 hj => ?_, fun hr => ?_, fun hr => ?_⟩
    · rw [exec_nvmProgramUnitDone, unitDone_next s o ha hc he hu h1]
    · rw [exec_nvmProgramUnitDone, unitDone_record s o ha hc he h1 hj]
    · rw [exec_nvmProgramUnitDone, unitDone_fails s o ha hc he hu, if_neg (Bool.eq_false_iff.mp hr)]
    · rw [exec_nvmProgramUnitDone, unitDone_fails s o ha hc he hu, if_pos hr]
  case erase =>
    refine fun s o k ha hc he hj hk => ⟨?_, ?_⟩
    · rw [exec_nvmEraseDone, eraseDone_slot s o ha hc k true he hj hk, if_pos rfl, slotErased]
    · rw [exec_nvmEraseDone, eraseDone_slot s o ha hc k false he hj hk, if_neg Bool.false_ne_true, slotErased]
  case archive =>
    refine fun s h => ⟨?_, fun hr => ?_, fun ok => ?_⟩
    · rw [exec_nvmProgramUnitDone, unitDone_archive s h]
    · rw [exec_nvmProgramUnitDone, unitDone_archiveFails s h hr]
    · rw [exec_nvmEraseDone, eraseDone_archive s ok h]
  case idle =>
    exact fun s ha hc ok => ⟨by rw [exec_nvmProgramUnitDone, unitDone_idle s ok ha hc],
      by rw [exec_nvmEraseDone, eraseDone_idle s ok hc]⟩
  case uncorr =>
    refine fun s a => ⟨fun h => ?_, fun h1 h2 => ?_, fun h1 h2 => ?_, fun h1 h2 => ?_, fun h1 h2 => ?_, fun h1 h2 => ?_, fun h => ?_⟩
    · rw [exec_nvmUncorrectableRead, uncorrectable_configA s _ _ rfl h, uncorrTold]
    · rw [exec_nvmUncorrectableRead, uncorrectable_configB s _ _ rfl h1 h2, uncorrTold]
    · rw [exec_nvmUncorrectableRead, uncorrectable_slot s _ _ rfl h1 h2, uncorrTold]
    · rw [exec_nvmUncorrectableRead, uncorrectable_logA s _ _ rfl h1 h2, uncorrTold]
    · rw [exec_nvmUncorrectableRead, uncorrectable_logB s _ _ rfl h1 h2, uncorrTold]
    · rw [exec_nvmUncorrectableRead, uncorrectable_late s _ _ rfl h1, if_pos h2, uncorrTold]
    · rw [exec_nvmUncorrectableRead, uncorrectable_late s _ _ rfl (Nat.le_trans (by decide) h), if_neg (Nat.not_lt.mpr h), uncorrTold]

end Sys2Proof.Machine
end

section
/-! SPI transactions and the acceptance of packets (spec/14_command_engine.md R357 to R359, R365, R369, R455, R457). -/

namespace Sys2Proof.Machine

/-! ### Transactions (R357 to R359) -/

theorem spiTake_head (s : State) (clocked : Nat) (i : OutItem) (rest : List OutItem) (h : s.eng.outHost = i :: rest) :
    spiTake s clocked = s.modEng fun e => { e with outHost := if (itemBytes i).length ≤ clocked then rest else i :: rest } := by
  simp only [spiTake, h]
  split
  · rfl
  · rw [← h]
    rfl

/-- What a WRITE or a READ sends on MISO changes nothing. -/
theorem spiTail_state (s : State) (b0 : Byte) (rest : List Byte) (h : b0 = 0x5A ∨ b0 = 0xA5) :
    spiTail s (b0 :: rest) = (s, (spiTail s (b0 :: rest)).2) := by
  rcases h with rfl | rfl <;> rfl

section
variable (s : State) (h : spiSilent s = false)
include h

theorem spiTransaction_status : spiTransaction s [0, 0, 0, 0] 0 =
    s.modEng fun e => { e with miso := toBytes (beBytes 4 (spiStatusWord s)), frameErr := false } := by
  rw [spiTransaction_long s s 0 0 0 0 [] 0 [] false h (spiTail_status s) (framingError_good 0 [] (.inl rfl)), List.append_nil]
  exact if_neg Bool.false_ne_true

theorem spiTransaction_write (body : List Byte) : spiTransaction s (0x5A :: 0 :: 0 :: 0 :: body) 0 =
    acceptPacket (s.modEng fun e =>
      { e with miso := toBytes (beBytes 4 (spiStatusWord s) ++ List.replicate body.length 0), frameErr := false }) .host
      (natBytes body) := by
  rw [spiTransaction_long s s _ 0 0 0 body 0 _ false h (spiTail_write s 0 0 0 body) (framingError_good _ body (.inr (.inl rfl)))]
  exact if_neg Bool.false_ne_true

theorem spiTransaction_read (body : List Byte) (i : OutItem) (rest : List OutItem) (hi : s.eng.outHost = i :: rest) :
    spiTransaction s (0xA5 :: 0 :: 0 :: 0 :: body) 0 = s.modEng fun e =>
      { e with miso := toBytes (beBytes 4 (spiStatusWord s) ++ (itemBytes i ++ List.replicate body.length 0).take body.length)
               frameErr := false
               outHost := if (itemBytes i).length ≤ body.length then rest else i :: rest } := by
  rw [spiTransaction_long s s _ 0 0 0 body 0 _ false h (spiTail_read s 0 0 0 body i rest hi)
    (framingError_good _ body (.inr (.inr rfl))), if_neg Bool.false_ne_true]
  exact spiTake_head _ body.length i rest hi

theorem spiTransaction_framing (b0 b1 b2 b3 : Byte) (body : List Byte) (extra : Nat) (hb : b0 = 0x5A ∨ b0 = 0xA5)
    (he : ¬(b1 = 0 ∧ b2 = 0 ∧ b3 = 0) ∨ extra ≠ 0) : spiTransaction s (b0 :: b1 :: b2 :: b3 :: body) extra =
      frameNotice (s.modEng fun e =>
        { e with miso := toBytes (beBytes 4 (spiStatusWord s) ++ (spiTail s (b0 :: b1 :: b2 :: b3 :: body)).2), frameErr := true })
        .host stBadFormat (natBytes (b0 :: b1 :: b2 :: b3 :: body)) true := by
  rw [spiTransaction_long s s b0 b1 b2 b3 body extra _ true h (spiTail_state s b0 _ hb)
    (framingError_bad b0 b1 b2 b3 body extra he), if_pos rfl]

end

/-! ### Acceptance (R365, R455, R457) -/

/-- R386, R388: what the refusal of a packet counts and raises beside its reply. -/
def refusalNoted (s : State) (p : Port) (st : Nat) : State :=
  let s := if st = stAuthFail ∨ st = stAuthReplay then authFailed s p st else s
  if st = stBusy then s.evtBit F.CMD_EVT_BUSY 198 else s

/-- The reply to a refused packet (DEDUCED, log entries 25 and 63). -/
def packetRefused (s : State) (p : Port) (c : Cmd) (st : Nat) : State :=
  ((refusalNoted s p st).addSat (F.CMD_Pp_ACC_REFUSED (portIdx p))).queueItem p
    { mkReply (refusalNoted s p st) c true st (refusalWords noWord 0) with epoch := 0, epochTime := false }

/-- R365: an accepted packet is counted. -/
def packetCounted (s : State) (p : Port) : State := (s.addWrap (F.CMD_Pp_ACC_ACCEPTED (portIdx p))).endCond 69 (portIdx p)

/-- R369, R455, R457: an accepted packet moves the authentication sequence, and its command is admitted. -/
def packetTaken (s : State) (p : Port) (k : Packet) (c : Cmd) : State :=
  (if k.auth then authAccepted (packetCounted s p) p k.seq else packetCounted s p).modEng fun e => { e with cmds := e.cmds ++ [c] }

/-- R365: the checks of a packet in their order, while the engine runs. -/
theorem acceptPacket_up (s : State) (p : Port) (b : List Nat) (h : s.flag F.CMD_STATUS_ENGINE_UP = true) :
    acceptPacket s p b =
      if !packetLengthOk b then refuseNotice s p stBadFormat b
      else if !packetCrcOk b then refuseNotice s p stBadCrc b
      else if !packetFormatOk b then refuseNotice s p stBadFormat b
      else if tagInUse s p (parsePacket b).tag then refuseNotice s p stTagInUse b
      else match acceptRefusal s p (parsePacket b) with
        | some st => packetRefused s p (packetCmd s p (parsePacket b)) st
        | none => packetTaken s p (parsePacket b) (packetCmd s p (parsePacket b)) := by
  rw [acceptPacket, h]
  exact if_neg (by rw [Bool.not_true, Bool.false_and]; decide)

section
variable (s : State) (p : Port) (b : List Nat) (h : s.flag F.CMD_STATUS_ENGINE_UP = true)
include h

theorem acceptPacket_badLength (hl : packetLengthOk b = false) : acceptPacket s p b = refuseNotice s p stBadFormat b := by
  rw [acceptPacket_up s p b h, hl]
  exact if_pos rfl

theorem acceptPacket_badCrc (hl : packetLengthOk b = true) (hc : packetCrcOk b = false) :
    acceptPacket s p b = refuseNotice s p stBadCrc b := by
  simp only [acceptPacket_up s p b h, hl, hc, Bool.not_true, Bool.not_false, Bool.false_eq_true, if_false, if_true]

theorem acceptPacket_badFormat (hl : packetLengthOk b = true) (hc : packetCrcOk b = true) (hf : packetFormatOk b = false) :
    acceptPacket s p b = refuseNotice s p stBadFormat b := by
  simp only [acceptPacket_up s p b h, hl, hc, hf, Bool.not_true, Bool.not_false, Bool.false_eq_true, if_false, if_true]

variable (hl : packetLengthOk b = true) (hc : packetCrcOk b = true) (hf : packetFormatOk b = true)
include hl hc hf

theorem acceptPacket_tagInUse (ht : tagInUse s p (parsePacket b).tag = true) :
    acceptPacket s p b = refuseNotice s p stTagInUse b := by
  simp only [acceptPacket_up s p b h, hl, hc, hf, ht, Bool.not_true, Bool.false_eq_true, if_false, if_true]

variable (ht : tagInUse s p (parsePacket b).tag = false)
include ht

theorem acceptPacket_accepts (hr : acceptRefusal s p (parsePacket b) = none) :
    acceptPacket s p b = packetTaken s p (parsePacket b) (packetCmd s p (parsePacket b)) := by
  simp only [acceptPacket_up s p b h, hl, hc, hf, ht, hr, Bool.not_true, Bool.false_eq_true, if_false]

theorem acceptPacket_refuses (st : Nat) (hr : acceptRefusal s p (parsePacket b) = some st) :
    acceptPacket s p b = packetRefused s p (packetCmd s p (parsePacket b)) st := by
  simp only [acceptPacket_up s p b h, hl, hc, hf, ht, hr, Bool.not_true, Bool.false_eq_true, if_false]

omit h hl hc hf ht in
/-- R386, R388: a refusal of neither kind counts nothing beside its reply. -/
theorem refusalNoted_plain (st : Nat) (h1 : st ≠ stAuthFail) (h2 : st ≠ stAuthReplay) (h3 : st ≠ stBusy) : refusalNoted s p st = s := by
  simp only [refusalNoted, h1, h2, h3, or_self, if_false]

end

/-- Settles O38: the transactions of R357 to R359, by what their first byte asks, and the checks of R365 in their order; the reply to
a packet refused there has epoch 0 (DEDUCED, log entry 63) and the two words of a refusal (DEDUCED, log entry 25). -/
theorem hostPackets : Obligations.HostPackets := by
  refine ⟨⟨?status, ?write, ?read, ?framing⟩, ?accept, exec_spiStatus, exec_spiWrite, exec_spiRead⟩
  case status => exact fun s h => (exec_spiStatus s _ 0).trans (by rw [← spiTransaction_status s h]; rfl)
  case write => exact fun s body h => (exec_spiWrite s _ 0).trans (by rw [← spiTransaction_write s h body]; rfl)
  case read => exact fun s body i rest h hi => (exec_spiRead s _ 0).trans (by rw [← spiTransaction_read s h body i rest hi]; rfl)
  case framing =>
    intro s b0 b1 b2 b3 body extra h hb he
    have he' : ¬(b1 = 0 ∧ b2 = 0 ∧ b3 = 0) ∨ extra.val ≠ 0 := he.imp_right fun hne hv => hne (Fin.ext hv)
    rw [exec_spiWrite, spiTransaction_framing s h b0 b1 b2 b3 body extra hb he']
  case accept =>
    refine fun s p b h => ⟨acceptPacket_badLength s p b h, acceptPacket_badCrc s p b h, acceptPacket_badFormat s p b h,
      fun hl hc hf => ⟨acceptPacket_tagInUse s p b h hl hc hf, fun ht => ⟨fun hr ha => ?_, fun hr ha => ?_,
        fun st hr h1 h2 h3 => ?_⟩⟩⟩
    · rw [acceptPacket_accepts s p b h hl hc hf ht hr, packetTaken, if_neg (Bool.eq_false_iff.mp ha), packetCounted]
    · rw [acceptPacket_accepts s p b h hl hc hf ht hr, packetTaken, if_pos ha, packetCounted]
    · rw [acceptPacket_refuses s p b h hl hc hf ht st hr, packetRefused, refusalNoted_plain s p st h1 h2 h3]

end Sys2Proof.Machine
end
section
/-! Execution, epochs, delivery modes, restarts of the engine and the checks of a command (spec/14_command_engine.md R369 to R382,
spec/15_command_reference.md R389, R391). -/

namespace Sys2Proof.Machine

/-! ### Execution (R369) -/

theorem executeNext_starts (s : State) (c : Cmd) (h : s.flag F.CMD_STATUS_ENGINE_UP = true)
    (hc : s.eng.cmds.find? (mayStart s) = some c) : executeNext s = startCmd s c := by
  simp only [executeNext, h, hc, Bool.not_true, Bool.false_eq_true, if_false]

/-! ### Epochs (R373 to R376, log entry 30) -/

theorem epochDue_time (s : State) (h : epochByTime s = true) :
    (epochDue s = true ↔ s.eng.epochs < (s.tclk - s.eng.epochT0) / 1024) ∧ nextEpoch s = (s.tclk - s.eng.epochT0) / 1024 := by
  simp only [epochDue, nextEpoch, h, if_true, timeEpochs, and_true]
  exact decide_eq_true_iff

theorem epochDue_angle (s : State) (h : epochByTime s = false) :
    (epochDue s = true ↔ s.ang.stamp.toNat / 2 ^ 14 % 2 ^ 32 ≠ s.eng.angLast) ∧
      nextEpoch s = s.ang.stamp.toNat / 2 ^ 14 % 2 ^ 32 := by
  simp only [epochDue, nextEpoch, h, Bool.false_eq_true, if_false, bne_iff_ne, angleEpoch, and_self]

/-- The boundary's number in its register changes no source of boundaries. -/
theorem epochByTime_numbered (s : State) (n : Nat) : epochByTime (s.put F.CMD_EPOCH_NUMBER n) = epochByTime s := by
  have hsrc := State.get_put_other s F.CMD_EPOCH_NUMBER F.CMD_EPOCH_CFG_SRC n (by decide) (by decide)
  have hrun := State.get_put_other s F.CMD_EPOCH_NUMBER F.ANG_STATUS_RUN n (by decide) (by decide)
  simp only [epochByTime, State.angRun, State.flag, hsrc, hrun]

theorem timeEpochs_numbered (s : State) (n : Nat) : timeEpochs (s.put F.CMD_EPOCH_NUMBER n) = timeEpochs s := by
  simp only [timeEpochs, State.put_tclk, State.put_eng]

theorem angleEpoch_numbered (s : State) (n : Nat) : angleEpoch (s.put F.CMD_EPOCH_NUMBER n) = angleEpoch s := by
  simp only [angleEpoch, State.put_ang]

/-- R373, R374: the boundary that is due has its number, and is the last one presented. -/
def epochPresented (s : State) : State :=
  (s.put F.CMD_EPOCH_NUMBER (nextEpoch s)).modEng fun e =>
    { e with epochs := timeEpochs s, angLast := angleEpoch s, byTime := epochByTime s }

theorem epochPresented_cmds (s : State) : (epochPresented s).eng.cmds = s.eng.cmds := by cases s; rfl

/-- R376: the image that the reads of the next epoch see. -/
def imageTaken (s : State) : State :=
  s.modEng fun e => { e with images := (⟨s.get F.CMD_EPOCH_NUMBER, imageRegs s⟩ :: e.images).take 2 }

theorem epochBoundary_due (s : State) (hp : s.rst.phase = .engine ∨ s.rst.phase = .up) (hd : epochDue s = true) :
    epochBoundary s = imageTaken (s.eng.cmds.foldl commitCmd (epochPresented s)) := by
  have hrun : ¬((s.rst.phase ≠ .engine ∧ s.rst.phase ≠ .up) ∨ (!epochDue s) = true) := by
    rw [hd]
    rintro (⟨he, hu⟩ | h)
    · exact hp.elim he hu
    · exact absurd h (by decide)
  rw [← epochPresented_cmds]
  simp only [epochBoundary, if_neg hrun, epochByTime_numbered, timeEpochs_numbered, angleEpoch_numbered, imageTaken, epochPresented]

theorem epochBoundary_early (s : State) (hd : epochDue s = false) : epochBoundary s = s := if_pos (.inr (by rw [hd]; rfl))

/-! ### Delivery modes (R379) -/

theorem modeSwitch_switches (s : State) (p : Port) (h : s.flag (F.CMD_Pp_STATUS_CHANGING (portIdx p)) = true)
    (hc : ∀ c ∈ s.eng.cmds, c.port ≠ p) : modeSwitch s p =
      ((s.put (F.CMD_Pp_STATUS_MODE_ACTIVE (portIdx p)) (s.get (F.CMD_Pp_CFG_MODE (portIdx p)))).put
        (F.CMD_Pp_STATUS_CHANGING (portIdx p)) 0).evtBit F.CMD_EVT_MODE_CHANGED 199 := by
  have hnone : (s.eng.cmds.any fun c => c.port == p) = false :=
    List.any_eq_false.mpr fun c hm => by rw [beq_iff_eq]; exact hc c hm
  simp only [modeSwitch, h, hnone, Bool.not_false, Bool.and_self, if_true]

/-- Settles O39: a start of a command, a boundary that is due and one that is not (when it is due and how it is numbered: DEDUCED,
log entry 30), and the two steps of a change of delivery mode. -/
theorem commandDelivery : Obligations.CommandDelivery := by
  refine ⟨⟨?execute, ?boundary, ?early, ?due, ?write, ?switch⟩, exec_commandExecute, exec_epochBoundary, exec_deliveryModeWrite,
    exec_deliveryModeSwitch⟩
  case execute => exact fun s c h hc => by rw [exec_commandExecute, executeNext_starts s c h hc]
  case boundary => 
    refine fun s hp hd => (exec_epochBoundary s).trans ?_
    rw [epochBoundary_due s hp hd, ← epochPresented_cmds]
    simp only [imageTaken, epochPresented]
  case early => exact fun s hd => by rw [exec_epochBoundary, epochBoundary_early s hd]
  case due => exact fun s => ⟨epochDue_time s, epochDue_angle s⟩
  case write =>
    intro s p target v h
    rw [write_row (modeWritten · (portIdx target)) (exec_deliveryModeWrite s p target v) h (regHook_cmdCfg · target _ _), modeWritten]
  case switch => exact fun s p h hc => by rw [exec_deliveryModeSwitch, modeSwitch_switches s p h hc]

/-! ### Restarts of the engine (R380 to R382, R461) -/

/-- R380: what the start of a restart sets. -/
def restartBegun (s : State) (cause : Nat) : State :=
  (((s.put F.CMD_STATUS_ENGINE_UP 0).put F.CMD_STATUS_RESTARTING 1).addSat F.CMD_CNT_RESTARTS).modEng fun e =>
    { e with restart := some cause, restartPend := false, cmds := e.cmds.map fun c => { c with phase := .abandoned } }

theorem engineRestart_up (s : State) (cause : Nat) (h : s.flag F.CMD_STATUS_ENGINE_UP = true) : engineRestart s cause =
    abortSounding ((restartBegun s cause).forEach (below 64) fun s n => abortTest s n 9 false false) := by
  rw [engineRestart, h]
  exact if_neg (by decide)

theorem lockstepMismatch_up (s : State) (h : s.flag F.CMD_STATUS_ENGINE_UP = true) :
    lockstepMismatch s = engineRestart ((s.addSat F.CMD_CNT_LOCKSTEP).raise 64 0 2 0 0) 1 := if_pos h

theorem engineWatchdog_up (s : State) (h : s.flag F.CMD_STATUS_ENGINE_UP = true) (hd : s.get F.SEC_STATE_DEBUG ≠ 2) :
    engineWatchdog s = engineRestart (s.raiseOnce 65 0 1 0 0) 2 :=
  if_pos (Bool.and_eq_true_iff.mpr ⟨h, bne_iff_ne.mpr hd⟩)

theorem commandedRestart_pending (s : State) (h : s.eng.restartPend = true) : commandedRestart s = engineRestart s 3 := if_pos h

/-- R364: the tags of a port's commands that a restart abandoned. -/
def goneTags (s : State) (p : Port) : List Nat := (s.eng.cmds.filter fun c => c.port == p && c.phase == .abandoned).map (·.tag)

/-- R381: the engine runs again, without the commands abandoned. -/
def engineBack (s : State) : State :=
  (((forceDebugOff ((patchCheck s).modEng fun e =>
    { e with restart := none, cmds := e.cmds.filter fun c => c.phase != .abandoned })).endCond 65 0).put
      F.CMD_STATUS_ENGINE_UP 1).put F.CMD_STATUS_RESTARTING 0

theorem restartComplete_some (s : State) (cause : Nat) (h : s.eng.restart = some cause) : restartComplete s =
    (queueNotice (queueNotice (engineBack s) .host 0xFF01 stEngineRestart
        (word (cause * 2 ^ 24 + (engineBack s).get F.CMD_CNT_RESTARTS) :: tagWords (goneTags s .host))) .ring 0xFF01 stEngineRestart
      (word (cause * 2 ^ 24 + (engineBack s).get F.CMD_CNT_RESTARTS) :: tagWords (goneTags s .ring))).evtBit F.CMD_EVT_RESTART 192 := by
  simp only [restartComplete, h]
  rfl

/-- Settles O40: the three causes, what a restart's start does (RESTARTS counts at the start: DEDUCED, log entry 36; the work of the
blocks runs on, but margining and Sounding: DEDUCED, log entry 58), and its completion. -/
theorem engineRestarts : Obligations.EngineRestarts := by
  refine ⟨⟨?lockstep, ?watchdog, ?commanded, engineRestart_up, ?complete⟩, exec_lockstepMismatch, exec_engineWatchdog,
    exec_engineRestartComplete, exec_commandedRestartStart⟩
  case lockstep => exact fun s h => by rw [exec_lockstepMismatch, lockstepMismatch_up s h]
  case watchdog => exact fun s h hd => by rw [exec_engineWatchdog, engineWatchdog_up s h hd]
  case commanded => exact fun s h => by rw [exec_commandedRestartStart, commandedRestart_pending s h]
  case complete => exact fun s cause h => by rw [exec_engineRestartComplete, restartComplete_some s cause h]; rfl

/-! ### The checks before a command (R389) -/

section
variable (s : State) (c : Cmd)

theorem runCmd_security (h : opSecurity c.opcode (portSecurity s c.port) = false) : runCmd s c = refuse s c stSecurityState := by
  rw [runCmd, h]
  exact if_pos rfl

variable (hs : opSecurity c.opcode (portSecurity s c.port) = true)
include hs

theorem runCmd_param (k : Nat) (h : paramFault c = some k) : runCmd s c = refuse s c stBadParam k := by
  simp only [runCmd, hs, h, Bool.not_true, Bool.false_eq_true, if_false]

variable (hp : paramFault c = none)
include hp

theorem runCmd_mode (h : opMode c.opcode s.mode = false) :
    runCmd s c = refuse s c (if s.mode = mHoldup then stHoldup else stWrongMode) := by
  simp only [runCmd, hs, hp, h, Bool.not_true, Bool.not_false, Bool.false_eq_true, if_false, if_true]

variable (hm : opMode c.opcode s.mode = true)
include hm

theorem runCmd_standby (hd : opDagger c.opcode = true) (ht : 2 ≤ twinRole s) : runCmd s c = refuse s c stTwinStandby := by
  simp only [runCmd, hs, hp, hm, hd, ht, decide_true, Bool.and_self, Bool.not_true, Bool.false_eq_true, if_false, if_true]

theorem runCmd_address (k a : Nat) (hd : opDagger c.opcode = false ∨ twinRole s < 2)
    (h : (namedAddrs c).find? (fun x => !addrOk x.2) = some (k, a)) : runCmd s c = refuse s c stBadAddress k := by
  have hrole : (opDagger c.opcode && decide (2 ≤ twinRole s)) = false := by
    rw [Bool.and_eq_false_iff, decide_eq_false_iff_not, Nat.not_le]
    exact hd
  simp only [runCmd, hs, hp, hm, hrole, h, Bool.not_true, Bool.false_eq_true, if_false]

end

/-! ### Final replies (R370, R386, R391) -/

/-- R370, R386: a final reply in time ends the promise missed fault's condition of its port and class. -/
theorem done_inTime (s : State) (c : Cmd) (status : Nat) (words : List Word) (h : isLate (dropCmd s c) c = false) :
    done s c status words = ((dropCmd s c).queueItem c.port (mkReply (dropCmd s c) c true status words)).endCond 68
      (portIdx c.port + 4 * (opClass c.opcode).getD 0) := by
  have hl : (mkReply (dropCmd s c) c true status words).late = false := h
  simp only [done, pushReply, hl, Bool.false_eq_true, if_false]

theorem dropCmd_gone (s : State) (c d : Cmd) (hd : d ∈ (dropCmd s c).eng.cmds) : ¬(d.port = c.port ∧ d.tag = c.tag) := by
  have hkept : (!(d.port == c.port && d.tag == c.tag)) = true := (List.mem_filter.mp hd).2
  rw [Bool.not_eq_true', Bool.and_eq_false_iff, beq_eq_false_iff_ne, beq_eq_false_iff_ne] at hkept
  rintro ⟨hport, htag⟩
  exact hkept.elim (fun h => h hport) (fun h => h htag)

/-- Settles O42: the checks of R389 in their order, each with its status, and what a final reply does. -/
theorem commandChecks : Obligations.CommandChecks := by
  refine ⟨runCmd_security, fun s c k hs hp => runCmd_param s c hs k hp, fun s c hs hp hm => ⟨fun hh => ?_, fun hh => ?_⟩,
    runCmd_standby, fun s c k a hs hp hm hd h => runCmd_address s c hs hp hm k a hd h, runCmd_passes, done_inTime,
    fun s c => ⟨dropCmd_gone s c, rfl, rfl, rfl⟩, fun _ _ _ _ _ => rfl⟩
  · rw [runCmd_mode s c hs hp hm, if_pos hh]
  · rw [runCmd_mode s c hs hp hm, if_neg hh]

/-! ### The front of the queue (log entry 6) -/

theorem step_front (s : State) (c : Instr) (rest : List Instr) :
    step { s with pending := c :: rest } = exec c { s with pending := rest } := rfl

theorem step_idle (s : State) (h : s.pending = []) : step s = .next (settle s (clockTick s)) := by
  simp only [step, h, run]

/-- Settles O54: a step takes the front of the queue, and with none waiting one ANG edge passes (DESIGN CHOICE, log entry 6). -/
theorem stepFront : Obligations.StepFront := ⟨step_front, step_idle⟩

end Sys2Proof.Machine
end

section
/-! The commands of status, register access, modes and sequencing (spec/15_command_reference.md R392 to R398, R485). -/

namespace Sys2Proof.Machine

/-! ### A row that is served -/

/-- A row is served on a port that is not COHERENT, and runs its own opcode: an effect may be written otherwise where these and the
condition hold. -/
theorem rowDoes_served {row : Port → BitVec 7 → List Word → Instr} {op : Nat} {f g : State → Cmd → State} {cond : State → Cmd → Prop}
    (h : rowDoes row op (fun _ _ => True) f)
    (e : ∀ a c, c.opcode = op → coherent a c.port = false → cond a c → f a c = g a c) : rowDoes row op cond g := by
  intro s p tag params hserved hchecks hcond
  have hport : coherent s p = false := by
    rw [servedNow, Bool.and_eq_true, Bool.not_eq_true'] at hserved
    exact hserved.2
  rw [h s p tag params hserved hchecks trivial, e _ _ rfl (by rw [coherent_admitted]; exact hport) hcond]

/-! ### Status, reads and writes (R392, R393, R485) -/

/-- R376: a command of a BOUNDED port reads the registers as they stand. -/
theorem imageFor_bounded (s : State) (c : Cmd) (h : coherent s c.port = false) : imageFor s c = none :=
  if_neg (Bool.eq_false_iff.mp h)

theorem runStatus_bounded (s : State) (c : Cmd) (h : coherent s c.port = false) : runStatus s c = okReply s c (statusWords s s) := by
  rw [runStatus, imageFor_bounded s c h]

theorem namedAddrs_read (c : Cmd) (h : c.opcode = 0x0010) : (namedAddrs c).map (·.2) = (below c.params.length).map c.p := by
  rw [namedAddrs, h]
  exact List.map_map

theorem namedAddrs_block (c : Cmd) (h : c.opcode = 0x0011) :
    (namedAddrs c).map (·.2) = (below (c.p 1)).map fun k => c.p 0 + 4 * k := by
  rw [namedAddrs, h]
  exact List.map_map

/-- The words of REG_WRITE and REG_WRITE_LIST are pairs of address and value. -/
theorem namedWrites_pairs (s : State) (c : Cmd) (h : c.opcode ≠ 0x0014) :
    namedWrites s c = (below (c.params.length / 2)).map fun k => (2 * k, c.p (2 * k), c.p (2 * k + 1)) := by
  rw [namedWrites]
  split
  next hop => exact absurd hop h
  next => rfl

theorem runWrites_made (s : State) (c : Cmd) (hop : c.opcode ≠ 0x0014) (h : writeFault s c.port (namedWrites s c) = none) :
    runWrites s c =
      okReply ((below (c.params.length / 2)).foldl (fun s k => (regWrite s c.port (c.p (2 * k)) (c.p (2 * k + 1))).1) s) c [] := by
  rw [runWrites, h, namedWrites_pairs s c hop]
  exact congrArg (okReply · c []) List.foldl_map

theorem runModify_made (s : State) (c : Cmd) (h : writeFault s c.port (namedWrites s c) = none) : runModify s c =
    okReply (modifyAll s c (below (c.params.length / 3))).1 c (modifyAll s c (below (c.params.length / 3))).2 := by
  rw [runModify, h]

/-- Settles O43: STATUS and the reads give the registers as they stand; the writes are made in order; a restart and a reset follow
their reply. -/
theorem accessCommands : Obligations.AccessCommands := by
  refine ⟨⟨?status, row_echo, ?colophon, ?read, ?block, ?write, ?writeList, ?modify, row_engineRestart, row_reset⟩,
    exec_status, exec_echo, exec_colophonRead, exec_regRead, exec_regReadBlock, exec_regWrite, exec_regWriteList, exec_regModify,
    exec_engineRestart, exec_reset⟩
  case status => exact rowDoes_served row_status fun a c _ hport _ => runStatus_bounded a c hport
  case colophon => exact rowDoes_of row_colophonRead fun _ _ _ => rfl
  case read => exact rowDoes_served row_regRead fun a c hop _ _ => by rw [runRegRead, namedAddrs_read c hop]
  case block => exact rowDoes_served row_regReadBlock fun a c hop _ _ => by rw [runRegRead, namedAddrs_block c hop]
  case write => exact rowDoes_served row_regWrite fun a c hop _ h => runWrites_made a c (by rw [hop]; decide) h
  case writeList => exact rowDoes_served row_regWriteList fun a c hop _ h => runWrites_made a c (by rw [hop]; decide) h
  case modify => exact rowDoes_of row_regModify runModify_made

/-! ### Modes and Quires (R396 to R398) -/

theorem runModeSet_same (s : State) (c : Cmd) (h : c.p 0 % 8 = s.mode) : runModeSet s c = okReply s c [word s.mode] := by
  rw [runModeSet, h]
  exact if_pos rfl

/-- R397: a change to a mode that no condition refuses, between QUIESCENT and COMMISSION. -/
theorem runModeSet_plain (s : State) (c : Cmd) (h : c.p 0 % 8 ≠ s.mode)
    (hr : modeSetRefusal s (portSecurity s c.port) (c.p 0 % 8) = none) (ht : c.p 0 % 8 ≠ mService) (hm : s.mode ≠ mService) :
    runModeSet s c = okReply (setMode s (c.p 0 % 8)) c [word (c.p 0 % 8)] := by
  simp only [runModeSet, if_neg h, hr, if_neg ht, if_neg hm]

/-- R397: to SERVICE. -/
theorem runModeSet_service (s : State) (c : Cmd) (h : c.p 0 % 8 ≠ s.mode)
    (hr : modeSetRefusal s (portSecurity s c.port) (c.p 0 % 8) = none) (ht : c.p 0 % 8 = mService) :
    runModeSet s c = okReply ((setMode s mService).modSec fun x => { x with autoRet := bitOf (c.p 0) 8 }) c [word mService] := by
  simp only [runModeSet, if_neg h, hr, if_pos ht]
  rw [ht]

/-- R397: from SERVICE, once the work there has ended. -/
theorem runModeSet_fromService (s : State) (c : Cmd) (ht : c.p 0 % 8 = mGuard) (hm : s.mode = mService)
    (hw : workAtAll (abortCals (abortWork s 8 false)) = false) :
    runModeSet s c = okReply (setMode (abortCals (abortWork s 8 false)) mGuard) c [word mGuard] := by
  have hr : modeSetRefusal s (portSecurity s c.port) mGuard = none := by
    rw [modeSetRefusal, hm]
    rfl
  have hne : mGuard ≠ s.mode := by rw [hm]; decide
  simp only [runModeSet, ht, if_neg hne, hr, if_neg (show mGuard ≠ mService by decide), if_pos hm, hw, Bool.false_eq_true, if_false]

theorem modeSetRefusal_toCommission (s : State) (hm : s.mode = mQuiescent) : modeSetRefusal s secUnsealed mCommission = none := by
  rw [modeSetRefusal, hm]
  rfl

theorem modeSetRefusal_toQuiescent (s : State) (hm : s.mode = mCommission) (he : anyEnabled s = false) :
    modeSetRefusal s secUnsealed mQuiescent = none := by
  rw [modeSetRefusal, hm, he]
  rfl

theorem modeSetRefusal_toService (s : State) (sec : Nat) (hm : s.mode = mGuard) (h : sec = secUnsealed ∨ sec = secEscorted) :
    modeSetRefusal s sec mService = none := by
  rw [modeSetRefusal, hm]
  exact if_pos h

theorem runSeqStart_starts (s : State) (c : Cmd)
    (h : (quireList (c.p 0 % 65536)).all (fun q => startReason s q (bitOf (c.p 0) 31) == 0) = true) : runSeqStart s c =
      okReply ((quireList (c.p 0 % 65536)).foldl (if bitOf (c.p 0) 31 then startDown else startUp) (endAuto s 3)) c
        [word (c.p 0 % 65536)] := by
  have hnone : (quireList (c.p 0 % 65536)).filter (fun q => startReason s q (bitOf (c.p 0) 31) != 0) = [] :=
    List.filter_eq_nil_iff.mpr fun q hq => by
      rw [bne_iff_ne, ne_eq, Classical.not_not]
      exact beq_iff_eq.mp (List.all_eq_true.mp h q hq)
  rw [runSeqStart, hnone]

/-- Settles O44: the transitions of R397, each with its condition, SEQ_START with no Quire that refuses, and the resume of a HELD one. -/
theorem modeCommands : Obligations.ModeCommands := by
  refine ⟨⟨?same, ?toCommission, ?toQuiescent, ?toService, ?fromService, ?start, ?resume⟩, exec_modeSet, exec_seqStart, exec_quireResume⟩
  case same => exact rowDoes_of row_modeSet runModeSet_same
  case toCommission =>
    refine rowDoes_of row_modeSet ?_
    rintro a c ⟨hm, ht, hs⟩
    rw [runModeSet_plain a c (by rw [ht, hm]; decide) (by rw [ht, hs]; exact modeSetRefusal_toCommission a hm) (by rw [ht]; decide)
      (by rw [hm]; decide), ht, word]
  case toQuiescent =>
    refine rowDoes_of row_modeSet ?_
    rintro a c ⟨hm, ht, hs, he⟩
    rw [runModeSet_plain a c (by rw [ht, hm]; decide) (by rw [ht, hs]; exact modeSetRefusal_toQuiescent a hm he) (by rw [ht]; decide)
      (by rw [hm]; decide), ht, word]
  case toService =>
    refine rowDoes_of row_modeSet ?_
    rintro a c ⟨hm, ht, hs⟩
    rw [runModeSet_service a c (by rw [ht, hm]; decide) (by rw [ht]; exact modeSetRefusal_toService a _ hm hs) ht, word]
  case fromService =>
    refine rowDoes_of row_modeSet ?_
    rintro a c ⟨hm, ht, hw⟩
    rw [runModeSet_fromService a c ht hm hw, word]
  case start => exact rowDoes_of row_seqStart runSeqStart_starts
  case resume => exact rowDoes_of row_quireResume fun a c h => if_pos h

end Sys2Proof.Machine
end

section
/-! The commands of calibration, NVM, margining, faults, Folios, twins, the ring and security (spec/15_command_reference.md R399 to
R405, spec/17_modes_security_debug.md R450 to R459). -/

namespace Sys2Proof.Machine

/-! ### Calibrations and STORE (R399, R346) -/

/-- R399: a calibration is work of SERVICE. -/
def calBegun (s : State) (c : Cmd) : State := (begin' s c).modMarg fun m => { m with svcWork := true }

section
variable (s : State) (c : Cmd)

theorem runCal_rail (hv : bitOf (c.p 0) 31 = false) (hr : railCalRefusal s (c.p 0 % 64) = none)
    (ht : c.opcode ≠ 0x0201 ∨ railTargetOk (s.get (F.RAILn_CAL_TARGET_VOLTS (c.p 0 % 64))) (railRatio s (c.p 0 % 64)) = true) :
    runCal s c = startRailCal (calBegun s c) (c.p 0 % 64) (c.opcode == 0x0201) := by
  have hok : (c.opcode == 0x0201 &&
      !railTargetOk (s.get (F.RAILn_CAL_TARGET_VOLTS (c.p 0 % 64))) (railRatio s (c.p 0 % 64))) = false := by
    rw [Bool.and_eq_false_iff, beq_eq_false_iff_ne, Bool.not_eq_false']
    exact ht
  simp only [runCal, hv, hr, hok, Bool.false_eq_true, if_false, calBegun]

theorem runCal_pool (hv : bitOf (c.p 0) 31 = true) (hr : poolCalRefusal s (c.p 0 / 2 ^ 20 % 16) = none)
    (ht : c.opcode ≠ 0x0201 ∨ poolTargetOk (s.getS F.POOL_CAL_TARGET_VOLTS) (c.p 0 / 65536 % 4) = true) :
    runCal s c = startPoolCal (calBegun s c) (c.p 0 / 2 ^ 20 % 16) (c.p 0 / 65536 % 4) (c.p 0 / 256 % 32) (c.opcode == 0x0201) := by
  have hok : (c.opcode == 0x0201 && !poolTargetOk (s.getS F.POOL_CAL_TARGET_VOLTS) (c.p 0 / 65536 % 4)) = false := by
    rw [Bool.and_eq_false_iff, beq_eq_false_iff_ne, Bool.not_eq_false']
    exact ht
  simp only [runCal, hv, hr, hok, Bool.false_eq_true, if_false, if_true, calBegun]

theorem runStore_starts (h : s.flag F.NVM_STORE_BUSY = false) :
    runStore s c = startStore (begin' s c) (bitOf (c.p 0) 0) (bitOf (c.p 0) 1) := if_neg (Bool.eq_false_iff.mp h)

/-! ### Images (R400, R468) -/

/-- R400: a chunk of a Config image is taken: a transfer that it replaces has ended, and the copy it is to make is invalid. -/
def imageChunkTaken (bytes : List Nat) (next target : Nat) : State :=
  (setCopy (dropTransfer s c isImageJob isImageCmd) target
    { (vget (dropTransfer s c isImageJob isImageCmd).nvm.copies target) with valid := false }).modNvm fun v =>
      { v with image := some (bytes, next, target) }

theorem runImageWrite_chunk (i : Nat) (bytes : List Nat) (next target : Nat) (ht : storeTarget s false = some i)
    (hj : joinChunk s.nvm.image c i = some (bytes, next, target)) (hl : bitOf (c.p 0) 31 = false) :
    runImageWrite s c = addOp (begin' (imageChunkTaken s c bytes next target) c) (.image none) (chunkPages c) (chunkUnits c 8) := by
  simp only [runImageWrite, ht, hj, hl, Bool.not_false, if_true, imageChunkTaken]

theorem runImageWrite_last (i : Nat) (bytes : List Nat) (next target : Nat) (x : NvmCopy) (ht : storeTarget s false = some i)
    (hj : joinChunk s.nvm.image c i = some (bytes, next, target)) (hl : bitOf (c.p 0) 31 = true) (hx : parseCopy bytes = some x) :
    runImageWrite s c =
      addOp (begin' (imageChunkTaken s c bytes next target) c) (.image (some (target, x))) (chunkPages c) (chunkUnits c 8) := by
  simp only [runImageWrite, ht, hj, hl, hx, Bool.not_true, Bool.false_eq_true, if_false, imageChunkTaken]

variable (bytes : List Nat) (next target : Nat)

theorem runPatchWrite_chunk (hj : joinChunk s.nvm.patchIn c 0 = some (bytes, next, target)) (hl : bitOf (c.p 0) 31 = false) :
    runPatchWrite s c = addOp (begin' ((dropTransfer s c (fun j => j == .patch) isPatchCmd).modNvm fun v =>
      { v with patch := [], patchIn := some (bytes, next, target) }) c) .patch (chunkPages c) (chunkUnits c 4) := by
  simp only [runPatchWrite, hj, hl, Bool.not_false, if_true]

theorem runPatchWrite_last (hj : joinChunk s.nvm.patchIn c 0 = some (bytes, next, target)) (hl : bitOf (c.p 0) 31 = true)
    (hx : patchFormatOk bytes = true) :
    runPatchWrite s c = addOp (begin' ((((dropTransfer s c (fun j => j == .patch) isPatchCmd).modNvm fun v =>
      { v with patch := [], patchIn := some (bytes, next, target) }).modNvm fun v => { v with patch := bytes }).put
        F.CMD_PATCH_STATE 5) c) .patch (chunkPages c) (chunkUnits c 4) := by
  simp only [runPatchWrite, hj, hl, hx, Bool.not_true, Bool.false_eq_true, if_false, if_true]

/-- R468: the fuses are not programmed, none has failed, and no job blows them. -/
theorem runFuseProgram_joins (hv : s.sec.hmValid = false) (hf : s.sec.hmFail = false) (hn : s.sec.job = none)
    (hj : joinChunk s.sec.imageIn c 0 = some (bytes, next, target)) : runFuseProgram s c =
      if !bitOf (c.p 0) 31 then okReply (s.modSec fun x => { x with imageIn := some (bytes, next, target) }) c [word next]
      else if hallmarkOk bytes then (begin' (s.modSec fun x => { x with imageIn := some (bytes, next, target) }) c).modSec fun x =>
        { x with job := some .program }
      else refuse ((s.modSec fun x => { x with imageIn := some (bytes, next, target) }).modSec fun x => { x with imageIn := none }) c
        stImageInvalid := by
  simp only [runFuseProgram, hv, hf, hn, hj, Option.isSome_none, Bool.or_self, Bool.false_eq_true, if_false]

end

/-- Settles O45: a calibration of a rail and of the pool, STORE, and the chunks of the three kinds of image, the last one with its
format good. -/
theorem imageCommands : Obligations.ImageCommands := by
  refine ⟨⟨?zeroRail, ?zeroPool, ?fullRail, ?fullPool, ?store, ?image, ?imageLast, ?patch, ?patchLast, ?fuse, ?fuseLast⟩,
    exec_calZero, exec_calFull, exec_store, exec_imageWrite, exec_patchWrite, exec_fuseProgram⟩
  case zeroRail =>
    refine rowDoes_served row_calZero fun a c hop _ ⟨hv, hr⟩ => ?_
    rw [runCal_rail a c hv hr (.inl (by rw [hop]; decide)), hop, calBegun]
    rfl
  case zeroPool =>
    refine rowDoes_served row_calZero fun a c hop _ ⟨hv, hr⟩ => ?_
    rw [runCal_pool a c hv hr (.inl (by rw [hop]; decide)), hop, calBegun]
    rfl
  case fullRail =>
    refine rowDoes_served row_calFull fun a c hop _ ⟨hv, hr, ht⟩ => ?_
    rw [runCal_rail a c hv hr (.inr ht), hop, calBegun]
    rfl
  case fullPool =>
    refine rowDoes_served row_calFull fun a c hop _ ⟨hv, hr, ht⟩ => ?_
    rw [runCal_pool a c hv hr (.inr ht), hop, calBegun]
    rfl
  case store => exact rowDoes_of row_store runStore_starts
  case image =>
    exact fun i bytes next target => rowDoes_of row_imageWrite fun a c ⟨ht, hj, hl⟩ =>
      runImageWrite_chunk a c i bytes next target ht hj hl
  case imageLast =>
    exact fun i bytes next target x => rowDoes_of row_imageWrite fun a c ⟨ht, hj, hl, hx⟩ =>
      runImageWrite_last a c i bytes next target x ht hj hl hx
  case patch =>
    exact fun bytes next target => rowDoes_of row_patchWrite fun a c ⟨hj, hl⟩ => runPatchWrite_chunk a c bytes next target hj hl
  case patchLast =>
    exact fun bytes next target => rowDoes_of row_patchWrite fun a c ⟨hj, hl, hx⟩ => runPatchWrite_last a c bytes next target hj hl hx
  case fuse =>
    refine fun bytes next target => rowDoes_of row_fuseProgram fun a c ⟨hv, hf, hn, hj, hl⟩ => ?_
    rw [runFuseProgram_joins a c bytes next target hv hf hn hj, hl]
    exact if_pos rfl
  case fuseLast =>
    refine fun bytes next target => rowDoes_of row_fuseProgram fun a c ⟨hv, hf, hn, hj, hl, hx⟩ => ?_
    rw [runFuseProgram_joins a c bytes next target hv hf hn hj, hl, hx]
    rfl

/-! ### Margining, Sounding and faults (R401, R402) -/

section
variable (s : State) (c : Cmd)

theorem runMarginTest_starts (h : marginRefusal s (c.p 0 % 64) (c.p 0 / 256 % 4) = none) :
    runMarginTest s c = startMargin (begin' s c) (c.p 0 % 64) (c.p 0 / 256 % 4) := by simp only [runMarginTest, h]

theorem runSoundingStart_starts (h : soundingRefusal s = none) :
    runSoundingStart s c = startSounding (begin' s c [word (soundingMs s)]) := by simp only [runSoundingStart, h]

theorem runSoundingStop_some (h : s.marg.snd ≠ none) : runSoundingStop s c = okReply (abortSounding s) c [1] :=
  if_pos (Option.isSome_iff_ne_none.mpr h)

theorem runSoundingStop_none (h : s.marg.snd = none) : runSoundingStop s c = okReply s c [0] :=
  if_neg (by rw [h]; decide)

/-- R401: the record of the archive that SOUNDING_READ names. -/
def soundingRecord : List Word :=
  if bitOf (c.p 0) 31 then ((vget s.marg.archive (c.p 0 % 64)).full.take 10).getD (c.p 0 / 65536 % 512) []
  else (vget s.marg.archive (c.p 0 % 64)).trend.getD (c.p 0 / 65536 % 512) []

theorem runSoundingRead_held (h : soundingRecord s c ≠ []) : runSoundingRead s c = okReply s c (soundingRecord s c) :=
  if_neg (mt List.isEmpty_iff.mp h)

theorem runFaultClear_clears (h : portSecurity s c.port ≠ secSealed ∨ c.p 0 / 256 % 8 = 0) :
    runFaultClear s c = okReply (hostClear s (c.p 0)) c [] :=
  if_neg fun ⟨hs, hb⟩ => h.elim (fun h => h hs) hb

/-! ### Folios and the Ledger (R402, R403) -/

theorem runFolioTake_latched (t : State) (k : Nat) (h : latchFolio (folioTrigger s 1) = (t, some k)) :
    runFolioTake s c = okReply t c ([word k] ++ ((vget t.folio.buf k).drop 1).take 2) := by
  rw [runFolioTake, h]

/-- R328: the target that FOLIO_ARM arms. -/
def folioTargetArmed : State := folioArm ((s.setReg R.FOLIO_AT_HI (c.p 0)).setReg R.FOLIO_AT_LO (c.p 1))

theorem runFolioArm_arms (h : s.flag F.FOLIO_STATUS_ARMED = false) : runFolioArm s c = okReply (folioTargetArmed s c) c
    [if (folioTargetArmed s c).angRun && stampReached (folioTargetArmed s c).ang.stamp (stampOf (c.p 0) (c.p 1)) then 1 else 0] := by
  rw [runFolioArm, if_neg (Bool.eq_false_iff.mp h)]
  refine congrArg (fun w => okReply (folioTargetArmed s c) c [w]) ?_
  exact apply_ite word _ 1 0

theorem runLedgerRead_held (slot : Nat) (words : List Word)
    (hs : slot = if bitOf (c.p 0) 31 then s.get F.LDG_STATUS_LAST_SLOT else c.p 0 % 1024)
    (h : s.nvm.slots.find? (fun x => x.1 == slot) = some (slot, words)) : runLedgerRead s c = okReply s c (word slot :: words) := by
  simp only [runLedgerRead, ← hs, h]

/-! ### Twins and the ring (R404) -/

theorem runSwitchBack_ok (t : State) (h : switchBack s (c.p 0 % 65536) = (t, stOk)) : runSwitchBack s c =
    t.modEng fun e => { e with cmds := e.cmds.map fun d => if sameCmd c d then { d with phase := .running } else d } := by
  rw [runSwitchBack, h]
  exact if_pos rfl

theorem runDiscover_starts (hm : isMaster s = true) (h : s.eng.cmds.any (fun d => d.opcode == 0x0501 && d.phase == .running) = false) :
    runDiscover s c = startDiscovery (begin' s c) := by
  simp only [runDiscover, hm, h, Bool.not_true, Bool.false_eq_true, if_false]

theorem runRingFolio_ok (t : State) (x : Nat) (hm : isMaster s = true)
    (h : ringFolio s (c.p 0 % 65536) (stampOf (c.p 1) (c.p 2)) = (t, stOk, x)) : runRingFolio s c = okReply t c [word x] := by
  simp only [runRingFolio, hm, h, Bool.not_true, Bool.false_eq_true, if_false, if_true]

end

/-- Settles O46: the work that each opcode starts or ends, and the words of its reply. -/
theorem workCommands : Obligations.WorkCommands := by
  refine ⟨⟨?margin, ?abort, ?noAbort, ?sound, ?stop, ?noStop, ?trend, ?full, ?clear, ?take, ?arm, ?read, row_folioRelease, ?ledger,
      ?back, ?discover, ?ring⟩,
    exec_marginTest, exec_marginAbort, exec_soundingStart, exec_soundingStop, exec_soundingRead, exec_faultClear, exec_folioTake,
    exec_folioArm, exec_folioRead, exec_folioRelease, exec_ledgerRead, exec_switchBack, exec_ringDiscover, exec_ringFolio⟩
  case margin => exact rowDoes_of row_marginTest runMarginTest_starts
  case abort => exact rowDoes_of row_marginAbort fun a c h => if_pos h
  case noAbort => exact rowDoes_of row_marginAbort fun a c h => if_neg (Bool.eq_false_iff.mp h)
  case sound => exact rowDoes_of row_soundingStart runSoundingStart_starts
  case stop => exact rowDoes_of row_soundingStop runSoundingStop_some
  case noStop => exact rowDoes_of row_soundingStop runSoundingStop_none
  case trend =>
    refine rowDoes_of row_soundingRead fun a c ⟨hv, h⟩ => ?_
    have hr : soundingRecord a c = (vget a.marg.archive (c.p 0 % 64)).trend.getD (c.p 0 / 65536 % 512) [] :=
      if_neg (Bool.eq_false_iff.mp hv)
    rw [runSoundingRead_held a c (by rw [hr]; exact h), hr]
  case full =>
    refine rowDoes_of row_soundingRead fun a c ⟨hv, h⟩ => ?_
    have hr : soundingRecord a c = ((vget a.marg.archive (c.p 0 % 64)).full.take 10).getD (c.p 0 / 65536 % 512) [] := if_pos hv
    rw [runSoundingRead_held a c (by rw [hr]; exact h), hr]
  case clear => exact rowDoes_of row_faultClear runFaultClear_clears
  case take => exact fun t k => rowDoes_of row_folioTake fun a c h => runFolioTake_latched a c t k h
  case arm => exact rowDoes_of row_folioArm runFolioArm_arms
  case read => exact rowDoes_of row_folioRead fun _ _ _ => rfl
  case ledger =>
    exact fun slot words => rowDoes_of row_ledgerRead fun a c ⟨hs, h⟩ => runLedgerRead_held a c slot words hs h
  case back => exact fun t => rowDoes_of row_switchBack fun a c h => runSwitchBack_ok a c t h
  case discover => exact rowDoes_of row_ringDiscover fun a c ⟨hm, h⟩ => runDiscover_starts a c hm h
  case ring => exact fun t x => rowDoes_of row_ringFolio fun a c ⟨hm, h⟩ => runRingFolio_ok a c t x hm h

/-! ### Security (R450, R451, R456 to R459) -/

section
variable (s : State) (c : Cmd)

theorem runEscortBegin_open (h : s.get F.SEC_ESC_STATUS_LOCKOUT = 0) : runEscortBegin s c =
    okReply (((s.drawn 16).put F.SEC_STATE_CHALLENGE 1).modSec fun x => { x with chal := some (c.port, (randomBytes s 16).2) }) c
      (wordsOf 4 (randomBytes s 16).2) := if_neg (Classical.not_not.mpr h)

theorem dropChallenge_key : (dropChallenge s).sec.key = s.sec.key := by cases s; rfl

/-- R457: the session that a right answer opens. -/
def sessionKeyed (ch : List Nat) : State :=
  (((dropChallenge s).modSec fun x => { x with ks := cmac x.key (2 :: ch), ksSeq := 0 }).put F.SEC_STATE_SECURITY secEscorted).put
    F.SEC_STATE_ESC_PORT (portIdx c.port)

def sessionOpened (ch : List Nat) : State :=
  secEvent ((((((sessionKeyed s c ch).put F.SEC_ESC_STATUS_REMAIN (escTimeout (sessionKeyed s c ch))).put
    F.SEC_ESC_STATUS_FAILS 0).endCond 72 0).endCond 72 1).put F.SEC_ESC_STATUS_LOCKOUT 0) F.SEC_EVT_ESC_OPEN 5

/-- R458: a wrong answer is counted and told, and begins a lockout. -/
def proofFailed : State :=
  ((dropChallenge s).addSat F.SEC_ESC_STATUS_FAILS).raise 72 0 0 (portIdx c.port) (portIdx c.port)

section
variable (ch : List Nat) (hc : s.sec.chal = some (c.port, ch))
include hc

theorem runEscortProve_opens (hk : cmac s.sec.key (1 :: ch) = c.params.flatMap fun w => beBytes 4 w.toNat) :
    runEscortProve s c = okReply (sessionOpened s c ch) c [] := by
  simp only [runEscortProve, hc, dropChallenge_key, ne_eq, not_true_eq_false, if_false, if_pos hk, sessionOpened, sessionKeyed]

theorem runEscortProve_fails (hk : cmac s.sec.key (1 :: ch) ≠ c.params.flatMap fun w => beBytes 4 w.toNat) :
    runEscortProve s c = refuse (secEvent ((proofFailed s c).put F.SEC_ESC_STATUS_LOCKOUT
      (lockoutOf ((proofFailed s c).get F.SEC_ESC_STATUS_FAILS))) F.SEC_EVT_ESC_FAIL 8) c stEscortFail := by
  simp only [runEscortProve, hc, dropChallenge_key, ne_eq, not_true_eq_false, if_false, if_neg hk, proofFailed]

end

theorem runEscortProve_none (h : ∀ ch, s.sec.chal ≠ some (c.port, ch)) : runEscortProve s c = refuse s c stNoChallenge := by
  rw [runEscortProve]
  split
  next => rfl
  next p ch hp => exact if_pos fun he => h ch (by rw [hp, he])

theorem sealRefusal_none (he : anyEnabled s = false) (hv : s.flag F.HM_STATUS_VALID = true) (hp : s.flag F.HM_STATUS_PENDING = false)
    (hd : s.get F.SEC_STATE_DEBUG = 0) (hf : factoryTest s = false) (hj : s.sec.job = none) : sealRefusal s = none := by
  simp only [sealRefusal, he, hv, hp, hd, hf, hj, Option.isSome_none, Bool.not_true, Bool.or_self, Bool.false_eq_true, ne_eq,
    not_true_eq_false, if_false]

theorem runSeal_starts (h : sealRefusal s = none) : runSeal s c = (begin' s c).modSec fun x => { x with job := some .seal } := by
  rw [runSeal, h]

theorem runRetire_starts (hd : s.get F.SEC_STATE_DEBUG = 0) (hj : s.sec.job = none) :
    runRetire s c = (begin' s c).modSec fun x => { x with job := some .retire } := by
  rw [runRetire, if_neg (Classical.not_not.mpr hd), hj]
  exact if_neg (by decide)

theorem runDebugSet_sets (hh : s.mode ≠ mHoldup ∨ c.p 0 % 4 = 0)
    (hk : c.p 0 % 4 ≤ s.get F.SEC_STATE_DEBUG ∨ portSecurity s c.port = secUnsealed ∨ debugKeyOk s c = true)
    (ht : c.p 0 % 4 ≠ 2 ∨ twinRole s ≠ 1) : runDebugSet s c = setDebug (okReply s c []) (c.p 0 % 4) := by
  have h1 : ¬(s.mode = mHoldup ∧ c.p 0 % 4 ≠ 0) := fun ⟨hm, hd⟩ => hh.elim (fun h => h hm) hd
  have h2 : ¬(s.get F.SEC_STATE_DEBUG < c.p 0 % 4 ∧ portSecurity s c.port ≠ secUnsealed ∧ (!debugKeyOk s c) = true) := by
    rintro ⟨hlt, hs, hkey⟩
    rcases hk with hk | hk | hk
    · exact Nat.not_lt.mpr hk hlt
    · exact hs hk
    · rw [hk] at hkey
      exact absurd hkey (by decide)
  have h3 : ¬(c.p 0 % 4 = 2 ∧ twinRole s = 1) := fun ⟨hd, hr⟩ => ht.elim (fun h => h hd) (fun h => h hr)
  simp only [runDebugSet, if_neg h1, if_neg h2, if_neg h3]

end

/-- Settles O47: the challenge, the three answers to a proof, the end of a session, the seal, the retirement and the debug levels,
each under the conditions that its rule names. -/
theorem securityCommands : Obligations.SecurityCommands := by
  refine ⟨⟨?begin, ?opens, ?fails, ?none, ?ends, ?sealing, ?retire, ?debug⟩,
    exec_escortBegin, exec_escortProve, exec_escortEnd, exec_sealDevice, exec_retire, exec_debugSet⟩
  case begin => exact rowDoes_of row_escortBegin runEscortBegin_open
  case opens => exact fun ch => rowDoes_of row_escortProve fun a c ⟨hc, hk⟩ => runEscortProve_opens a c ch hc hk
  case fails => exact fun ch => rowDoes_of row_escortProve fun a c ⟨hc, hk⟩ => runEscortProve_fails a c ch hc hk
  case none => exact rowDoes_of row_escortProve runEscortProve_none
  case ends => exact rowDoes_of row_escortEnd fun _ _ _ => rfl
  case sealing =>
    exact rowDoes_of row_sealDevice fun a c ⟨he, hv, hp, hd, hf, hj⟩ => runSeal_starts a c (sealRefusal_none a he hv hp hd hf hj)
  case retire => exact rowDoes_of row_retire fun a c ⟨hd, hj⟩ => runRetire_starts a c hd hj
  case debug => exact rowDoes_of row_debugSet fun a c ⟨hh, hk, ht⟩ => runDebugSet_sets a c hh hk ht

end Sys2Proof.Machine
end

section
/-! The Hexip ring of one node: its ports, its angle and its traffic (spec/16_hexip_ring.md R410 to R429, R434 to R441). -/

namespace Sys2Proof.Machine

/-! ### Ports (R410, R434 to R436) -/

theorem portUp_rises (s : State) (p : Nat) (hl : s.flag F.CLK_STATUS_SERDES_LOCK = true) (hw : portWorn s p = false)
    (hu : s.flag (upField p) = false) (hp : s.rst.phase ≠ .por) (hb : s.ring.loop.getLsbD p = false) :
    portUp s p = folioAgain (syncTxdis ((ringEvt (s.put (upField p) 1) F.RING_EVT_LINK_UP 0).endCond 80 p)) := by
  simp only [portUp, hl, hw, hu, hb, beq_eq_false_iff_ne.mpr hp, Bool.not_true, Bool.or_self, Bool.false_eq_true, if_false]

/-- R410: a port that goes down starts its loopback. -/
def portFallen (s : State) (p : Nat) : State :=
  (ringEvt (s.put (upField p) 0) F.RING_EVT_LINK_DOWN 1).modRing fun r => { r with loop := r.loop ||| (1#3 <<< p) }

section
variable (s : State) (p : Nat) (h : s.flag (upField p) = true)
include h

theorem portDown_side (i : Nat) (hi : sideOfPort (portFallen s p) p = some i) :
    portDown s p = syncTxdis (abortDiscovery (wrapSide ((portFallen s p).raise 80 p 1 p 0) i) 1) := by
  rw [portFallen] at hi
  simp only [portDown, h, hi, Bool.not_true, Bool.false_eq_true, if_false, portFallen]

theorem portDown_noSide (hi : sideOfPort (portFallen s p) p = none) : portDown s p = portFallen s p := by
  rw [portFallen] at hi
  simp only [portDown, h, hi, Bool.not_true, Bool.false_eq_true, if_false, portFallen]

end

/-- R410: a loopback has ended. -/
def loopEnded (s : State) (p : Nat) : State := s.modRing fun r => { r with loop := r.loop &&& ~~~(1#3 <<< p) }

/-- R436: EAST has failed its loopback. -/
def eastWorn (s : State) : State :=
  (((loopEnded s 0).modSpare fun t => { t with wornPorts := t.wornPorts ||| (1#3 <<< 0) }).put F.RING_STATUS_E_WORN 1).raise 81 0 0 0 0

theorem loopbackDone_passes (s : State) (p : Nat) (h : s.ring.loop.getLsbD p = true) : loopbackDone s p true = loopEnded s p := by
  simp only [loopbackDone, h, Bool.not_true, Bool.false_eq_true, if_false, if_true, loopEnded]

theorem loopbackDone_eastLost (s : State) (h : s.ring.loop.getLsbD 0 = true) (hs : (eastWorn s).get F.RING_CFG_SPARE_SIDE ≠ 1) :
    loopbackDone s 0 false = mapChanged ((eastWorn s).raiseOnce 82 0 1 0 0) := by
  have hspare : ¬((eastWorn s).get F.RING_CFG_SPARE_SIDE = 0 + 1 ∧ spareState (eastWorn s) = 0 ∧
      (eastWorn s).flag F.RING_STATUS_S_UP = true) := fun h => hs h.1
  rw [eastWorn, loopEnded] at hspare
  simp only [loopbackDone, h, Bool.not_true, Bool.false_eq_true, if_false, if_true, if_neg (show (0 : Nat) ≠ 2 by decide), if_neg hspare,
    eastWorn, loopEnded]

theorem wrapEnd_unwraps (s : State) (p i : Nat) (hi : sideOfPort s p = some i) (hu : sideUp s i = true)
    (hs : s.flag F.RING_STATUS_HU_SINGLE = false) (hw : wrapped s i = true)
    (hm : isMaster (ringEvt (s.put (wrapField i) 0) F.RING_EVT_UNWRAP 3) = false) :
    wrapEnd s p = ringEvt (s.put (wrapField i) 0) F.RING_EVT_UNWRAP 3 := by
  simp only [wrapEnd, hi, hu, hs, hw, hm, Bool.not_true, Bool.or_self, Bool.false_and, Bool.false_eq_true, if_false, if_true]

/-! ### Cells that no other row takes (R415, R416) -/

theorem codeErrors_none (s : State) (p : Nat) : codeErrors s p 0 = s := if_pos rfl

theorem cellForward_passed (s : State) (port : RingPort) (cell : RingCell) (u : State)
    (h : receiveCell s port cell cell.kind.toNat = (u, false)) : cellForward s port cell true = u := by
  simp only [cellForward, h, Bool.not_false, if_true]

theorem cellForward_event (s : State) (port : RingPort) (cell : RingCell) (u : State)
    (h : receiveCell s port cell cell.kind.toNat = (u, true)) (hk : cell.kind = 5#4) (hm : isMaster u = true) :
    cellForward s port cell true = u.addWrap F.RING_MRX_CNT_EVENT := by
  have hn : cell.kind.toNat = 5 := by rw [hk]; rfl
  rw [hn] at h
  simp only [cellForward, hn, h, hm, Bool.not_true, Bool.false_eq_true, if_false, if_true]
  rw [if_neg (by decide)]

/-- A bad cell at its addressee ends there, and counts (DEDUCED, log entry 113). -/
theorem cellForward_bad (s : State) (port : RingPort) (cell : RingCell) (i : Nat) (hi : sideOfPort s (portNum port) = some i)
    (hu : sideUp s i = true) (hw : wrapped s i = false) (hd : cell.dest.toNat = ringAddr s) :
    cellForward s port cell false = crcError s (portNum port) := by
  simp only [cellForward, hi, hu, hw, hd, beq_self_eq_true, Bool.or_true, Bool.not_true, Bool.or_self, Bool.false_eq_true, if_false,
    if_true]

/-- Settles O34: a port's rise and fall, its loopback, the end of a wrap, and the cells forwarded, taken or bad (one that is bad at its
addressee counts: DEDUCED, log entry 113). -/
theorem ringPorts : Obligations.RingPorts := by
  refine ⟨⟨?up, ?down, ?loopback, ?spare, ?wrap, ?passed, ?event, ?bad⟩, exec_ringPortUp, exec_ringPortDown, exec_portLoopbackDone,
    exec_sparePortDailyLoopback, exec_wrapEnd, exec_ringCellForward⟩
  case up => exact fun s port hl hw hu hp hb => by rw [exec_ringPortUp, portUp_rises s _ hl hw hu hp hb]
  case down =>
    refine fun s port h => ⟨fun i hi => ?_, fun hi => ?_⟩
    · rw [exec_ringPortDown, portDown_side s _ h i hi, portFallen]
    · rw [exec_ringPortDown, portDown_noSide s _ h hi, portFallen]
  case loopback =>
    refine fun s port h => ⟨?_, ?_⟩
    · rw [exec_portLoopbackDone, loopbackDone_passes s _ h, loopEnded]
    · rintro rfl hs
      rw [exec_portLoopbackDone]
      exact congrArg (fun u => Host.Outcome.next (settle s u)) (loopbackDone_eastLost s h hs)
  case spare => exact fun s h => by rw [exec_sparePortDailyLoopback, spareLoopback, if_pos h]
  case wrap => exact fun s port i hi hu hs hw hm => by rw [exec_wrapEnd, wrapEnd_unwraps s _ i hi hu hs hw hm]
  case passed => exact fun s port cell u h => by rw [exec_ringCellForward, codeErrors_none, cellForward_passed s port cell u h]
  case event =>
    exact fun s port cell u h hk hm => by rw [exec_ringCellForward, codeErrors_none, cellForward_event s port cell u h hk hm]
  case bad =>
    exact fun s port cell i hi hu hw hd => by rw [exec_ringCellForward, codeErrors_none, cellForward_bad s port cell i hi hu hw hd]

/-! ### The delays of the links (R417) -/

/-- R417: what an echo request changes at one side. -/
def echoSide (s : State) (i : Nat) : State :=
  if sideUp s i then (sendLink (s.unstated 24).1 i (.echoReq (s.unstated 24).2)).modSide i fun r => { r with token := some (s.unstated 24).2 }
  else s

theorem echoSend_eq (s : State) : echoSend s = echoSide (echoSide s 0) 1 := rfl

theorem echoSide_down (s : State) (i : Nat) (h : sideUp s i = false) : echoSide s i = s := if_neg (Bool.eq_false_iff.mp h)

theorem echoSide_up (s : State) (i : Nat) (u : State) (t : Nat) (h : sideUp s i = true) (hu : s.unstated 24 = (u, t)) :
    echoSide s i = (sendLink u i (.echoReq t)).modSide i fun r => { r with token := some t } := by
  rw [echoSide, if_pos h, hu]

theorem echoAnswer_up (s : State) (p token turn i : Nat) (hi : sideOfPort s p = some i) (hu : sideUp s i = true) :
    echoAnswer s p token turn = sendLink s i (.echoRep (token % 256) turn) := by
  simp only [echoAnswer, hi, hu, if_true]

/-- R417: a measurement joins the last of its side. -/
def delayMeasured (s : State) (i turn trip : Nat) : State :=
  s.modSide i fun r => { r with token := none, delays := (measured s i turn trip :: r.delays).take 16 }

theorem echoReply_answered (s : State) (p low turn trip i t : Nat) (hi : sideOfPort s p = some i) (ht : (rside s i).token = some t)
    (hlow : t % 256 = low % 256) (w : State) (d : Int)
    (hd : (delayMeasured s i turn trip).approx ((rside (delayMeasured s i turn trip) i).delays.foldl (· + ·) 0)
      (2 * 3072 * (rside (delayMeasured s i turn trip) i).delays.length) = (w, d)) :
    echoReply s p low turn trip = w.put (if i = 0 then F.RING_LINK_E_DELAY else F.RING_LINK_W_DELAY) d.toNat := by
  rw [delayMeasured] at hd
  simp only [echoReply, hi, ht, hlow, ne_eq, not_true_eq_false, if_false, hd]

/-! ### Marks and ANGLE cells that a master sends (R420) -/

theorem markSend_index (s : State) (elapsed : Nat) (hm : isMaster s = true) (hr : s.angRun = true)
    (hx : angleOf s.ang.stamp / 2 ^ 16 ≠ 0) : markSend s elapsed =
      (sendOwn (sendOwn s 0 (.mark (angleOf s.ang.stamp / 2 ^ 16) elapsed)) 1 (.mark (angleOf s.ang.stamp / 2 ^ 16) elapsed)).forEach
        (below 4) releaseDue := by
  simp only [markSend, hm, hr, if_neg hx, Bool.and_self, if_true]

theorem angleIdleSend_idle (s : State) (hm : isMaster s = true) (hr : s.angRun = false) :
    angleIdleSend s = originateBoth s 0xFFFF 2 0 (angleBytes s) := by
  simp only [angleIdleSend, hm, hr, Bool.not_false, Bool.and_self, if_true]

/-! ### Marks and ANGLE cells that arrive (R420 to R423) -/

section
variable (s : State) (i : Nat)

section
variable (p : Nat) (hi : sideOfPort s p = some i) (hu : sideUp s i = true) (hw : wrapped s i = false) (idx elapsed residence spacing : Nat)
  (turned : Bool)

include hu hw in
/-- A mark arrives on a side that is up and does not wrap. -/
theorem markHeard : ¬(!sideUp s i || wrapped s i) = true := by
  rw [hu, hw]
  decide

include hi hu hw

theorem angleMark_master (hm : isMaster s = true) (u : State) (ps : Int) (hps : s.approx (elapsed * 78125) 3072 = (u, ps)) :
    angleMark s p idx elapsed residence spacing turned =
      (if turned then abortDiscovery (u.putB F.RING_MSTATUS_WRAPPED turned) 1 else u.putB F.RING_MSTATUS_WRAPPED turned).put
        (if (i == 1) != turned then F.RING_LOOP_E_LOOP else F.RING_LOOP_W_LOOP) (min 0xFFFFFFFF ps.toNat) := by
  rw [angleMark]
  split
  next hn => exact absurd (hi.symm.trans hn) nofun
  next j hj =>
    obtain rfl : i = j := Option.some.inj (hi.symm.trans hj)
    rw [if_neg (markHeard s i hu hw), if_pos hm, hps]

theorem angleMark_otherSource (hm : isMaster s = false) (u : State) (units : Nat) (hl : linkUnits (masterSeen s) i = (u, units))
    (hs : (forwardOn u (1 - i) (.mark idx (elapsed + units + residence))).get F.ANG_CFG_SRC ≠ 2) :
    angleMark s p idx elapsed residence spacing turned = forwardOn u (1 - i) (.mark idx (elapsed + units + residence)) := by
  rw [angleMark]
  split
  next hn => exact absurd (hi.symm.trans hn) nofun
  next j hj =>
    obtain rfl : i = j := Option.some.inj (hi.symm.trans hj)
    rw [if_neg (markHeard s i hu hw), if_neg (Bool.eq_false_iff.mp hm)]
    simp only [hl, if_pos hs]

end

theorem markSwitch_switches (hs : s.get F.ANG_CFG_SRC = 2) (hm : isMaster s = false) (ho : s.flag F.RING_STATUS_MARK_OTHER = false) :
    markSwitch s = ringEvt ((s.put F.RING_STATUS_MARK_OTHER 1).modRing fun r => { r with homeRun := 0 }) F.RING_EVT_MARK_PATH 8 := by
  simp only [markSwitch, hs, hm, ho, beq_self_eq_true, Bool.not_false, Bool.and_self, if_true]

section
variable (port : RingPort) (cell : RingCell) (age : Nat) (hi : sideOfPort s (portNum port) = some i) (hu : sideUp s i = true)
  (hw : wrapped s i = false)
include hi hu hw

theorem angleArrives_took (hm : isMaster s = false ∨ payNat cell 12 4 = s.get F.RING_MID_ID) (u : State)
    (hc : receiveCell s port cell 2 = (u, true)) : angleArrives s port cell age = angleCell u cell age := by
  have hown : (isMaster s && payNat cell 12 4 != s.get F.RING_MID_ID) = false := by
    rw [Bool.and_eq_false_iff, bne_eq_false_iff_eq]
    exact hm
  simp only [angleArrives, hi, hu, hw, hown, hc, Bool.not_true, Bool.or_self, Bool.false_eq_true, if_false, if_true]

theorem angleArrives_foreign (hm : isMaster s = true) (hid : payNat cell 12 4 ≠ s.get F.RING_MID_ID) :
    angleArrives s port cell age = foreignMaster s i { cell with kind := 2 } (payNat cell 12 4) := by
  simp only [angleArrives, hi, hu, hw, hm, bne_iff_ne.mpr hid, Bool.not_true, Bool.or_self, Bool.and_self, Bool.false_eq_true, if_false,
    if_true]

end

theorem angleCell_master (cell : RingCell) (age : Nat) (h : isMaster s = true) : angleCell s cell age = s := if_pos h

/-- R421: a cell of a master whose stamp does not run tells its holdover alone. -/
theorem angleCell_stopped (cell : RingCell) (age : Nat) (hm : isMaster s = false) (hb : bitOf (payNat cell 10 1) 2 = false) :
    angleCell s cell age = s.putB F.RING_STATUS_MASTER_HOLD (bitOf (payNat cell 10 1) 0) := by
  simp only [angleCell, hm, hb, Bool.not_false, Bool.true_or, Bool.false_eq_true, if_false, if_true]

end

theorem syncAligned_ang (s : State) : (syncAligned s).ang = s.ang := by
  rw [syncAligned]
  split
  · split
    · rfl
    · rw [ringEvt, State.evtBit_ang, State.put_ang]
  · rw [State.put_ang]

theorem syncInc_ang (s : State) : (syncInc s).ang = s.ang := State.put_ang _ _ _

/-- R421: the error of the node's stamp against an ANGLE cell's. -/
def cellError (s : State) (cell : RingCell) (age : Nat) : Int :=
  toSigned 48 (ofSigned 48 ((s.ang.stamp.toNat : Int) -
    ((BitVec.ofNat 48 (((payStamp cell 0).toNat * 2 ^ 22 + age * s.get F.ANG_INC_INC) / 2 ^ 22)).toNat : Int)))

/-- R421: this cell is the first one after an acquisition. -/
def firstCell (s : State) : Bool := (s.ring.needSet || !s.angRun) && !s.flag F.ANG_STATUS_ACQUIRE

def firstTaken (s : State) : State := s.modRing fun r => { r with needSet := r.needSet && !firstCell s }

/-- R22: the error that the first cell finds a locked node ahead by is slewed out whole. -/
def aheadSlewed (s : State) (err : Int) : State :=
  if firstCell s && (firstTaken s).locked then
    syncPhaseOk (syncInc ((firstTaken s).modAng fun a => { a with phaseErr := err * 2 ^ 22 }))
  else firstTaken s

theorem aheadSlewed_stamp (s : State) (err : Int) : (aheadSlewed s err).ang.stamp = s.ang.stamp := by
  rw [aheadSlewed]
  split
  · rw [syncPhaseOk_ang, syncInc_ang]
    rfl
  · rfl

/-- The master's holdover as the node shows it. -/
def masterHoldTold (s : State) (cell : RingCell) : State := s.putB F.RING_STATUS_MASTER_HOLD (bitOf (payNat cell 10 1) 0)

theorem masterHoldTold_angRun (s : State) (cell : RingCell) : (masterHoldTold s cell).angRun = s.angRun :=
  State.flag_put_of_ne s F.RING_STATUS_MASTER_HOLD F.ANG_STATUS_RUN _ (by decide)

theorem masterHoldTold_error (s : State) (cell c : RingCell) (age : Nat) : cellError (masterHoldTold s cell) c age = cellError s c age := by
  have hinc := State.get_put_other s F.RING_STATUS_MASTER_HOLD F.ANG_INC_INC (if bitOf (payNat cell 10 1) 0 then 1 else 0) (by decide)
    (by decide)
  simp only [cellError, masterHoldTold, State.putB, hinc, State.put_ang]

theorem angleCell_slews (s : State) (cell : RingCell) (age : Nat) (hm : isMaster s = false)
    (hb : ¬(!bitOf (payNat cell 10 1) 2 || decide ((masterHoldTold s cell).get F.ANG_CFG_SRC ≠ 2)) = true)
    (hr : (masterHoldTold s cell).angRun = true) (he : 0 ≤ cellError (masterHoldTold s cell) cell age) :
    angleCell s cell age = syncAligned ((aheadSlewed (masterHoldTold s cell) (cellError (masterHoldTold s cell) cell age)).putS
      F.RING_ANG_ERR_ERR (clampInt (-524288) 524287 (cellError (masterHoldTold s cell) cell age))) := by
  have hset : ¬((firstCell (masterHoldTold s cell) &&
      (decide (cellError (masterHoldTold s cell) cell age < 0) || !(masterHoldTold s cell).angRun)) ||
      ((masterHoldTold s cell).angRun && decide (cellError (masterHoldTold s cell) cell age < -65536))) = true := by
    rw [decide_eq_false (Int.not_lt.mpr he), decide_eq_false (by omega), hr, Bool.not_true, Bool.or_self, Bool.and_false, Bool.and_false]
    decide
  rw [masterHoldTold] at hb
  simp only [angleCell, hm, Bool.false_eq_true, if_false, if_neg hb]
  exact if_neg hset

/-- R22: a node ahead of the master is never set back. -/
theorem angleCell_ahead (s : State) (cell : RingCell) (age : Nat) (hm : isMaster s = false) (hr : s.angRun = true)
    (he : 0 ≤ cellError s cell age) : (angleCell s cell age).ang.stamp = s.ang.stamp := by
  by_cases hb : (!bitOf (payNat cell 10 1) 2 || decide ((masterHoldTold s cell).get F.ANG_CFG_SRC ≠ 2)) = true
  · have htold : angleCell s cell age = masterHoldTold s cell := by
      rw [masterHoldTold] at hb
      simp only [angleCell, hm, Bool.false_eq_true, if_false, if_pos hb, masterHoldTold]
    rw [htold, masterHoldTold, State.putB_ang]
  · rw [angleCell_slews s cell age hm hb (by rw [masterHoldTold_angRun, hr]) (by rw [masterHoldTold_error]; exact he), syncAligned_ang,
      State.putS_ang, aheadSlewed_stamp, masterHoldTold, State.putB_ang]

/-- Settles O35: the echo sets, the marks and ANGLE cells that a master sends, what arrives at the master and at a node, the change of
the path, and a node ahead of the master, which is not set back. -/
theorem ringAngle : Obligations.RingAngle := by
  refine ⟨⟨?echoNone, ?echoEast, ?answer, ?reply, ?mark, ?idle, ?atMaster, ?switch, ?took, ?foreign, angleCell_master, angleCell_stopped,
      angleCell_ahead, ?atNode⟩,
    exec_echoRequestSend, exec_echoRequest, exec_echoReply, exec_markSend, exec_angleIdleSend, exec_angleMark, exec_markPathSwitch,
    exec_angle⟩
  case echoNone =>
    exact fun s h0 h1 => by rw [exec_echoRequestSend, echoSend_eq, echoSide_down s 0 h0, echoSide_down s 1 h1]
  case echoEast =>
    exact fun s u t h0 hu h1 => by rw [exec_echoRequestSend, echoSend_eq, echoSide_up s 0 u t h0 hu, echoSide_down _ 1 h1]
  case answer => exact fun s port token turn i hi hu => by rw [exec_echoRequest, echoAnswer_up s _ _ turn i hi hu]
  case reply =>
    intro s port low turn trip i t hi ht hlow asym v l w d hd
    rw [exec_echoReply, echoReply_answered s _ low.toNat turn trip i t hi ht (by rw [hlow, Nat.mod_eq_of_lt low.isLt]) w d hd]
  case mark => exact fun s elapsed hm hr hx => by rw [exec_markSend, markSend_index s elapsed hm hr hx]
  case idle => exact fun s hm hr => by rw [exec_angleIdleSend, angleIdleSend_idle s hm hr]
  case atMaster =>
    exact fun s port idx elapsed residence spacing turned i u ps hi hu hw hm hps => by
      rw [exec_angleMark, angleMark_master s i _ hi hu hw idx elapsed residence spacing turned hm u ps hps]
  case switch => exact fun s hs hm ho => by rw [exec_markPathSwitch, markSwitch_switches s hs hm ho]
  case took =>
    exact fun s port cell age i u hi hu hw hm hc => by rw [exec_angle, angleArrives_took s i port cell age hi hu hw hm u hc]
  case foreign =>
    refine fun s port cell age i hi hu hw hm hid => ⟨fun hc => ?_, fun hc => ?_⟩
    · rw [exec_angle, angleArrives_foreign s i port cell age hi hu hw hm hid, foreignMaster, if_pos hc]
    · rw [exec_angle, angleArrives_foreign s i port cell age hi hu hw hm hid, foreignMaster, if_neg (Bool.eq_false_iff.mp hc)]
  case atNode =>
    intro s port idx elapsed residence spacing turned i u units hi hu hw hm hl v hs
    rw [exec_angleMark, angleMark_otherSource s i _ hi hu hw idx elapsed residence spacing turned hm u units hl hs]

/-! ### Discovery and admission (R418, R419, R429, R441) -/

theorem discoverCell_counts (s : State) (port : RingPort) (cell : RingCell) (loopPs i : Nat) (hi : sideOfPort s (portNum port) = some i)
    (hu : sideUp s i = true) (hw : wrapped s i = false) (hm : isMaster s = false) (hp : payNat cell 0 1 = 0) :
    discoverCell s port cell loopPs = assignAddr (forwardOn (masterSeen s) (1 - i)
      (.cell { forwarded (masterSeen s) cell with
        kind := 1, payload := payload ([0, 0] ++ beBytes 2 (payNat cell 2 2 + 1) ++ beBytes 4 (payNat cell 4 4)) } true))
      (payNat cell 2 2) := by
  simp only [discoverCell, hi, hu, hw, hm, hp, Bool.not_true, Bool.or_self, Bool.false_eq_true, if_false, if_true]

/-- Both phases of discovery have one timeout (DEDUCED, log entry 107). -/
theorem discoveryTimeout_runs (s : State) (h : s.ring.disc.isSome = true) : discoveryTimeout s =
    finishC (ringEvt ((s.modRing fun r => { r with disc := none }).put F.RING_MSTATUS_DISC_BUSY 0) F.RING_EVT_DISC_DONE 13)
      (fun c => c.opcode == 0x0501) stAborted (refusalWords noWord 3) := if_pos h

theorem discoveryTimeout_none (s : State) (h : s.ring.disc = none) : discoveryTimeout s = s := if_neg (by rw [h]; decide)

theorem masterLost_seen (s : State) (hm : isMaster s = false) (h : s.flag F.RING_STATUS_MASTER_SEEN = true) :
    masterLost s = (ringEvt (s.put F.RING_STATUS_MASTER_SEEN 0) F.RING_EVT_MASTER_LOST 11).raiseOnce 84 0 1 0 0 := by
  simp only [masterLost, hm, h, Bool.false_eq_true, if_false, if_true]

theorem masterLost_unseen (s : State) (hm : isMaster s = false) (h : s.flag F.RING_STATUS_MASTER_SEEN = false) :
    masterLost s = s.raiseOnce 84 0 1 0 0 := by
  simp only [masterLost, hm, h, Bool.false_eq_true, if_false]

theorem masterLost_master (s : State) (hm : isMaster s = true) : masterLost s = s := if_pos hm

/-! ### Packets, events and telemetry (R424 to R426) -/

/-- R355: what a COMMAND cell does at a node with an address. -/
theorem commandCell_taken (s : State) (port : RingPort) (cell : RingCell) (u : State) (hc : receiveCell s port cell 3 = (u, true))
    (hm : isMaster u = false) (ha : ringAddr u ≠ 0xFFFF) : commandCell s port cell =
      if cell.src ≠ 0 then
        if bitOf (payNat cell 0 1) 7 then (u.addSat (F.CMD_Pp_ERR_BAD_FORMAT 1)).evtBit F.CMD_EVT_FOREIGN 201 else u
      else fragment u cell := by
  simp only [commandCell, hc, hm, if_neg ha, Bool.not_true, Bool.or_self, Bool.false_eq_true, if_false]

theorem replySend_sends (s : State) (i : OutItem) (rest : List OutItem) (hq : s.eng.outRing = i :: rest) (ho : mayOriginate s = true)
    (hc : canSend s = true) (hm : isMaster s = false) : replySend s =
      ((replyFragments 21 (itemBytes i).length 0 (itemBytes i)).foldl (fun s f => originate s 0 4 3 f) s).modEng fun e =>
        { e with outRing := rest } := by
  simp only [replySend, hq, ho, hc, hm, Bool.not_false, Bool.and_self, if_true]

theorem eventSend_sends (s : State) (e f : EventMsg) (rest : List EventMsg) (hq : s.evq = e :: f :: rest)
    (ho : mayOriginate s = true) (hc : canSend s = true) (hs : s.get F.SEC_STATE_SECURITY ≠ 3) : eventSend s =
      originate { s with evq := f :: rest } 0 5 4
        ([e.ev, 0] ++ stampBytes e.stamp ++ (below 8).flatMap fun g => beBytes 4 (s.reg (R.EVT_Gg_STATUS g))) := by
  simp only [eventSend, hq, ho, hc, beq_eq_false_iff_ne.mpr hs, Bool.not_true, Bool.or_self, List.isEmpty_cons, Bool.false_eq_true,
    if_false]
  rfl

theorem telemetry_sends (s : State) (he : s.flag F.RING_PUB_CFG_EN = true) (hg : s.flag F.RING_GRANT_PUB_OK = true)
    (ho : mayOriginate s = true) (hs : s.security ≠ secRetired) : telemetry s =
      (originate s 0 6 5
        (stampBytes s.ang.stamp ++ beBytes 2 s.ring.pubs ++ (below 12).flatMap fun k => beBytes 4 (pubValue s k))).modRing fun r =>
          { r with pubs := (r.pubs + 1) % 65536 } := by
  simp only [telemetry, he, hg, ho, bne_iff_ne.mpr hs, Bool.and_self, if_true]

/-! ### The bytes of a cell (R413) -/

theorem cellBody_length (c : RingCell) : (cellBody c).length = 8 + c.payload.length := by
  simp only [cellBody, List.length_append, beBytes_length, List.length_cons, List.length_nil, natBytes, List.length_map]

/-- Settles O36: discovery at a node and its wait (one timeout for both phases: DEDUCED, log entry 107), admission, the loss of the
master, the cells that carry packets, events and telemetry, and the code groups of a cell (their octets: PRESUMED, log entry 106). -/
theorem ringTraffic : Obligations.RingTraffic := by
  refine ⟨⟨?discover, ?timeout, ?noTimeout, ?admission, ?lost, ?master⟩,
    ⟨?command, ?reply, ?event, ?telemetry, fun c => ⟨rfl, cellBody_length c⟩, fun c good => rfl⟩,
    exec_discover, exec_discoveryTimeout, exec_command, exec_reply, exec_event, exec_telemetry, exec_admission, exec_masterLost⟩
  case discover =>
    exact fun s port cell loopPs i hi hu hw hm hp => by rw [exec_discover, discoverCell_counts s port cell loopPs i hi hu hw hm hp]
  case timeout => exact fun s h => by rw [exec_discoveryTimeout, discoveryTimeout_runs s h]
  case noTimeout => exact fun s h => by rw [exec_discoveryTimeout, discoveryTimeout_none s h]
  case admission =>
    refine fun s port cell u hc => ⟨fun hm => ?_, fun hm => ?_⟩
    · rw [exec_admission, cellRow_took s port cell 0xE _ u hc, admitCell, if_pos hm]
    · rw [exec_admission, cellRow_took s port cell 0xE _ u hc, admitCell, if_neg (Bool.eq_false_iff.mp hm)]
  case lost =>
    exact fun s hm => ⟨fun h => by rw [exec_masterLost, masterLost_seen s hm h], fun h => by rw [exec_masterLost, masterLost_unseen s hm h]⟩
  case master => exact fun s hm => by rw [exec_masterLost, masterLost_master s hm]
  case command =>
    refine fun s port cell u hc hm ha => ⟨fun hs => ?_, fun hs hb => ?_, fun hs hb => ?_⟩
    · rw [exec_command, commandCell_taken s port cell u hc hm ha, if_neg (show ¬ cell.src ≠ 0 from Classical.not_not.mpr hs)]
    · rw [exec_command, commandCell_taken s port cell u hc hm ha, if_pos (show cell.src ≠ 0 from hs), if_pos hb]
    · rw [exec_command, commandCell_taken s port cell u hc hm ha, if_pos (show cell.src ≠ 0 from hs), if_neg (Bool.eq_false_iff.mp hb)]
  case reply => exact fun s i rest hq ho hc hm => by rw [exec_reply, replySend_sends s i rest hq ho hc hm]
  case event => exact fun s e f rest hq ho hc hs => by rw [exec_event, eventSend_sends s e f rest hq ho hc hs]
  case telemetry => exact fun s he hg ho hs => by rw [exec_telemetry, telemetry_sends s he hg ho hs]

end Sys2Proof.Machine
end

section
/-! Sessions, fuses, HOLDUP and the JTAG port (spec/17_modes_security_debug.md R446, R447, R450, R451, R456 to R460, R468 to R470). -/

namespace Sys2Proof.Machine

/-! ### Sessions (R456 to R458) -/

/-- A security event changes no security state. -/
theorem secEvent_security (s : State) (f : Field) (bit : Nat) (h : R.SEC_STATE ∉ evtRegs (208 + bit)) (hf : R.SEC_STATE ≠ f.addr) :
    (secEvent s f bit).security = s.security := State.evtBit_get s f (208 + bit) F.SEC_STATE_SECURITY h hf

/-- R457: a session has ended, but for the work of SERVICE. -/
def sessionGone (s : State) : State :=
  ((secEvent (s.put F.SEC_STATE_SECURITY secSealed) F.SEC_EVT_ESC_END 6).put F.SEC_ESC_STATUS_REMAIN 0).modSec fun x => { x with ks := [] }

section
variable (s : State) (h : s.security = secEscorted)
include h

theorem endSession_idle (hm : (sessionGone s).mode ≠ mService) : endSession s = sessionGone s := by
  rw [endSession, if_pos h]
  exact if_neg hm

theorem endSession_service (hm : (sessionGone s).mode = mService) :
    endSession s = (abortCals (abortWork (sessionGone s) 8 false)).modSec fun x => { x with toGuard := true } := by
  rw [endSession, if_pos h]
  exact if_pos hm

theorem sessionTimeout_escorted : sessionTimeout s = endSession (secEvent s F.SEC_EVT_ESC_TIMEOUT 7) := if_pos h

theorem timedOut_escorted : (secEvent s F.SEC_EVT_ESC_TIMEOUT 7).security = secEscorted := by
  rw [secEvent_security s _ _ (by decide) (by decide), h]

end

/-! ### Fuses (R450, R451, R468) -/

/-- The job of the fuses has ended. -/
def fusesDone (s : State) : State := s.modSec fun x => { x with job := none }

section
variable (s : State) (weak : Nat)

theorem fuseBlowDone_seal (h : s.sec.job = some .seal) : fuseBlowDone s true weak =
    finishC ((becomeSealed (fusesDone s)).addSat F.HM_STATUS_WEAK weak) (fun c => c.opcode == 0x0603)
      (if weak == 0 then stOk else stFuseFail) (if weak == 0 then [] else refusalWords noWord 0) := by
  simp only [fuseBlowDone, h, jobOpcode, fusesDone]

/-- A RETIRE has no failed verification: weak bits are told, and the device is Retired all the same (DEDUCED, log entry 61). -/
theorem fuseBlowDone_retire (h : s.sec.job = some .retire) : fuseBlowDone s true weak =
    finishC (becomeRetired (fusesDone s)) (fun c => c.opcode == 0x0604)
      (if weak == 0 then stOk else stFuseFail) (if weak == 0 then [] else refusalWords noWord 0) := by
  simp only [fuseBlowDone, h, jobOpcode, fusesDone]

theorem fuseBlowDone_program (bytes : List Nat) (next target : Nat) (h : s.sec.job = some .program)
    (hi : s.sec.imageIn = some (bytes, next, target)) : fuseBlowDone s true weak =
      finishC ((secEvent (blowImageOpen (blowImage (fusesDone s))) F.SEC_EVT_FUSES_PROGRAMMED 11).modSec fun x =>
        { x with imageIn := none }) (fun c => c.opcode == 0x0205) stOk [BitVec.ofNat 32 bytes.length] := by
  have hin : (fusesDone s).sec.imageIn = some (bytes, next, target) := hi
  rw [fusesDone] at hin
  simp only [fuseBlowDone, h, hin, jobOpcode, fusesDone, if_true]

theorem fuseBlowDone_programFails (h : s.sec.job = some .program) : fuseBlowDone s false weak =
    finishC ((((fusesDone s).put F.HM_STATUS_FAIL 1).modSec fun x => { x with hmFail := true, imageIn := none }).raise 75 0 1 0 0)
      (fun c => c.opcode == 0x0205) stFuseFail (refusalWords noWord 0) := by
  simp only [fuseBlowDone, h, jobOpcode, fusesDone, Bool.false_eq_true, if_false]

end

/-- Settles O48: the three timers, and the outcomes of the three jobs of the fuses (a RETIRE with weak bits: DEDUCED, log entry 61). -/
theorem securityTimers : Obligations.SecurityTimers := by
  refine ⟨⟨?timeout, exec_challengeExpiry, exec_escortLockoutEnd, ?sealing, fun _ => rfl, ?retire, ?program, ?programFails⟩,
    exec_fuseBlowDone, exec_sessionTimeout⟩
  case timeout =>
    refine fun s h => ⟨fun hm => ?_, fun hm => ?_⟩
    · rw [exec_sessionTimeout, sessionTimeout_escorted s h, endSession_idle _ (timedOut_escorted s h) hm, sessionGone]
    · rw [exec_sessionTimeout, sessionTimeout_escorted s h, endSession_service _ (timedOut_escorted s h) hm, sessionGone]
  case sealing =>
    refine fun s weak h => ?_
    rw [exec_fuseBlowDone, fuseBlowDone_seal s weak h, fusesDone]
    simp only [beq_iff_eq]
  case retire =>
    refine fun s weak h => ?_
    rw [exec_fuseBlowDone, fuseBlowDone_retire s weak h, fusesDone]
    simp only [beq_iff_eq]
  case program =>
    exact fun s weak bytes next target h hi => by
      rw [exec_fuseBlowDone, fuseBlowDone_program s weak bytes next target h hi, fusesDone]
  case programFails => exact fun s weak h => by rw [exec_fuseBlowDone, fuseBlowDone_programFails s weak h, fusesDone]

/-! ### HOLDUP (R446, R447, R532) -/

/-- Whether auxiliary power is present is no part of the mode. -/
theorem put_huPresent_mode (s : State) (v : Nat) : (s.put F.SEC_STATE_HU_PRESENT v).mode = s.mode :=
  State.get_put_other s F.SEC_STATE_HU_PRESENT F.SEC_STATE_MODE v (by decide) (by decide)

theorem holdupEntry_enters (s : State) (blown : Nat) (hp : s.rst.phase ≠ .por) (hh : s.mode ≠ mHoldup) (hs : s.mode ≠ mStartup) :
    holdupEntry s blown = enterHoldup (s.put F.SEC_STATE_HU_PRESENT 0) blown := by
  simp only [holdupEntry, State.put_rst, put_huPresent_mode, hp, hh, hs, or_self, if_false]

theorem holdupEntry_startup (s : State) (blown : Nat) (hp : s.rst.phase ≠ .por) (hs : s.mode = mStartup) :
    holdupEntry s blown = { s.put F.SEC_STATE_HU_PRESENT 0 with rst := { s.rst with holdDet := true } } := by
  simp only [holdupEntry, State.put_rst, put_huPresent_mode, hp, hs, false_or, if_neg (show mStartup ≠ mHoldup by decide), if_true]

theorem holdupEntry_again (s : State) (blown : Nat) (hh : s.mode = mHoldup) :
    holdupEntry s blown = s.put F.SEC_STATE_HU_PRESENT 0 := by
  simp only [holdupEntry, put_huPresent_mode, hh, or_true, if_true]

section
variable (s : State)

theorem holdupOver_holds (hm : s.mode = mHoldup) (hr : s.flag F.SEQ_STATUS_HM_RUN = false) (hn : nvmHoldupDone s = true)
    (hp : s.flag F.SEC_STATE_HU_PRESENT = true) : holdupOver s = true := by
  simp only [holdupOver, hm, hr, hn, hp, beq_self_eq_true, Bool.not_false, Bool.and_self]

theorem holdupOver_fails (h : s.flag F.SEQ_STATUS_HM_RUN = true ∨ nvmHoldupDone s = false ∨ s.flag F.SEC_STATE_HU_PRESENT = false) :
    holdupOver s = false := by
  rcases h with h | h | h <;> simp only [holdupOver, h, Bool.not_true, Bool.and_false, Bool.false_and]

theorem holdupExit_leaves (h : holdupOver s = true) : holdupExit s =
    if (leaveHoldup s).rst.latched then takeReset (leaveHoldup s) 1 ((leaveHoldup s).flag F.RST_STATUS_HOLD_RSTN) else leaveHoldup s :=
  if_pos h

theorem holdupExit_stays (h : holdupOver s = false) : holdupExit s = s := if_neg (Bool.eq_false_iff.mp h)

end

/-- Settles O49: the loss of auxiliary power in each mode, its return, and the end of HOLDUP with and without a reset latched. -/
theorem holdUp : Obligations.HoldUp := by
  refine ⟨⟨?enters, ?startup, ?again, exec_huPowerReturn, ?leaves, ?stays⟩, exec_holdupEntry, exec_holdupExit⟩
  case enters => exact fun s blown hp hh hs => by rw [exec_holdupEntry, holdupEntry_enters s blown hp hh hs]
  case startup => exact fun s blown hp hs => by rw [exec_holdupEntry, holdupEntry_startup s blown hp hs]
  case again => exact fun s blown _ hh => by rw [exec_holdupEntry, holdupEntry_again s blown hh]
  case leaves =>
    refine fun s hm hr hn hp => ⟨fun hl => ?_, fun hl => ?_⟩
    · rw [exec_holdupExit, holdupExit_leaves s (holdupOver_holds s hm hr hn hp), leaveHoldup, if_neg (Bool.eq_false_iff.mp hl)]
    · rw [exec_holdupExit, holdupExit_leaves s (holdupOver_holds s hm hr hn hp), leaveHoldup, if_pos hl]
  case stays => exact fun s h => by rw [exec_holdupExit, holdupExit_stays s (holdupOver_fails s h)]

/-! ### The JTAG port (R460, R469, R470, log entry 71) -/

theorem tapReg_plain (s : State) : (s.sec.tap.instr = .bypass → tapReg s = .bypass) ∧ (s.sec.tap.instr = .idcode → tapReg s = .idcode) ∧
    (s.sec.tap.instr = .sample → tapReg s = .boundary) :=
  ⟨fun h => by simp only [tapReg, h], fun h => by simp only [tapReg, h], fun h => by simp only [tapReg, h]⟩

/-- R470: outside factory test mode no instruction acts on a ball. -/
theorem tapReg_field (s : State) (h : s.flag F.SEC_STATE_FACTORY = false) : ballDrive s = .function ∧
    (s.sec.tap.instr = .extest ∨ s.sec.tap.instr = .clamp ∨ s.sec.tap.instr = .highz → tapReg s = .bypass) := by
  refine ⟨if_neg (Bool.eq_false_iff.mp h), ?_⟩
  rintro (hi | hi | hi) <;> simp only [tapReg, hi, jtagFactory, h, Bool.false_eq_true, if_false]

theorem tapReg_factory (s : State) (h : s.flag F.SEC_STATE_FACTORY = true) :
    (s.sec.tap.instr = .extest → tapReg s = .boundary ∧ ballDrive s = .boundary) ∧
    (s.sec.tap.instr = .clamp → tapReg s = .bypass ∧ ballDrive s = .boundary) ∧
    (s.sec.tap.instr = .highz → tapReg s = .bypass ∧ ballDrive s = .highz) := by
  refine ⟨fun hi => ?_, fun hi => ?_, fun hi => ?_⟩ <;> simp only [tapReg, ballDrive, hi, jtagFactory, h, if_true, and_self]

theorem tapReg_priv (s : State) (k : Nat) (h : s.sec.tap.instr = .priv k) :
    (s.get F.SEC_STATE_DEBUG = 1 ∨ s.get F.SEC_STATE_DEBUG = 2 → tapReg s = .priv k) ∧
    (s.get F.SEC_STATE_DEBUG ≠ 1 → s.get F.SEC_STATE_DEBUG ≠ 2 → tapReg s = .bypass) := by
  simp only [tapReg, h]
  exact ⟨fun hd => if_pos hd, fun h1 h2 => if_neg (not_or.mpr ⟨h1, h2⟩)⟩

section
variable (s : State) (hh : s.sec.tap.held = false) (hp : s.rst.phase ≠ .por)
include hh hp

/-- TCK is heard: TRST_N is high, and power-on reset is over. -/
theorem tapHeard : ¬(s.sec.tap.held || s.rst.phase == .por) = true := by
  rw [hh, beq_eq_false_iff_ne.mpr hp]
  decide

theorem tckRise_heard (tms tdi : Bool) :
    tckRise s tms tdi = (tapWork s tdi).modTap fun t => tapSettled { t with state := tapNext t.state tms } := if_neg (tapHeard s hh hp)

theorem tck_shift (tms tdi : Bool) (h : s.sec.tap.state = .dr .shift) :
    (tckRise s tms tdi).sec.tap.dr = s.sec.tap.dr.drop 1 ++ [tdi] ∧
    (tckRise s tms tdi).sec.tap.state = (if tms then .dr .exit1 else .dr .shift) ∧
    (tckFall s).sec.tap.tdo = s.sec.tap.dr.head? := by
  have hw : tapWork s tdi = s.modTap fun t => { t with dr := t.dr.drop 1 ++ [tdi] } := by simp only [tapWork, h]
  have hf : (tckFall s).sec.tap.tdo = s.sec.tap.dr.head? := by
    rw [tckFall, if_neg (tapHeard s hh hp)]
    simp only [State.modTap, h]
  rw [tckRise_heard s hh hp, hw]
  cases tms <;> simp only [State.modTap, h, tapNext, tapSettled, hf, Bool.false_eq_true, if_false, if_true, reduceCtorEq, and_self]

theorem tck_updateIr (h : s.sec.tap.state = .ir .update) :
    (tckFall s).sec.tap.instr = tapInstr s.sec.tap.ir ∧ (tckFall s).sec.tap.tdo = none := by
  rw [tckFall, if_neg (tapHeard s hh hp)]
  simp only [State.modTap, h, and_self]

/-- A rising edge of TCK that is heard moves the state machine, and leaves what holds it. -/
theorem tckRise_moves (tms tdi : Bool) : (tckRise s tms tdi).sec.tap.state = tapNext s.sec.tap.state tms ∧
    (tckRise s tms tdi).sec.tap.held = false ∧ (tckRise s tms tdi).rst.phase ≠ .por ∧
    (tapNext s.sec.tap.state tms = .reset → (tckRise s tms tdi).sec.tap.instr = .idcode) := by
  obtain ⟨tap, n, hw, hstate, hheld, -⟩ := tapWork_frame s tdi
  rw [tckRise_heard s hh hp, hw]
  simp only [State.modTap, tapSettled, hstate]
  split
  next => exact ⟨rfl, hheld.trans hh, hp, fun _ => rfl⟩
  next hne => exact ⟨rfl, hheld.trans hh, hp, fun hr => absurd hr hne⟩

end

/-- IEEE 1149.1: five edges with TMS high reach Test-Logic-Reset from every state. -/
theorem tapNext_five (x : TapState) : tapNext (tapNext (tapNext (tapNext (tapNext x true) true) true) true) true = .reset := by
  cases x with
  | reset => rfl
  | idle => rfl
  | ir k => cases k <;> rfl
  | dr k => cases k <;> rfl

theorem tckRise_five (s : State) (a b c d e : Bool) (hh : s.sec.tap.held = false) (hp : s.rst.phase ≠ .por) :
    (tckRise (tckRise (tckRise (tckRise (tckRise s true a) true b) true c) true d) true e).sec.tap.state = .reset ∧
    (tckRise (tckRise (tckRise (tckRise (tckRise s true a) true b) true c) true d) true e).sec.tap.instr = .idcode := by
  obtain ⟨s1, h1, p1, -⟩ := tckRise_moves s hh hp true a
  obtain ⟨s2, h2, p2, -⟩ := tckRise_moves _ h1 p1 true b
  obtain ⟨s3, h3, p3, -⟩ := tckRise_moves _ h2 p2 true c
  obtain ⟨s4, h4, p4, -⟩ := tckRise_moves _ h3 p3 true d
  obtain ⟨s5, -, -, i5⟩ := tckRise_moves _ h4 p4 true e
  rw [s4, s3, s2, s1, tapNext_five] at s5 i5
  exact ⟨s5, i5 rfl⟩

theorem tckRise_frame (s : State) (tms tdi : Bool) :
    ∃ tap n, tckRise s tms tdi = { s with freeCount := n, sec := { s.sec with tap := tap } } := by
  rw [tckRise]
  split
  · exact ⟨s.sec.tap, s.freeCount, rfl⟩
  · obtain ⟨tap, n, hw, -⟩ := tapWork_frame s tdi
    exact ⟨_, n, by rw [hw]; rfl⟩

/-- TRST_N low: Test-Logic-Reset, and TCK is not heard. -/
theorem trstLow_holds (s : State) (tms tdi : Bool) : (trstLow s).sec.tap.state = .reset ∧ (trstLow s).sec.tap.instr = .idcode ∧
    tckRise (trstLow s) tms tdi = trstLow s ∧ tckFall (trstLow s) = trstLow s := by
  have hheld : ((trstLow s).sec.tap.held || (trstLow s).rst.phase == .por) = true := rfl
  exact ⟨rfl, rfl, if_pos hheld, if_pos hheld⟩

/-- Settles O50: the data register and the balls by instruction, the edges of TCK (the TAP of IEEE 1149.1: PRESUMED, log entry 71) and
TRST_N. -/
theorem debugPort : Obligations.DebugPort :=
  ⟨tapReg_plain, tapReg_field, tapReg_factory, tapReg_priv, fun s tms tdi hh hp h => tck_shift s hh hp tms tdi h, tck_updateIr,
    tckRise_five, tckRise_frame, trstLow_holds⟩

end Sys2Proof.Machine
end

section
/-! Power-on reset, DEVICE resets and start-up (spec/18_startup_reset.md R474 to R486, spec/17_modes_security_debug.md R448, R453,
spec/13_folio_ledger_nvm.md R349). -/

namespace Sys2Proof.Machine

/-! ### The sources of a reset (R474 to R476, R395, R482) -/

/-- R218: a cut archive write changes no reset state, no fuses and none of the commands that wait. -/
theorem archiveCut_kept (s : State) :
    (archiveCut s).rst = s.rst ∧ (archiveCut s).sec = s.sec ∧ (archiveCut s).pending = s.pending := by
  rw [archiveCut]
  split <;> simp only [State.put_rst, State.put_sec, State.put_pending, State.modMarg, syncArchive, State.setReg_rst, State.setReg_sec,
    State.setReg_pending, State.unstated, State.drawn_rst, State.drawn_sec, State.drawn_pending, and_self]

theorem porAssert_kept (s : State) : (porAssert s).rst = { State.reset.rst with low := s.rst.low } ∧
    (porAssert s).sec.image = s.sec.image ∧ (porAssert s).sec.sealed = s.sec.sealed ∧ (porAssert s).sec.retired = s.sec.retired ∧
    (porAssert s).pending = s.pending := by
  obtain ⟨hrst, hsec, hpending⟩ := archiveCut_kept s
  simp only [porAssert, hrst, hsec, hpending, and_self]

/-- R476: the level of RESET_N is low. -/
def resetHeldLow (s : State) : State := s.modRst fun r => { r with low := true }

theorem resetNLow_por (s : State) (h : s.rst.phase = .por) : resetNLow s = resetHeldLow s := if_pos h

theorem resetNLow_holdup (s : State) (h : s.rst.phase ≠ .por) (hm : (resetHeldLow s).mode = mHoldup) :
    resetNLow s = (resetHeldLow s).modRst fun r => { r with latched := true } := (if_neg h).trans (if_pos hm)

theorem resetNLow_takes (s : State) (h : s.rst.phase ≠ .por) (hm : (resetHeldLow s).mode ≠ mHoldup) :
    resetNLow s = takeReset (resetHeldLow s) 1 ((resetHeldLow s).flag F.RST_STATUS_HOLD_RSTN) := (if_neg h).trans (if_neg hm)

/-- R395: the RESET command has been taken up. -/
def resetTakenUp (s : State) : State := s.modEng fun e => { e with resetPend := false }

theorem commandedReset_pending (s : State) (h : s.eng.resetPend = true) : commandedReset s =
    if (resetTakenUp s).mode = mHoldup then resetTakenUp s
    else takeReset (resetTakenUp s) 2 ((resetTakenUp s).flag F.RST_STATUS_HOLD_CMD) := if_pos h

/-- R482: GO stands in bit 31, above the side and the pair. -/
theorem bitOf_go (sideB : Bool) (pair : Fin 8) : bitOf (2 ^ 31 + (if sideB then 256 else 0) + pair) 31 = true := by
  have hpair : pair.val < 8 := pair.isLt
  have hbit : (2 ^ 31 + (if sideB then 256 else 0) + pair.val) / 2 ^ 31 = 1 := by
    cases sideB <;> simp only [Bool.false_eq_true, if_false, if_true] <;> omega
  rw [bitOf, hbit]
  rfl

theorem hookRstWdn_go (t : State) (old : Nat) (sideB : Bool) (pair : Fin 8) :
    regHook t R.RST_WDN old (2 ^ 31 + (if sideB then 256 else 0) + pair) = (resetOrder t).1 := by
  rw [regHook_rstWdn, if_pos (bitOf_go sideB pair)]

theorem resetToken_accepted (s : State) (cell : RingCell) (hk : payNat cell 0 1 = 3) (h : tokenReason s cell = 0) :
    resetToken s cell = takeReset (acceptToken s cell) 3 (s.flag F.RST_STATUS_HOLD_WDN) := by
  rw [resetToken, if_neg (Classical.not_not.mpr hk)]
  exact if_neg (Classical.not_not.mpr h)

theorem resetToken_rejected (s : State) (cell : RingCell) (hk : payNat cell 0 1 = 3) (h : tokenReason s cell ≠ 0) :
    resetToken s cell = rejectToken s (tokenReason s cell) := by
  rw [resetToken, if_neg (Classical.not_not.mpr hk)]
  exact if_pos h

/-- Settles O51: POR, which keeps the NVM (what it leaves of work in progress: DEDUCED, log entry 21, and of a cut archive write: DESIGN
CHOICE, log entry 102) and the fuses; RESET_N, latched in HOLDUP; the RESET command, dropped there (DEDUCED, log entry 20); and the
Warden's order and token. -/
theorem resetSources : Obligations.ResetSources := by
  refine ⟨⟨?por, ?release, ?lowPor, ?low, exec_resetNRelease, ?command, ?order, ?token⟩,
    exec_porRelease, exec_resetNAssert, exec_rstWdnGo, exec_resetToken, exec_commandedResetStart⟩
  case por =>
    intro s
    obtain ⟨hrst, himage, hsealed, hretired, hpending⟩ := porAssert_kept s
    exact ⟨exec_porAssert s, hrst, rfl, rfl, rfl, himage, hsealed, hretired, hpending⟩
  case release => exact fun s h => by rw [exec_porRelease, porRelease, if_pos h]
  case lowPor => exact fun s h => by rw [exec_resetNAssert, resetNLow_por s h, resetHeldLow]
  case low =>
    refine fun s h => ⟨fun hm => ?_, fun hm => ?_⟩
    · rw [exec_resetNAssert, resetNLow_holdup s h hm, resetHeldLow]
    · rw [exec_resetNAssert, resetNLow_takes s h hm, resetHeldLow]
  case command =>
    refine fun s h => ⟨fun hm => ?_, fun hm => ?_⟩
    · rw [exec_commandedResetStart, commandedReset_pending s h, resetTakenUp, if_neg hm]
    · rw [exec_commandedResetStart, commandedReset_pending s h, resetTakenUp, if_pos hm]
  case order =>
    exact fun s p sideB pair h =>
      write_row (fun t => (resetOrder t).1) (exec_rstWdnGo s p sideB pair) h (hookRstWdn_go · _ sideB pair)
  case token =>
    refine fun s port cell u hc hl hk => ⟨fun h => ?_, fun r hr h => ?_⟩
    · rw [exec_resetToken, twinRow_took s port cell 0xB _ u hc hl, resetToken_accepted u cell hk h]
    · rw [exec_resetToken, twinRow_took s port cell 0xB _ u hc hl, resetToken_rejected u cell hk (by rw [hr]; exact h), hr, rejectToken]

/-! ### A DEVICE reset (R478 to R481, R486) -/

theorem heldNow_up (s : State) (held : Bool) (h : s.rst.phase = .up) : heldNow s held = held := by
  rw [heldNow, h]
  cases held <;> rfl

/-- R486: a start-up that holds nothing makes a reset a dropped one (DEDUCED, log entry 15). -/
theorem heldNow_startup (s : State) (held : Bool) (hu : s.rst.phase ≠ .up) (hh : s.rst.held = false)
    (hp : s.rst.power = true → s.rst.phase ≠ .engine) : heldNow s held = false := by
  have hengine : (s.rst.power && s.rst.phase == .engine) = false := by
    rw [Bool.and_eq_false_iff, beq_eq_false_iff_ne]
    exact (Bool.eq_false_or_eq_true s.rst.power).elim (fun h => .inr (hp h)) .inl
  rw [heldNow, beq_eq_false_iff_ne.mpr hu, hh, hengine, Bool.or_self, Bool.or_self, Bool.and_false]

/-- R478: what every reset does first. -/
def resetNoted (s : State) (cause : Nat) (held : Bool) : State :=
  if (forceDebugOff (recordReset s cause held)).security = secEscorted then
    (forceDebugOff (recordReset s cause held)).put F.SEC_STATE_SECURITY secSealed
  else forceDebugOff (recordReset s cause held)

/-- R478, R481: the registers and parts that it resets at once, before its work. -/
def resetApplied (s : State) (held : Bool) : State :=
  (syncNvm (abandonNvm (clearParts (clearRegs s true held) held))).modRst fun r =>
    { r with phase := .work, held := held, power := false, latched := false, holdDet := false }

theorem takeReset_held (s : State) (cause : Nat) (h : s.rst.phase = .up) :
    takeReset s cause true = resetApplied (resetNoted s cause true) true := by
  simp only [takeReset, heldNow_up s true h, h, resetApplied, resetNoted, bne_self_eq_false, beq_self_eq_true, Bool.and_false,
    Bool.false_and, if_true]

theorem takeReset_dropped (s : State) (cause : Nat) (h : s.rst.phase = .up) : takeReset s cause false =
    resetApplied ((clearTwin (hallmarkStart (resetNoted s cause false))).put F.SEC_STATE_MODE mStartup) false := by
  simp only [takeReset, heldNow_up s false h, h, resetApplied, resetNoted, bne_self_eq_false, beq_self_eq_true, Bool.and_false,
    Bool.false_and, Bool.false_eq_true, if_false, if_true]

/-- R479: the fuse read is next, and the NVM waits for the configuration load. -/
def resetFinished (s : State) : State :=
  syncNvm ((s.modNvm fun v => { v with ready := false }).modRst fun r => { r with phase := .fuses })

theorem deviceResetDone_done (s : State) (hp : s.rst.phase = .work) (hr : s.flag F.SEQ_STATUS_HM_RUN = false)
    (hn : resetNvmDone s = true) : deviceResetDone s =
      resetFinished (if s.rst.held then clearRegs s true true else clearRails (clearRegs s false false)) :=
  if_pos ⟨hp, by rw [hr]; rfl, hn⟩

/-- Settles O52: what a held and a dropped reset do at once, what a start-up makes of a held one (DEDUCED, log entry 15), the parts that
are reset and kept (beyond R478: DEDUCED, log entry 16), and the end of the work. -/
theorem deviceResets : Obligations.DeviceResets := by
  refine ⟨⟨?held, ?dropped, fun s held hu hh hp => heldNow_startup s held hu hh hp, ?parts, ?done⟩, exec_deviceResetNvmDone⟩
  case held => exact fun s cause h => by rw [takeReset_held s cause h, resetApplied, resetNoted]
  case dropped => exact fun s cause h => by rw [takeReset_dropped s cause h, resetApplied, resetNoted]
  case parts => exact fun s held => ⟨rfl, rfl, rfl, rfl, rfl, rfl, rfl, rfl, rfl, rfl⟩
  case done =>
    refine fun s hp hr hn => ⟨fun hh => ?_, fun hh => ?_⟩
    · rw [exec_deviceResetNvmDone, deviceResetDone_done s hp hr hn, if_pos hh, resetFinished]
    · rw [exec_deviceResetNvmDone, deviceResetDone_done s hp hr hn, if_neg (Bool.eq_false_iff.mp hh), resetFinished]

/-! ### Start-up (R477, R448, R453, R349, R483) -/

/-- R477: the fuses are due, and RESET_N holds nothing up. -/
theorem fusesDue (s : State) (hp : s.rst.phase = .fuses) (hl : s.rst.low = false) :
    ¬(s.rst.phase ≠ .fuses ∨ s.rst.low = true) := by
  rw [hp, hl]
  decide

section
variable (s : State) (huLow : Bool) (hh : s.rst.held = false) (ha : s.flag F.RST_STATUS_AUTO_EN = false)
include hh ha

theorem firstMode_startup : firstMode s huLow =
    if s.rst.holdDet || huLow then enterHoldup (s.when huLow (·.put F.SEC_STATE_HU_PRESENT 0)) 0
    else setMode s (if s.security = secUnsealed then mCommission else mQuiescent) := by
  simp only [firstMode, hh, ha, Bool.false_eq_true, if_false]

theorem firstMode_low (hl : huLow = true) : firstMode s huLow = enterHoldup (s.put F.SEC_STATE_HU_PRESENT 0) 0 := by
  rw [firstMode_startup s huLow hh ha, hl, Bool.or_true, if_pos rfl]
  rfl

theorem firstMode_detected (hd : s.rst.holdDet = true) (hl : huLow = false) : firstMode s huLow = enterHoldup s 0 := by
  rw [firstMode_startup s huLow hh ha, hd, hl, Bool.true_or, if_pos rfl]
  rfl

theorem firstMode_powered (hd : s.rst.holdDet = false) (hl : huLow = false) :
    firstMode s huLow = setMode s (if s.security = secUnsealed then mCommission else mQuiescent) := by
  rw [firstMode_startup s huLow hh ha, hd, hl]
  exact if_neg (by decide)

end

theorem endAuto_pending (s : State) (result : Nat) (h : s.flag F.RST_STATUS_AUTO_PEND = true) :
    endAuto s result = (s.put F.RST_STATUS_AUTO_PEND 0).put F.RST_STATUS_AUTO_RESULT result := if_pos h

/-- R483: the Quires that start of themselves. -/
def autoQuires (s : State) : List Nat := quires.filter fun q => s.flag (F.QUIREq_CFG_AUTO q)

theorem autoStart_due (s : State) (hp : s.flag F.RST_STATUS_AUTO_PEND = true) (hd : autoDue s = true) (hm : s.mode = mQuiescent)
    (hr : twinRole s < 2) (ha : s.flag F.RST_STATUS_AUTO_ANGLE = false ∨ s.locked = true) (hu : s.security ≠ secUnsealed)
    (ht : s.security ≠ secRetired) : autoStart s =
      if (autoQuires s).any fun q => startRefused s q false then endAuto s 2 else (autoQuires s).foldl startUp (endAuto s 1) := by
  have hangle : (!s.flag F.RST_STATUS_AUTO_ANGLE || s.locked) = true := by
    rw [Bool.or_eq_true, Bool.not_eq_true']
    exact ha
  have hstate : ¬(s.security == secUnsealed || s.security == secRetired) = true := by
    rw [beq_eq_false_iff_ne.mpr hu, beq_eq_false_iff_ne.mpr ht]
    decide
  simp only [autoStart, hp, hd, hm, hr, hangle, beq_self_eq_true, decide_true, Bool.and_self, if_true]
  exact if_neg hstate

theorem autoQuires_none (s : State) (h : ∀ q ∈ quires, s.flag (F.QUIREq_CFG_AUTO q) = true → startRefused s q false = false) :
    ((autoQuires s).any fun q => startRefused s q false) = false := by
  refine List.any_eq_false.mpr fun q hq => Bool.eq_false_iff.mp ?_
  obtain ⟨hmem, hauto⟩ := List.mem_filter.mp hq
  exact h q hmem hauto

theorem autoQuires_some (s : State) (h : ∃ q ∈ quires, s.flag (F.QUIREq_CFG_AUTO q) = true ∧ startRefused s q false = true) :
    ((autoQuires s).any fun q => startRefused s q false) = true := by
  obtain ⟨q, hmem, hauto, hrefused⟩ := h
  exact List.any_eq_true.mpr ⟨q, List.mem_filter.mpr ⟨hmem, hauto⟩, hrefused⟩

/-- Settles O53: the fuse read (HU_PRESENT: DEDUCED, log entry 66; the collector's restart: log entry 18; sources 73 and 74 at every fuse
read: log entry 24), the configuration load with its first mode, the engine's start (the request of admission: log entry 17; the
re-lock at power-up: log entry 64, all DEDUCED), and the auto-start. -/
theorem startUp' : Obligations.StartUp := by
  refine ⟨⟨?fuses, ?load, ?mode, ?engine, ?auto⟩, exec_fuseRead, exec_configLoad, exec_autoStart, exec_engineStart⟩
  case fuses => exact fun s weak test hp hl => by rw [exec_fuseRead, fuseRead, if_neg (fusesDue s hp hl)]
  case load =>
    exact fun s huLow hp hh => by rw [exec_configLoad, configLoad, if_neg (Classical.not_not.mpr hp), if_neg (Bool.eq_false_iff.mp hh)]
  case mode =>
    refine fun s huLow hh ha => ⟨firstMode_low s huLow hh ha, firstMode_detected s huLow hh ha, fun hd hl hs => ?_, fun hd hl hs => ?_⟩
    · rw [firstMode_powered s huLow hh ha hd hl, if_pos hs]
    · rw [firstMode_powered s huLow hh ha hd hl, if_neg hs]
  case engine =>
    refine fun s hp => ⟨fun hr => ?_, fun hr => ?_⟩
    · rw [exec_engineStart, engineStart, if_neg (Classical.not_not.mpr hp)]
      exact congrArg (fun t => Host.Outcome.next (settle s t)) (if_pos hr)
    · rw [exec_engineStart, engineStart, if_neg (Classical.not_not.mpr hp)]
      exact congrArg (fun t => Host.Outcome.next (settle s t)) (if_neg hr)
  case auto =>
    refine fun s hp hd hm hr ha hu ht => ⟨fun h => ?_, fun h => ?_⟩
    · rw [exec_autoStart, autoStart_due s hp (decide_eq_true hd) hm hr ha hu ht, autoQuires_none s h, if_neg Bool.false_ne_true,
        endAuto_pending s 1 hp, autoQuires]
    · rw [exec_autoStart, autoStart_due s hp (decide_eq_true hd) hm hr ha hu ht, autoQuires_some s h, if_pos rfl,
        endAuto_pending s 2 hp]

end Sys2Proof.Machine
end
